-- ==== Sys2Proof/Word.lean ====
section
/-!
DEFINITION. The word types of Helgen and their plainest arithmetic (R31, R44).
Registers of a thread are 64 bits, vectors 512 bits, a cache line 64 bytes.
-/
namespace Sys2Proof

/-- A byte of memory. -/
abbrev Byte := BitVec 8
/-- A dword: a g register, a mask, an address while it is computed. -/
abbrev Dword := BitVec 64
/-- A vector register, and a line of memory with byte 0 in bits [7:0] (R252). -/
abbrev Vec := BitVec 512

/-- The number `n` as a dword, modulo 2^64. -/
def dw (n : Nat) : Dword := BitVec.ofNat 64 n

end Sys2Proof
end

