-- ==== Sys2Proof/Config.lean ====
section
/-!
DEFINITION. What one implementation fixes and the free values (opaque: nothing in Lean can
evaluate one). Each free value is named in a row of notes/assumptions.
-/
namespace Sys2Proof.Config

/-- Free values: the `n`-th value that the specification leaves open, as a natural number.
`n` is State.free, which the step advances at each use. -/
opaque freeNat : Nat → Nat

/-- The `n`-th open value as `w` bits. -/
def freeBits (w n : Nat) : BitVec w := BitVec.ofNat w (freeNat n)

/-- Dword `i` of a root port's configuration header and capabilities where the specification gives no
content: an open value, fixed for the part (R378, notes/assumptions/36.md). -/
opaque rpHeader : Nat → Nat
/-- Byte offset of the DPC Status register in a root port's configuration space: open (R388). -/
opaque dpcStatusOff : Nat
/-- Byte offset of Root Control in a root port's configuration space: open (R381). -/
opaque rootControlOff : Nat

/-- Dword `i` of the endpoint function's configuration space where the specification gives no content: an open value
(R392, notes/assumptions/36.md). -/
opaque epHeader : Nat → Nat
/-- Byte offset of Device Control in the endpoint function's configuration space: open (R392, R396). -/
opaque epDevCtlOff : Nat

/-- The SHA-384 hash of Menkole's signing key, fused into key-hash slot 0 at manufacture: open (R503). -/
opaque slot0Hash : Nat

/-- INFO of an error-log entry whose rule says what the entry names and not where: an open function of what
is named, its first element numbering the kind of event (R514, notes/assumptions/44.md). -/
opaque logInfo : List Nat → Nat

/-- The 64-bit secret that draw `n` from Easel's random source gives core `c`: open (R170). -/
opaque btbSecret (c n : Nat) : Dword

/-- The branch target buffer set of a fetch block, its address hashed with a secret, zero for U and S entries: open (R170,
notes/assumptions/76.md). -/
opaque btbHash (secret : Dword) (block : Nat) : Nat

/-- The set hash of the L2 TLB over page number, page size and ASID: open (R202, notes/assumptions/76.md). -/
opaque tlbHash (page size asid : Nat) : Nat

/-- The set of an IOTLB entry over domain, PSID, page number and page size: open (R213, notes/assumptions/85.md). -/
opaque iotlbHash (domain psid page size : Nat) : Nat

/-- What a byte of DRAM that nothing has written reads as (DESIGN CHOICE, notes/assumptions/3.md). -/
def dramReset : Byte := 0

end Sys2Proof.Config
end

