-- ==== Sys2Proof/Machine/Tab.lean ====
section
/-!
DEFINITION. Sparse tables: lists of (key, value) pairs in rising key order. A key that is not
listed reads as the default its reader names. `Tab.put` lists a key; `Tab.del` unlists it.
-/
namespace Sys2Proof.Machine

/-- A sparse table over natural-number keys. -/
abbrev Tab (α : Type) := List (Nat × α)

namespace Tab
variable {α : Type}

/-- The entry of key `k`, if listed. -/
def find? : Tab α → Nat → Option α
  | [], _ => none
  | (j, v) :: t, k => if j = k then some v else find? t k

/-- The value at `k`, or `d` when `k` is not listed. -/
def get (d : α) (t : Tab α) (k : Nat) : α :=
  match find? t k with
  | some v => v
  | none => d

/-- Insert before the first larger key. -/
def ins (k : Nat) (v : α) : Tab α → Tab α
  | [] => [(k, v)]
  | (j, w) :: t => if k < j then (k, v) :: (j, w) :: t else (j, w) :: ins k v t

/-- Unlist a key. -/
def del (t : Tab α) (k : Nat) : Tab α := t.filter (fun p => p.1 ≠ k)

/-- List `k` with value `v`. -/
def put (t : Tab α) (k : Nat) (v : α) : Tab α := ins k v (del t k)

/-- Apply `f` to the value at `k` (default `d`). -/
def upd (d : α) (t : Tab α) (k : Nat) (f : α → α) : Tab α := put t k (f (get d t k))

/-- Keys strictly rising: the canonical form. -/
def sorted : Tab α → Bool
  | [] => true
  | [_] => true
  | (j, _) :: (k, w) :: t => decide (j < k) && sorted ((k, w) :: t)

/-- List each pair of `l`, first to last. -/
def putAll (t : Tab α) (l : List (Nat × α)) : Tab α := l.foldl (fun t p => put t p.1 p.2) t

end Tab

end Sys2Proof.Machine
end

