-- ==== Sys2Proof/Machine/CoreTypes.lean ====
section
/-!
DEFINITION. State of threads, cores, slices and memory as plain data: the register files of R31, the
interrupt controllers of R150, translation entries, caches, the home directory and its trackers, the
messages in flight, the channels and the persistent write buffers.
-/
namespace Sys2Proof.Machine

/-- Privilege levels (R38). -/
inductive Level where | u | s | h | f
  deriving DecidableEq, Repr

def Level.code : Level → Nat
  | .u => 0 | .s => 1 | .h => 2 | .f => 3

def Level.ofCode (n : Nat) : Level :=
  match n % 4 with
  | 0 => .u | 1 => .s | 2 => .h | _ => .f

/-- The state of a thread as CORE_THSTAT reports it (R185). -/
inductive RunSt where | running | waiting | parked | halted | easel | inReset
  deriving DecidableEq, Repr

def RunSt.code : RunSt → Nat
  | .running => 0 | .waiting => 1 | .parked => 2 | .halted => 3 | .easel => 4 | .inReset => 5

/-- The next instruction is a delay slot of a transfer to `dest` (R132). `fresh`: RETX with DS = 1
put it there, so the boundary before it is one at which an event may be taken (R137, R148). -/
structure Slot where
  dest : Dword
  fresh : Bool
  deriving DecidableEq, Repr

/-- An access of a thread that another unit answers later: a control window, a PCIe window or a home
in another socket. `ans` is the answer once it has arrived: data, poison, status. `size` is the bytes
read; 64 a line, 65 the write of a line, 66 a CMO of a line. -/
structure DevAcc where
  addr : Nat
  size : Nat
  /-- its answer is not to be used: the access is made again (R206) -/
  stale : Bool
  ans : Option (Vec × BitVec 4 × Nat)
  deriving DecidableEq, Repr

/-- One hardware thread (R31). -/
structure Thr where
  /-- g1 to g31; g0 is never stored -/
  g : Tab Dword
  /-- v0 to v31 -/
  v : Tab Vec
  /-- m1 to m7; m0 is never stored -/
  m : Tab Dword
  /-- c0 to c7; bit 0 is c0 and reads true -/
  c : BitVec 8
  /-- system registers by number (R59): FPCSR, the loop registers, LACT, the banks, the roots -/
  sr : Tab Dword
  level : Level
  /-- guest mode, V of R39 -/
  vm : Bool
  pc : Dword
  /-- the entry point of the fetch block that holds the pc (R169) -/
  blk : Dword
  slot : Option Slot
  run : RunSt
  /-- WAIT is to retire: Easel took and returned control (R93) -/
  wake : Bool
  instret : Nat
  /-- MACHINE_CHECKs pending, by the Easel log number of their record (R145, R513) -/
  mce : List Nat
  /-- accesses of the instruction in progress that another unit answers -/
  dev : List DevAcc
  /-- TLBM requests of this thread not yet in effect everywhere: request number and core (R96) -/
  tlbm : List (Nat × Nat)
  /-- IPIs of this thread at other sockets, not yet answered (R158) -/
  ipis : Nat
  deriving DecidableEq, Repr

/-- State of a thread in reset (R36, R37). -/
def Thr.reset : Thr :=
  { g := [], v := [], m := [], c := 1, sr := [], level := .f, vm := false, pc := 0, blk := 0, slot := none,
    run := .inReset, wake := false, instret := 0, mce := [], dev := [], tlbm := [], ipis := 0 }

/-- Configuration of one interrupt vector (ICCFG, R151). -/
structure IcVec where
  vmid : Nat
  d : Bool
  g : Bool
  lv : Level
  pend : Bool
  en : Bool
  deriving DecidableEq, Repr

def IcVec.reset : IcVec := { vmid := 0, d := false, g := false, lv := .f, pend := false, en := false }

/-- The interrupt controller of a thread (R150): its vectors, and the registers of its views by
system register number. -/
structure Ic where
  vec : Tab IcVec
  reg : Tab Dword
  deriving DecidableEq, Repr

def Ic.reset : Ic := { vec := [], reg := [] }

/-- A line of 64 bytes with one poison bit for each 16-byte chunk (R234). -/
structure Line where
  data : Vec
  pois : BitVec 4
  deriving DecidableEq, Repr

def Line.zero : Line := { data := 0, pois := 0 }

/-- Memory types (R194), strongest last. -/
inductive MemType where | cacheable | wc | device
  deriving DecidableEq, Repr

/-- An entry of the merging buffer, or a write of a retired store that waits for one in the store queue (R222). The
writes of one instruction share `seq`. -/
structure MbEnt where
  thread : Nat
  line : Nat
  ty : MemType
  data : Vec
  mask : Dword
  seq : Nat
  /-- address and log2 of the width of a device store (R541), and the level of the thread that stored (R544) -/
  pa : Nat
  sz : Nat
  lvl : Nat
  vmid : Nat
  /-- its write to memory is on its way: it takes no more bytes and leaves when GNT and VIS, or PACK, have come (R225) -/
  sent : Bool
  deriving DecidableEq, Repr

/-- Which lines a set-associative cache without data of its own holds: the way of each line, and the replacement tree
of each set that has been used (R218). -/
structure TagCache where
  tags : Tab Nat
  tree : Tab Nat
  deriving DecidableEq, Repr

def TagCache.empty : TagCache := { tags := [], tree := [] }

/-- L2 line states (R284); I is "not held". -/
inductive L2St where | m | o | e | s
  deriving DecidableEq, Repr

structure L2Line where
  st : L2St
  line : Line
  way : Nat
  /-- the use-once deferral of a won line is in force: the access that asked for it has not been performed (R303) -/
  held : Bool
  /-- the core's CYCLE when the line was won, and the core cycles of its timed hold (R304); 0, none -/
  won : Nat
  hold : Nat
  /-- the line was won from another holder, for an access not yet performed (R299) -/
  foreign : Bool
  deriving DecidableEq, Repr

/-- Which TLB of a core holds an entry (R202). -/
inductive TlbPlace where
  /-- the L1 instruction TLB -/
  | instr
  /-- the L1 data TLB -/
  | data
  /-- the L2 TLB -/
  | second
  deriving DecidableEq, Repr

/-- A TLB entry (R202, R203). A stage-2 entry used by guest walks has `s2 := true`. -/
structure TlbEnt where
  place : TlbPlace
  s2 : Bool
  vm : Bool
  vmid : Nat
  asid : Nat
  glob : Bool
  va : Nat
  size : Nat
  pa : Nat
  /-- UR UW UX SR SW SX A D -/
  perm : BitVec 8
  mt : Nat
  /-- permission bits of the stage-2 leaf of a guest's final translation, all ones otherwise -/
  perm2 : BitVec 8
  deriving DecidableEq, Repr

/-- The kinds of transfer that the branch target buffer records (R169). -/
inductive BtbKind where | jmp | call | jr | callr
  deriving DecidableEq, Repr

/-- A branch target buffer entry (R169, R170): its set, its tag (the address of the fetch block's entry point), the word
offset and kind of the transfer, and its target, combined with the level's secret at H and F. -/
structure BtbEnt where
  level : Level
  thread : Nat
  set : Nat
  tag : Dword
  off : Nat
  kind : BtbKind
  target : Dword
  deriving DecidableEq, Repr

/-- An entry of a return-address stack (R171): the level that pushed it, and the address, combined with the level's
secret at H and F. -/
structure RetEnt where
  level : Level
  addr : Dword
  deriving DecidableEq, Repr

/-- The body that a loop buffer captures (R172): `got` marks the words fetched so far, `run` counts the words that the
pass under way has fetched in order from START, `full` that a pass has fetched every word, `deliver` that the body is
fetched from the buffer; `lines` are the physical lines that captured words came from (R173). -/
structure LoopCap where
  start : Dword
  fin : Dword
  level : Level
  loop : Nat
  got : Dword
  run : Nat
  full : Bool
  lines : List Nat
  deliver : Bool
  deriving DecidableEq, Repr

/-- A stream that a hardware prefetcher tracks (R243): of the L1 stride prefetcher by thread and instruction address, with the
address last accessed and the step to it; of the L2 stream prefetcher the line last accessed and the direction. -/
structure PfStream where
  thread : Nat
  pc : Dword
  last : Nat
  step : Int
  deriving DecidableEq, Repr

/-- State of one core besides its threads. -/
structure CoreSt where
  mb : List MbEnt
  /-- the store queue: writes of retired stores that wait for the merging buffer, oldest first (R222) -/
  sq : List MbEnt
  l1d : TagCache
  l1i : TagCache
  l2 : Tab L2Line
  /-- the replacement tree of each L2 set (R218) -/
  l2p : Tab Nat
  /-- write-back buffers: lines on their way to their homes (R292) -/
  wbuf : Tab L2Line
  /-- lines whose write-back or clean notice has not been taken by the home (R292) -/
  wbout : List Nat
  /-- retired L2 ways (R241) -/
  l2ret : List Nat
  /-- outstanding requests of the L2: line and whether ownership was asked -/
  miss : List (Nat × Bool)
  tlb : List TlbEnt
  btb : List BtbEnt
  ras0 : List RetEnt
  ras1 : List RetEnt
  /-- which draws from Easel's random source the secrets of H and F are (R170) -/
  secretH : Nat
  secretF : Nat
  cap0 : Option LoopCap
  cap1 : Option LoopCap
  /-- contention predictor: by set the tags and counters of its ways, most recently used first (R299) -/
  pred : Tab (List (Nat × Nat))
  /-- streams of the L1 and the L2 prefetcher, most recently used first (R243) -/
  pf1 : List PfStream
  pf2 : List PfStream
  /-- the line held by the Plumb fetch buffer (R180) -/
  fbuf : Option Nat
  /-- persistent writes of the core whose PACK is outstanding (R316) -/
  pwt : List Nat
  /-- a reset or switch-off is draining the core (R309) -/
  draining : Bool
  /-- CYCLE: core-island cycles since core reset (R59) -/
  cycle : Nat
  /-- memory accesses that the instruction in progress of a Plumb core has made (R181): the model's own -/
  acc : Nat
  /-- those of them that are not made again when the instruction waits: the model's own -/
  accKept : Nat
  deriving DecidableEq, Repr

def CoreSt.reset : CoreSt :=
  { mb := [], sq := [], l1d := TagCache.empty, l1i := TagCache.empty, l2 := [], l2p := [], wbuf := [], wbout := [], l2ret := [], miss := [], tlb := [], btb := [],
    ras0 := [], ras1 := [], secretH := 0, secretF := 1, cap0 := none, cap1 := none, pred := [], pf1 := [], pf2 := [],
    fbuf := none, pwt := [], draining := false, cycle := 0, acc := 0,
    accKept := 0 }

/-- Message codes of R287. -/
inductive Opc where
  | rds | rdo | upg | own | rdna | wrna | wrnap | wbm | wbc | amof | pwt
  | cmoc | cmof | cmoi | cmoii | drd | dwr | mrd | mwr | mpwt
  | snps | snpo | snpi | snpna | snpc | snpf | snpii | snpbi | tinv | ipi
  | ds | de | dm | dna | gnt | acki | acks | acko | acke | sdat | cack | cmp | amor | pack | vis | drdr
  deriving DecidableEq, Repr

/-- An agent on the fabric: socket, tile and initiator (R251, R277). -/
structure Agent where
  skt : Nat
  tile : Nat
  init : Nat
  deriving DecidableEq, Repr

/-- Where a memory address lives (R321). -/
structure Target where
  cxl : Bool
  pers : Bool
  skt : Nat
  /-- channel, or lane group of a CXL range -/
  chan : Nat
  ca : Nat
  deriving DecidableEq, Repr

/-- A message in flight (R251, R252, R288). -/
structure Msg where
  opc : Opc
  src : Agent
  dst : Agent
  txid : Nat
  /-- physical address (the line of a coherent message, the address of a device access) -/
  addr : Nat
  /-- SZ of ATTR: log2 of the bytes -/
  sz : Nat
  /-- OP of an AMOF, LVL of a DRD or DWR, scope of a TINV, vector of an IPI -/
  op : Nat
  /-- VMID of the header -/
  vmid : Nat
  pers : Bool
  plb : Bool
  hint : Bool
  bc : Bool
  data : Vec
  mask : Dword
  pois : BitVec 4
  status : Nat
  /-- second operand of an AMOF, final requester of an MRD or a snoop, details of an IPI -/
  aux : Nat
  /-- DETOUR of R360 -/
  detour : Bool
  /-- number of the message on the torus: the model's own -/
  id : Nat
  /-- PART and CHUNK of the header (R236, R251, R288) -/
  part : Nat
  chunk : Nat
  /-- the error that an answer with STATUS 1 reports is that the access was unassigned (R19): the model's own, since R252
  gives the answer no room to say so -/
  unmapped : Bool
  /-- where the home's decode found the address of a memory message (R323): the model's own, since the memory tile decodes it again
  from the same effective table -/
  tgt : Option Target
  deriving DecidableEq, Repr

def Msg.blank : Msg :=
  { opc := .rds, src := ⟨0, 0, 0⟩, dst := ⟨0, 0, 0⟩, txid := 0, addr := 0, sz := 6, op := 0, vmid := 0,
    pers := false, plb := false, hint := false, bc := false, data := 0, mask := 0, pois := 0,
    status := 0, aux := 0, detour := false, id := 0, part := 0, chunk := 0, unmapped := false, tgt := none }

/-- STATUS of an answer, 3 for an unassigned access. -/
def Msg.stat (m : Msg) : Nat := if m.unmapped then 3 else m.status
/-- An answer with a status, 3 for an unassigned access. -/
def Msg.withStat (m : Msg) (n : Nat) : Msg := { m with status := if n = 3 then 1 else n, unmapped := decide (n = 3) }

/-! ### The torus (R246 to R278) -/

/-- One flit of a message (R246). -/
structure Flit where
  /-- the message, and which of its `n` flits this is -/
  id : Nat
  k : Nat
  n : Nat
  /-- class: 0 request, 1 snoop, 2 response, 3 guaranteed -/
  cls : Nat
  /-- source and destination tiles on this torus, and the initiator that takes it there (R277) -/
  src : Nat
  dst : Nat
  dinit : Option Nat
  txid : Nat
  vmid : Nat
  gfid : Nat
  /-- SLIP of the header (R252) -/
  slip : Bool
  /-- it carries payload bytes (R278) -/
  data : Bool
  /-- its destination takes it without waiting (R247, R287) -/
  sunk : Bool
  deriving DecidableEq, Repr

/-- A flit in a buffer: the input it came in by (R279's numbers, 4 local), on the upper VC of its class or the lower (R249),
and whether it has slipped at this router (R267). -/
structure Held where
  flit : Flit
  inp : Nat
  up : Bool
  slips : Bool
  deriving DecidableEq, Repr

/-- A flit on a link, with the sideband of R253, and the base cycle at which it reaches the far crossing. -/
structure Wire where
  flit : Flit
  inp : Nat
  up : Bool
  at_ : Nat
  seq : Nat
  crc : BitVec 16
  deriving DecidableEq, Repr

/-- One plane of a link, kept at its receiver (R253, R255). -/
structure LinkEnd where
  /-- the sender's next sequence number, and the receiver's -/
  next : Nat
  exp : Nat
  /-- the sender's last 16 flits, oldest first -/
  sent : List Wire
  /-- the four-entry FIFO of the Mitre crossing, each entry with its parity -/
  cross : List (Wire × Bool)
  /-- failures in a row of the flit that the receiver waits for -/
  fails : Nat
  dead : Bool
  deriving DecidableEq, Repr

def LinkEnd.reset : LinkEnd := { next := 0, exp := 0, sent := [], cross := [], fails := 0, dead := false }

/-- An output VC that a packet holds (R256): output, class, VC, and the input and VC that the packet comes from. -/
structure VcOwn where
  out : Nat
  cls : Nat
  up : Bool
  inp : Nat
  inUp : Bool
  deriving DecidableEq, Repr

/-- An arbiter of an output and plane (R258, R261, R262), over the requesters 5 × class + input: priorities, the pointer,
the lost rounds in a row, and the VC that each pair sent on last. -/
structure Arb where
  prio : List Nat
  ptr : Nat
  run : List Nat
  alt : List Bool
  deriving DecidableEq, Repr

/-- The arbiter at reset: every P at the reset value of its BASE (R280). -/
def Arb.reset (plane : Nat) : Arb :=
  { prio := if plane = 0 then [0, 0, 0, 0, 0, 2, 2, 2, 2, 2] else [4, 4, 4, 4, 4, 8, 8, 8, 8, 8], ptr := 0,
    run := List.replicate 10 0, alt := List.replicate 10 true }

/-- A tile's router with the links into it and the buffers of its agents. -/
structure TileFab where
  /-- input buffers, oldest flit first -/
  buf : List Held
  /-- flits on the links toward this router -/
  wire : List Wire
  /-- link state by 2 × input + plane -/
  link : Tab LinkEnd
  own : List VcOwn
  /-- flits on the way to the agents, and in their buffers -/
  ejw : List Wire
  eject : List Held
  /-- arbiters by 2 × output + plane -/
  arb : Tab Arb
  /-- requests without an answer yet: initiator, TXID and the router cycle of injection (R278) -/
  lat : List (Nat × Nat × Nat)
  deriving DecidableEq, Repr

def TileFab.reset : TileFab :=
  { buf := [], wire := [], link := [], own := [], ejw := [], eject := [], arb := [], lat := [] }

/-- The torus. -/
structure FabSt where
  /-- number of the next message -/
  next : Nat
  /-- cycles of 2.4 GHz that the torus has run, and those at which the frame began (R263) -/
  now : Nat
  frame : Nat
  tile : Tab TileFab
  /-- messages of transactions that the model completes in one step, which still cross the torus
  (notes/assumptions/46.md) -/
  pass : List Msg
  /-- flits injected of a message, by its number -/
  out : Tab Nat
  /-- messages that lie with their destination's agents -/
  here : List Nat
  /-- the link by which a message of another socket came -/
  link : Tab Nat
  deriving DecidableEq, Repr

def FabSt.reset : FabSt := { next := 0, now := 0, frame := 0, tile := [], pass := [], out := [], here := [], link := [] }

/-- Directory states (R284). -/
inductive DirSt where | s | e | m | o
  deriving DecidableEq, Repr

inductive DirFmt where | loc | ptr | bcast
  deriving DecidableEq, Repr

/-- A directory entry (R283). `owner` is socket × 2^9 + tile × 2 + core; sharers are
socket × 2^8 + tile. In BCAST format the sharers give the socket mask only. -/
structure DirEnt where
  st : DirSt
  owner : Nat
  fmt : DirFmt
  sharers : List Nat
  deriving DecidableEq, Repr

/-- A line in a slice's data ways (R232, R237). -/
structure SlLine where
  line : Line
  dirty : Bool
  part : Nat
  way : Nat
  deriving DecidableEq, Repr

/-- A tracker of a home (R282). -/
structure Trk where
  req : Msg
  /-- the transaction has begun; otherwise it is in the line's wait list -/
  active : Bool
  /-- snoop answers still awaited: agents as socket × 2^8 + tile -/
  ans : List Nat
  /-- the requester's CACK is awaited -/
  cack : Bool
  /-- the requester's CACK has come -/
  cacked : Bool
  /-- when the transaction began, an L2 other than the requester's held the line (R299) -/
  others : Bool
  /-- GNT of a prepared write has been sent and VIS is awaited -/
  vis : Bool
  /-- the memory tile's answer is awaited, or the line that it sends the requester -/
  memw : Bool
  /-- the copy of memory's line for the slice is awaited (R302, R324) -/
  fill : Bool
  /-- data collected for the transaction -/
  data : Option Line
  /-- how far the transaction is: 0 holders are asked, 1 the owner is asked, 2 the grant has been sent -/
  step : Nat
  /-- when the request was accepted, and HOME_TMO then, in microseconds (R306, R318) -/
  time : Nat
  tmo : Nat
  deriving DecidableEq, Repr

/-- A line in the atomic unit's buffer (R300). -/
structure AbEnt where
  line : Nat
  val : Line
  deriving DecidableEq, Repr

/-- An AMO that an atomic unit has executed: its line, the agent that asked, and TIME then (R299). -/
structure AmoRec where
  line : Nat
  who : Nat
  time : Nat
  deriving DecidableEq, Repr

/-- A sweep of LLC_MAINT (R242). -/
structure Sweep where
  flush : Bool
  groups : Nat
  deriving DecidableEq, Repr

/-- An arbiter of five requesters (R258): priorities, the pointer, and the rounds each has lost in a row. -/
structure Rounds where
  prio : List Nat
  ptr : Nat
  run : List Nat
  deriving DecidableEq, Repr

/-- Every P at its BASE (R260). -/
def Rounds.reset (base : List Nat) : Rounds := { prio := base, ptr := 0, run := base.map (fun _ => 0) }

/-- State of a slice and home. -/
structure SliceSt where
  llc : Tab SlLine
  /-- the replacement tree of each set of data ways (R218) -/
  llcp : Tab Nat
  dir : Tab DirEnt
  /-- the way of each directory entry, and the replacement tree of each directory set (R283, R286) -/
  dirw : Tab Nat
  dirp : Tab Nat
  trk : List Trk
  /-- lines of the atomic unit's buffer, most recently used first -/
  abuf : List AbEnt
  /-- recent AMOs, for HOT -/
  amos : List AmoRec
  sweep : Option Sweep
  /-- the home pipeline's arbiter (R305) -/
  arb : Rounds
  deriving DecidableEq, Repr

def SliceSt.reset : SliceSt :=
  { llc := [], llcp := [], dir := [], dirw := [], dirp := [], trk := [], abuf := [], amos := [], sweep := none,
    arb := Rounds.reset [0, 8, 4, 0, 2] }

/-- An entry of a write queue or of a persistent write buffer: channel address of the line, bytes,
mask and poison (R327, R335). -/
structure WqEnt where
  ca : Nat
  data : Vec
  mask : Dword
  pois : BitVec 4
  deriving DecidableEq, Repr

/-- State of a memory channel. -/
structure ChanSt where
  rq : List Msg
  wq : List WqEnt
  /-- the channel has left service or is in reset: the stand-in answers (R341) -/
  off : Bool
  /-- patrol scrub position, line number (R331) -/
  scrub : Nat
  /-- capacity of all ranks in GB, a spare included (R320, R333) -/
  gb : Nat
  /-- the write queue reached its high mark and has not fallen to the low one (R327) -/
  high : Bool
  /-- the front end's arbiter (R327) -/
  arb : Rounds
  deriving DecidableEq, Repr

def ChanSt.reset : ChanSt :=
  { rq := [], wq := [], off := false, scrub := 0, gb := 0, high := false,
    arb := Rounds.reset [2, 0, 4, 0, 0] }

/-- State of a memory tile: its persistent write buffer, oldest entry first, with the channel of each
entry (R335). An MPWT that finds no entry free waits in the fabric. -/
structure MtSt where
  pwb : List (Nat × WqEnt)
  deriving DecidableEq, Repr

def MtSt.reset : MtSt := { pwb := [] }

/-- A RAS_ log entry (R514). -/
structure RasEnt where
  time : Nat
  seq : Nat
  src : Nat
  kind : Nat
  sev : Nat
  init : Nat
  addr : Nat
  info : Nat
  read : Bool
  deriving DecidableEq, Repr

/-- An action that waits (R519): source, and the unit it acts on. -/
structure WaitAct where
  src : Nat
  act : Nat
  unit : Nat
  detail : Nat
  deriving DecidableEq, Repr

/-- The RAS_ state of a tile beyond its registers: the log newest first, open windows by source with
their end in TIME, and waiting actions. -/
structure RasSt where
  log : List RasEnt
  win : Tab Nat
  acts : List WaitAct
  deriving DecidableEq, Repr

def RasSt.reset : RasSt := { log := [], win := [], acts := [] }

end Sys2Proof.Machine
end

