-- ==== Sys2Proof/Machine/IoTypes.lean ====
section
/-!
DEFINITION. State of the I/O translation units (R209 to R217), of the PCIe and CXL ports (R374 to R400),
of the Dovetail links (R344 to R373), of the memory channels' copies and of the Varnish flush (R337).
-/
namespace Sys2Proof.Machine

/-- Who asks for access to a control register, or to anything with a level (R544, R558): Easel, or an
agent with the level and VMID its request carries, its tile and its initiator. -/
structure Master where
  easel : Bool
  lvl : Level
  vmid : Nat
  tile : Nat
  init : Nat
  /-- the access names its page through the local control window (R18) -/
  loc : Bool
  deriving DecidableEq, Repr

/-- An IOTLB entry (R213): tagged with the domain and the PSID, if the request had one. -/
structure IoEnt where
  domain : Nat
  psid : Option Nat
  va : Nat
  size : Nat
  pa : Nat
  /-- UR UW UX SR SW SX A D -/
  perm : BitVec 8
  deriving DecidableEq, Repr

/-- An invalidation in progress (R215) and the requesters whose ATS completion it awaits. -/
structure IoInv where
  scope : Nat
  domain : Nat
  rid : Nat
  psid : Nat
  addr : Nat
  wait : List Nat
  time : Nat
  deriving DecidableEq, Repr

/-- A translation that a requester caches through ATS. -/
structure AtsGrant where
  rid : Nat
  domain : Nat
  psid : Option Nat
  va : Nat
  size : Nat
  deriving DecidableEq, Repr

/-- A completion of an ATS translation request (R212): the translation, and what it grants. -/
structure AtsCpl where
  rid : Nat
  pa : Nat
  size : Nat
  read : Bool
  write : Bool
  deriving DecidableEq, Repr

/-- What an entry of the context cache holds (R213): the device entry of a requester, the entry of a domain, or a PSID entry. -/
inductive CtxKey where
  | dev (rid : Nat)
  | dom (domain : Nat)
  | psid (domain psid : Nat)
  deriving DecidableEq, Repr

/-- An entry of the context cache: one dword, or the two of a domain. -/
structure CtxEnt where
  key : CtxKey
  d0 : Dword
  d1 : Dword
  deriving DecidableEq, Repr

/-- State of an I/O translation unit beyond its registers. -/
structure IotSt where
  /-- the IOTLB, newest first -/
  tlb : List IoEnt
  /-- the context cache, newest first -/
  ctx : List CtxEnt
  /-- SEQ of the last refused request (R214) -/
  seq : Nat
  inv : Option IoInv
  ats : List AtsGrant
  revoked : List Nat
  /-- ATS translation completions sent, newest first -/
  atsOut : List AtsCpl
  deriving DecidableEq, Repr

/-- Nothing cached, granted or revoked. DESIGN CHOICE (notes/assumptions/85.md): SEQ counts from 0, so that the first refused
request has SEQ 1; R214 gives it no start. -/
def IotSt.reset : IotSt :=
  { tlb := [], ctx := [], seq := 0, inv := none, ats := [], revoked := [], atsOut := [] }

/-- Status of a PCIe completion (R381): successful, Unsupported Request, Completer Abort, or Configuration
Request Retry Status. -/
inductive CplStatus where | success | ur | ca | crs
  deriving DecidableEq, Repr

/-- What makes a port contain its link, besides a link down and a completion timeout (R388). -/
inductive ContainCause where | malformed | overflow | flowControl | ecrc
  deriving DecidableEq, Repr

/-- An outbound request of a port that holds a non-posted tag: the access it serves (R380, R381). -/
structure OutReq where
  tag : Nat
  msg : Msg
  /-- a Configuration Write: no later request is sent to the port before its completion -/
  cfgWrite : Bool
  cfg : Bool
  time : Nat
  deriving DecidableEq, Repr

/-- What an outbound access becomes (R380): a Memory Read or Write, or a Configuration Read or Write, of type 1 when `one`. -/
inductive TlpKind where
  | memRead
  | memWrite
  | cfgRead (one : Bool)
  | cfgWrite (one : Bool)
  deriving DecidableEq, Repr

/-- A request that a port has sent (R380): its tag if it is non-posted, its address on the bus (for a configuration request
bus, device, function and register as in ECAM), its length, a write's 64-byte data with the selected bytes, EP for poisoned data
(R511), and whether it carries an ECRC (R377). -/
structure OutTlp where
  port : Nat
  kind : TlpKind
  tag : Option Nat
  addr : Nat
  len : Nat
  data : Vec
  mask : Dword
  ep : Bool
  ecrc : Bool
  deriving DecidableEq, Repr

/-- State of a port beyond its registers. -/
structure PortSt where
  out : List OutReq
  /-- requests that wait behind a configuration write -/
  held : List Msg
  /-- dwords of the root port's own configuration header and capabilities, by offset / 4 -/
  hdr : Tab Nat
  /-- the port has been ACTIVE since it was last released or reset (R388) -/
  active : Bool
  deriving DecidableEq, Repr

def PortSt.reset : PortSt := { out := [], held := [], hdr := [], active := false }

/-- A prepared write of an I/O agent whose VIS has not been sent, in the agent's order (R294, R382). -/
structure IoWr where
  agent : Agent
  port : Nat
  line : Nat
  granted : Bool
  /-- the home that granted it -/
  home : Agent
  deriving DecidableEq, Repr

/-- A non-allocating read of an I/O agent whose line another socket or device still owes. -/
structure IoRd where
  agent : Agent
  port : Nat
  line : Nat
  /-- the answer once it has arrived: data, poison, status -/
  ans : Option (Vec × BitVec 4 × Nat)
  deriving DecidableEq, Repr

/-- A completion that a port has sent to a device or to the endpoint's host (R382, R383, R393). -/
structure InCpl where
  port : Nat
  status : CplStatus
  data : List Byte
  pois : Bool
  deriving DecidableEq, Repr

/-- State of the endpoint function (R392 to R396). -/
structure EpSt where
  /-- dwords of the configuration space by offset / 4 -/
  hdr : Tab Nat
  /-- MSI-X table dwords -/
  msix : Tab Nat
  /-- MSI-X vectors held in the pending bit array -/
  pba : List Nat
  /-- MSI-X vectors sent to the host, newest first -/
  msi : List Nat
  /-- PE0_PERST0_N is asserted (R575) -/
  perst : Bool
  deriving DecidableEq, Repr

def EpSt.reset : EpSt := { hdr := [], msix := [], pba := [], msi := [], perst := false }

/-- State of the P tiles. -/
structure PciSt where
  iot : Tab IotSt
  port : Tab PortSt
  iow : List IoWr
  ior : List IoRd
  /-- CXL.mem requests outstanding at the device, by lane group, oldest first (R334, R391) -/
  cxl : Tab (List Msg)
  /-- completions sent, newest first -/
  cpl : List InCpl
  /-- requests sent, newest first -/
  tlp : List OutTlp
  /-- lane groups that are on their way into reset (R397), each with whether its page is reset with it -/
  closing : List (Nat × Bool)
  /-- TIME at which a lane group's reference clock started (R574) -/
  clkSince : Tab Nat
  ep : EpSt
  deriving DecidableEq, Repr

def PciSt.reset : PciSt := { iot := [], port := [], iow := [], ior := [], cxl := [], cpl := [], tlp := [], closing := [], clkSince := [], ep := EpSt.reset }

/-- A message of tile D to the tile D of another socket: on VC 3, or a DRAIN or DRAINACK marker on a class VC. -/
inductive DMsg where
  /-- socket, its four link bits, its power weight and its MC_ILVSUM (R361, R371, R372) -/
  | linkState (skt up weight sum : Nat)
  /-- reference TIME and every socket's power share, none without a cap (R369, R371) -/
  | time (ref : Nat) (shares : List Nat)
  /-- source and destination socket, class and VC (R362) -/
  | drain (src dst cls vc : Nat)
  | drainAck (src dst cls vc : Nat)
  /-- a home timeout of socket `src` that names an agent of socket `dst`: line address, tile and initiator (R368) -/
  | report (src dst line tile init : Nat)
  deriving DecidableEq, Repr

/-- The VC of such a message (R352, R362). -/
def DMsg.vc : DMsg → Nat
  | .drain _ _ _ v => v
  | .drainAck _ _ _ v => v
  | _ => 3

/-- A slot of a Dovetail flit (R351): a message starts here, its VC, and its 16 bytes. -/
structure FlitSlot where
  start : Bool
  vc : Nat
  bits : BitVec 128
  deriving DecidableEq, Repr

/-- A Dovetail flit held for replay (R354): its SEQ, its slots, and the messages whose last slot lies in it, each with
its VC. -/
structure DFlit where
  seq : Nat
  /-- the credits that it returns: VC and slots -/
  crd : List (Nat × Nat)
  slots : List FlitSlot
  msgs : List (Nat × Msg)
  deriving DecidableEq, Repr

/-- A Dovetail flit as it arrives (R351): its 128 bytes, and the messages whose last slot lies in it with their VC. -/
structure RxFlit where
  bits : BitVec 1024
  msgs : List (Nat × Msg)
  deriving DecidableEq, Repr

def RxFlit.seq (f : RxFlit) : Nat := (f.bits.extractLsb' 52 12).toNat
/-- The last SEQ that the partner has accepted, when ACKV. -/
def RxFlit.ack (f : RxFlit) : Option Nat := if f.bits.getLsbD 39 then some (f.bits.extractLsb' 40 12).toNat else none
def RxFlit.nak (f : RxFlit) : Bool := f.bits.getLsbD 38
/-- 0 messages, 1 idle, 2 link control. -/
def RxFlit.ty (f : RxFlit) : Nat := (f.bits.extractLsb' 36 2).toNat
/-- The credits that it returns: VC and slots. -/
def RxFlit.credits (f : RxFlit) : List (Nat × Nat) :=
  (List.range 3).map (fun k => ((f.bits.extractLsb' (12 * k + 9) 3).toNat, (f.bits.extractLsb' (12 * k) 9).toNat))
/-- The VCs of its slots that are not empty. -/
def RxFlit.slotVcs (f : RxFlit) : List Nat :=
  ((List.range 7).map (fun k => (f.bits.extractLsb' (64 + 4 * k) 3).toNat)).filter (fun v => decide (v ≠ 7))

/-- What the end of a failed link sends again (R364): a message with its tag, or REINJEND of a class. -/
inductive AgainItem where
  | msg (seq : Nat) (m : Msg)
  | stop (cls : Nat)
  deriving DecidableEq, Repr

/-- Such an item on its way from socket `src`, an end of the failed link `link`, to the partner `dst`. -/
structure Again where
  src : Nat
  dst : Nat
  link : Nat
  item : AgainItem
  deriving DecidableEq, Repr

/-- A drain in progress (R362): the destination socket, the link of the old path, and the classes whose DRAINACK is awaited. -/
structure Drain where
  dst : Nat
  link : Nat
  left : List Nat
  deriving DecidableEq, Repr

/-- State of one Dovetail link end beyond its registers. -/
structure LinkSt where
  /-- replay buffer, oldest first -/
  tx : List DFlit
  /-- SEQ of the next message flit -/
  txSeq : Nat
  /-- SEQ of the last flit accepted -/
  rxSeq : Nat
  /-- flits are being discarded until the one after rxSeq arrives (R354) -/
  nak : Bool
  /-- a NAK is due in the next flit sent (R354) -/
  nakDue : Bool
  /-- resends in a row of the oldest flit (R356) -/
  resends : Nat
  /-- own PROPOSE outstanding: width and lane group (R359) -/
  prop : Option (Nat × Nat)
  /-- classes whose REINJEND for this link is awaited (R364) -/
  ends : List Nat
  /-- credits to be returned: VC and slots (R353) -/
  owed : List (Nat × Nat)
  /-- lanes excluded by downshifts (R358) -/
  excl : Nat
  /-- width limit that downshifts left: code of DVT_STAT.WIDTH -/
  limit : Nat
  /-- the link has been ACTIVE since it last trained from DETECT: what it sent is in the replay buffers -/
  was : Bool
  /-- round trip of the link in ns, as CHECK measured it (R369) -/
  rtt : Nat
  /-- TIME at which the present state was entered -/
  time : Nat
  /-- messages of tile D itself to be sent -/
  out : List DMsg
  /-- the flits that the end has driven in its last flit time (R351) -/
  wire : List (BitVec 1024)
  deriving DecidableEq, Repr

def LinkSt.reset : LinkSt :=
  { tx := [], txSeq := 0, rxSeq := 4095, nak := false, nakDue := false, resends := 0, prop := none, ends := [],
    owed := [], excl := 0, limit := 0, was := false, rtt := 0, time := 0, out := [], wire := [] }

/-- What Easel reports to the platform over I3C: a failed enumeration (R346), or isolation (R367). -/
inductive PlatReport where | enumFailed | isolated
  deriving DecidableEq, Repr

/-- Phases of enumeration (R345, R346). -/
inductive EnumPhase where | idle | wait | assigned | committed | done | failed
  deriving DecidableEq, Repr

/-- State of tile D's Dovetail part beyond its registers. -/
structure DvtSt where
  link : Tab LinkSt
  phase : EnumPhase
  /-- the ID taken from an assign frame, not yet in force -/
  id : Nat
  /-- the count and TAG of the commit frame sent or recorded -/
  count : Nat
  tag : Nat
  /-- drains in progress (R362) -/
  drain : List Drain
  /-- what is being sent again after a link failure, here or on its way through (R364) -/
  again : List Again
  /-- messages to the tile D of another socket that wait for a route: its number and the message -/
  mail : List (Nat × DMsg)
  /-- the last time message carried power shares (R371, R488) -/
  capOn : Bool
  /-- each socket's power weight and MC_ILVSUM as last reported (R371, R372) -/
  weight : Tab Nat
  sum : Tab Nat
  /-- sockets whose MC_ILVSUM differs, with the time since which it does -/
  differ : Tab Nat
  /-- TIME at which isolation began, while its hold is due (R367) -/
  isolAt : Option Nat
  /-- reports to the platform over I3C, newest first (R346, R367) -/
  reports : List PlatReport
  /-- epoch ticks since the last time message (R369) -/
  ticks : Nat
  /-- TIME is held still until the reference catches up, by this many ns (R369) -/
  still : Nat
  deriving DecidableEq, Repr

def DvtSt.reset : DvtSt :=
  { link := [], phase := .idle, id := 0, count := 0, tag := 0, drain := [], again := [], mail := [], capOn := false, weight := [], sum := [],
    differ := [], isolAt := none, reports := [], ticks := 0, still := 0 }

/-- A Varnish flush (R337): which phases of the Global Persistent Flush are over, the lane groups that
failed it, and the number of entries last reported to Easel (R339). -/
structure Flush where
  phase1 : Bool
  phase2 : Bool
  fails : Nat
  report : Nat
  start : Nat
  deriving DecidableEq, Repr

/-- Varnish beyond the registers: the flush in progress or completed; FLUSHDONE is asserted; RSTIN_N has
stayed high since the fall (R340). -/
structure VarnSt where
  flush : Option Flush
  flushdone : Bool
  rstHigh : Bool
  deriving DecidableEq, Repr

def VarnSt.reset : VarnSt := { flush := none, flushdone := false, rstHigh := true }

end Sys2Proof.Machine
end

