-- ==== Sys2Proof/Machine/PktTypes.lean ====
section
/-!
DEFINITION. State of the packet engine (R401 to R442), of the crypto engine (R443 to R459) and of the
Veneer instances (R460 to R481) beyond their registers.
-/
namespace Sys2Proof.Machine

/-- States of a hardware queue (R419). -/
inductive QState where | disabled | enabled | draining | error
  deriving DecidableEq, Repr

def QState.code : QState → Nat
  | .disabled => 0 | .enabled => 1 | .draining => 2 | .error => 3

/-- Who waits for a sequencer or a queue: the direct registers, or the tenant or the manager of an
instance (R467, R474, R478). -/
inductive Waiter where
  | direct
  | tenant (i : Nat)
  | manager (i : Nat)
  deriving DecidableEq, Repr

/-- What the parser found in a frame (R410 to R413, R423). -/
structure Parse where
  /-- status code of R424 that the parser or the MAC set: 0, 6 PARSE_DEPTH, 7 LENGTH_MISMATCH, 8, 9 -/
  status : Nat
  vlans : Nat
  l3 : Nat
  l4 : Nat
  tun : Nat
  l3cs : Nat
  l4cs : Nat
  l3off : Nat
  l4off : Nat
  hdrn : Nat
  /-- outer VID of the outermost tag, 0 without one -/
  vid : Nat
  /-- outer and innermost 5-tuples: source, destination (16 bytes each as numbers), ports, protocol, and VNI -/
  osrc : Nat
  odst : Nat
  osport : Nat
  odport : Nat
  oproto : Nat
  isrc : Nat
  idst : Nat
  isport : Nat
  idport : Nat
  iproto : Nat
  vni : Nat
  /-- offset of the first IP header, 0 without one -/
  ip1 : Nat
  /-- offset and version of the innermost IP header parsed, 0 without one -/
  ipn : Nat
  ipv : Nat
  /-- end of the innermost IP packet, from its length field -/
  ipend : Nat
  deriving DecidableEq, Repr

/-- A received frame held in the packet buffer for a queue. -/
structure RxFrame where
  data : List Byte
  /-- the length L on the wire (R406) -/
  len : Nat
  lp : Nat
  ts : Nat
  status : Nat
  hash : Nat
  mark : Nat
  flow : Nat
  fhit : Bool
  dly : Bool
  /-- the replication that this frame is a replica of (R429) -/
  job : Option Nat
  parse : Parse
  cells : Nat
  time : Nat
  deriving DecidableEq, Repr

/-- A fetched transmit frame. -/
structure TxFrame where
  data : List Byte
  /-- descriptors it covers -/
  nbuf : Nat
  /-- bytes 8 to 31 of its first descriptor, as a number -/
  desc : Nat
  status : Nat
  cells : Nat
  time : Nat
  /-- it waited for tokens (R472) -/
  waited : Bool
  /-- it is being replicated (R429) -/
  job : Option Nat
  deriving DecidableEq, Repr

/-- State of a hardware queue. -/
structure QueueSt where
  state : QState
  /-- the context read at enable, 512 bits (R418) -/
  ctx : Nat
  pidx : Nat
  dcidx : Nat
  cpidx : Nat
  ccidx : Nat
  drops : Nat
  lost : Nat
  errseen : Bool
  armed : Bool
  /-- when each pending record was written, oldest first (R426) -/
  times : List Nat
  /-- fetched receive descriptors, in ring order: address and cookie -/
  rxd : List (Nat × Nat)
  /-- admitted frames waiting for delivery -/
  rxq : List RxFrame
  /-- fetched transmit frames -/
  txq : List TxFrame
  /-- producer doorbells of a transmit queue whose descriptors are not all fetched, in ring order: the index and TIME (R434) -/
  bells : List (Nat × Nat)
  /-- deficit of the round robin in bytes (R434) -/
  deficit : Nat
  /-- descriptors up to this index complete unfetched with this status (R395, R396, R440) -/
  stop : Option (Nat × Nat)
  deriving DecidableEq, Repr

def QueueSt.reset : QueueSt :=
  { state := .disabled, ctx := 0, pidx := 0, dcidx := 0, cpidx := 0, ccidx := 0, drops := 0, lost := 0,
    errseen := false, armed := false, times := [], rxd := [], rxq := [], txq := [], bells := [], deficit := 0, stop := none }

/-- A counter set (R470): the queue bound to it is in `bind`. -/
structure CtrSet where
  frames : Nat
  bytes : Nat
  drop : Nat
  deriving DecidableEq, Repr

def CtrSet.reset : CtrSet := { frames := 0, bytes := 0, drop := 0 }

/-- A flow command in progress (R417, R469): a bucket, or everything. -/
structure FlowCmd where
  all : Bool
  bucket : Nat
  who : Waiter
  deriving DecidableEq, Repr

/-- A frame in replication (R429, R430): its group, the replicas not yet delivered or dropped, those attempted
and delivered, its cells and the logical port that holds them, the transmit queue that sent it. -/
structure McJob where
  group : Nat
  left : Nat
  tried : Nat
  sent : Nat
  cells : Nat
  lp : Option Nat
  tx : Option Nat
  deriving DecidableEq, Repr

/-- State of the packet engine. -/
structure PktSt where
  q : Tab QueueSt
  /-- cached flow buckets: four contexts of 64 bytes, as 2,048 bits (R415) -/
  flow : Tab Nat
  /-- cached multicast groups, as 4,096 bits (R428) -/
  mc : Tab Nat
  /-- frames, replicas attempted and dropped by group (R430) -/
  mcstat : Tab (Nat × Nat × Nat)
  /-- owner of a flow context installed by an instance (R469) -/
  owner : Tab Nat
  flowcmd : Option FlowCmd
  /-- the queue command in progress: who waits, and the queue (R419, R467) -/
  qcmd : Option (Waiter × Nat)
  jobs : Tab McJob
  jobNum : Nat
  /-- class arbiters by logical port: priorities P of the four classes, and ptr (R258, R434) -/
  arb : Tab (List Nat × Nat)
  /-- the arbiter of the queue manager (R435) -/
  qm : Rounds
  /-- the queue last served, by 4 × logical port + class (R434) -/
  drr : Tab Nat
  /-- MACs that honour a received PAUSE, with the TIME at which it runs out (R402) -/
  pause : Tab Nat
  /-- MACs that have sent PAUSE for logical ports, not released (R432) -/
  xoff : List Nat
  /-- consecutive uncorrectable codewords by MAC (R403) -/
  bad : Tab Nat
  /-- frames that have left on a MAC, newest first: what the wire carries -/
  wire : List (Nat × List Byte)
  /-- the packet engine is being reset: descriptors may be abandoned (R438) -/
  resetAt : Option Nat
  deriving DecidableEq, Repr

def PktSt.reset : PktSt :=
  { q := [], flow := [], mc := [], mcstat := [], owner := [], flowcmd := none, qcmd := none, jobs := [], jobNum := 0,
    arb := [], qm := Rounds.reset [4, 2, 2, 6, 0], drr := [], pause := [], xoff := [], bad := [],
    wire := [], resetAt := none }

/-- The hidden part of a key slot and its counts (R444, R454). -/
structure SlotSt where
  key : Nat
  salt : Nat
  /-- ESP replay bitmap: bit n is KEY_SEQ − n -/
  win : Nat
  ok : Nat
  tagfail : Nat
  replay : Nat
  deriving DecidableEq, Repr

def SlotSt.reset : SlotSt := { key := 0, salt := 0, win := 0, ok := 0, tagfail := 0, replay := 0 }

/-- State of the crypto engine. -/
structure KeySt where
  slot : Tab SlotSt
  /-- a key command in progress, with its waiter and the slots whose old material is not yet zeroized -/
  cmd : Option (Waiter × List Nat)
  deriving DecidableEq, Repr

def KeySt.reset : KeySt := { slot := [], cmd := none }

/-- A manager command in progress (R474, R478). -/
structure MgrCmd where
  op : Nat
  res : Nat
  /-- it has started; otherwise it waits for a tenant command (R475) -/
  started : Bool
  time : Nat
  deriving DecidableEq, Repr

/-- State of a Veneer instance beyond its page. -/
structure VenSt where
  /-- tenant command in progress: OP, INDEX, and whether its sequencer has started it -/
  cmd : Option (Nat × Nat × Bool)
  mcmd : Option MgrCmd
  /-- tokens of the bucket in bytes, and when they were last counted (R472) -/
  tokens : Int
  tokAt : Nat
  deriving DecidableEq, Repr

def VenSt.reset : VenSt := { cmd := none, mcmd := none, tokens := 0, tokAt := 0 }

/-- State of Veneer. -/
structure VeneerSt where
  inst : Tab VenSt
  /-- counter sets, and the set each bound queue counts in -/
  ctr : Tab CtrSet
  bind : Tab Nat
  /-- instances whose tenant command waits for a sequencer, oldest first (R467) -/
  waiting : List Nat
  deriving DecidableEq, Repr

def VeneerSt.reset : VeneerSt := { inst := [], ctr := [], bind := [], waiting := [] }

end Sys2Proof.Machine
end

