-- ==== Sys2Proof/Machine/SysTypes.lean ====
section
/-!
DEFINITION. State of Easel, Primer and the contacts beyond their registers: supplies and pins (R484,
R571), fuses and boot (R497 to R503), cores switched off (R494), the Primer record (R530), field tests
and audits, and the counter collector (R561, R562).
-/
namespace Sys2Proof.Machine

/-- A section of an Ezmustan image (R501). `digest` says that the data has the digest of the table. -/
structure Section where
  kind : Nat
  dest : Nat
  data : List Byte
  digest : Bool
  /-- the fields that must be zero are zero -/
  zero : Bool
  deriving DecidableEq, Repr

/-- An Ezmustan image as Easel reads it (R501). `pubHash` is the SHA-384 of PUBKEY, `sigOk` whether the
signature verifies: what the hash and the curve compute is the command's operand. -/
structure Image where
  magic : Nat
  format : Nat
  hdrlen : Nat
  family : Nat
  mindie : Nat
  lcmask : Nat
  secver : Nat
  flags : Nat
  totlen : Nat
  nsec : Nat
  keyslot : Nat
  entry : Nat
  xvecf : Nat
  memrate : Nat
  /-- the header's zero bytes are zero -/
  zero : Bool
  pubHash : Nat
  sigOk : Bool
  sections : List Section
  deriving DecidableEq, Repr

/-- What a read of the flash gives: an error (code 9) or an image. -/
inductive FlashRead where
  | error
  | image (i : Image)
  deriving DecidableEq, Repr

/-- How far the boot of R497 is. -/
inductive BootStage where
  /-- RSTIN_N is low, or the socket is in reset -/
  | off
  /-- held at step 1 because PWRFAIL_N is low (R580) -/
  | held
  /-- steps 1 to 5 -/
  | started
  /-- step 6: the image store holds a verified image -/
  | verified
  /-- steps 7 and 8: the Palette is populated, CONFIG sections applied -/
  | configured
  /-- the boot core has been released -/
  | released
  /-- no image passed: an image over I3C is awaited (R498) -/
  | recovery
  /-- no core is released: RETIRED, or enumeration failed (R346, R500) -/
  | stopped
  deriving DecidableEq, Repr

/-- The four parts of the family (R2, R27). -/
inductive Variant where | h256 | h256n | h192 | h96s
  deriving DecidableEq, Repr

/-- Fuses (R499 to R503), and what they say of the part (R4, R27). -/
structure Fuses where
  /-- bit n: the fuse of life-cycle state n is blown -/
  lcs : Nat
  /-- SHA-384 hashes by slot -/
  hash : Tab Nat
  revoked : Nat
  count : Nat
  /-- PAL_ID.DIESET -/
  dieset : Nat
  variant : Variant
  /-- physical cores fused off, and cores that serve as spares (R27) -/
  coresOff : List Nat
  spares : List Nat
  deriving DecidableEq, Repr

/-- Why a core is off (R494), and what wakes it (R495). -/
inductive OffBy where | idle | forced | spareUnit
  deriving DecidableEq, Repr

/-- Why Easel takes a core through R309: a core reset, an entry into OFF, a field test, or sparing on behalf of
window-counter source `src` of `tile` (0xFF for none), by PRM_CMD when `cmd`. -/
inductive CoreAim where
  | reset
  | off (by_ : OffBy)
  | test
  | spare (tile src : Nat) (cmd : Bool)
  deriving DecidableEq, Repr

/-- A core that Easel is taking through R309, since a TIME, and what its threads were doing once Easel has
control of them. -/
structure AimSt where
  aim : CoreAim
  since : Nat
  held : Option (RunSt × RunSt)
  deriving DecidableEq, Repr

/-- A core that is OFF: why, and what its threads were doing (R494). -/
structure OffSt where
  by_ : OffBy
  r0 : RunSt
  r1 : RunSt
  deriving DecidableEq, Repr

/-- Contacts that the model keeps (R571). -/
structure Pins where
  rstLow : Bool
  pwrfailLow : Bool
  master : Bool
  vrhot : Bool
  thermtrip : Bool
  stbyOk : Bool
  /-- VSTBY_MAIN and VSTBY_BAK at or above 1.65 V -/
  mainOk : Bool
  bakOk : Bool
  /-- a cold reset waits for FLUSHDONE (R580) -/
  coldWaits : Bool
  /-- the frame last driven on ENUM_OUT -/
  enumOut : Nat
  deriving DecidableEq, Repr

/-- Supply, clock and core power state. -/
structure PwrSt where
  off : Tab OffSt
  /-- dies held at HOTF by the thermal limit (R581) -/
  hot : List Nat
  /-- duty of issue gating in sixteenths (R490) -/
  duty : Nat
  refLoss : Bool
  /-- cores that Easel is taking through R309 -/
  entering : Tab AimSt
  deriving DecidableEq, Repr

/-- A field test or a Primer command on a unit. -/
structure UnitTest where
  slice : Bool
  target : Nat
  /-- started by PRM_CMD, not by the field-test schedule -/
  command : Bool
  /-- the whole-part test of OP 4 -/
  full : Bool
  start : Nat
  /-- what the threads of a core under test were doing -/
  r0 : RunSt
  r1 : RunSt
  /-- effective PWR mode write that ends the test (R529) -/
  ended : Bool
  /-- way groups whose ON was changed during the test (R529): group mask off, group mask on -/
  grpOff : Nat
  grpOn : Nat
  deriving DecidableEq, Repr

/-- State of Primer. -/
structure PrmSt where
  /-- the Primer record, by word (R530) -/
  record : Tab Nat
  test : Option UnitTest
  /-- units tested in the present round: cores, then slices (R526) -/
  round : List Nat
  nextTest : Nat
  /-- an audit waits for quiescence, since this TIME (R535) -/
  audit : Option Nat
  /-- restores that take effect at the next cold reset: (slice?, unit) -/
  restore : List (Bool × Nat)
  /-- the full test that a PRIMER section asks for has been run since the standby power-on (R531) -/
  fulled : Bool
  deriving DecidableEq, Repr

/-- A snapshot being written (R561): its SEQ, TIME, and the 24 counters and PERF_OVF of every tile. -/
structure Snap where
  seq : Nat
  time : Nat
  ctr : Tab (List Nat)
  ovf : Tab Nat
  deriving DecidableEq, Repr

/-- State of the collector: what waits for the epoch tick (R560), the snapshot, the next due time, and
each monitor's window (R562): its number, the bytes in it so far, and whether the selection was written in it; and the TIME up to
which cycles are counted (R555). -/
structure GperfSt where
  hold : Option (Bool × Bool × Bool)
  snap : Option Snap
  nextSnap : Nat
  bw : Tab (Nat × Nat × Bool)
  cyc : Nat
  deriving DecidableEq, Repr

/-- State of Easel and its surroundings. -/
structure SysSt where
  pins : Pins
  fuses : Fuses
  boot : BootStage
  /-- the boot in progress follows a warm reset (R497) -/
  warm : Bool
  image : Option Image
  /-- the frame number of the last epoch tick, none before the first (R263, R264) -/
  epoch : Option Nat
  pwr : PwrSt
  prm : PrmSt
  gperf : GperfSt
  dvt : DvtSt
  varn : VarnSt
  deriving DecidableEq, Repr

/-- Easel's domain with the standby supplies up and RSTIN_N low, on a Helgen 256 with no owner fuse blown
(notes/assumptions/41.md). Key-hash slot 0 holds the hash of manufacture (R503). -/
def SysSt.reset : SysSt :=
  { pins := { rstLow := true, pwrfailLow := false, master := false, vrhot := false, thermtrip := false,
              stbyOk := true, mainOk := true, bakOk := true, coldWaits := false, enumOut := 0 },
    fuses := { lcs := 0, hash := [(0, Config.slot0Hash)], revoked := 0, count := 0, dieset := 0, variant := .h256, coresOff := [],
               spares := [256, 257, 258, 259, 260, 261, 262, 263] },
    boot := .off, warm := false, image := none, epoch := none,
    pwr := { off := [], hot := [], duty := 16, refLoss := false, entering := [] },
    prm := { record := [], test := none, round := [], nextTest := 0, audit := none, restore := [],
             fulled := false },
    gperf := { hold := none, snap := none, nextSnap := 0, bw := [], cyc := 0 },
    dvt := DvtSt.reset, varn := VarnSt.reset }

end Sys2Proof.Machine
end

