-- ==== Sys2Proof/Machine/CmdTypes.lean ====
section
/-!
DEFINITION. Types of the commands' operands that are no state of the part.
-/
namespace Sys2Proof.Machine

/-- A view of an interrupt controller that software names (R155). -/
inductive View where | s | h | f
  deriving DecidableEq, Repr

/-- The timers of a controller: of the S, H and F views, and the guest timer (R160). -/
inductive Timer where | s | h | f | guest
  deriving DecidableEq, Repr

/-- How a test of a core ends: it passed, failed, or failed in one L2 way only (R527). -/
inductive TestRes where
  | pass
  | fail
  | way (w : Nat)
  deriving DecidableEq, Repr

/-- A quota or share register of a Veneer instance's manager half: VEN_QUOTA_QK, _F, _D and VEN_BW (R464). -/
inductive QuotaReg where | qk | f | d | bw
  deriving DecidableEq, Repr

/-- The sockets between which a marker or a report goes (R362, R368). -/
structure Ends where
  src : BitVec 4
  dst : BitVec 4
  deriving DecidableEq, Repr

/-- The sockets between which a message is sent again, and the failed link's number (R364). -/
structure Detour where
  src : BitVec 4
  dst : BitVec 4
  link : Fin 4
  deriving DecidableEq, Repr

/-- What a link's partner reports beside its identity in CHECK: the last SEQ that it accepted (R350), and the round trip that CHECK
measures, in ns (R369). -/
structure CheckEnd where
  last : BitVec 12
  rtt : Nat
  deriving DecidableEq, Repr

/-- What the check of a line that DRAM returned finds (R329): the chunks corrected and those uncorrectable, in the rank, and the
device symbol of the corrected ones. -/
structure DramErr where
  ce : BitVec 4
  ue : BitVec 4
  rank : Fin 8
  device : Fin 10
  deriving DecidableEq, Repr

/-- The memory tile whose buffer drains an entry, and what the read of a partial entry's line finds (R335). -/
structure BufDrain where
  tile : Fin 8
  err : DramErr
  deriving DecidableEq, Repr

/-- The channel whose rank has been copied to the spare, and the lines, by channel address, in which the copy found errors (R333). -/
structure SpareCopy where
  chan : Fin 16
  errs : List (Nat × DramErr)
  deriving DecidableEq, Repr

/-- Where an inbound request is addressed: an address (root ports), or an offset in BAR0, BAR2, the expansion ROM window or the
configuration space of the endpoint function (R382, R392, R396). -/
inductive InAddr where
  | mem (addr : Nat)
  | bar0 (off : Nat)
  | bar2 (off : Nat)
  | rom (off : Nat)
  | cfg (off : Nat)
  deriving DecidableEq, Repr

/-- An inbound memory request of port `port` (R382): its requester ID, PASID with the privilege and execute marks, and
whether its address is already translated (ATS). -/
structure InReq where
  port : Nat
  rid : Nat
  psid : Option Nat
  priv : Bool
  exec : Bool
  translated : Bool
  addr : InAddr
  deriving DecidableEq, Repr

end Sys2Proof.Machine
end

