-- ==== Sys2Proof/Syntax.lean ====
section
/-!
DEFINITION. The commands of Helgen: one constructor for each row of the opcode table, with the row's operands. An
instruction of a thread carries the thread and the fields of its encoding (R60 to R124); a message of the fabric the message
(R287); a register write the master that makes it (R544); an event what the part sees of it.
-/
namespace Sys2Proof
open Machine

/-- A thread: 2 × core + thread (R29). -/
abbrev ThreadId := Fin 528
/-- A physical core (R13). -/
abbrev CoreId := Fin 264
/-- A slice of the last-level cache, by core tile ordinal. -/
abbrev SliceId := Fin 132
/-- A tile (R12). -/
abbrev TileId := Fin 144
/-- A memory channel (R12). -/
abbrev ChanId := Fin 16
/-- A PCIe or CXL port (R375). -/
abbrev PortId := Fin 64

/-- The commands. -/
inductive Instr where
  /-- ALU (R69). -/
  | alu (t : ThreadId) (rd ra rb : BitVec 5) (fn : BitVec 11)
  /-- SEL (R71). -/
  | sel (t : ThreadId) (rd ra rb : BitVec 5) (fn : BitVec 11)
  /-- ADDI (R72). -/
  | addi (t : ThreadId) (rd ra : BitVec 5) (imm : BitVec 16)
  /-- ANDI (R72). -/
  | andi (t : ThreadId) (rd ra : BitVec 5) (imm : BitVec 16)
  /-- ORI (R72). -/
  | ori (t : ThreadId) (rd ra : BitVec 5) (imm : BitVec 16)
  /-- XORI (R72). -/
  | xori (t : ThreadId) (rd ra : BitVec 5) (imm : BitVec 16)
  /-- SHI (R72). -/
  | shi (t : ThreadId) (rd ra : BitVec 5) (imm : BitVec 16)
  /-- LHI (R72). -/
  | lhi (t : ThreadId) (rd ra : BitVec 5) (imm : BitVec 16)
  /-- INSH (R72). -/
  | insh (t : ThreadId) (rd ra : BitVec 5) (imm : BitVec 16)
  /-- ADDPC (R72). -/
  | addpc (t : ThreadId) (rd ra : BitVec 5) (imm : BitVec 16)
  /-- CMP (R73). -/
  | cmp (t : ThreadId) (cd : BitVec 3) (cc : BitVec 4) (ra rb : BitVec 5) (low : BitVec 9)
  /-- CMPI (R73). -/
  | cmpi (t : ThreadId) (cd : BitVec 3) (cc : BitVec 4) (ra : BitVec 5) (imm : BitVec 14)
  /-- CLOG (R74). -/
  | clog (t : ThreadId) (cd : BitVec 3) (cc : BitVec 4) (ca cb : BitVec 3) (z1 : BitVec 2) (z2 : BitVec 11)
  /-- LDB (R75). -/
  | ldb (t : ThreadId) (rd ra : BitVec 5) (imm : BitVec 16)
  /-- LDBU (R75). -/
  | ldbu (t : ThreadId) (rd ra : BitVec 5) (imm : BitVec 16)
  /-- LDH (R75). -/
  | ldh (t : ThreadId) (rd ra : BitVec 5) (imm : BitVec 16)
  /-- LDHU (R75). -/
  | ldhu (t : ThreadId) (rd ra : BitVec 5) (imm : BitVec 16)
  /-- LDW (R75). -/
  | ldw (t : ThreadId) (rd ra : BitVec 5) (imm : BitVec 16)
  /-- LDWU (R75). -/
  | ldwu (t : ThreadId) (rd ra : BitVec 5) (imm : BitVec 16)
  /-- LDD (R75). -/
  | ldd (t : ThreadId) (rd ra : BitVec 5) (imm : BitVec 16)
  /-- STB (R75). -/
  | stb (t : ThreadId) (rd ra : BitVec 5) (imm : BitVec 16)
  /-- STH (R75). -/
  | sth (t : ThreadId) (rd ra : BitVec 5) (imm : BitVec 16)
  /-- STW (R75). -/
  | stw (t : ThreadId) (rd ra : BitVec 5) (imm : BitVec 16)
  /-- STD (R75). -/
  | std (t : ThreadId) (rd ra : BitVec 5) (imm : BitVec 16)
  /-- LD_AQ (R77). -/
  | ldAq (t : ThreadId) (rd ra rb : BitVec 5) (sz : BitVec 2) (zx : Bool) (z : BitVec 7)
  /-- STL (R77). -/
  | stl (t : ThreadId) (rd ra rb : BitVec 5) (sz : BitVec 2) (zx : Bool) (z : BitVec 7)
  /-- AMO (R78). -/
  | amo (t : ThreadId) (rd ra rb : BitVec 5) (fn : BitVec 11)
  /-- BRT (R82). -/
  | brt (t : ThreadId) (cs : BitVec 3) (disp : BitVec 22)
  /-- BRF (R82). -/
  | brf (t : ThreadId) (cs : BitVec 3) (disp : BitVec 22)
  /-- JMP (R82). -/
  | jmp (t : ThreadId) (disp : BitVec 26)
  /-- CALL (R82). -/
  | call (t : ThreadId) (disp : BitVec 26)
  /-- JR (R82). -/
  | jr (t : ThreadId) (rd ra rb : BitVec 5) (fn : BitVec 11)
  /-- CALLR (R82). -/
  | callr (t : ThreadId) (rd ra rb : BitVec 5) (fn : BitVec 11)
  /-- LOOP (R85). -/
  | loop (t : ThreadId) (lv immForm : Bool) (cnt len : BitVec 12)
  /-- SRD (R88). -/
  | srd (t : ThreadId) (rd ra : BitVec 5) (sr : BitVec 12)
  /-- SWR (R88). -/
  | swr (t : ThreadId) (rd ra : BitVec 5) (sr : BitVec 12)
  /-- SRSET (R89). -/
  | srset (t : ThreadId) (rd ra : BitVec 5) (sr : BitVec 12)
  /-- SRCLR (R89). -/
  | srclr (t : ThreadId) (rd ra : BitVec 5) (sr : BitVec 12)
  /-- TRAP (R90). -/
  | trap (t : ThreadId) (rd ra : BitVec 5) (code : BitVec 12)
  /-- BREAK (R91). -/
  | brk (t : ThreadId) (rd ra : BitVec 5) (code : BitVec 12)
  /-- RETX (R149). -/
  | retx (t : ThreadId) (rd ra : BitVec 5) (sr : BitVec 12)
  /-- WAIT (R93). -/
  | wait (t : ThreadId) (rd ra : BitVec 5) (sr : BitVec 12)
  /-- WAIT_WAKE (R93). -/
  | waitWake (t : ThreadId)
  /-- FENCE (R53). -/
  | fence (t : ThreadId) (rd ra : BitVec 5) (sr : BitVec 12)
  /-- DFENCE (R55). -/
  | dfence (t : ThreadId) (rd ra : BitVec 5) (sr : BitVec 12)
  /-- ISYNC (R95). -/
  | isync (t : ThreadId) (rd ra : BitVec 5) (sr : BitVec 12)
  /-- TSYNC (R96). -/
  | tsync (t : ThreadId) (rd ra : BitVec 5) (sr : BitVec 12)
  /-- PREFR (R97). -/
  | prefr (t : ThreadId) (ra : BitVec 5) (imm : BitVec 16)
  /-- PREFW (R97). -/
  | prefw (t : ThreadId) (ra : BitVec 5) (imm : BitVec 16)
  /-- PREFI (R97). -/
  | prefi (t : ThreadId) (ra : BitVec 5) (imm : BitVec 16)
  /-- CLEAN (R97). -/
  | clean (t : ThreadId) (ra : BitVec 5) (imm : BitVec 16)
  /-- FLUSH (R97). -/
  | flush (t : ThreadId) (ra : BitVec 5) (imm : BitVec 16)
  /-- INVAL (R97). -/
  | inval (t : ThreadId) (ra : BitVec 5) (imm : BitVec 16)
  /-- ZERO (R97). -/
  | zero (t : ThreadId) (ra : BitVec 5) (imm : BitVec 16)
  /-- IINV (R97). -/
  | iinv (t : ThreadId) (ra : BitVec 5) (imm : BitVec 16)
  /-- TINV_PAGE (R99). -/
  | tinvPage (t : ThreadId) (rd ra rb : BitVec 5) (loc : Bool) (z : BitVec 7)
  /-- TINV_PAGEANY (R99). -/
  | tinvPageany (t : ThreadId) (rd ra rb : BitVec 5) (loc : Bool) (z : BitVec 7)
  /-- TINV_SPACE (R99). -/
  | tinvSpace (t : ThreadId) (rd ra rb : BitVec 5) (loc : Bool) (z : BitVec 7)
  /-- TINV_STAGE1 (R99). -/
  | tinvStage1 (t : ThreadId) (rd ra rb : BitVec 5) (loc : Bool) (z : BitVec 7)
  /-- TINV_GPAGE (R99). -/
  | tinvGpage (t : ThreadId) (rd ra rb : BitVec 5) (loc : Bool) (z : BitVec 7)
  /-- TINV_GUEST (R99). -/
  | tinvGuest (t : ThreadId) (rd ra rb : BitVec 5) (loc : Bool) (z : BitVec 7)
  /-- TINV_EVERY (R99). -/
  | tinvEvery (t : ThreadId) (rd ra rb : BitVec 5) (loc : Bool) (z : BitVec 7)
  /-- VINT (R113). -/
  | vint (t : ThreadId) (rd ra rb : BitVec 5) (fn : BitVec 11)
  /-- VFP (R114). -/
  | vfp (t : ThreadId) (rd ra rb : BitVec 5) (fn : BitVec 11)
  /-- SFP (R115). -/
  | sfp (t : ThreadId) (rd ra rb : BitVec 5) (fn : BitVec 11)
  /-- FMA (R116). -/
  | fma (t : ThreadId) (rd ra rb : BitVec 5) (fn : BitVec 11)
  /-- VCVT (R117). -/
  | vcvt (t : ThreadId) (rd ra rb : BitVec 5) (fn : BitVec 11)
  /-- VPERM (R118). -/
  | vperm (t : ThreadId) (rd ra rb : BitVec 5) (fn : BitVec 11)
  /-- VCMP (R119). -/
  | vcmp (t : ThreadId) (cd : BitVec 3) (cc : BitVec 4) (va vb : BitVec 5) (et mk z : BitVec 3)
  /-- FCMP (R120). -/
  | fcmp (t : ThreadId) (cd : BitVec 3) (cc : BitVec 4) (va vb : BitVec 5) (ft : BitVec 2) (z : BitVec 7)
  /-- MOP (R121). -/
  | mop (t : ThreadId) (rd ra rb : BitVec 5) (fn : BitVec 11)
  /-- VLD (R122). -/
  | vld (t : ThreadId) (rd ra : BitVec 5) (imm : BitVec 16)
  /-- VST (R122). -/
  | vst (t : ThreadId) (rd ra : BitVec 5) (imm : BitVec 16)
  /-- VMEM (R123). -/
  | vmem (t : ThreadId) (rd ra rb : BitVec 5) (fn : BitVec 11)
  /-- INTERRUPT_TAKEN (R145). -/
  | interruptTaken (t : ThreadId)
  /-- MACHINE_CHECK_TAKEN (R145). -/
  | machineCheckTaken (t : ThreadId)
  /-- ICCLAIM_READ (R155). -/
  | icclaimRead (t : ThreadId) (view : View) (rd : BitVec 5)
  /-- ICCFG_WRITE (R152). -/
  | iccfgWrite (t : ThreadId) (view : View) (ra : BitVec 5)
  /-- ICIPI_WRITE (R158). -/
  | icipiWrite (t : ThreadId) (view : View) (ra : BitVec 5)
  /-- DOORBELL_WRITE (R156). -/
  | doorbellWrite (t : ThreadId) (data : BitVec 32) (size : Nat) (init : BitVec 4)
  /-- UNIT_IPI (R159). -/
  | unitIpi (skt : BitVec 4) (t : ThreadId) (vec : BitVec 10)
  /-- TIMER_FIRE (R160). -/
  | timerFire (t : ThreadId) (k : Timer)
  /-- RESEED_F (R170). -/
  | reseedF (c : CoreId) (m : Master)
  /-- RESEED_H (R170). -/
  | reseedH (c : CoreId) (m : Master)
  /-- BTB_FLUSH (R170). -/
  | btbFlush (c : CoreId) (m : Master)
  /-- CORE_CFG_WRITE (R185). -/
  | coreCfgWrite (c : CoreId) (v : BitVec 32) (m : Master)
  /-- CORE_PLUMB_WRITE (R177). -/
  | corePlumbWrite (c : CoreId) (v : BitVec 32) (m : Master)
  /-- ATS_TRANSLATION_REQUEST (R212). -/
  | atsTranslationRequest (n : PortId) (rid : BitVec 16) (psid : Option (BitVec 20)) (priv : Bool) (addr : Dword)
  /-- IOT_INV_ALL (R215). -/
  | iotInvAll (u : Fin 2) (m : Master)
  /-- IOT_INV_DEVICE (R215). -/
  | iotInvDevice (u : Fin 2) (rid : BitVec 16) (m : Master)
  /-- IOT_INV_DOMAIN (R215). -/
  | iotInvDomain (u : Fin 2) (dom : BitVec 12) (m : Master)
  /-- IOT_INV_PSID (R215). -/
  | iotInvPsid (u : Fin 2) (dom : BitVec 12) (psid : BitVec 20) (m : Master)
  /-- IOT_INV_PSID_ADDR (R215). -/
  | iotInvPsidAddr (u : Fin 2) (dom : BitVec 12) (psid : BitVec 20) (addr : Dword) (m : Master)
  /-- IOT_INV_DOMAIN_ADDR (R215). -/
  | iotInvDomainAddr (u : Fin 2) (dom : BitVec 12) (addr : Dword) (m : Master)
  /-- IOT_INV_COMPLETE (R215). -/
  | iotInvComplete (u : Fin 2)
  /-- ATS_INVALIDATION_COMPLETION (R215). -/
  | atsInvalidationCompletion (u : Fin 2) (rid : BitVec 16)
  /-- ATS_TIMEOUT (R215). -/
  | atsTimeout (u : Fin 2) (rid : BitVec 16)
  /-- MERGE_DRAIN (R223). -/
  | mergeDrain (c : CoreId) (idx : Nat)
  /-- HW_PREFETCH (R243). -/
  | hwPrefetch (t : ThreadId) (va : Dword) (toL2 : Bool)
  /-- LLC_WAYPWR_WRITE (R238). -/
  | llcWaypwrWrite (k : SliceId) (on : BitVec 4) (m : Master)
  /-- WAY_GROUP_CLEANED (R238). -/
  | wayGroupCleaned (k : SliceId) (g : Fin 4)
  /-- WAY_GROUP_WOKEN (R239). -/
  | wayGroupWoken (k : SliceId) (g : Fin 4)
  /-- LLC_MAINT_CLEAN (R242). -/
  | llcMaintClean (k : SliceId) (groups : BitVec 4) (m : Master)
  /-- LLC_MAINT_FLUSH (R242). -/
  | llcMaintFlush (k : SliceId) (groups : BitVec 4) (m : Master)
  /-- LLC_SWEEP_DONE (R242). -/
  | llcSweepDone (k : SliceId)
  /-- EPOCH_TICK (R263). -/
  | epochTick
  /-- TICK_LOST (R270). -/
  | tickLost (tile : TileId)
  /-- TORUS_CRC_ERROR (R253). -/
  | torusCrcError (tile : TileId) (port : Fin 4) (times : Nat)
  /-- FAB_STAT_CLEAR (R280). -/
  | fabStatClear (tile : TileId) (freeze : Bool) (m : Master)
  /-- RDS (R289). -/
  | rds (q : Msg)
  /-- RDO (R289). -/
  | rdo (q : Msg)
  /-- UPG (R291). -/
  | upg (q : Msg)
  /-- OWN (R289). -/
  | own (q : Msg)
  /-- RDNA (R293). -/
  | rdna (q : Msg)
  /-- WRNA (R294). -/
  | wrna (q : Msg)
  /-- WRNAP (R294). -/
  | wrnap (q : Msg)
  /-- WBM (R290). -/
  | wbm (q : Msg)
  /-- WBC (R290). -/
  | wbc (q : Msg)
  /-- AMOF (R297). -/
  | amof (q : Msg)
  /-- PWT (R290). -/
  | pwt (q : Msg)
  /-- CMOC (R289). -/
  | cmoc (q : Msg)
  /-- CMOF (R289). -/
  | cmof (q : Msg)
  /-- CMOI (R289). -/
  | cmoi (q : Msg)
  /-- CMOII (R289). -/
  | cmoii (q : Msg)
  /-- DRD (R380). -/
  | drd (q : Msg)
  /-- DWR (R380). -/
  | dwr (q : Msg)
  /-- MRD (R324). -/
  | mrd (q : Msg)
  /-- MWR (R324). -/
  | mwr (q : Msg)
  /-- MPWT (R335). -/
  | mpwt (q : Msg)
  /-- SNPS (R292). -/
  | snps (q : Msg)
  /-- SNPO (R292). -/
  | snpo (q : Msg)
  /-- SNPI (R292). -/
  | snpi (q : Msg)
  /-- SNPNA (R292). -/
  | snpna (q : Msg)
  /-- SNPC (R292). -/
  | snpc (q : Msg)
  /-- SNPF (R292). -/
  | snpf (q : Msg)
  /-- SNPII (R292). -/
  | snpii (q : Msg)
  /-- SNPBI (R286). -/
  | snpbi (q : Msg)
  /-- TINV (R206). -/
  | tinv (q : Msg) (core : CoreId)
  /-- IPI (R158). -/
  | ipi (skt : BitVec 4) (t : ThreadId) (vec : BitVec 10) (level : Level) (vm : Bool) (vmid : BitVec 12)
  /-- DS (R289). -/
  | ds (q : Msg)
  /-- DE (R289). -/
  | de (q : Msg)
  /-- DM (R289). -/
  | dm (q : Msg)
  /-- DNA (R293). -/
  | dna (q : Msg)
  /-- GNT (R294). -/
  | gnt (q : Msg)
  /-- ACKI (R289). -/
  | acki (q : Msg)
  /-- ACKS (R289). -/
  | acks (q : Msg)
  /-- ACKO (R289). -/
  | acko (q : Msg)
  /-- ACKE (R289). -/
  | acke (q : Msg)
  /-- SDAT (R289). -/
  | sdat (q : Msg)
  /-- CACK (R291). -/
  | cack (q : Msg)
  /-- CMP_RESPONSE (R287). -/
  | cmpResponse (q : Msg)
  /-- AMOR (R297). -/
  | amor (q : Msg)
  /-- PACK (R290). -/
  | pack (q : Msg)
  /-- VIS (R294). -/
  | vis (q : Msg)
  /-- DRDR (R287). -/
  | drdr (q : Msg)
  /-- WAIT_LIST_START (R282). -/
  | waitListStart (k : SliceId) (line : BitVec 46)
  /-- HOME_TIMEOUT (R307). -/
  | homeTimeout (k : SliceId) (line : BitVec 46)
  /-- DEFERRAL_END (R304). -/
  | deferralEnd (c : CoreId) (line : BitVec 46)
  /-- CORE_DRAIN_TIMEOUT (R309). -/
  | coreDrainTimeout (c : CoreId)
  /-- CHANNEL_TRAINED (R320). -/
  | channelTrained (c : ChanId) (ok : Bool) (speed ranks dpc gb : Nat)
  /-- ILV_COMMIT (R323). -/
  | ilvCommit (m : Master)
  /-- ILV_APPLY (R323). -/
  | ilvApply
  /-- REFRESH_BOUNDARY (R551). -/
  | refreshBoundary (c : ChanId)
  /-- SCRUB_STEP (R331). -/
  | scrubStep (c : ChanId) (ce ue : BitVec 4) (rank device : Nat)
  /-- RETRAIN_DONE (R332). -/
  | retrainDone (c : ChanId) (retries : Nat) (ok : Bool)
  /-- SPARING_COPY_DONE (R333). -/
  | sparingCopyDone (c : SpareCopy)
  /-- PWB_DRAIN (R335). -/
  | pwbDrain (d : BufDrain)
  /-- VAR_CTL_WRITE (R336). -/
  | varCtlWrite (idx : Fin 8) (arm : Bool) (m : Master)
  /-- PWRFAIL_N_FALL (R337). -/
  | pwrfailNFall
  /-- GPF_PHASE1_ACK (R337). -/
  | gpfPhase1Ack
  /-- GPF_PHASE2_DONE (R337). -/
  | gpfPhase2Done
  /-- GPF_TIMEOUT (R337). -/
  | gpfTimeout (groups : BitVec 8)
  /-- FLUSHDONE (R337). -/
  | flushdone
  /-- FLUSH_PROGRESS_REPORT (R339). -/
  | flushProgressReport
  /-- FLUSH_DOMAIN_SILENT (R339). -/
  | flushDomainSilent
  /-- PWRFAIL_N_RISE (R340). -/
  | pwrfailNRise
  /-- VDD_BASE_LOW (R578). -/
  | vddBaseLow
  /-- ENUM_START (R345). -/
  | enumStart
  /-- ENUM_ASSIGN (R345). -/
  | enumAssign (frame : BitVec 28)
  /-- ENUM_COMMIT (R345). -/
  | enumCommit (frame : BitVec 28)
  /-- ENUM_TIMEOUT (R346). -/
  | enumTimeout
  /-- RECEIVER_DETECT (R350). -/
  | receiverDetect (d : Fin 4)
  /-- LINK_TRAINED (R350). -/
  | linkTrained (d : Fin 4) (own partner : BitVec 12)
  /-- LINK_CHECK (R349). -/
  | linkCheck (d : Fin 4) (id link cnt tag : Nat) (last : CheckEnd)
  /-- LINK_TRAIN_TIMEOUT (R350). -/
  | linkTrainTimeout (d : Fin 4)
  /-- RETRAIN_LOCK (R350). -/
  | retrainLock (d : Fin 4) (own partner : BitVec 12)
  /-- RETRAIN_FAIL (R350). -/
  | retrainFail (d : Fin 4)
  /-- DVT_CTL_RETRAIN (R356). -/
  | dvtCtlRetrain (d : Fin 4) (m : Master)
  /-- DVT_CTL_EN_WRITE (R350). -/
  | dvtCtlEnWrite (d : Fin 4) (en : Bool) (m : Master)
  /-- PROPOSE (R359). -/
  | propose (d : Fin 4) (id : BitVec 4) (width group : BitVec 2)
  /-- DVT_FLIT (R354). -/
  | dvtFlit (d : Fin 4) (f : RxFlit)
  /-- NAK (R354). -/
  | nak (d : Fin 4) (ack : BitVec 12)
  /-- LINK_STATE_MESSAGE (R361). -/
  | linkStateMessage (d : Fin 4) (skt up : BitVec 4) (weight : Nat) (sum : BitVec 32)
  /-- ISOLATION_HOLD (R367). -/
  | isolationHold
  /-- DRAIN (R362). -/
  | drain (e : Ends) (cls : Fin 3)
  /-- DRAINACK (R362). -/
  | drainack (e : Ends) (cls : Fin 3)
  /-- REINJECTED_MESSAGE (R364). -/
  | reinjectedMessage (d : Detour) (seq : BitVec 12) (q : Msg)
  /-- REINJEND (R364). -/
  | reinjend (d : Detour) (cls : Fin 3)
  /-- TIME_BROADCAST (R369). -/
  | timeBroadcast
  /-- TIME_MESSAGE (R369). -/
  | timeMessage (d : Fin 4) (ref : Dword) (shares : List Nat)
  /-- TIMEOUT_REPORT (R368). -/
  | timeoutReport (e : Ends) (line : BitVec 46) (tile : TileId) (init : BitVec 4)
  /-- ILV_MISMATCH (R372). -/
  | ilvMismatch (skt : BitVec 4)
  /-- PCIE_COMPLETION (R381). -/
  | pcieCompletion (n : PortId) (tag : BitVec 8) (st : CplStatus) (data : Vec) (pois : Bool)
  /-- COMPLETION_TIMEOUT (R381). -/
  | completionTimeout (n : PortId) (tag : BitVec 8)
  /-- INBOUND_MEMORY_READ (R382). -/
  | inboundMemoryRead (r : InReq) (len : Nat)
  /-- INBOUND_MEMORY_WRITE (R382). -/
  | inboundMemoryWrite (r : InReq) (data : List (Option Byte)) (pois : Bool)
  /-- INBOUND_ATOMICOP (R377). -/
  | inboundAtomicop (n : PortId)
  /-- PORT_RECEIVER_DETECT (R398). -/
  | portReceiverDetect (n : PortId)
  /-- PORT_TRAINED (R398). -/
  | portTrained (n : PortId) (speed width : Nat) (flit : Bool)
  /-- PORT_RECOVERY (R398). -/
  | portRecovery (n : PortId)
  /-- RECOVERY_DONE (R398). -/
  | recoveryDone (n : PortId) (ok : Bool) (speed width : Nat)
  /-- PORT_L1_ENTRY (R398). -/
  | portL1Entry (n : PortId)
  /-- PORT_L1_EXIT (R398). -/
  | portL1Exit (n : PortId)
  /-- PORT_LINK_DOWN (R386). -/
  | portLinkDown (n : PortId)
  /-- CONTAINMENT_TRIGGER (R388). -/
  | containmentTrigger (n : PortId) (cause : ContainCause)
  /-- PCI_PORT_RELEASE (R388). -/
  | pciPortRelease (n : PortId) (m : Master)
  /-- PCI_PORT_RETRAIN (R398). -/
  | pciPortRetrain (n : PortId) (m : Master)
  /-- PCI_PORT_EN_WRITE (R398). -/
  | pciPortEnWrite (n : PortId) (en : Bool) (m : Master)
  /-- PCI_GRP_RST_WRITE (R397). -/
  | pciGrpRstWrite (g : Fin 8) (rst : Bool) (m : Master)
  /-- EP_HDB_WRITE (R394). -/
  | epHdbWrite (v : BitVec 10)
  /-- EP_HINT_WRITE (R394). -/
  | epHintWrite (v : BitVec 32) (m : Master)
  /-- BME_CLEAR (R395). -/
  | bmeClear
  /-- BME_SET (R395). -/
  | bmeSet
  /-- FLR_INITIATE (R396). -/
  | flrInitiate
  /-- FLR_COMPLETE (R396). -/
  | flrComplete
  /-- HOT_RESET (R396). -/
  | hotReset
  /-- PERST_CHANGE (R575). -/
  | perstChange (low : Bool)
  /-- MAC_SIGNAL_DETECT (R403). -/
  | macSignalDetect (m : Fin 16)
  /-- AN_RESOLVED (R403). -/
  | anResolved (m : Fin 16) (rate : Nat)
  /-- MAC_TRAINED (R403). -/
  | macTrained (m : Fin 16)
  /-- MAC_LOCK_LOST (R403). -/
  | macLockLost (m : Fin 16)
  /-- NET_MAC_CFG_WRITE (R401). -/
  | netMacCfgWrite (k : Fin 16) (v : BitVec 32) (m : Master)
  /-- FRAME_RECEIVED (R407). -/
  | frameReceived (m : Fin 16) (data : List Byte) (unc corr : Nat)
  /-- PAUSE_RECEIVED (R402). -/
  | pauseReceived (m : Fin 16) (quanta : BitVec 16)
  /-- RX_DELIVERY (R422). -/
  | rxDelivery (q : BitVec 14)
  /-- RXWAIT_EXPIRY (R433). -/
  | rxwaitExpiry (q : BitVec 14)
  /-- DESCRIPTOR_FETCH (R421). -/
  | descriptorFetch (q : BitVec 14)
  /-- TX_FRAME_DEPART (R434). -/
  | txFrameDepart (n : Fin 32)
  /-- COALESCE_TIMER (R426). -/
  | coalesceTimer (q : BitVec 14)
  /-- PRODUCER_DOORBELL (R420). -/
  | producerDoorbell (q : BitVec 14) (v : BitVec 32) (size : Nat) (vmid : BitVec 12) (host : Bool) (init : BitVec 4)
  /-- COMPLETION_DOORBELL (R420). -/
  | completionDoorbell (q : BitVec 14) (v : BitVec 32) (size : Nat) (vmid : BitVec 12) (host : Bool) (init : BitVec 4)
  /-- QUEUE_ENABLE (R419). -/
  | queueEnable (q : BitVec 14) (clr : Bool) (m : Master)
  /-- QUEUE_DISABLE (R419). -/
  | queueDisable (q : BitVec 14) (clr : Bool) (m : Master)
  /-- QUEUE_READ (R419). -/
  | queueRead (q : BitVec 14) (clr : Bool) (m : Master)
  /-- QUEUE_ABORT (R419). -/
  | queueAbort (q : BitVec 14) (clr : Bool) (m : Master)
  /-- QUEUE_DISABLED (R419). -/
  | queueDisabled (q : BitVec 14)
  /-- FLOWCMD_BUCKET (R417). -/
  | flowcmdBucket (b : BitVec 16) (m : Master)
  /-- FLOWCMD_ALL (R417). -/
  | flowcmdAll (m : Master)
  /-- FLOWCMD_DONE (R417). -/
  | flowcmdDone
  /-- NET_CTL_RST (R438). -/
  | netCtlRst (rst : Bool) (m : Master)
  /-- DESCRIPTOR_ABANDON (R427). -/
  | descriptorAbandon (q : BitVec 14)
  /-- KEY_LOAD (R445). -/
  | keyLoad (k : BitVec 13) (m : Master)
  /-- KEY_ERASE (R445). -/
  | keyErase (k : BitVec 13) (m : Master)
  /-- KEY_ERASE_ALL (R445). -/
  | keyEraseAll (m : Master)
  /-- KEY_CMD_DONE (R447). -/
  | keyCmdDone
  /-- VEN_CREATE (R462). -/
  | venCreate (idx : BitVec 10) (m : Master)
  /-- VEN_RESET (R478). -/
  | venReset (idx : BitVec 10) (m : Master)
  /-- VEN_DESTROY (R478). -/
  | venDestroy (idx : BitVec 10) (m : Master)
  /-- VEN_REVOKE (R474). -/
  | venRevoke (idx : BitVec 10) (res : BitVec 3) (m : Master)
  /-- VEN_MCMD_DONE (R478). -/
  | venMcmdDone (idx : BitVec 10)
  /-- VEN_QUOTA_WRITE (R464). -/
  | venQuotaWrite (idx : BitVec 10) (r : QuotaReg) (v : BitVec 32) (m : Master)
  /-- VEN_QUEUE_ENABLE (R467). -/
  | venQueueEnable (idx : BitVec 10) (index : BitVec 18) (m : Master)
  /-- VEN_QUEUE_DISABLE (R467). -/
  | venQueueDisable (idx : BitVec 10) (index : BitVec 18) (m : Master)
  /-- VEN_QUEUE_READ (R467). -/
  | venQueueRead (idx : BitVec 10) (index : BitVec 18) (m : Master)
  /-- VEN_QUEUE_ABORT (R467). -/
  | venQueueAbort (idx : BitVec 10) (index : BitVec 18) (m : Master)
  /-- VEN_FLOW_INSTALL (R469). -/
  | venFlowInstall (idx : BitVec 10) (index : BitVec 18) (m : Master)
  /-- VEN_FLOW_REMOVE (R469). -/
  | venFlowRemove (idx : BitVec 10) (index : BitVec 18) (m : Master)
  /-- VEN_KEY_LOAD (R467). -/
  | venKeyLoad (idx : BitVec 10) (index : BitVec 18) (m : Master)
  /-- VEN_KEY_ERASE (R467). -/
  | venKeyErase (idx : BitVec 10) (index : BitVec 18) (m : Master)
  /-- VEN_COUNTER_BIND (R470). -/
  | venCounterBind (idx : BitVec 10) (index : BitVec 18) (m : Master)
  /-- VEN_COUNTER_UNBIND (R470). -/
  | venCounterUnbind (idx : BitVec 10) (index : BitVec 18) (m : Master)
  /-- OUTSEND (R476). -/
  | outsend (idx : BitVec 10) (m : Master)
  /-- OUTACK (R476). -/
  | outack (idx : BitVec 10) (m : Master)
  /-- INSEND (R476). -/
  | insend (idx : BitVec 10) (m : Master)
  /-- INACK (R476). -/
  | inack (idx : BitVec 10) (m : Master)
  /-- STANDBY_POWER_ON (R577). -/
  | standbyPowerOn (bak : Bool)
  /-- STBY_SWITCH_TO_BAK (R484). -/
  | stbySwitchToBak
  /-- STBY_SWITCH_BACK (R484). -/
  | stbySwitchBack
  /-- STANDBY_LOSS (R484). -/
  | standbyLoss
  /-- REFCLK_LOSS (R487). -/
  | refclkLoss
  /-- REFCLK_RETURN (R487). -/
  | refclkReturn
  /-- CAPPING_ITERATION (R489). -/
  | cappingIteration (power avg steps : Nat)
  /-- VRHOT_ASSERT (R491). -/
  | vrhotAssert
  /-- VRHOT_RELEASE (R491). -/
  | vrhotRelease
  /-- PWR_PL_WRITE (R488). -/
  | pwrPlWrite (w : BitVec 32) (m : Master)
  /-- CLK_ALLCORE_WRITE (R505). -/
  | clkAllcoreWrite (fmax fmin : BitVec 8) (m : Master)
  /-- TILE_OFF_REQUEST (R493). -/
  | tileOffRequest (tile : TileId) (off : Bool) (m : Master)
  /-- PWR_BOFF_WRITE (R493). -/
  | pwrBoffWrite (off : BitVec 27) (m : Master)
  /-- PWR_C_MODE_WRITE (R494). -/
  | pwrCModeWrite (c : CoreId) (mode : BitVec 2) (idlet : BitVec 16) (m : Master)
  /-- CORE_IDLE_OFF (R494). -/
  | coreIdleOff (c : CoreId)
  /-- CORE_WAKE (R495). -/
  | coreWake (c : CoreId)
  /-- CORE_RESET (R496). -/
  | coreReset (c : CoreId) (m : Master)
  /-- TILE_RESET (R496). -/
  | tileReset (tile : TileId) (m : Master)
  /-- RSTIN_N_FALL (R496). -/
  | rstinNFall (long : Bool)
  /-- RSTIN_N_RISE (R497). -/
  | rstinNRise (master : Bool)
  /-- BOOT_CORE_RELEASE (R497). -/
  | bootCoreRelease
  /-- RECOVERY_IMAGE (R498). -/
  | recoveryImage (idx : Image)
  /-- CORE_START (R506). -/
  | coreStart (t : ThreadId) (pc : Dword) (m : Master)
  /-- LOG_READ (R506). -/
  | logRead (n : BitVec 32) (m : Master)
  /-- WARM_RESET (R506). -/
  | warmReset (whole : Bool) (m : Master)
  /-- THERMAL_SAMPLE (R581). -/
  | thermalSample (readings : List Nat)
  /-- THERMAL_RECOVER (R581). -/
  | thermalRecover (d : Fin 4)
  /-- WINDOW_EXPIRY (R515). -/
  | windowExpiry (tile : TileId) (src : Fin 16)
  /-- ESCALATION_START (R519). -/
  | escalationStart (tile : TileId)
  /-- FIELD_TEST_START (R526). -/
  | fieldTestStart
  /-- CORE_TEST_DONE (R527). -/
  | coreTestDone (c : CoreId) (res : TestRes)
  /-- SLICE_TEST_DONE (R528). -/
  | sliceTestDone (k : SliceId) (bad : BitVec 16)
  /-- PRM_TEST_CORE (R538). -/
  | prmTestCore (target : BitVec 9) (m : Master)
  /-- PRM_TEST_SLICE (R538). -/
  | prmTestSlice (target : BitVec 9) (m : Master)
  /-- PRM_SPARE_CORE (R538). -/
  | prmSpareCore (target : BitVec 9) (m : Master)
  /-- PRM_SLICE_OUT (R538). -/
  | prmSliceOut (target : BitVec 9) (m : Master)
  /-- PRM_FULL_TEST (R525). -/
  | prmFullTest (m : Master)
  /-- PRM_RESTORE_CORE (R530). -/
  | prmRestoreCore (target : BitVec 9) (m : Master)
  /-- PRM_RESTORE_SLICE (R530). -/
  | prmRestoreSlice (target : BitVec 9) (m : Master)
  /-- PRM_AUDIT (R535). -/
  | prmAudit (m : Master)
  /-- AUDIT_QUIESCENT (R535). -/
  | auditQuiescent
  /-- AUDIT_TIMEOUT (R535). -/
  | auditTimeout
  /-- VOTE_SCRUB (R548). -/
  | voteScrub (tile : TileId) (page : BitVec 12) (word : BitVec 10) (copy : Fin 3) (diff : BitVec 32)
  /-- RAS_LOG_READ (R514). -/
  | rasLogRead (tile : TileId) (idx : BitVec 3) (m : Master)
  /-- PERF_CTL_CLR (R559). -/
  | perfCtlClr (tile : TileId) (freeze : Bool) (m : Master)
  /-- PERF_GCTL_WRITE (R560). -/
  | perfGctlWrite (run clrall snap : Bool) (m : Master)
  /-- SNAPSHOT_DUE (R561). -/
  | snapshotDue
  /-- SNAPSHOT_DONE (R561). -/
  | snapshotDone
  /-- BW_SELECT_WRITE (R562). -/
  | bwSelectWrite (b : BitVec 4) (v : BitVec 32) (m : Master)
  /-- BW_WINDOW_END (R562): `n` more windows pass and end with it. -/
  | bwWindowEnd (b : BitVec 4) (n : Nat)
  /-- REGISTER_WRITE (R9). -/
  | registerWrite (tile : TileId) (page off : BitVec 12) (size : Nat) (v : Vec) (m : Master)
  /-- DVT_LANE_LOCK_LOSS (R356). -/
  | dvtLaneLockLoss (d : Fin 4)
  /-- CXL_MEM_RESPONSE (R334). -/
  | cxlMemResponse (g : Fin 8) (data : Vec) (pois : Bool)
  /-- CHANNEL_READ_DONE (R324). -/
  | channelReadDone (c : ChanId) (ce ue : BitVec 4) (rank device : Nat)
  /-- WRITE_QUEUE_DRAIN (R327). -/
  | writeQueueDrain (c : ChanId)
  /-- PAUSE_QUANTA_EXPIRY (R402). -/
  | pauseQuantaExpiry (m : Fin 16)
  /-- BOOT_HOLD_RELEASE (R580). -/
  | bootHoldRelease
  /-- BOOT_IMAGE_CHECKED (R498). -/
  | bootImageChecked (primary backup : FlashRead)
  /-- PRIMER_BOOT_CHECKS_DONE (R524). -/
  | primerBootChecksDone (cores slices : List Nat)
  deriving DecidableEq, Repr

end Sys2Proof
end

