-- ==== Sys2Proof/Decode.lean ====
section
/-!
DEFINITION. Commands from words. The opcode table gives its rows no bits: the commands of this block are events, messages and
register writes, and a thread's instruction comes with its fields; so no table word spells a command. A thread's instruction
word of 32 bits does (R63 to R66, R112): `decodeWord` reads its major opcode and the fields of its format.
-/
namespace Sys2Proof
open Machine

/-- The command that the `nbits` bits of a table word spell: none, for no row of the table has bits. -/
def decodeTableWord (_nbits _w : Nat) : Option Instr := none

/-- Bits `hi` to `lo` of an instruction word. -/
def wordBits (w : BitVec 32) (hi lo : Nat) : BitVec (hi - lo + 1) := w.extractLsb' lo (hi - lo + 1)

/-- The fields of formats A, I and S (R63). -/
def wRd (w : BitVec 32) : BitVec 5 := wordBits w 25 21
def wRa (w : BitVec 32) : BitVec 5 := wordBits w 20 16
def wRb (w : BitVec 32) : BitVec 5 := wordBits w 15 11
def wFn (w : BitVec 32) : BitVec 11 := wordBits w 10 0
def wImm (w : BitVec 32) : BitVec 16 := wordBits w 15 0
def wSr (w : BitVec 32) : BitVec 12 := wordBits w 15 4

/-- ORD (R77): fn[2] tells a release store from an acquire load. -/
def decodeOrd (t : ThreadId) (w : BitVec 32) : Instr :=
  if w.getLsbD 2 then .stl t (wRd w) (wRa w) (wRb w) (wordBits w 1 0) (w.getLsbD 3) (wordBits w 10 4)
  else .ldAq t (wRd w) (wRa w) (wRb w) (wordBits w 1 0) (w.getLsbD 3) (wordBits w 10 4)

/-- CMO (R97): the rd field is the function. -/
def decodeCmo (t : ThreadId) (w : BitVec 32) : Option Instr :=
  match (wRd w).toNat with
  | 0 => some (.prefr t (wRa w) (wImm w))
  | 1 => some (.prefw t (wRa w) (wImm w))
  | 2 => some (.prefi t (wRa w) (wImm w))
  | 3 => some (.clean t (wRa w) (wImm w))
  | 4 => some (.flush t (wRa w) (wImm w))
  | 5 => some (.inval t (wRa w) (wImm w))
  | 6 => some (.zero t (wRa w) (wImm w))
  | 7 => some (.iinv t (wRa w) (wImm w))
  | _ => none

/-- TLBM (R99): fn[2:0] is the scope. -/
def decodeTlbm (t : ThreadId) (w : BitVec 32) : Option Instr :=
  let loc := w.getLsbD 3
  let z : BitVec 7 := wordBits w 10 4
  match (wordBits w 2 0).toNat with
  | 0 => some (.tinvPage t (wRd w) (wRa w) (wRb w) loc z)
  | 1 => some (.tinvPageany t (wRd w) (wRa w) (wRb w) loc z)
  | 2 => some (.tinvSpace t (wRd w) (wRa w) (wRb w) loc z)
  | 3 => some (.tinvStage1 t (wRd w) (wRa w) (wRb w) loc z)
  | 4 => some (.tinvGpage t (wRd w) (wRa w) (wRb w) loc z)
  | 5 => some (.tinvGuest t (wRd w) (wRa w) (wRb w) loc z)
  | 6 => some (.tinvEvery t (wRd w) (wRa w) (wRb w) loc z)
  | _ => none

/-- SYS (R88): fn is the instruction. -/
def decodeSys (t : ThreadId) (w : BitVec 32) : Option Instr :=
  match (wordBits w 3 0).toNat with
  | 0 => some (.srd t (wRd w) (wRa w) (wSr w))
  | 1 => some (.swr t (wRd w) (wRa w) (wSr w))
  | 2 => some (.srset t (wRd w) (wRa w) (wSr w))
  | 3 => some (.srclr t (wRd w) (wRa w) (wSr w))
  | 4 => some (.trap t (wRd w) (wRa w) (wSr w))
  | 5 => some (.brk t (wRd w) (wRa w) (wSr w))
  | 6 => some (.retx t (wRd w) (wRa w) (wSr w))
  | 7 => some (.wait t (wRd w) (wRa w) (wSr w))
  | 8 => some (.fence t (wRd w) (wRa w) (wSr w))
  | 9 => some (.dfence t (wRd w) (wRa w) (wSr w))
  | 10 => some (.isync t (wRd w) (wRa w) (wSr w))
  | 11 => some (.tsync t (wRd w) (wRa w) (wSr w))
  | _ => none

/-- The command that an instruction word of thread `t` stands for (R66, R112); none for a word with a reserved major opcode or
function code (R64). Reserved fields go with the command, whose meaning checks them. -/
def decodeWord (t : ThreadId) (w : BitVec 32) : Option Instr :=
  match (wordBits w 31 26).toNat with
  | 0x01 => some (.alu t (wRd w) (wRa w) (wRb w) (wFn w))
  | 0x02 => some (.sel t (wRd w) (wRa w) (wRb w) (wFn w))
  | 0x04 => some (.addi t (wRd w) (wRa w) (wImm w))
  | 0x05 => some (.andi t (wRd w) (wRa w) (wImm w))
  | 0x06 => some (.ori t (wRd w) (wRa w) (wImm w))
  | 0x07 => some (.xori t (wRd w) (wRa w) (wImm w))
  | 0x08 => some (.shi t (wRd w) (wRa w) (wImm w))
  | 0x09 => some (.lhi t (wRd w) (wRa w) (wImm w))
  | 0x0A => some (.insh t (wRd w) (wRa w) (wImm w))
  | 0x0B => some (.addpc t (wRd w) (wRa w) (wImm w))
  | 0x0C => some (.cmp t (wordBits w 25 23) (wordBits w 22 19) (wordBits w 18 14) (wordBits w 13 9) (wordBits w 8 0))
  | 0x0D => some (.cmpi t (wordBits w 25 23) (wordBits w 22 19) (wordBits w 18 14) (wordBits w 13 0))
  | 0x0E => some (.clog t (wordBits w 25 23) (wordBits w 22 19) (wordBits w 18 16) (wordBits w 13 11) (wordBits w 15 14)
      (wordBits w 10 0))
  | 0x10 => some (.ldb t (wRd w) (wRa w) (wImm w))
  | 0x11 => some (.ldbu t (wRd w) (wRa w) (wImm w))
  | 0x12 => some (.ldh t (wRd w) (wRa w) (wImm w))
  | 0x13 => some (.ldhu t (wRd w) (wRa w) (wImm w))
  | 0x14 => some (.ldw t (wRd w) (wRa w) (wImm w))
  | 0x15 => some (.ldwu t (wRd w) (wRa w) (wImm w))
  | 0x16 => some (.ldd t (wRd w) (wRa w) (wImm w))
  | 0x18 => some (.stb t (wRd w) (wRa w) (wImm w))
  | 0x19 => some (.sth t (wRd w) (wRa w) (wImm w))
  | 0x1A => some (.stw t (wRd w) (wRa w) (wImm w))
  | 0x1B => some (.std t (wRd w) (wRa w) (wImm w))
  | 0x1C => some (decodeOrd t w)
  | 0x1D => some (.amo t (wRd w) (wRa w) (wRb w) (wFn w))
  | 0x1E => decodeCmo t w
  | 0x1F => decodeTlbm t w
  | 0x20 => some (if w.getLsbD 22 then .brt t (wordBits w 25 23) (wordBits w 21 0) else .brf t (wordBits w 25 23) (wordBits w 21 0))
  | 0x21 => some (.jmp t (wordBits w 25 0))
  | 0x22 => some (.call t (wordBits w 25 0))
  | 0x23 => some (.jr t (wRd w) (wRa w) (wRb w) (wFn w))
  | 0x24 => some (.callr t (wRd w) (wRa w) (wRb w) (wFn w))
  | 0x28 => some (.loop t (w.getLsbD 25) (w.getLsbD 24) (wordBits w 23 12) (wordBits w 11 0))
  | 0x30 => decodeSys t w
  | 0x34 => some (.vint t (wRd w) (wRa w) (wRb w) (wFn w))
  | 0x35 => some (.vfp t (wRd w) (wRa w) (wRb w) (wFn w))
  | 0x36 => some (.sfp t (wRd w) (wRa w) (wRb w) (wFn w))
  | 0x37 => some (.fma t (wRd w) (wRa w) (wRb w) (wFn w))
  | 0x38 => some (.vcvt t (wRd w) (wRa w) (wRb w) (wFn w))
  | 0x39 => some (.vperm t (wRd w) (wRa w) (wRb w) (wFn w))
  | 0x3A => some (.vld t (wRd w) (wRa w) (wImm w))
  | 0x3B => some (.vst t (wRd w) (wRa w) (wImm w))
  | 0x3C => some (.vmem t (wRd w) (wRa w) (wRb w) (wFn w))
  | 0x3D => some (.vcmp t (wordBits w 25 23) (wordBits w 22 19) (wordBits w 18 14) (wordBits w 13 9) (wordBits w 8 6)
      (wordBits w 5 3) (wordBits w 2 0))
  | 0x3E => some (.fcmp t (wordBits w 25 23) (wordBits w 22 19) (wordBits w 18 14) (wordBits w 13 9) (wordBits w 8 7)
      (wordBits w 6 0))
  | 0x3F => some (.mop t (wRd w) (wRa w) (wRb w) (wFn w))
  | _ => none

end Sys2Proof
end

