-- ==== Sys2Proof/Machine/Lines.lean ====
section
/-!
DEFINITION. Bytes, masks and poison of 64-byte lines (R44, R234, R310), and the hashes over line
addresses (R219, R230, R283).
-/
namespace Sys2Proof.Machine

/-- Byte `i` of a vector or line (R44: the byte at the lowest address is least significant). -/
def vecByte (d : Vec) (i : Nat) : Byte := (d >>> (8 * i)).setWidth 8

/-- The bits that a byte mask selects. -/
def maskVec (m : Dword) : Vec :=
  BitVec.ofNat 512 ((List.range 64).foldl (fun a i => if m.getLsbD i then a + 255 * 2 ^ (8 * i) else a) 0)

/-- `new` in the bytes that `m` selects, `old` in the others. -/
def mergeVec (old new : Vec) (m : Dword) : Vec := (old &&& ~~~ maskVec m) ||| (new &&& maskVec m)

/-- The chunks that a mask covers completely. -/
def fullChunks (m : Dword) : BitVec 4 :=
  BitVec.ofNat 4 ((List.range 4).foldl
    (fun a c => if (m >>> (16 * c)).setWidth 16 = (0xFFFF : BitVec 16) then a + 2 ^ c else a) 0)

/-- The chunks that a mask touches. -/
def someChunks (m : Dword) : BitVec 4 :=
  BitVec.ofNat 4 ((List.range 4).foldl
    (fun a c => if (m >>> (16 * c)).setWidth 16 = (0 : BitVec 16) then a else a + 2 ^ c) 0)

/-- A write under a mask: a chunk written whole loses its poison, one written with its POISON bit set
becomes poisoned (R310, R330). -/
def Line.write (l : Line) (d : Vec) (m : Dword) (pois : BitVec 4 := 0) : Line :=
  { data := mergeVec l.data d m, pois := (l.pois &&& ~~~ fullChunks m) ||| (pois &&& someChunks m) }

/-- The mask of `n` bytes from byte `off` of a line. -/
def byteMask (off n : Nat) : Dword := BitVec.ofNat 64 ((2 ^ n - 1) * 2 ^ off)

/-- `n` bytes from byte `off`, as a number. -/
def Line.bytes (l : Line) (off n : Nat) : Nat := l.data.toNat / 2 ^ (8 * off) % 2 ^ (8 * n)

/-- Some chunk that holds one of these bytes is poisoned. -/
def Line.poisoned (l : Line) (off n : Nat) : Bool := l.pois &&& someChunks (byteMask off n) ≠ 0

/-- A line address field xor of 11-bit parts (R219). -/
def l2Set (a : Nat) : Nat := ((a % 2048) ^^^ (a / 2 ^ 11 % 2048)) ^^^ (a / 2 ^ 22 % 2048)
def llcSet (a : Nat) : Nat := ((a % 2048) ^^^ (a / 2 ^ 13 % 2048)) ^^^ (a / 2 ^ 26 % 2048)
/-- The directory set (R283). -/
def dirSet (a : Nat) : Nat := ((a % 4096) ^^^ (a / 2 ^ 12 % 4096)) ^^^ (a / 2 ^ 24 % 4096)
/-- The slot of a line (R230). -/
def homeSlot (a : Nat) : Nat :=
  (((a % 2 ^ 16) ^^^ (a / 2 ^ 16 % 2 ^ 16)) ^^^ (a / 2 ^ 32 % 2 ^ 14)) * 132 / 2 ^ 16

/-! ### Tree pseudo-LRU (R218) -/

/-- Use way `way` of `2 ^ d` ways: every node on its path points away from it. Bit `i` of `bits` is node `i` of the
tree, the root 1; a one points to the upper half. -/
def treeTouch (way : Nat) : Nat → Nat → Nat → Nat
  | 0, _, bits => bits
  | d + 1, node, bits =>
    let up := decide (way / 2 ^ d % 2 = 1)
    let b := if bits.testBit node = up then (if up then bits - 2 ^ node else bits + 2 ^ node) else bits
    treeTouch way d (2 * node + (if up then 1 else 0)) b

/-- The way that the tree points to, among those that `ok` admits (DESIGN CHOICE, notes/assumptions/75.md: a half
without an admitted way is passed over). -/
def treeVictim (ok : Nat → Bool) (bits : Nat) : Nat → Nat → Nat → Nat
  | 0, _, lo => lo
  | d + 1, node, lo =>
    let has (l : Nat) : Bool := (List.range (2 ^ d)).any (fun i => ok (l + i))
    let up := if has lo ∧ has (lo + 2 ^ d) then bits.testBit node else has (lo + 2 ^ d)
    if up then treeVictim ok bits d (2 * node + 1) (lo + 2 ^ d) else treeVictim ok bits d (2 * node) lo

/-- Does the cache hold the line? -/
def TagCache.has (c : TagCache) (line : Nat) : Bool := (c.tags.find? line).isSome
/-- The line leaves. -/
def TagCache.drop (c : TagCache) (line : Nat) : TagCache := { c with tags := c.tags.del line }

/-- The line is used in a cache of `2 ^ d` ways and `sets` sets indexed by the low bits of the line address: a line that
is absent takes a free way, else the way that the tree points to (R218). -/
def TagCache.use (sets d : Nat) (c : TagCache) (line : Nat) : TagCache :=
  let bits := c.tree.get 0 (line % sets)
  let inSet := c.tags.filter (fun e => e.1 % sets = line % sets)
  let free := (List.range (2 ^ d)).find? (fun w => !inSet.any (fun e => e.2 = w))
  let w := (c.tags.find? line).getD (free.getD (treeVictim (fun _ => true) bits d 1 0))
  { tags := Tab.put (c.tags.filter (fun e => !(decide (e.1 % sets = line % sets) && decide (e.2 = w)))) line w,
    tree := c.tree.put (line % sets) (treeTouch w d 1 bits) }

/-- A load or prefetch uses the L1 data cache: 128 sets of 8 ways. -/
def CoreSt.l1dUse (s : CoreSt) (line : Nat) : CoreSt := { s with l1d := s.l1d.use 128 3 line }
/-- A fetch uses the L1 instruction cache: 256 sets of 4 ways. -/
def CoreSt.l1iUse (s : CoreSt) (line : Nat) : CoreSt := { s with l1i := s.l1i.use 256 2 line }

/-- Number of ones among the low `n` bits. -/
def onesBelow (n x : Nat) : Nat := ((List.range n).filter (fun i => x.testBit i)).length

/-- The `k`-th one of `x`, counted from bit 0 upward (R321). -/
def nthOne (n x k : Nat) : Nat := ((List.range n).filter (fun i => x.testBit i)).getD k 0

end Sys2Proof.Machine
end

