-- ==== Sys2Proof/Machine/Regs.lean ====
section
/-!
DEFINITION. The control registers of every block, field by field, as the field tables of the
specification give them: the block, the offset of the register in its page, how many registers of
that name the page holds and their spacing, the bits, the access code of R9 and the reset value.
-/
namespace Sys2Proof.Machine

/-- Access codes of R9; FO and RWV are separate marks. -/
inductive Acc where | ro | rw | w1c | w1s | rwb
  deriving DecidableEq, Repr

/-- The blocks that own control pages (R21). -/
inductive Blk where
  /-- Palette, page 0x010 of tile D (R24) -/
  | pal
  /-- FAB_ page 0x000 of each tile (R279, R280) -/
  | fab
  /-- Stencil tables, pages 0x008 to 0x00C of each tile (R281) -/
  | stn
  /-- PERF_ page 0x004 of each tile (R553, R559) -/
  | perf
  /-- RAS_ page 0x006 of each tile (R536, R537) -/
  | ras
  /-- PWR_ page 0x007 of each tile (R504) -/
  | pwr
  /-- CLK_ page 0x00D of each tile (R504) -/
  | clk
  /-- LLC_ page 0x002 of a core tile (R244, R245) -/
  | llc
  /-- COH_ page 0x003 of a core tile (R317, R318) -/
  | coh
  /-- CORE_ page of a core (R184) -/
  | core
  /-- TLB_ page of a core (R200) -/
  | tlb
  /-- MC_ page of a channel (R342) -/
  | mc
  /-- interleave table, M0 page 0x020 (R342) -/
  | ilv
  /-- VAR_ page 0x028 of a memory tile (R343) -/
  | var
  /-- VAR_SEQ, M0 page 0x028 (R343) -/
  | varseq
  /-- DVT_ page of a link (R373) -/
  | dvt
  /-- socket-wide DVT_ registers, L0 page (R373) -/
  | dvtg
  /-- PCI_ group page (R399) -/
  | pcig
  /-- endpoint registers, group 0 page (R399) -/
  | ep
  /-- PCI_ port page (R400) -/
  | pcip
  /-- IOT_ page 0x038 of a PCIe/CXL tile (R217) -/
  | iot
  /-- NET_ global page 0x100 (R442) -/
  | netg
  /-- MAC page 0x110 + m (R442) -/
  | mac
  /-- logical port page 0x120 + n (R442) -/
  | lp
  /-- KEY_ global page 0x300 (R458) -/
  | key
  /-- key slots, pages 0x200 to 0x2FF (R459) -/
  | keyslot
  /-- VEN_ page 0x400 + i (R481) -/
  | ven
  /-- EAS_ mailbox, page 0x030 of tile D (R506) -/
  | eas
  /-- PRM_ page 0x031 of tile D (R538) -/
  | prm
  /-- socket PWR_ page 0x032 of tile D (R505) -/
  | spwr
  /-- socket CLK_ page 0x033 of tile D (R505) -/
  | sclk
  /-- counter collector, page 0x034 of tile D (R560, R563) -/
  | gperf
  deriving DecidableEq, Repr

/-- Where a field gets its reset value: a constant, or a value that depends on its place. -/
inductive Rst where
  | const (n : Nat) | tile | kind | x | y | die | slice | core | chan | group | port | inst
  | lpen | lpmac | wact | wn | ww
  deriving DecidableEq, Repr

/-- One field of a control register. -/
structure Fld where
  blk : Blk
  off : Nat
  cnt : Nat
  stride : Nat
  hi : Nat
  lo : Nat
  acc : Acc
  fo : Bool
  voted : Bool
  rst : Rst
  deriving DecidableEq, Repr

namespace F

-- Palette, page 0x010 of tile D (R24)
def PAL_ID_FAMILY : Fld := ⟨.pal, 0x000, 1, 0, 31, 16, .ro, false, false, (.const 18503)⟩
def PAL_ID_DIESET : Fld := ⟨.pal, 0x000, 1, 0, 15, 8, .ro, false, false, (.const 0)⟩
def PAL_ID_FORMAT : Fld := ⟨.pal, 0x000, 1, 0, 7, 0, .ro, false, false, (.const 1)⟩
def PAL_UNITS_MTILE : Fld := ⟨.pal, 0x004, 1, 0, 15, 8, .ro, false, false, (.const 0)⟩
def PAL_UNITS_P1 : Fld := ⟨.pal, 0x004, 1, 0, 7, 7, .ro, false, false, (.const 0)⟩
def PAL_UNITS_P0 : Fld := ⟨.pal, 0x004, 1, 0, 6, 6, .ro, false, false, (.const 0)⟩
def PAL_UNITS_CXLMEM : Fld := ⟨.pal, 0x004, 1, 0, 5, 5, .ro, false, false, (.const 0)⟩
def PAL_UNITS_EP : Fld := ⟨.pal, 0x004, 1, 0, 4, 4, .ro, false, false, (.const 0)⟩
def PAL_UNITS_DVT : Fld := ⟨.pal, 0x004, 1, 0, 3, 3, .ro, false, false, (.const 0)⟩
def PAL_UNITS_PE : Fld := ⟨.pal, 0x004, 1, 0, 0, 0, .ro, false, false, (.const 0)⟩
def PAL_CORES_UNUSABLE : Fld := ⟨.pal, 0x008, 1, 0, 30, 22, .ro, false, false, (.const 0)⟩
def PAL_CORES_FUSEDOFF : Fld := ⟨.pal, 0x008, 1, 0, 21, 13, .ro, false, false, (.const 0)⟩
def PAL_CORES_SPARE : Fld := ⟨.pal, 0x008, 1, 0, 12, 9, .ro, false, false, (.const 0)⟩
def PAL_CORES_CORES : Fld := ⟨.pal, 0x008, 1, 0, 8, 0, .ro, false, false, (.const 0)⟩
def PAL_SLICES_UNUSABLE : Fld := ⟨.pal, 0x00C, 1, 0, 15, 8, .ro, false, false, (.const 0)⟩
def PAL_SLICES_SLICES : Fld := ⟨.pal, 0x00C, 1, 0, 7, 0, .ro, false, false, (.const 0)⟩
def PAL_MEM_CXLPORTS : Fld := ⟨.pal, 0x010, 1, 0, 7, 5, .ro, false, false, (.const 0)⟩
def PAL_MEM_CHANNELS : Fld := ⟨.pal, 0x010, 1, 0, 4, 0, .ro, false, false, (.const 0)⟩
def PAL_IO_MAXSKT : Fld := ⟨.pal, 0x014, 1, 0, 22, 18, .ro, false, false, (.const 0)⟩
def PAL_IO_LINKS : Fld := ⟨.pal, 0x014, 1, 0, 17, 15, .ro, false, false, (.const 0)⟩
def PAL_IO_GROUPS : Fld := ⟨.pal, 0x014, 1, 0, 11, 8, .ro, false, false, (.const 0)⟩
def PAL_IO_LANES : Fld := ⟨.pal, 0x014, 1, 0, 7, 0, .ro, false, false, (.const 0)⟩
def PAL_NET_SERDES : Fld := ⟨.pal, 0x018, 1, 0, 10, 6, .ro, false, false, (.const 0)⟩
def PAL_NET_PORTS : Fld := ⟨.pal, 0x018, 1, 0, 5, 0, .ro, false, false, (.const 0)⟩
def PAL_FLOWS_FLOWS : Fld := ⟨.pal, 0x01C, 1, 0, 18, 0, .ro, false, false, (.const 0)⟩
def PAL_QUEUES_QUEUES : Fld := ⟨.pal, 0x020, 1, 0, 14, 0, .ro, false, false, (.const 0)⟩
def PAL_KEYS_KEYS : Fld := ⟨.pal, 0x024, 1, 0, 13, 0, .ro, false, false, (.const 0)⟩
def PAL_VENEER_INSTANCES : Fld := ⟨.pal, 0x028, 1, 0, 10, 0, .ro, false, false, (.const 0)⟩
def PAL_SKT_SKTCNT : Fld := ⟨.pal, 0x02C, 1, 0, 8, 4, .ro, false, false, (.const 0)⟩
def PAL_SKT_SKTID : Fld := ⟨.pal, 0x02C, 1, 0, 3, 0, .ro, false, true, (.const 0)⟩
def PAL_TOPO_ISLANDS : Fld := ⟨.pal, 0x030, 1, 0, 31, 23, .ro, false, false, (.const 436)⟩
def PAL_TOPO_DOMAINS : Fld := ⟨.pal, 0x030, 1, 0, 22, 14, .ro, false, false, (.const 435)⟩
def PAL_TOPO_YDIM : Fld := ⟨.pal, 0x030, 1, 0, 7, 4, .ro, false, false, (.const 12)⟩
def PAL_TOPO_XDIM : Fld := ⟨.pal, 0x030, 1, 0, 3, 0, .ro, false, false, (.const 12)⟩
def PAL_POWER_PLMAX : Fld := ⟨.pal, 0x034, 1, 0, 19, 10, .ro, false, false, (.const 720)⟩
def PAL_POWER_PLMIN : Fld := ⟨.pal, 0x034, 1, 0, 9, 0, .ro, false, false, (.const 480)⟩
def PAL_GEN_GEN : Fld := ⟨.pal, 0x038, 1, 0, 31, 0, .ro, false, false, (.const 0)⟩
def PAL_CORE_MAP_INSVC : Fld := ⟨.pal, 0x040, 9, 4, 31, 0, .ro, false, false, (.const 0)⟩
def PAL_SLICE_MAP_INSVC : Fld := ⟨.pal, 0x080, 5, 4, 31, 0, .ro, false, false, (.const 0)⟩

-- FAB_ page 0x000 of each tile (R279, R280)
def FAB_ID_DIE : Fld := ⟨.fab, 0x000, 1, 0, 21, 20, .ro, false, false, .die⟩
def FAB_ID_KIND : Fld := ⟨.fab, 0x000, 1, 0, 18, 16, .ro, false, false, .kind⟩
def FAB_ID_Y : Fld := ⟨.fab, 0x000, 1, 0, 15, 12, .ro, false, false, .y⟩
def FAB_ID_X : Fld := ⟨.fab, 0x000, 1, 0, 11, 8, .ro, false, false, .x⟩
def FAB_ID_TILE : Fld := ⟨.fab, 0x000, 1, 0, 7, 0, .ro, false, false, .tile⟩
def FAB_ARBCFG_BSLIP : Fld := ⟨.fab, 0x004, 1, 0, 15, 12, .rw, false, false, (.const 8)⟩
def FAB_ARBCFG_BRSP : Fld := ⟨.fab, 0x004, 1, 0, 11, 8, .rw, false, false, (.const 4)⟩
def FAB_ARBCFG_BSNP : Fld := ⟨.fab, 0x004, 1, 0, 7, 4, .rw, false, false, (.const 2)⟩
def FAB_ARBCFG_BREQ : Fld := ⟨.fab, 0x004, 1, 0, 3, 0, .rw, false, false, (.const 0)⟩
def FAB_EPOCH_FRAME : Fld := ⟨.fab, 0x008, 1, 0, 31, 0, .ro, false, false, (.const 0)⟩
def FAB_STNCTL_HOLD : Fld := ⟨.fab, 0x00C, 1, 0, 1, 1, .rw, true, false, (.const 0)⟩
def FAB_STNCTL_EN : Fld := ⟨.fab, 0x00C, 1, 0, 0, 0, .rwb, true, true, (.const 0)⟩
def FAB_STNAT_FRAME : Fld := ⟨.fab, 0x010, 1, 0, 31, 0, .rw, true, false, (.const 0)⟩
def FAB_STNSTAT_PASTAT : Fld := ⟨.fab, 0x014, 1, 0, 5, 5, .w1c, false, false, (.const 0)⟩
def FAB_STNSTAT_SLIP : Fld := ⟨.fab, 0x014, 1, 0, 4, 4, .w1c, false, false, (.const 0)⟩
def FAB_STNSTAT_SHORT : Fld := ⟨.fab, 0x014, 1, 0, 3, 3, .w1c, false, false, (.const 0)⟩
def FAB_STNSTAT_TICKLOST : Fld := ⟨.fab, 0x014, 1, 0, 2, 2, .w1c, false, false, (.const 0)⟩
def FAB_STNSTAT_PEND : Fld := ⟨.fab, 0x014, 1, 0, 1, 1, .ro, false, false, (.const 0)⟩
def FAB_STNSTAT_ACTIVE : Fld := ⟨.fab, 0x014, 1, 0, 0, 0, .ro, false, false, (.const 0)⟩
def FAB_STNLAST_FRAME : Fld := ⟨.fab, 0x018, 1, 0, 31, 0, .ro, false, false, (.const 0)⟩
def FAB_SLIPCNT_COUNT : Fld := ⟨.fab, 0x01C, 1, 0, 31, 0, .ro, false, false, (.const 0)⟩
def FAB_SLIPRX_COUNT : Fld := ⟨.fab, 0x020, 1, 0, 31, 0, .ro, false, false, (.const 0)⟩
def FAB_UNUSED_COUNT : Fld := ⟨.fab, 0x024, 1, 0, 31, 0, .ro, false, false, (.const 0)⟩
def FAB_HISTCFG_EN : Fld := ⟨.fab, 0x028, 1, 0, 31, 31, .rw, false, false, (.const 1)⟩
def FAB_HISTCFG_BASE : Fld := ⟨.fab, 0x028, 1, 0, 15, 0, .rw, false, false, (.const 32)⟩
def FAB_STATSTAT_CLR : Fld := ⟨.fab, 0x02C, 1, 0, 31, 31, .w1s, false, false, (.const 0)⟩
def FAB_STATSTAT_FREEZE : Fld := ⟨.fab, 0x02C, 1, 0, 30, 30, .rw, false, false, (.const 0)⟩
def FAB_STATSTAT_OVF : Fld := ⟨.fab, 0x02C, 1, 0, 0, 0, .w1c, false, false, (.const 0)⟩
def FAB_LINKERR_REPLAYS : Fld := ⟨.fab, 0x030, 4, 4, 31, 0, .ro, false, false, (.const 0)⟩
def FAB_GFLOW_A_V : Fld := ⟨.fab, 0x040, 8, 8, 31, 31, .rwb, true, false, (.const 0)⟩
def FAB_GFLOW_A_GFID : Fld := ⟨.fab, 0x040, 8, 8, 25, 16, .rwb, true, false, (.const 0)⟩
def FAB_GFLOW_A_DST : Fld := ⟨.fab, 0x040, 8, 8, 7, 0, .rwb, true, false, (.const 0)⟩
def FAB_GFLOW_B_INITMASK : Fld := ⟨.fab, 0x044, 8, 8, 7, 0, .rwb, true, false, (.const 0)⟩
def FAB_ARB_GRANTS_COUNT : Fld := ⟨.fab, 0x080, 20, 12, 31, 0, .ro, false, false, (.const 0)⟩
def FAB_ARB_WAITS_COUNT : Fld := ⟨.fab, 0x084, 20, 12, 31, 0, .ro, false, false, (.const 0)⟩
def FAB_ARB_MAXWAIT_MAX : Fld := ⟨.fab, 0x088, 20, 12, 15, 0, .ro, false, false, (.const 0)⟩
def FAB_LDG_REQ_VC3 : Fld := ⟨.fab, 0x170, 5, 8, 31, 24, .ro, false, false, (.const 8)⟩
def FAB_LDG_REQ_VC2 : Fld := ⟨.fab, 0x170, 5, 8, 23, 16, .ro, false, false, (.const 8)⟩
def FAB_LDG_REQ_VC1 : Fld := ⟨.fab, 0x170, 5, 8, 15, 8, .ro, false, false, (.const 8)⟩
def FAB_LDG_REQ_VC0 : Fld := ⟨.fab, 0x170, 5, 8, 7, 0, .ro, false, false, (.const 8)⟩
def FAB_LDG_DATA_VC3 : Fld := ⟨.fab, 0x174, 5, 8, 31, 24, .ro, false, false, (.const 6)⟩
def FAB_LDG_DATA_VC2 : Fld := ⟨.fab, 0x174, 5, 8, 23, 16, .ro, false, false, (.const 6)⟩
def FAB_LDG_DATA_VC1 : Fld := ⟨.fab, 0x174, 5, 8, 15, 8, .ro, false, false, (.const 4)⟩
def FAB_LDG_DATA_VC0 : Fld := ⟨.fab, 0x174, 5, 8, 7, 0, .ro, false, false, (.const 4)⟩
def FAB_STAT_VALUE : Fld := ⟨.fab, 0x200, 128, 4, 31, 0, .ro, false, false, (.const 0)⟩

-- Stencil tables, pages 0x008 to 0x00C of each tile (R281)
def STN_ENTRY_V : Fld := ⟨.stn, 0x000, 256, 4, 31, 31, .rwb, true, true, (.const 0)⟩
def STN_ENTRY_IN : Fld := ⟨.stn, 0x000, 256, 4, 30, 28, .rwb, true, true, (.const 0)⟩
def STN_ENTRY_GFID : Fld := ⟨.stn, 0x000, 256, 4, 9, 0, .rwb, true, true, (.const 0)⟩

-- PERF_ page 0x004 of each tile (R553, R559)
def PERF_ID_TILE : Fld := ⟨.perf, 0x000, 1, 0, 15, 8, .ro, false, false, .tile⟩
def PERF_ID_KIND : Fld := ⟨.perf, 0x000, 1, 0, 7, 5, .ro, false, false, .kind⟩
def PERF_ID_NCTR : Fld := ⟨.perf, 0x000, 1, 0, 4, 0, .ro, false, false, (.const 24)⟩
def PERF_CTL_CLR : Fld := ⟨.perf, 0x004, 1, 0, 31, 31, .w1s, false, false, (.const 0)⟩
def PERF_CTL_FREEZE : Fld := ⟨.perf, 0x004, 1, 0, 30, 30, .rw, false, false, (.const 0)⟩
def PERF_CTL_RUN : Fld := ⟨.perf, 0x004, 1, 0, 0, 0, .ro, false, false, (.const 1)⟩
def PERF_OVF_OVF : Fld := ⟨.perf, 0x008, 1, 0, 23, 0, .w1c, false, false, (.const 0)⟩
def PERF_IRQ_EN : Fld := ⟨.perf, 0x00C, 1, 0, 31, 31, .rw, false, false, (.const 0)⟩
def PERF_IRQ_SOCKET : Fld := ⟨.perf, 0x00C, 1, 0, 23, 20, .rw, false, false, (.const 0)⟩
def PERF_IRQ_CORE : Fld := ⟨.perf, 0x00C, 1, 0, 19, 11, .rw, false, false, (.const 0)⟩
def PERF_IRQ_THREAD : Fld := ⟨.perf, 0x00C, 1, 0, 10, 10, .rw, false, false, (.const 0)⟩
def PERF_IRQ_VEC : Fld := ⟨.perf, 0x00C, 1, 0, 9, 0, .rw, false, false, (.const 0)⟩
def PERF_VOTECNT_COUNT : Fld := ⟨.perf, 0x010, 1, 0, 31, 0, .ro, false, false, (.const 0)⟩
def PERF_VOTELAST_VALID : Fld := ⟨.perf, 0x014, 1, 0, 31, 31, .w1c, false, false, (.const 0)⟩
def PERF_VOTELAST_COPY : Fld := ⟨.perf, 0x014, 1, 0, 30, 28, .ro, false, false, (.const 0)⟩
def PERF_VOTELAST_PAGE : Fld := ⟨.perf, 0x014, 1, 0, 27, 16, .ro, false, false, (.const 0)⟩
def PERF_VOTELAST_WORD : Fld := ⟨.perf, 0x014, 1, 0, 15, 8, .ro, false, false, (.const 0)⟩
def PERF_VOTELAST_BIT : Fld := ⟨.perf, 0x014, 1, 0, 4, 0, .ro, false, false, (.const 0)⟩
def PERF_CTR_LO_COUNT : Fld := ⟨.perf, 0x100, 24, 16, 31, 0, .rw, false, false, (.const 0)⟩
def PERF_CTR_HI_COUNT : Fld := ⟨.perf, 0x104, 24, 16, 15, 0, .rw, false, false, (.const 0)⟩
def PERF_CFG_EN : Fld := ⟨.perf, 0x108, 24, 16, 31, 31, .rw, false, false, (.const 0)⟩
def PERF_CFG_OVFIE : Fld := ⟨.perf, 0x108, 24, 16, 30, 30, .rw, false, false, (.const 0)⟩
def PERF_CFG_VMF : Fld := ⟨.perf, 0x108, 24, 16, 29, 29, .rw, false, false, (.const 0)⟩
def PERF_CFG_VMID : Fld := ⟨.perf, 0x108, 24, 16, 28, 17, .rw, false, false, (.const 0)⟩
def PERF_CFG_LVMASK : Fld := ⟨.perf, 0x108, 24, 16, 16, 13, .rw, false, false, (.const 15)⟩
def PERF_CFG_EVT : Fld := ⟨.perf, 0x108, 24, 16, 7, 0, .rw, false, false, (.const 0)⟩

-- RAS_ page 0x006 of each tile (R536, R537)
def RAS_ID_TILE : Fld := ⟨.ras, 0x000, 1, 0, 15, 8, .ro, false, false, .tile⟩
def RAS_ID_KIND : Fld := ⟨.ras, 0x000, 1, 0, 2, 0, .ro, false, false, .kind⟩
def RAS_STAT_OVF : Fld := ⟨.ras, 0x004, 1, 0, 5, 5, .w1c, false, false, (.const 0)⟩
def RAS_STAT_LOGOVF : Fld := ⟨.ras, 0x004, 1, 0, 4, 4, .w1c, false, false, (.const 0)⟩
def RAS_STAT_MCE : Fld := ⟨.ras, 0x004, 1, 0, 3, 3, .w1c, false, false, (.const 0)⟩
def RAS_STAT_UNC : Fld := ⟨.ras, 0x004, 1, 0, 2, 2, .w1c, false, false, (.const 0)⟩
def RAS_STAT_LASTING : Fld := ⟨.ras, 0x004, 1, 0, 1, 1, .w1c, false, false, (.const 0)⟩
def RAS_STAT_CORR : Fld := ⟨.ras, 0x004, 1, 0, 0, 0, .w1c, false, false, (.const 0)⟩
def RAS_IRQ_EN : Fld := ⟨.ras, 0x008, 1, 0, 31, 31, .rw, false, false, (.const 0)⟩
def RAS_IRQ_CORRIE : Fld := ⟨.ras, 0x008, 1, 0, 30, 30, .rw, false, false, (.const 0)⟩
def RAS_IRQ_SOCKET : Fld := ⟨.ras, 0x008, 1, 0, 23, 20, .rw, false, false, (.const 0)⟩
def RAS_IRQ_CORE : Fld := ⟨.ras, 0x008, 1, 0, 19, 11, .rw, false, false, (.const 0)⟩
def RAS_IRQ_THREAD : Fld := ⟨.ras, 0x008, 1, 0, 10, 10, .rw, false, false, (.const 0)⟩
def RAS_IRQ_VEC : Fld := ⟨.ras, 0x008, 1, 0, 9, 0, .rw, false, false, (.const 0)⟩
def RAS_LOGSEQ_SEQ : Fld := ⟨.ras, 0x00C, 1, 0, 31, 0, .ro, false, false, (.const 0)⟩
def RAS_LOGSEL_SEQ : Fld := ⟨.ras, 0x010, 1, 0, 31, 0, .rw, false, false, (.const 0)⟩
def RAS_LOGSTAT_VALID : Fld := ⟨.ras, 0x014, 1, 0, 0, 0, .ro, false, false, (.const 0)⟩
def RAS_MCSTAT_VALID : Fld := ⟨.ras, 0x018, 1, 0, 3, 0, .w1c, false, false, (.const 0)⟩
def RAS_LOGD_DATA : Fld := ⟨.ras, 0x020, 8, 4, 31, 0, .ro, false, false, (.const 0)⟩
def RAS_MCSEQ_SEQ : Fld := ⟨.ras, 0x040, 4, 4, 31, 0, .ro, false, false, (.const 0)⟩
def RAS_UNMAP_LO_ADDR : Fld := ⟨.ras, 0x050, 1, 0, 31, 0, .ro, false, false, (.const 0)⟩
def RAS_UNMAP_HI_ADDR : Fld := ⟨.ras, 0x054, 1, 0, 19, 0, .ro, false, false, (.const 0)⟩
def RAS_UNMAP_INFO_VALID : Fld := ⟨.ras, 0x058, 1, 0, 31, 31, .w1c, false, false, (.const 0)⟩
def RAS_UNMAP_INFO_COUNT : Fld := ⟨.ras, 0x058, 1, 0, 30, 16, .ro, false, false, (.const 0)⟩
def RAS_UNMAP_INFO_INIT : Fld := ⟨.ras, 0x058, 1, 0, 10, 8, .ro, false, false, (.const 0)⟩
def RAS_UNMAP_INFO_TYPE : Fld := ⟨.ras, 0x058, 1, 0, 2, 0, .ro, false, false, (.const 0)⟩
def RAS_WCFG_EN : Fld := ⟨.ras, 0x060, 16, 4, 31, 31, .rw, false, false, (.const 1)⟩
def RAS_WCFG_ACT : Fld := ⟨.ras, 0x060, 16, 4, 26, 24, .ro, false, false, .wact⟩
def RAS_WCFG_N : Fld := ⟨.ras, 0x060, 16, 4, 23, 16, .rw, false, false, .wn⟩
def RAS_WCFG_W : Fld := ⟨.ras, 0x060, 16, 4, 4, 0, .rw, false, false, .ww⟩
def RAS_WCNT_PEND : Fld := ⟨.ras, 0x0A0, 16, 4, 31, 31, .ro, false, false, (.const 0)⟩
def RAS_WCNT_COUNT : Fld := ⟨.ras, 0x0A0, 16, 4, 23, 16, .ro, false, false, (.const 0)⟩
def RAS_WCNT_LASTING : Fld := ⟨.ras, 0x0A0, 16, 4, 15, 0, .ro, false, false, (.const 0)⟩
def RAS_ECNT_COUNT : Fld := ⟨.ras, 0x0E0, 16, 4, 31, 0, .ro, false, false, (.const 0)⟩

-- PWR_ page 0x007 of each tile (R504)
def PWR_C_RST : Fld := ⟨.pwr, 0x000, 2, 4, 31, 31, .rw, true, false, (.const 0)⟩
def PWR_C_MODE : Fld := ⟨.pwr, 0x000, 2, 4, 17, 16, .rw, true, false, (.const 1)⟩
def PWR_C_IDLET : Fld := ⟨.pwr, 0x000, 2, 4, 15, 0, .rw, true, false, (.const 100)⟩
def PWR_TCTL_RST : Fld := ⟨.pwr, 0x008, 1, 0, 31, 31, .w1s, true, false, (.const 0)⟩
def PWR_TCTL_OFF : Fld := ⟨.pwr, 0x008, 1, 0, 0, 0, .rw, true, false, (.const 0)⟩
def PWR_TSTAT_C1 : Fld := ⟨.pwr, 0x00C, 1, 0, 7, 6, .ro, true, false, (.const 3)⟩
def PWR_TSTAT_C0 : Fld := ⟨.pwr, 0x00C, 1, 0, 5, 4, .ro, true, false, (.const 3)⟩
def PWR_TSTAT_REFUSED : Fld := ⟨.pwr, 0x00C, 1, 0, 3, 3, .w1c, true, false, (.const 0)⟩
def PWR_TSTAT_REASON : Fld := ⟨.pwr, 0x00C, 1, 0, 2, 0, .ro, true, false, (.const 0)⟩
def PWR_ENERGY_UJ : Fld := ⟨.pwr, 0x010, 1, 0, 31, 0, .ro, true, false, (.const 0)⟩
def PWR_UNCON_ON : Fld := ⟨.pwr, 0x014, 1, 0, 0, 0, .ro, true, false, (.const 1)⟩

-- CLK_ page 0x00D of each tile (R504)
def CLK_C_FMIN : Fld := ⟨.clk, 0x000, 2, 4, 23, 16, .rw, true, false, (.const 40)⟩
def CLK_C_FMAX : Fld := ⟨.clk, 0x000, 2, 4, 15, 8, .rw, true, false, (.const 152)⟩
def CLK_C_FEFF : Fld := ⟨.clk, 0x000, 2, 4, 7, 0, .ro, true, false, (.const 40)⟩
def CLK_UNC_FMIN : Fld := ⟨.clk, 0x008, 1, 0, 23, 16, .rw, true, false, (.const 48)⟩
def CLK_UNC_FMAX : Fld := ⟨.clk, 0x008, 1, 0, 15, 8, .rw, true, false, (.const 96)⟩
def CLK_UNC_FEFF : Fld := ⟨.clk, 0x008, 1, 0, 7, 0, .ro, true, false, (.const 96)⟩
def CLK_TSTAT_UNCHELD : Fld := ⟨.clk, 0x00C, 1, 0, 2, 2, .ro, true, false, (.const 0)⟩
def CLK_TSTAT_CAP1 : Fld := ⟨.clk, 0x00C, 1, 0, 1, 1, .ro, true, false, (.const 0)⟩
def CLK_TSTAT_CAP0 : Fld := ⟨.clk, 0x00C, 1, 0, 0, 0, .ro, true, false, (.const 0)⟩

-- LLC_ page 0x002 of a core tile (R244, R245)
def LLC_ID_SLICE : Fld := ⟨.llc, 0x000, 1, 0, 23, 16, .ro, false, false, .slice⟩
def LLC_ID_TILE : Fld := ⟨.llc, 0x000, 1, 0, 15, 8, .ro, false, false, .tile⟩
def LLC_ID_INSVC : Fld := ⟨.llc, 0x000, 1, 0, 0, 0, .ro, false, false, (.const 1)⟩
def LLC_CFG_CLEANVICT : Fld := ⟨.llc, 0x004, 1, 0, 2, 2, .rw, false, false, (.const 1)⟩
def LLC_CFG_IOALLOC : Fld := ⟨.llc, 0x004, 1, 0, 1, 1, .rw, false, false, (.const 1)⟩
def LLC_CFG_MEMFILL : Fld := ⟨.llc, 0x004, 1, 0, 0, 0, .rw, false, false, (.const 1)⟩
def LLC_WAYPWR_ON : Fld := ⟨.llc, 0x008, 1, 0, 3, 0, .rw, true, false, (.const 15)⟩
def LLC_WAYSTAT_RETIRED : Fld := ⟨.llc, 0x00C, 1, 0, 31, 16, .ro, false, false, (.const 0)⟩
def LLC_WAYSTAT_WAKING : Fld := ⟨.llc, 0x00C, 1, 0, 11, 8, .ro, false, false, (.const 0)⟩
def LLC_WAYSTAT_CLEANING : Fld := ⟨.llc, 0x00C, 1, 0, 7, 4, .ro, false, false, (.const 0)⟩
def LLC_WAYSTAT_POWERED : Fld := ⟨.llc, 0x00C, 1, 0, 3, 0, .ro, false, false, (.const 15)⟩
def LLC_ALLOC_WAYS : Fld := ⟨.llc, 0x010, 8, 4, 15, 0, .rw, false, false, (.const 65535)⟩
def LLC_TPART_C1T1 : Fld := ⟨.llc, 0x030, 1, 0, 14, 12, .rw, false, false, (.const 0)⟩
def LLC_TPART_C1T0 : Fld := ⟨.llc, 0x030, 1, 0, 10, 8, .rw, false, false, (.const 0)⟩
def LLC_TPART_C0T1 : Fld := ⟨.llc, 0x030, 1, 0, 6, 4, .rw, false, false, (.const 0)⟩
def LLC_TPART_C0T0 : Fld := ⟨.llc, 0x030, 1, 0, 2, 0, .rw, false, false, (.const 0)⟩
def LLC_PFCTL_L2DIST : Fld := ⟨.llc, 0x034, 1, 0, 15, 12, .rw, false, false, (.const 4)⟩
def LLC_PFCTL_L2PF1 : Fld := ⟨.llc, 0x034, 1, 0, 5, 5, .rw, false, false, (.const 1)⟩
def LLC_PFCTL_L1PF1 : Fld := ⟨.llc, 0x034, 1, 0, 4, 4, .rw, false, false, (.const 1)⟩
def LLC_PFCTL_L2PF0 : Fld := ⟨.llc, 0x034, 1, 0, 1, 1, .rw, false, false, (.const 1)⟩
def LLC_PFCTL_L1PF0 : Fld := ⟨.llc, 0x034, 1, 0, 0, 0, .rw, false, false, (.const 1)⟩
def LLC_MAINT_GO : Fld := ⟨.llc, 0x038, 1, 0, 31, 31, .w1s, false, false, (.const 0)⟩
def LLC_MAINT_GROUPS : Fld := ⟨.llc, 0x038, 1, 0, 7, 4, .rw, false, false, (.const 15)⟩
def LLC_MAINT_OP : Fld := ⟨.llc, 0x038, 1, 0, 1, 0, .rw, false, false, (.const 0)⟩
def LLC_MSTAT_REJ : Fld := ⟨.llc, 0x03C, 1, 0, 2, 2, .w1c, false, false, (.const 0)⟩
def LLC_MSTAT_DONE : Fld := ⟨.llc, 0x03C, 1, 0, 1, 1, .w1c, false, false, (.const 0)⟩
def LLC_MSTAT_BUSY : Fld := ⟨.llc, 0x03C, 1, 0, 0, 0, .ro, false, false, (.const 0)⟩
def LLC_OCC_LINES : Fld := ⟨.llc, 0x040, 8, 4, 15, 0, .ro, false, false, (.const 0)⟩
def LLC_REDIR_EXTRA : Fld := ⟨.llc, 0x060, 1, 0, 7, 0, .ro, false, false, (.const 0)⟩

-- COH_ page 0x003 of a core tile (R317, R318)
def COH_CFG_PROG : Fld := ⟨.coh, 0x000, 1, 0, 31, 31, .rw, false, false, (.const 0)⟩
def COH_CFG_AMOPOL : Fld := ⟨.coh, 0x000, 1, 0, 30, 29, .rw, false, false, (.const 0)⟩
def COH_CFG_EGRANT : Fld := ⟨.coh, 0x000, 1, 0, 28, 28, .rw, false, false, (.const 1)⟩
def COH_CFG_HOLD : Fld := ⟨.coh, 0x000, 1, 0, 26, 16, .rw, false, false, (.const 96)⟩
def COH_TMO_US : Fld := ⟨.coh, 0x004, 1, 0, 13, 0, .rw, false, false, (.const 50)⟩
def COH_ARBCFG_BBINV : Fld := ⟨.coh, 0x008, 1, 0, 19, 16, .rw, false, false, (.const 2)⟩
def COH_ARBCFG_BMAINT : Fld := ⟨.coh, 0x008, 1, 0, 15, 12, .rw, false, false, (.const 0)⟩
def COH_ARBCFG_BWAKE : Fld := ⟨.coh, 0x008, 1, 0, 11, 8, .rw, false, false, (.const 4)⟩
def COH_ARBCFG_BRSP : Fld := ⟨.coh, 0x008, 1, 0, 7, 4, .rw, false, false, (.const 8)⟩
def COH_ARBCFG_BREQ : Fld := ⟨.coh, 0x008, 1, 0, 3, 0, .rw, false, false, (.const 0)⟩
def COH_STAT_OVF : Fld := ⟨.coh, 0x00C, 1, 0, 3, 3, .w1c, false, false, (.const 0)⟩
def COH_STAT_DIRFULL : Fld := ⟨.coh, 0x00C, 1, 0, 2, 2, .w1c, false, false, (.const 0)⟩
def COH_STAT_LATE : Fld := ⟨.coh, 0x00C, 1, 0, 1, 1, .w1c, false, false, (.const 0)⟩
def COH_STAT_TMO : Fld := ⟨.coh, 0x00C, 1, 0, 0, 0, .w1c, false, false, (.const 0)⟩
def COH_LDG_ABUSED : Fld := ⟨.coh, 0x010, 1, 0, 31, 28, .ro, false, false, (.const 0)⟩
def COH_LDG_ABFREE : Fld := ⟨.coh, 0x010, 1, 0, 27, 24, .ro, false, false, (.const 8)⟩
def COH_LDG_TRKUSED : Fld := ⟨.coh, 0x010, 1, 0, 14, 8, .ro, false, false, (.const 0)⟩
def COH_LDG_TRKFREE : Fld := ⟨.coh, 0x010, 1, 0, 6, 0, .ro, false, false, (.const 64)⟩
def COH_TMOCNT_COUNT : Fld := ⟨.coh, 0x014, 1, 0, 31, 0, .ro, false, false, (.const 0)⟩
def COH_TMOADDR_LO_ADDR : Fld := ⟨.coh, 0x018, 1, 0, 31, 6, .ro, false, false, (.const 0)⟩
def COH_TMOADDR_HI_ADDR : Fld := ⟨.coh, 0x01C, 1, 0, 19, 0, .ro, false, false, (.const 0)⟩
def COH_TMOHOLD_VALID : Fld := ⟨.coh, 0x020, 1, 0, 31, 31, .w1c, false, false, (.const 0)⟩
def COH_TMOHOLD_SOCKET : Fld := ⟨.coh, 0x020, 1, 0, 19, 16, .ro, false, false, (.const 0)⟩
def COH_TMOHOLD_TILE : Fld := ⟨.coh, 0x020, 1, 0, 15, 8, .ro, false, false, (.const 0)⟩
def COH_TMOHOLD_CORE : Fld := ⟨.coh, 0x020, 1, 0, 7, 7, .ro, false, false, (.const 0)⟩
def COH_TMOHOLD_WHAT : Fld := ⟨.coh, 0x020, 1, 0, 3, 0, .ro, false, false, (.const 0)⟩
def COH_BINV_COUNT : Fld := ⟨.coh, 0x024, 1, 0, 31, 0, .ro, false, false, (.const 0)⟩
def COH_LATE_COUNT : Fld := ⟨.coh, 0x028, 1, 0, 31, 0, .ro, false, false, (.const 0)⟩
def COH_AMOF_COUNT : Fld := ⟨.coh, 0x02C, 1, 0, 31, 0, .ro, false, false, (.const 0)⟩
def COH_AMOHOT_COUNT : Fld := ⟨.coh, 0x030, 1, 0, 31, 0, .ro, false, false, (.const 0)⟩
def COH_AMOC_FAR : Fld := ⟨.coh, 0x034, 2, 4, 31, 16, .ro, false, false, (.const 0)⟩
def COH_AMOC_NEAR : Fld := ⟨.coh, 0x034, 2, 4, 15, 0, .ro, false, false, (.const 0)⟩
def COH_ARB_GRANTS_COUNT : Fld := ⟨.coh, 0x040, 5, 12, 31, 0, .ro, false, false, (.const 0)⟩
def COH_ARB_WAITS_COUNT : Fld := ⟨.coh, 0x044, 5, 12, 31, 0, .ro, false, false, (.const 0)⟩
def COH_ARB_MAXWAIT_MAX : Fld := ⟨.coh, 0x048, 5, 12, 15, 0, .ro, false, false, (.const 0)⟩

-- CORE_ page of a core (R184)
def CORE_ID_SOCKET : Fld := ⟨.core, 0x000, 1, 0, 27, 24, .ro, false, false, (.const 0)⟩
def CORE_ID_CORE : Fld := ⟨.core, 0x000, 1, 0, 23, 15, .ro, false, false, .core⟩
def CORE_ID_INSVC : Fld := ⟨.core, 0x000, 1, 0, 0, 0, .ro, false, false, (.const 1)⟩
def CORE_CFG_ROBMAX : Fld := ⟨.core, 0x004, 1, 0, 24, 16, .rwb, false, false, (.const 256)⟩
def CORE_CFG_ICGATE : Fld := ⟨.core, 0x004, 1, 0, 8, 8, .rwb, false, false, (.const 1)⟩
def CORE_CFG_LBEN : Fld := ⟨.core, 0x004, 1, 0, 7, 7, .rwb, false, false, (.const 1)⟩
def CORE_CFG_RASEN : Fld := ⟨.core, 0x004, 1, 0, 6, 6, .rwb, false, false, (.const 1)⟩
def CORE_CFG_BTBEN : Fld := ⟨.core, 0x004, 1, 0, 5, 5, .rwb, false, false, (.const 1)⟩
def CORE_CFG_FPOL : Fld := ⟨.core, 0x004, 1, 0, 4, 4, .rwb, false, false, (.const 0)⟩
def CORE_CFG_T1EN : Fld := ⟨.core, 0x004, 1, 0, 0, 0, .rwb, false, false, (.const 1)⟩
def CORE_CFG_EFF_PEND : Fld := ⟨.core, 0x008, 1, 0, 31, 31, .ro, false, false, (.const 0)⟩
def CORE_CFG_EFF_ROBMAX : Fld := ⟨.core, 0x008, 1, 0, 24, 16, .ro, false, false, (.const 256)⟩
def CORE_CFG_EFF_ICGATE : Fld := ⟨.core, 0x008, 1, 0, 8, 8, .ro, false, false, (.const 1)⟩
def CORE_CFG_EFF_LBEN : Fld := ⟨.core, 0x008, 1, 0, 7, 7, .ro, false, false, (.const 1)⟩
def CORE_CFG_EFF_RASEN : Fld := ⟨.core, 0x008, 1, 0, 6, 6, .ro, false, false, (.const 1)⟩
def CORE_CFG_EFF_BTBEN : Fld := ⟨.core, 0x008, 1, 0, 5, 5, .ro, false, false, (.const 1)⟩
def CORE_CFG_EFF_FPOL : Fld := ⟨.core, 0x008, 1, 0, 4, 4, .ro, false, false, (.const 0)⟩
def CORE_CFG_EFF_T1EN : Fld := ⟨.core, 0x008, 1, 0, 0, 0, .ro, false, false, (.const 1)⟩
def CORE_BTBCTL_RESEED_F : Fld := ⟨.core, 0x00C, 1, 0, 2, 2, .w1s, true, false, (.const 0)⟩
def CORE_BTBCTL_RESEED_H : Fld := ⟨.core, 0x00C, 1, 0, 1, 1, .w1s, true, false, (.const 0)⟩
def CORE_BTBCTL_FLUSH : Fld := ⟨.core, 0x00C, 1, 0, 0, 0, .w1s, true, false, (.const 0)⟩
def CORE_PLUMB_EN : Fld := ⟨.core, 0x010, 1, 0, 31, 31, .rwb, true, false, (.const 0)⟩
def CORE_PLUMB_OVRIE : Fld := ⟨.core, 0x010, 1, 0, 30, 30, .rwb, true, false, (.const 0)⟩
def CORE_PLUMB_OVRVEC : Fld := ⟨.core, 0x010, 1, 0, 29, 20, .rwb, true, false, (.const 0)⟩
def CORE_PLUMB_MEMLAT : Fld := ⟨.core, 0x010, 1, 0, 13, 0, .rwb, true, false, (.const 2048)⟩
def CORE_PLUMB_STAT_ACTIVE : Fld := ⟨.core, 0x014, 1, 0, 31, 31, .ro, false, false, (.const 0)⟩
def CORE_PLUMB_STAT_ENTERING : Fld := ⟨.core, 0x014, 1, 0, 30, 30, .ro, false, false, (.const 0)⟩
def CORE_PLUMB_STAT_PEND : Fld := ⟨.core, 0x014, 1, 0, 29, 29, .ro, false, false, (.const 0)⟩
def CORE_PLUMB_STAT_MEMLAT : Fld := ⟨.core, 0x014, 1, 0, 13, 0, .ro, false, false, (.const 2048)⟩
def CORE_PLUMB_OVR_OVR : Fld := ⟨.core, 0x018, 1, 0, 31, 31, .w1c, false, false, (.const 0)⟩
def CORE_PLUMB_OVR_COUNT : Fld := ⟨.core, 0x018, 1, 0, 30, 16, .ro, false, false, (.const 0)⟩
def CORE_PLUMB_OVR_MAXEX : Fld := ⟨.core, 0x018, 1, 0, 15, 0, .ro, false, false, (.const 0)⟩
def CORE_THSTAT_T1 : Fld := ⟨.core, 0x01C, 1, 0, 15, 8, .ro, false, false, (.const 0)⟩
def CORE_THSTAT_T0 : Fld := ⟨.core, 0x01C, 1, 0, 7, 0, .ro, false, false, (.const 0)⟩
def ICDB_DATA : Fld := ⟨.core, 0x300, 2, 4, 31, 0, .rw, false, false, (.const 0)⟩

-- TLB_ page of a core (R200)
def TLB_GFINFO_VALID : Fld := ⟨.tlb, 0x000, 2, 16, 31, 31, .w1c, false, false, (.const 0)⟩
def TLB_GFINFO_LOST : Fld := ⟨.tlb, 0x000, 2, 16, 30, 30, .w1c, false, false, (.const 0)⟩
def TLB_GFINFO_WALK : Fld := ⟨.tlb, 0x000, 2, 16, 29, 29, .ro, false, false, (.const 0)⟩
def TLB_GFINFO_LEVEL : Fld := ⟨.tlb, 0x000, 2, 16, 28, 26, .ro, false, false, (.const 0)⟩
def TLB_GFINFO_KIND : Fld := ⟨.tlb, 0x000, 2, 16, 25, 24, .ro, false, false, (.const 0)⟩
def TLB_GFA_LO_GPA : Fld := ⟨.tlb, 0x004, 2, 16, 31, 0, .ro, false, false, (.const 0)⟩
def TLB_GFA_HI_GPA : Fld := ⟨.tlb, 0x008, 2, 16, 19, 0, .ro, false, false, (.const 0)⟩

-- MC_ page of a channel (R342)
def MC_ID_TILE : Fld := ⟨.mc, 0x000, 1, 0, 15, 8, .ro, false, false, .tile⟩
def MC_ID_CHANNEL : Fld := ⟨.mc, 0x000, 1, 0, 3, 0, .ro, false, false, .chan⟩
def MC_CFG_WHWM : Fld := ⟨.mc, 0x004, 1, 0, 31, 24, .rwb, false, false, (.const 48)⟩
def MC_CFG_WLWM : Fld := ⟨.mc, 0x004, 1, 0, 23, 16, .rwb, false, false, (.const 16)⟩
def MC_CFG_WRCRC : Fld := ⟨.mc, 0x004, 1, 0, 3, 3, .rwb, false, false, (.const 1)⟩
def MC_CFG_PAGE : Fld := ⟨.mc, 0x004, 1, 0, 2, 2, .rwb, false, false, (.const 0)⟩
def MC_CFG_REFMODE : Fld := ⟨.mc, 0x004, 1, 0, 1, 1, .rwb, false, false, (.const 0)⟩
def MC_STAT_SPEED : Fld := ⟨.mc, 0x008, 1, 0, 31, 24, .ro, false, false, (.const 0)⟩
def MC_STAT_RANKS : Fld := ⟨.mc, 0x008, 1, 0, 23, 20, .ro, false, false, (.const 0)⟩
def MC_STAT_DPC : Fld := ⟨.mc, 0x008, 1, 0, 19, 18, .ro, false, false, (.const 0)⟩
def MC_STAT_OVF : Fld := ⟨.mc, 0x008, 1, 0, 8, 8, .w1c, false, false, (.const 0)⟩
def MC_STAT_NOSPARE : Fld := ⟨.mc, 0x008, 1, 0, 7, 7, .w1c, false, false, (.const 0)⟩
def MC_STAT_RETRAIN : Fld := ⟨.mc, 0x008, 1, 0, 6, 6, .w1c, false, false, (.const 0)⟩
def MC_STAT_OVERCAP : Fld := ⟨.mc, 0x008, 1, 0, 5, 5, .w1c, false, false, (.const 0)⟩
def MC_STAT_SELFREF : Fld := ⟨.mc, 0x008, 1, 0, 3, 3, .ro, false, false, (.const 0)⟩
def MC_STAT_TRAINING : Fld := ⟨.mc, 0x008, 1, 0, 2, 2, .ro, false, false, (.const 0)⟩
def MC_STAT_TRAINED : Fld := ⟨.mc, 0x008, 1, 0, 1, 1, .ro, false, false, (.const 0)⟩
def MC_STAT_PEND : Fld := ⟨.mc, 0x008, 1, 0, 0, 0, .ro, false, false, (.const 0)⟩
def MC_CAP_GB : Fld := ⟨.mc, 0x00C, 1, 0, 9, 0, .ro, false, false, (.const 0)⟩
def MC_SCRUB_EN : Fld := ⟨.mc, 0x010, 1, 0, 31, 31, .rw, false, false, (.const 1)⟩
def MC_SCRUB_PERIOD : Fld := ⟨.mc, 0x010, 1, 0, 7, 0, .rw, false, false, (.const 24)⟩
def MC_SCRUBPOS_PASSES : Fld := ⟨.mc, 0x014, 1, 0, 31, 16, .ro, false, false, (.const 0)⟩
def MC_SCRUBPOS_GB : Fld := ⟨.mc, 0x014, 1, 0, 15, 0, .ro, false, false, (.const 0)⟩
def MC_SPARE_EN : Fld := ⟨.mc, 0x018, 1, 0, 31, 31, .rw, false, false, (.const 0)⟩
def MC_SPARE_RANK : Fld := ⟨.mc, 0x018, 1, 0, 30, 28, .rw, false, false, (.const 0)⟩
def MC_SPARE_STATE : Fld := ⟨.mc, 0x018, 1, 0, 27, 26, .ro, false, false, (.const 0)⟩
def MC_SPARE_FROM : Fld := ⟨.mc, 0x018, 1, 0, 25, 23, .ro, false, false, (.const 0)⟩
def MC_SPARE_PCT : Fld := ⟨.mc, 0x018, 1, 0, 22, 16, .ro, false, false, (.const 0)⟩
def MC_RANKOFF_OFF : Fld := ⟨.mc, 0x01C, 1, 0, 7, 0, .ro, false, false, (.const 0)⟩
def MC_CECNT_COUNT : Fld := ⟨.mc, 0x020, 1, 0, 31, 0, .ro, false, false, (.const 0)⟩
def MC_UECNT_COUNT : Fld := ⟨.mc, 0x024, 1, 0, 31, 0, .ro, false, false, (.const 0)⟩
def MC_ERRADDR_LO_ADDR : Fld := ⟨.mc, 0x028, 1, 0, 31, 6, .ro, false, false, (.const 0)⟩
def MC_ERRADDR_HI_ADDR : Fld := ⟨.mc, 0x02C, 1, 0, 7, 0, .ro, false, false, (.const 0)⟩
def MC_ERRINFO_VALID : Fld := ⟨.mc, 0x030, 1, 0, 31, 31, .w1c, false, false, (.const 0)⟩
def MC_ERRINFO_UE : Fld := ⟨.mc, 0x030, 1, 0, 30, 30, .ro, false, false, (.const 0)⟩
def MC_ERRINFO_SRC : Fld := ⟨.mc, 0x030, 1, 0, 29, 28, .ro, false, false, (.const 0)⟩
def MC_ERRINFO_RANK : Fld := ⟨.mc, 0x030, 1, 0, 27, 25, .ro, false, false, (.const 0)⟩
def MC_ERRINFO_DEVICE : Fld := ⟨.mc, 0x030, 1, 0, 24, 21, .ro, false, false, (.const 0)⟩
def MC_ERRINFO_CHUNK : Fld := ⟨.mc, 0x030, 1, 0, 20, 19, .ro, false, false, (.const 0)⟩
def MC_LDG_RQUSED : Fld := ⟨.mc, 0x034, 1, 0, 31, 24, .ro, false, false, (.const 0)⟩
def MC_LDG_RQFREE : Fld := ⟨.mc, 0x034, 1, 0, 23, 16, .ro, false, false, (.const 64)⟩
def MC_LDG_WQUSED : Fld := ⟨.mc, 0x034, 1, 0, 15, 8, .ro, false, false, (.const 0)⟩
def MC_LDG_WQFREE : Fld := ⟨.mc, 0x034, 1, 0, 7, 0, .ro, false, false, (.const 64)⟩
def MC_ARBCFG_BCOPY : Fld := ⟨.mc, 0x038, 1, 0, 19, 16, .rw, false, false, (.const 0)⟩
def MC_ARBCFG_BSCRUB : Fld := ⟨.mc, 0x038, 1, 0, 15, 12, .rw, false, false, (.const 0)⟩
def MC_ARBCFG_BPWB : Fld := ⟨.mc, 0x038, 1, 0, 11, 8, .rw, false, false, (.const 4)⟩
def MC_ARBCFG_BWR : Fld := ⟨.mc, 0x038, 1, 0, 7, 4, .rw, false, false, (.const 0)⟩
def MC_ARBCFG_BRD : Fld := ⟨.mc, 0x038, 1, 0, 3, 0, .rw, false, false, (.const 2)⟩
def MC_LINKERR_COUNT : Fld := ⟨.mc, 0x03C, 1, 0, 31, 0, .ro, false, false, (.const 0)⟩
def MC_ARB_GRANTS_COUNT : Fld := ⟨.mc, 0x040, 5, 12, 31, 0, .ro, false, false, (.const 0)⟩
def MC_ARB_WAITS_COUNT : Fld := ⟨.mc, 0x044, 5, 12, 31, 0, .ro, false, false, (.const 0)⟩
def MC_ARB_MAXWAIT_MAX : Fld := ⟨.mc, 0x048, 5, 12, 15, 0, .ro, false, false, (.const 0)⟩

-- interleave table, M0 page 0x020 (R342)
def MC_ILVCTL_COMMIT : Fld := ⟨.ilv, 0x200, 1, 0, 0, 0, .w1s, true, false, (.const 0)⟩
def MC_ILVSTAT_BAD : Fld := ⟨.ilv, 0x204, 1, 0, 31, 16, .ro, false, false, (.const 0)⟩
def MC_ILVSTAT_PEND : Fld := ⟨.ilv, 0x204, 1, 0, 0, 0, .ro, false, false, (.const 0)⟩
def MC_ILVSUM_CRC : Fld := ⟨.ilv, 0x208, 1, 0, 31, 0, .ro, false, false, (.const 0)⟩
def MC_ILV_BASE_V : Fld := ⟨.ilv, 0x210, 16, 16, 31, 31, .rwb, true, true, (.const 0)⟩
def MC_ILV_BASE_BASE : Fld := ⟨.ilv, 0x210, 16, 16, 21, 0, .rwb, true, true, (.const 0)⟩
def MC_ILV_LIMIT_LIMIT : Fld := ⟨.ilv, 0x214, 16, 16, 21, 0, .rwb, true, true, (.const 0)⟩
def MC_ILV_TGT_KIND : Fld := ⟨.ilv, 0x218, 16, 16, 31, 31, .rwb, true, true, (.const 0)⟩
def MC_ILV_TGT_PERS : Fld := ⟨.ilv, 0x218, 16, 16, 30, 30, .rwb, true, true, (.const 0)⟩
def MC_ILV_TGT_GRAN : Fld := ⟨.ilv, 0x218, 16, 16, 29, 28, .rwb, true, true, (.const 0)⟩
def MC_ILV_TGT_HASH : Fld := ⟨.ilv, 0x218, 16, 16, 27, 27, .rwb, true, true, (.const 0)⟩
def MC_ILV_TGT_SKTWAYS : Fld := ⟨.ilv, 0x218, 16, 16, 26, 24, .rwb, true, true, (.const 0)⟩
def MC_ILV_TGT_SKTBASE : Fld := ⟨.ilv, 0x218, 16, 16, 23, 20, .rwb, true, true, (.const 0)⟩
def MC_ILV_TGT_CHMASK : Fld := ⟨.ilv, 0x218, 16, 16, 15, 0, .rwb, true, true, (.const 0)⟩
def MC_ILV_CHOFF_CHOFF : Fld := ⟨.ilv, 0x21C, 16, 16, 21, 0, .rwb, true, true, (.const 0)⟩

-- VAR_ page 0x028 of a memory tile (R343)
def VAR_CTL_ARM : Fld := ⟨.var, 0x000, 1, 0, 31, 31, .rw, true, false, (.const 0)⟩
def VAR_STAT_FULL : Fld := ⟨.var, 0x004, 1, 0, 3, 3, .w1c, false, false, (.const 0)⟩
def VAR_STAT_DONE : Fld := ⟨.var, 0x004, 1, 0, 2, 2, .ro, false, false, (.const 0)⟩
def VAR_STAT_FLUSHING : Fld := ⟨.var, 0x004, 1, 0, 1, 1, .ro, false, false, (.const 0)⟩
def VAR_STAT_ARMED : Fld := ⟨.var, 0x004, 1, 0, 0, 0, .ro, false, false, (.const 0)⟩
def VAR_LDG_USED : Fld := ⟨.var, 0x008, 1, 0, 27, 16, .ro, false, false, (.const 0)⟩
def VAR_LDG_FREE : Fld := ⟨.var, 0x008, 1, 0, 11, 0, .ro, false, false, (.const 2048)⟩
def VAR_HWM_MAX : Fld := ⟨.var, 0x00C, 1, 0, 11, 0, .rw, false, false, (.const 0)⟩

-- VAR_SEQ, M0 page 0x028 (R343)
def VAR_SEQ_GPFGRP : Fld := ⟨.varseq, 0x020, 1, 0, 23, 16, .ro, false, false, (.const 0)⟩
def VAR_SEQ_GPFTMO : Fld := ⟨.varseq, 0x020, 1, 0, 10, 0, .rw, true, false, (.const 1200)⟩

-- DVT_ page of a link (R373)
def DVT_CTL_RETRAIN : Fld := ⟨.dvt, 0x000, 1, 0, 31, 31, .w1s, false, false, (.const 0)⟩
def DVT_CTL_MAXW : Fld := ⟨.dvt, 0x000, 1, 0, 2, 1, .rw, false, false, (.const 0)⟩
def DVT_CTL_EN : Fld := ⟨.dvt, 0x000, 1, 0, 0, 0, .rw, false, false, (.const 1)⟩
def DVT_STAT_OVF : Fld := ⟨.dvt, 0x004, 1, 0, 19, 19, .w1c, false, false, (.const 0)⟩
def DVT_STAT_FAILSEEN : Fld := ⟨.dvt, 0x004, 1, 0, 18, 18, .w1c, false, false, (.const 0)⟩
def DVT_STAT_RETRAINED : Fld := ⟨.dvt, 0x004, 1, 0, 17, 17, .w1c, false, false, (.const 0)⟩
def DVT_STAT_YIELD : Fld := ⟨.dvt, 0x004, 1, 0, 16, 16, .w1c, false, false, (.const 0)⟩
def DVT_STAT_REASON : Fld := ⟨.dvt, 0x004, 1, 0, 11, 8, .ro, false, false, (.const 0)⟩
def DVT_STAT_GROUP : Fld := ⟨.dvt, 0x004, 1, 0, 7, 5, .ro, false, false, (.const 0)⟩
def DVT_STAT_WIDTH : Fld := ⟨.dvt, 0x004, 1, 0, 4, 3, .ro, false, false, (.const 3)⟩
def DVT_STAT_STATE : Fld := ⟨.dvt, 0x004, 1, 0, 2, 0, .ro, false, false, (.const 0)⟩
def DVT_PEER_TAG : Fld := ⟨.dvt, 0x008, 1, 0, 31, 16, .ro, false, false, (.const 0)⟩
def DVT_PEER_ID : Fld := ⟨.dvt, 0x008, 1, 0, 15, 12, .ro, false, false, (.const 0)⟩
def DVT_PEER_LINK : Fld := ⟨.dvt, 0x008, 1, 0, 11, 10, .ro, false, false, (.const 0)⟩
def DVT_PEER_SKTCNT : Fld := ⟨.dvt, 0x008, 1, 0, 9, 5, .ro, false, false, (.const 0)⟩
def DVT_LANES_GOOD : Fld := ⟨.dvt, 0x00C, 1, 0, 11, 0, .ro, false, false, (.const 0)⟩
def DVT_REPLAYS_COUNT : Fld := ⟨.dvt, 0x010, 1, 0, 31, 0, .ro, false, false, (.const 0)⟩
def DVT_RETRAINS_COUNT : Fld := ⟨.dvt, 0x014, 1, 0, 31, 0, .ro, false, false, (.const 0)⟩
def DVT_REINJ_ACTIVE : Fld := ⟨.dvt, 0x018, 1, 0, 31, 31, .ro, false, false, (.const 0)⟩
def DVT_REINJ_DONE : Fld := ⟨.dvt, 0x018, 1, 0, 30, 30, .w1c, false, false, (.const 0)⟩
def DVT_REINJ_ALAST : Fld := ⟨.dvt, 0x018, 1, 0, 27, 16, .ro, false, false, (.const 0)⟩
def DVT_REINJ_SENT : Fld := ⟨.dvt, 0x018, 1, 0, 15, 0, .ro, false, false, (.const 0)⟩
def DVT_DUPS_COUNT : Fld := ⟨.dvt, 0x01C, 1, 0, 31, 0, .ro, false, false, (.const 0)⟩
def DVT_LDG0_VC3 : Fld := ⟨.dvt, 0x020, 1, 0, 31, 24, .ro, false, false, (.const 16)⟩
def DVT_LDG0_VC2 : Fld := ⟨.dvt, 0x020, 1, 0, 23, 16, .ro, false, false, (.const 160)⟩
def DVT_LDG0_VC1 : Fld := ⟨.dvt, 0x020, 1, 0, 15, 8, .ro, false, false, (.const 64)⟩
def DVT_LDG0_VC0 : Fld := ⟨.dvt, 0x020, 1, 0, 7, 0, .ro, false, false, (.const 64)⟩
def DVT_LDG1_VC6 : Fld := ⟨.dvt, 0x024, 1, 0, 23, 16, .ro, false, false, (.const 160)⟩
def DVT_LDG1_VC5 : Fld := ⟨.dvt, 0x024, 1, 0, 15, 8, .ro, false, false, (.const 64)⟩
def DVT_LDG1_VC4 : Fld := ⟨.dvt, 0x024, 1, 0, 7, 0, .ro, false, false, (.const 64)⟩
def DVT_RBUF_USED : Fld := ⟨.dvt, 0x028, 1, 0, 26, 16, .ro, false, false, (.const 0)⟩
def DVT_RBUF_FREE : Fld := ⟨.dvt, 0x028, 1, 0, 10, 0, .ro, false, false, (.const 1024)⟩

-- socket-wide DVT_ registers, L0 page (R373)
def DVT_ENUM_DONE : Fld := ⟨.dvtg, 0x100, 1, 0, 31, 31, .ro, false, false, (.const 0)⟩
def DVT_ENUM_FAIL : Fld := ⟨.dvtg, 0x100, 1, 0, 30, 30, .ro, false, false, (.const 0)⟩
def DVT_ENUM_MASTER : Fld := ⟨.dvtg, 0x100, 1, 0, 29, 29, .ro, false, false, (.const 0)⟩
def DVT_ENUM_SKTCNT : Fld := ⟨.dvtg, 0x100, 1, 0, 28, 24, .ro, false, false, (.const 0)⟩
def DVT_ENUM_SKTID : Fld := ⟨.dvtg, 0x100, 1, 0, 23, 20, .ro, false, true, (.const 0)⟩
def DVT_ENUM_TAG : Fld := ⟨.dvtg, 0x100, 1, 0, 15, 0, .ro, false, false, (.const 0)⟩
def DVT_MAP_LO_UP : Fld := ⟨.dvtg, 0x104, 1, 0, 31, 0, .ro, false, false, (.const 0)⟩
def DVT_MAP_HI_UP : Fld := ⟨.dvtg, 0x108, 1, 0, 31, 0, .ro, false, false, (.const 0)⟩
def DVT_REACH_SKT : Fld := ⟨.dvtg, 0x10C, 1, 0, 15, 0, .ro, false, false, (.const 0)⟩
def DVT_GSTAT_ISOL : Fld := ⟨.dvtg, 0x110, 1, 0, 3, 3, .ro, false, false, (.const 0)⟩
def DVT_GSTAT_LOST : Fld := ⟨.dvtg, 0x110, 1, 0, 2, 2, .w1c, false, false, (.const 0)⟩
def DVT_GSTAT_ILVMIS : Fld := ⟨.dvtg, 0x110, 1, 0, 1, 1, .w1c, false, false, (.const 0)⟩
def DVT_GSTAT_CAPLOW : Fld := ⟨.dvtg, 0x110, 1, 0, 0, 0, .w1c, false, false, (.const 0)⟩
def DVT_TSYNC_LOCKED : Fld := ⟨.dvtg, 0x114, 1, 0, 31, 31, .ro, false, false, (.const 0)⟩
def DVT_TSYNC_OFFSET : Fld := ⟨.dvtg, 0x114, 1, 0, 15, 0, .ro, false, false, (.const 0)⟩
def DVT_GPWR_EN : Fld := ⟨.dvtg, 0x118, 1, 0, 31, 31, .rw, true, true, (.const 0)⟩
def DVT_GPWR_MODE : Fld := ⟨.dvtg, 0x118, 1, 0, 30, 30, .rw, true, true, (.const 0)⟩
def DVT_GPWR_CAP : Fld := ⟨.dvtg, 0x118, 1, 0, 13, 0, .rw, true, true, (.const 11520)⟩
def DVT_PWRWT_WEIGHT : Fld := ⟨.dvtg, 0x11C, 1, 0, 7, 0, .rw, true, false, (.const 1)⟩
def DVT_PWRSHARE_W : Fld := ⟨.dvtg, 0x120, 1, 0, 9, 0, .ro, false, false, (.const 720)⟩
def DVT_ILVMIS_SKT : Fld := ⟨.dvtg, 0x124, 1, 0, 15, 0, .ro, false, false, (.const 0)⟩

-- PCI_ group page (R399)
def PCI_GRP_ID_TILE : Fld := ⟨.pcig, 0x000, 1, 0, 15, 8, .ro, false, false, .tile⟩
def PCI_GRP_ID_GROUP : Fld := ⟨.pcig, 0x000, 1, 0, 2, 0, .ro, false, false, .group⟩
def PCI_GRP_CFG_MODE : Fld := ⟨.pcig, 0x004, 1, 0, 9, 8, .rw, false, false, (.const 0)⟩
def PCI_GRP_CFG_SPLIT : Fld := ⟨.pcig, 0x004, 1, 0, 7, 0, .rw, false, false, (.const 1)⟩
def PCI_GRP_CTL_RST : Fld := ⟨.pcig, 0x008, 1, 0, 0, 0, .rw, false, false, (.const 1)⟩
def PCI_GRP_STAT_OVERLAP : Fld := ⟨.pcig, 0x00C, 1, 0, 3, 3, .w1c, false, false, (.const 0)⟩
def PCI_GRP_STAT_BAD : Fld := ⟨.pcig, 0x00C, 1, 0, 2, 2, .ro, false, false, (.const 0)⟩
def PCI_GRP_STAT_INRESET : Fld := ⟨.pcig, 0x00C, 1, 0, 1, 1, .ro, false, false, (.const 1)⟩
def PCI_GRP_EFF_MODE : Fld := ⟨.pcig, 0x010, 1, 0, 9, 8, .ro, false, false, (.const 0)⟩
def PCI_GRP_EFF_SPLIT : Fld := ⟨.pcig, 0x010, 1, 0, 7, 0, .ro, false, false, (.const 1)⟩

-- endpoint registers, group 0 page (R399)
def EP_ROMPAGE_TGT : Fld := ⟨.ep, 0x100, 1, 0, 31, 30, .rw, false, false, (.const 0)⟩
def EP_ROMPAGE_PAGE : Fld := ⟨.ep, 0x100, 1, 0, 7, 0, .rw, false, false, (.const 0)⟩
def EP_HDB_VEC : Fld := ⟨.ep, 0x104, 1, 0, 9, 0, .ro, false, false, (.const 0)⟩
def EP_HDBTGT_EN : Fld := ⟨.ep, 0x108, 1, 0, 31, 31, .rw, false, false, (.const 0)⟩
def EP_HDBTGT_CORE : Fld := ⟨.ep, 0x108, 1, 0, 19, 11, .rw, false, false, (.const 0)⟩
def EP_HDBTGT_THREAD : Fld := ⟨.ep, 0x108, 1, 0, 10, 10, .rw, false, false, (.const 0)⟩
def EP_HINT_VEC : Fld := ⟨.ep, 0x10C, 1, 0, 10, 0, .rw, false, false, (.const 0)⟩
def EP_STAT_FLR : Fld := ⟨.ep, 0x110, 1, 0, 3, 3, .ro, false, false, (.const 0)⟩
def EP_STAT_BME : Fld := ⟨.ep, 0x110, 1, 0, 2, 2, .ro, false, false, (.const 0)⟩
def EP_STAT_LINKUP : Fld := ⟨.ep, 0x110, 1, 0, 1, 1, .ro, false, false, (.const 0)⟩
def EP_STAT_READY : Fld := ⟨.ep, 0x110, 1, 0, 0, 0, .rw, false, false, (.const 0)⟩
def EP_OUTBASE_BASE : Fld := ⟨.ep, 0x114, 1, 0, 22, 0, .rw, false, false, (.const 0)⟩
def EP_EVT_FLR : Fld := ⟨.ep, 0x118, 1, 0, 2, 2, .w1c, false, false, (.const 0)⟩
def EP_EVT_BME : Fld := ⟨.ep, 0x118, 1, 0, 1, 1, .w1c, false, false, (.const 0)⟩
def EP_EVT_LDOWN : Fld := ⟨.ep, 0x118, 1, 0, 0, 0, .w1c, false, false, (.const 0)⟩

-- PCI_ port page (R400)
def PCI_PORT_ID_WIDTH : Fld := ⟨.pcip, 0x000, 1, 0, 15, 8, .ro, false, false, (.const 0)⟩
def PCI_PORT_ID_PORT : Fld := ⟨.pcip, 0x000, 1, 0, 5, 0, .ro, false, false, .port⟩
def PCI_PORT_CTL_RELEASE : Fld := ⟨.pcip, 0x004, 1, 0, 31, 31, .w1s, false, false, (.const 0)⟩
def PCI_PORT_CTL_RETRAIN : Fld := ⟨.pcip, 0x004, 1, 0, 30, 30, .w1s, false, false, (.const 0)⟩
def PCI_PORT_CTL_MAXSPEED : Fld := ⟨.pcip, 0x004, 1, 0, 3, 2, .rw, false, false, (.const 0)⟩
def PCI_PORT_CTL_ECRC : Fld := ⟨.pcip, 0x004, 1, 0, 1, 1, .rw, false, false, (.const 0)⟩
def PCI_PORT_CTL_EN : Fld := ⟨.pcip, 0x004, 1, 0, 0, 0, .rw, false, false, (.const 1)⟩
def PCI_PORT_STAT_OVF : Fld := ⟨.pcip, 0x008, 1, 0, 16, 16, .w1c, false, false, (.const 0)⟩
def PCI_PORT_STAT_PRESENT : Fld := ⟨.pcip, 0x008, 1, 0, 15, 15, .ro, false, false, (.const 0)⟩
def PCI_PORT_STAT_CONTAINED : Fld := ⟨.pcip, 0x008, 1, 0, 14, 14, .ro, false, false, (.const 0)⟩
def PCI_PORT_STAT_CMODE : Fld := ⟨.pcip, 0x008, 1, 0, 13, 13, .ro, false, false, (.const 0)⟩
def PCI_PORT_STAT_FLIT : Fld := ⟨.pcip, 0x008, 1, 0, 12, 12, .ro, false, false, (.const 0)⟩
def PCI_PORT_STAT_SPEED : Fld := ⟨.pcip, 0x008, 1, 0, 11, 8, .ro, false, false, (.const 0)⟩
def PCI_PORT_STAT_WIDTH : Fld := ⟨.pcip, 0x008, 1, 0, 7, 3, .ro, false, false, (.const 0)⟩
def PCI_PORT_STAT_STATE : Fld := ⟨.pcip, 0x008, 1, 0, 2, 0, .ro, false, false, (.const 0)⟩
def PCI_PORT_ERR_LUP : Fld := ⟨.pcip, 0x00C, 1, 0, 10, 10, .w1c, false, false, (.const 0)⟩
def PCI_PORT_ERR_SRCVAL : Fld := ⟨.pcip, 0x00C, 1, 0, 9, 9, .w1c, false, false, (.const 0)⟩
def PCI_PORT_ERR_ECRC : Fld := ⟨.pcip, 0x00C, 1, 0, 8, 8, .w1c, false, false, (.const 0)⟩
def PCI_PORT_ERR_MALF : Fld := ⟨.pcip, 0x00C, 1, 0, 7, 7, .w1c, false, false, (.const 0)⟩
def PCI_PORT_ERR_CTO : Fld := ⟨.pcip, 0x00C, 1, 0, 6, 6, .w1c, false, false, (.const 0)⟩
def PCI_PORT_ERR_CA : Fld := ⟨.pcip, 0x00C, 1, 0, 5, 5, .w1c, false, false, (.const 0)⟩
def PCI_PORT_ERR_UR : Fld := ⟨.pcip, 0x00C, 1, 0, 4, 4, .w1c, false, false, (.const 0)⟩
def PCI_PORT_ERR_POISON : Fld := ⟨.pcip, 0x00C, 1, 0, 3, 3, .w1c, false, false, (.const 0)⟩
def PCI_PORT_ERR_SURPRISE : Fld := ⟨.pcip, 0x00C, 1, 0, 2, 2, .w1c, false, false, (.const 0)⟩
def PCI_PORT_ERR_CONTAIN : Fld := ⟨.pcip, 0x00C, 1, 0, 1, 1, .w1c, false, false, (.const 0)⟩
def PCI_PORT_ERR_LDOWN : Fld := ⟨.pcip, 0x00C, 1, 0, 0, 0, .w1c, false, false, (.const 0)⟩
def PCI_PORT_IRQ_EN : Fld := ⟨.pcip, 0x010, 1, 0, 31, 31, .rw, false, false, (.const 0)⟩
def PCI_PORT_IRQ_SOCKET : Fld := ⟨.pcip, 0x010, 1, 0, 23, 20, .rw, false, false, (.const 0)⟩
def PCI_PORT_IRQ_CORE : Fld := ⟨.pcip, 0x010, 1, 0, 19, 11, .rw, false, false, (.const 0)⟩
def PCI_PORT_IRQ_THREAD : Fld := ⟨.pcip, 0x010, 1, 0, 10, 10, .rw, false, false, (.const 0)⟩
def PCI_PORT_IRQ_VEC : Fld := ⟨.pcip, 0x010, 1, 0, 9, 0, .rw, false, false, (.const 0)⟩
def PCI_PORT_CTO_MS : Fld := ⟨.pcip, 0x014, 1, 0, 9, 0, .rw, false, false, (.const 10)⟩
def PCI_PORT_WINBASE_MB : Fld := ⟨.pcip, 0x018, 1, 0, 20, 0, .rw, false, false, (.const 2097151)⟩
def PCI_PORT_WINLIM_MB : Fld := ⟨.pcip, 0x01C, 1, 0, 20, 0, .rw, false, false, (.const 0)⟩
def PCI_PORT_BUS_SUB : Fld := ⟨.pcip, 0x020, 1, 0, 15, 8, .rw, false, false, (.const 0)⟩
def PCI_PORT_BUS_SEC : Fld := ⟨.pcip, 0x020, 1, 0, 7, 0, .rw, false, false, (.const 0)⟩
def PCI_PORT_DROPS_COUNT : Fld := ⟨.pcip, 0x024, 1, 0, 31, 0, .ro, false, false, (.const 0)⟩
def PCI_PORT_LDG_FREE : Fld := ⟨.pcip, 0x028, 1, 0, 25, 16, .ro, false, false, (.const 256)⟩
def PCI_PORT_LDG_USED : Fld := ⟨.pcip, 0x028, 1, 0, 9, 0, .ro, false, false, (.const 0)⟩

-- IOT_ page 0x038 of a PCIe/CXL tile (R217)
def IOT_CTL_FQEN : Fld := ⟨.iot, 0x000, 1, 0, 2, 2, .rw, false, false, (.const 0)⟩
def IOT_CTL_ATSEN : Fld := ⟨.iot, 0x000, 1, 0, 1, 1, .rw, false, false, (.const 0)⟩
def IOT_CTL_EN : Fld := ⟨.iot, 0x000, 1, 0, 0, 0, .rw, false, false, (.const 0)⟩
def IOT_STAT_OFFSEEN : Fld := ⟨.iot, 0x004, 1, 0, 1, 1, .w1c, false, false, (.const 0)⟩
def IOT_STAT_FQFULL : Fld := ⟨.iot, 0x004, 1, 0, 0, 0, .w1c, false, false, (.const 0)⟩
def IOT_DTB_LO_PA : Fld := ⟨.iot, 0x008, 1, 0, 31, 12, .rw, false, false, (.const 0)⟩
def IOT_DTB_HI_PA : Fld := ⟨.iot, 0x00C, 1, 0, 19, 0, .rw, false, false, (.const 0)⟩
def IOT_DMB_LO_PA : Fld := ⟨.iot, 0x010, 1, 0, 31, 12, .rw, false, false, (.const 0)⟩
def IOT_DMB_HI_PA : Fld := ⟨.iot, 0x014, 1, 0, 19, 0, .rw, false, false, (.const 0)⟩
def IOT_FQB_LO_PA : Fld := ⟨.iot, 0x018, 1, 0, 31, 12, .rw, false, false, (.const 0)⟩
def IOT_FQB_LO_SIZE : Fld := ⟨.iot, 0x018, 1, 0, 3, 0, .rw, false, false, (.const 0)⟩
def IOT_FQB_HI_PA : Fld := ⟨.iot, 0x01C, 1, 0, 19, 0, .rw, false, false, (.const 0)⟩
def IOT_FQHEAD_IDX : Fld := ⟨.iot, 0x020, 1, 0, 15, 0, .rw, false, false, (.const 0)⟩
def IOT_FQTAIL_IDX : Fld := ⟨.iot, 0x024, 1, 0, 15, 0, .ro, false, false, (.const 0)⟩
def IOT_FQIRQ_EN : Fld := ⟨.iot, 0x028, 1, 0, 31, 31, .rw, false, false, (.const 0)⟩
def IOT_FQIRQ_SOCKET : Fld := ⟨.iot, 0x028, 1, 0, 23, 20, .rw, false, false, (.const 0)⟩
def IOT_FQIRQ_CORE : Fld := ⟨.iot, 0x028, 1, 0, 19, 11, .rw, false, false, (.const 0)⟩
def IOT_FQIRQ_THREAD : Fld := ⟨.iot, 0x028, 1, 0, 10, 10, .rw, false, false, (.const 0)⟩
def IOT_FQIRQ_VEC : Fld := ⟨.iot, 0x028, 1, 0, 9, 0, .rw, false, false, (.const 0)⟩
def IOT_FQOVF_COUNT : Fld := ⟨.iot, 0x02C, 1, 0, 31, 0, .ro, false, false, (.const 0)⟩
def IOT_INV_CMD_GO : Fld := ⟨.iot, 0x030, 1, 0, 31, 31, .w1s, false, false, (.const 0)⟩
def IOT_INV_CMD_SCOPE : Fld := ⟨.iot, 0x030, 1, 0, 30, 28, .rw, false, false, (.const 0)⟩
def IOT_INV_CMD_DOMAIN : Fld := ⟨.iot, 0x030, 1, 0, 27, 16, .rw, false, false, (.const 0)⟩
def IOT_INV_CMD_RID : Fld := ⟨.iot, 0x030, 1, 0, 15, 0, .rw, false, false, (.const 0)⟩
def IOT_INV_PSID_PSID : Fld := ⟨.iot, 0x034, 1, 0, 19, 0, .rw, false, false, (.const 0)⟩
def IOT_INV_ADDR_LO_ADDR : Fld := ⟨.iot, 0x038, 1, 0, 31, 12, .rw, false, false, (.const 0)⟩
def IOT_INV_ADDR_HI_ADDR : Fld := ⟨.iot, 0x03C, 1, 0, 31, 0, .rw, false, false, (.const 0)⟩
def IOT_INV_STAT_REJ : Fld := ⟨.iot, 0x040, 1, 0, 3, 3, .w1c, false, false, (.const 0)⟩
def IOT_INV_STAT_ATSTMO : Fld := ⟨.iot, 0x040, 1, 0, 2, 2, .w1c, false, false, (.const 0)⟩
def IOT_INV_STAT_DONE : Fld := ⟨.iot, 0x040, 1, 0, 1, 1, .w1c, false, false, (.const 0)⟩
def IOT_INV_STAT_BUSY : Fld := ⟨.iot, 0x040, 1, 0, 0, 0, .ro, false, false, (.const 0)⟩
def IOT_ATSTMO_MS : Fld := ⟨.iot, 0x044, 1, 0, 15, 0, .rw, false, false, (.const 100)⟩

-- NET_ global page 0x100 (R442)
def NET_ID_TILE : Fld := ⟨.netg, 0x000, 1, 0, 7, 0, .ro, false, false, (.const 6)⟩
def NET_CTL_RST : Fld := ⟨.netg, 0x004, 1, 0, 0, 0, .rw, false, false, (.const 1)⟩
def NET_STAT_BUFCFG : Fld := ⟨.netg, 0x008, 1, 0, 4, 4, .w1c, false, false, (.const 0)⟩
def NET_STAT_OVF : Fld := ⟨.netg, 0x008, 1, 0, 3, 3, .w1c, false, false, (.const 0)⟩
def NET_STAT_DBREJ : Fld := ⟨.netg, 0x008, 1, 0, 2, 2, .w1c, false, false, (.const 0)⟩
def NET_STAT_ABANDON : Fld := ⟨.netg, 0x008, 1, 0, 1, 1, .w1c, false, false, (.const 0)⟩
def NET_STAT_INRESET : Fld := ⟨.netg, 0x008, 1, 0, 0, 0, .ro, false, false, (.const 1)⟩
def NET_QCTXB_LO_PA : Fld := ⟨.netg, 0x00C, 1, 0, 31, 12, .rw, false, false, (.const 0)⟩
def NET_QCTXB_HI_PA : Fld := ⟨.netg, 0x010, 1, 0, 31, 0, .rw, false, false, (.const 0)⟩
def NET_FLOWB_LO_PA : Fld := ⟨.netg, 0x014, 1, 0, 31, 12, .rw, false, false, (.const 0)⟩
def NET_FLOWB_HI_PA : Fld := ⟨.netg, 0x018, 1, 0, 31, 0, .rw, false, false, (.const 0)⟩
def NET_MCB_LO_PA : Fld := ⟨.netg, 0x01C, 1, 0, 31, 12, .rw, false, false, (.const 0)⟩
def NET_MCB_HI_PA : Fld := ⟨.netg, 0x020, 1, 0, 31, 0, .rw, false, false, (.const 0)⟩
def NET_FLOWCMD_GO : Fld := ⟨.netg, 0x024, 1, 0, 31, 31, .w1s, false, false, (.const 0)⟩
def NET_FLOWCMD_ALL : Fld := ⟨.netg, 0x024, 1, 0, 30, 30, .rw, false, false, (.const 0)⟩
def NET_FLOWCMD_BUCKET : Fld := ⟨.netg, 0x024, 1, 0, 15, 0, .rw, false, false, (.const 0)⟩
def NET_FLOWSTAT_REJ : Fld := ⟨.netg, 0x028, 1, 0, 2, 2, .w1c, false, false, (.const 0)⟩
def NET_FLOWSTAT_DONE : Fld := ⟨.netg, 0x028, 1, 0, 1, 1, .w1c, false, false, (.const 0)⟩
def NET_FLOWSTAT_BUSY : Fld := ⟨.netg, 0x028, 1, 0, 0, 0, .ro, false, false, (.const 0)⟩
def NET_QCMD_GO : Fld := ⟨.netg, 0x02C, 1, 0, 31, 31, .w1s, false, false, (.const 0)⟩
def NET_QCMD_OP : Fld := ⟨.netg, 0x02C, 1, 0, 30, 29, .rw, false, false, (.const 0)⟩
def NET_QCMD_CLR : Fld := ⟨.netg, 0x02C, 1, 0, 28, 28, .rw, false, false, (.const 0)⟩
def NET_QCMD_QUEUE : Fld := ⟨.netg, 0x02C, 1, 0, 13, 0, .rw, false, false, (.const 0)⟩
def NET_QCMDSTAT_ERRCODE : Fld := ⟨.netg, 0x030, 1, 0, 7, 4, .ro, false, false, (.const 0)⟩
def NET_QCMDSTAT_REJ : Fld := ⟨.netg, 0x030, 1, 0, 3, 3, .w1c, false, false, (.const 0)⟩
def NET_QCMDSTAT_ERR : Fld := ⟨.netg, 0x030, 1, 0, 2, 2, .w1c, false, false, (.const 0)⟩
def NET_QCMDSTAT_DONE : Fld := ⟨.netg, 0x030, 1, 0, 1, 1, .w1c, false, false, (.const 0)⟩
def NET_QCMDSTAT_BUSY : Fld := ⟨.netg, 0x030, 1, 0, 0, 0, .ro, false, false, (.const 0)⟩
def NET_QREAD0_PIDX : Fld := ⟨.netg, 0x034, 1, 0, 31, 16, .ro, false, false, (.const 0)⟩
def NET_QREAD0_DCIDX : Fld := ⟨.netg, 0x034, 1, 0, 15, 0, .ro, false, false, (.const 0)⟩
def NET_QREAD1_CPIDX : Fld := ⟨.netg, 0x038, 1, 0, 31, 16, .ro, false, false, (.const 0)⟩
def NET_QREAD1_CCIDX : Fld := ⟨.netg, 0x038, 1, 0, 15, 0, .ro, false, false, (.const 0)⟩
def NET_QREAD2_DROPS : Fld := ⟨.netg, 0x03C, 1, 0, 31, 16, .ro, false, false, (.const 0)⟩
def NET_QREAD2_LOST : Fld := ⟨.netg, 0x03C, 1, 0, 15, 0, .ro, false, false, (.const 0)⟩
def NET_QREAD3_CELLS : Fld := ⟨.netg, 0x040, 1, 0, 31, 16, .ro, false, false, (.const 0)⟩
def NET_QREAD3_ERRSEEN : Fld := ⟨.netg, 0x040, 1, 0, 3, 3, .ro, false, false, (.const 0)⟩
def NET_QREAD3_STATE : Fld := ⟨.netg, 0x040, 1, 0, 2, 0, .ro, false, false, (.const 0)⟩
def NET_MCSEL_GROUP : Fld := ⟨.netg, 0x044, 1, 0, 11, 0, .rw, false, false, (.const 0)⟩
def NET_MCFRAMES_COUNT : Fld := ⟨.netg, 0x048, 1, 0, 31, 0, .ro, false, false, (.const 0)⟩
def NET_MCREPL_COUNT : Fld := ⟨.netg, 0x04C, 1, 0, 31, 0, .ro, false, false, (.const 0)⟩
def NET_MCDROP_COUNT : Fld := ⟨.netg, 0x050, 1, 0, 31, 0, .ro, false, false, (.const 0)⟩
def NET_BUFCFG_TXRES : Fld := ⟨.netg, 0x054, 1, 0, 15, 0, .rwb, false, false, (.const 4096)⟩
def NET_LDG_CELL_USED : Fld := ⟨.netg, 0x058, 1, 0, 31, 16, .ro, false, false, (.const 0)⟩
def NET_LDG_CELL_FREE : Fld := ⟨.netg, 0x058, 1, 0, 15, 0, .ro, false, false, (.const 32768)⟩
def NET_LDG_DESC_USED : Fld := ⟨.netg, 0x05C, 1, 0, 31, 16, .ro, false, false, (.const 0)⟩
def NET_LDG_DESC_FREE : Fld := ⟨.netg, 0x05C, 1, 0, 15, 0, .ro, false, false, (.const 4096)⟩
def NET_ARBCFG_BMC : Fld := ⟨.netg, 0x060, 1, 0, 19, 16, .rw, false, false, (.const 0)⟩
def NET_ARBCFG_BCMPL : Fld := ⟨.netg, 0x060, 1, 0, 15, 12, .rw, false, false, (.const 6)⟩
def NET_ARBCFG_BDESC : Fld := ⟨.netg, 0x060, 1, 0, 11, 8, .rw, false, false, (.const 2)⟩
def NET_ARBCFG_BTX : Fld := ⟨.netg, 0x060, 1, 0, 7, 4, .rw, false, false, (.const 2)⟩
def NET_ARBCFG_BRX : Fld := ⟨.netg, 0x060, 1, 0, 3, 0, .rw, false, false, (.const 4)⟩
def NET_ARB_GRANTS_COUNT : Fld := ⟨.netg, 0x070, 5, 12, 31, 0, .ro, false, false, (.const 0)⟩
def NET_ARB_WAITS_COUNT : Fld := ⟨.netg, 0x074, 5, 12, 31, 0, .ro, false, false, (.const 0)⟩
def NET_ARB_MAXWAIT_MAX : Fld := ⟨.netg, 0x078, 5, 12, 15, 0, .ro, false, false, (.const 0)⟩

-- MAC page 0x110 + m (R442)
def NET_MAC_CFG_AN : Fld := ⟨.mac, 0x000, 1, 0, 18, 18, .rw, false, false, (.const 1)⟩
def NET_MAC_CFG_MAXLEN : Fld := ⟨.mac, 0x000, 1, 0, 17, 4, .rw, false, false, (.const 1522)⟩
def NET_MAC_CFG_SPEED : Fld := ⟨.mac, 0x000, 1, 0, 1, 0, .rw, false, false, (.const 0)⟩
def NET_MAC_STAT_CONFLICT : Fld := ⟨.mac, 0x004, 1, 0, 7, 7, .ro, false, false, (.const 0)⟩
def NET_MAC_STAT_BAD : Fld := ⟨.mac, 0x004, 1, 0, 6, 6, .ro, false, false, (.const 0)⟩
def NET_MAC_STAT_LDOWN : Fld := ⟨.mac, 0x004, 1, 0, 5, 5, .w1c, false, false, (.const 0)⟩
def NET_MAC_STAT_LUP : Fld := ⟨.mac, 0x004, 1, 0, 4, 4, .w1c, false, false, (.const 0)⟩
def NET_MAC_STAT_STATE : Fld := ⟨.mac, 0x004, 1, 0, 2, 0, .ro, false, false, (.const 0)⟩
def NET_MAC_TSADJ_NS : Fld := ⟨.mac, 0x008, 1, 0, 15, 0, .rw, false, false, (.const 0)⟩
def NET_MAC_RXOK_COUNT : Fld := ⟨.mac, 0x010, 1, 0, 31, 0, .ro, false, false, (.const 0)⟩
def NET_MAC_RXBYTES_LO_COUNT : Fld := ⟨.mac, 0x014, 1, 0, 31, 0, .ro, false, false, (.const 0)⟩
def NET_MAC_RXBYTES_HI_COUNT : Fld := ⟨.mac, 0x018, 1, 0, 15, 0, .ro, false, false, (.const 0)⟩
def NET_MAC_TXOK_COUNT : Fld := ⟨.mac, 0x01C, 1, 0, 31, 0, .ro, false, false, (.const 0)⟩
def NET_MAC_TXBYTES_LO_COUNT : Fld := ⟨.mac, 0x020, 1, 0, 31, 0, .ro, false, false, (.const 0)⟩
def NET_MAC_TXBYTES_HI_COUNT : Fld := ⟨.mac, 0x024, 1, 0, 15, 0, .ro, false, false, (.const 0)⟩
def NET_MAC_FCSERR_COUNT : Fld := ⟨.mac, 0x028, 1, 0, 31, 0, .ro, false, false, (.const 0)⟩
def NET_MAC_RUNT_COUNT : Fld := ⟨.mac, 0x02C, 1, 0, 31, 0, .ro, false, false, (.const 0)⟩
def NET_MAC_OVERSIZE_COUNT : Fld := ⟨.mac, 0x030, 1, 0, 31, 0, .ro, false, false, (.const 0)⟩
def NET_MAC_FRAG_COUNT : Fld := ⟨.mac, 0x034, 1, 0, 31, 0, .ro, false, false, (.const 0)⟩
def NET_MAC_JABBER_COUNT : Fld := ⟨.mac, 0x038, 1, 0, 31, 0, .ro, false, false, (.const 0)⟩
def NET_MAC_NOLP_COUNT : Fld := ⟨.mac, 0x03C, 1, 0, 31, 0, .ro, false, false, (.const 0)⟩
def NET_MAC_PAUSERX_COUNT : Fld := ⟨.mac, 0x040, 1, 0, 31, 0, .ro, false, false, (.const 0)⟩
def NET_MAC_PAUSETX_COUNT : Fld := ⟨.mac, 0x044, 1, 0, 31, 0, .ro, false, false, (.const 0)⟩
def NET_MAC_FECCORR_COUNT : Fld := ⟨.mac, 0x048, 1, 0, 31, 0, .ro, false, false, (.const 0)⟩
def NET_MAC_FECUNC_COUNT : Fld := ⟨.mac, 0x04C, 1, 0, 31, 0, .ro, false, false, (.const 0)⟩
def NET_MAC_STOMP_COUNT : Fld := ⟨.mac, 0x050, 1, 0, 31, 0, .ro, false, false, (.const 0)⟩

-- logical port page 0x120 + n (R442)
def NET_LP_CFG_EN : Fld := ⟨.lp, 0x000, 1, 0, 31, 31, .rwb, false, false, .lpen⟩
def NET_LP_CFG_MAC : Fld := ⟨.lp, 0x000, 1, 0, 30, 27, .rwb, false, false, .lpmac⟩
def NET_LP_CFG_SEL : Fld := ⟨.lp, 0x000, 1, 0, 26, 26, .rwb, false, false, (.const 0)⟩
def NET_LP_CFG_ERRDELIV : Fld := ⟨.lp, 0x000, 1, 0, 25, 25, .rwb, false, false, (.const 0)⟩
def NET_LP_CFG_FCSCT : Fld := ⟨.lp, 0x000, 1, 0, 24, 24, .rwb, false, false, (.const 0)⟩
def NET_LP_CFG_DOWNHOLD : Fld := ⟨.lp, 0x000, 1, 0, 23, 23, .rwb, false, false, (.const 0)⟩
def NET_LP_CFG_MARKECN : Fld := ⟨.lp, 0x000, 1, 0, 22, 22, .rwb, false, false, (.const 1)⟩
def NET_LP_CFG_PAUSE : Fld := ⟨.lp, 0x000, 1, 0, 21, 21, .rwb, false, false, (.const 0)⟩
def NET_LP_CFG_KEY : Fld := ⟨.lp, 0x000, 1, 0, 20, 19, .rwb, false, false, (.const 1)⟩
def NET_LP_CFG_PEND : Fld := ⟨.lp, 0x000, 1, 0, 0, 0, .ro, false, false, (.const 0)⟩
def NET_LP_VSEL_VHI : Fld := ⟨.lp, 0x004, 1, 0, 27, 16, .rwb, false, false, (.const 0)⟩
def NET_LP_VSEL_VLO : Fld := ⟨.lp, 0x004, 1, 0, 11, 0, .rwb, false, false, (.const 0)⟩
def NET_LP_DEFQ_DROP : Fld := ⟨.lp, 0x008, 1, 0, 31, 31, .rwb, false, false, (.const 1)⟩
def NET_LP_DEFQ_QUEUE : Fld := ⟨.lp, 0x008, 1, 0, 13, 0, .rwb, false, false, (.const 0)⟩
def NET_LP_ERRQ_QUEUE : Fld := ⟨.lp, 0x00C, 1, 0, 13, 0, .rwb, false, false, (.const 0)⟩
def NET_LP_BUF_RXMAX : Fld := ⟨.lp, 0x010, 1, 0, 31, 16, .rwb, false, false, (.const 0)⟩
def NET_LP_BUF_RXMIN : Fld := ⟨.lp, 0x010, 1, 0, 15, 0, .rwb, false, false, (.const 512)⟩
def NET_LP_PAUSE_XON : Fld := ⟨.lp, 0x014, 1, 0, 31, 16, .rwb, false, false, (.const 1024)⟩
def NET_LP_PAUSE_XOFF : Fld := ⟨.lp, 0x014, 1, 0, 15, 0, .rwb, false, false, (.const 2048)⟩
def NET_LP_CLS_B3 : Fld := ⟨.lp, 0x018, 1, 0, 15, 12, .rwb, false, false, (.const 6)⟩
def NET_LP_CLS_B2 : Fld := ⟨.lp, 0x018, 1, 0, 11, 8, .rwb, false, false, (.const 4)⟩
def NET_LP_CLS_B1 : Fld := ⟨.lp, 0x018, 1, 0, 7, 4, .rwb, false, false, (.const 2)⟩
def NET_LP_CLS_B0 : Fld := ⟨.lp, 0x018, 1, 0, 3, 0, .rwb, false, false, (.const 0)⟩
def NET_LP_RXOK_COUNT : Fld := ⟨.lp, 0x020, 1, 0, 31, 0, .ro, false, false, (.const 0)⟩
def NET_LP_RXDROP_COUNT : Fld := ⟨.lp, 0x024, 1, 0, 31, 0, .ro, false, false, (.const 0)⟩
def NET_LP_RXNOQ_COUNT : Fld := ⟨.lp, 0x028, 1, 0, 31, 0, .ro, false, false, (.const 0)⟩
def NET_LP_TXOK_COUNT : Fld := ⟨.lp, 0x02C, 1, 0, 31, 0, .ro, false, false, (.const 0)⟩
def NET_LP_TXDOWN_COUNT : Fld := ⟨.lp, 0x030, 1, 0, 31, 0, .ro, false, false, (.const 0)⟩
def NET_LP_CELLS_CELLS : Fld := ⟨.lp, 0x034, 1, 0, 15, 0, .ro, false, false, (.const 0)⟩

-- KEY_ global page 0x300 (R458)
def KEY_CMD_GO : Fld := ⟨.key, 0x000, 1, 0, 31, 31, .w1s, false, false, (.const 0)⟩
def KEY_CMD_OP : Fld := ⟨.key, 0x000, 1, 0, 30, 29, .rw, false, false, (.const 0)⟩
def KEY_CMD_SLOT : Fld := ⟨.key, 0x000, 1, 0, 12, 0, .rw, false, false, (.const 0)⟩
def KEY_CMDSTAT_ERRCODE : Fld := ⟨.key, 0x004, 1, 0, 7, 4, .ro, false, false, (.const 0)⟩
def KEY_CMDSTAT_REJ : Fld := ⟨.key, 0x004, 1, 0, 3, 3, .w1c, false, false, (.const 0)⟩
def KEY_CMDSTAT_ERR : Fld := ⟨.key, 0x004, 1, 0, 2, 2, .w1c, false, false, (.const 0)⟩
def KEY_CMDSTAT_DONE : Fld := ⟨.key, 0x004, 1, 0, 1, 1, .w1c, false, false, (.const 0)⟩
def KEY_CMDSTAT_BUSY : Fld := ⟨.key, 0x004, 1, 0, 0, 0, .ro, false, false, (.const 0)⟩
def KEY_STG_CTL_V : Fld := ⟨.key, 0x008, 1, 0, 30, 0, .rw, false, false, (.const 0)⟩
def KEY_STG_WIN_V : Fld := ⟨.key, 0x00C, 1, 0, 31, 0, .rw, false, false, (.const 0)⟩
def KEY_STG_ID_LO_ID : Fld := ⟨.key, 0x010, 1, 0, 31, 0, .rw, false, false, (.const 0)⟩
def KEY_STG_ID_HI_ID : Fld := ⟨.key, 0x014, 1, 0, 31, 0, .rw, false, false, (.const 0)⟩
def KEY_STG_SEQ_LO_SEQ : Fld := ⟨.key, 0x018, 1, 0, 31, 0, .rw, false, false, (.const 0)⟩
def KEY_STG_SEQ_HI_SEQ : Fld := ⟨.key, 0x01C, 1, 0, 31, 0, .rw, false, false, (.const 0)⟩
def KEY_STG_SALT_SALT : Fld := ⟨.key, 0x020, 1, 0, 31, 0, .rw, false, false, (.const 0)⟩
def KEY_STG_K_KEY : Fld := ⟨.key, 0x024, 8, 4, 31, 0, .rw, false, false, (.const 0)⟩
def KEY_SEL_SLOT : Fld := ⟨.key, 0x044, 1, 0, 12, 0, .rw, false, false, (.const 0)⟩
def KEY_OKCNT_COUNT : Fld := ⟨.key, 0x048, 1, 0, 31, 0, .ro, false, false, (.const 0)⟩
def KEY_TAGFAIL_COUNT : Fld := ⟨.key, 0x04C, 1, 0, 31, 0, .ro, false, false, (.const 0)⟩
def KEY_REPLAY_COUNT : Fld := ⟨.key, 0x050, 1, 0, 31, 0, .ro, false, false, (.const 0)⟩
def KEY_EVT_SEQHI : Fld := ⟨.key, 0x054, 1, 0, 31, 31, .w1c, false, false, (.const 0)⟩
def KEY_EVT_OVF : Fld := ⟨.key, 0x054, 1, 0, 30, 30, .w1c, false, false, (.const 0)⟩
def KEY_EVT_SLOT : Fld := ⟨.key, 0x054, 1, 0, 12, 0, .ro, false, false, (.const 0)⟩
def KEY_IRQ_EN : Fld := ⟨.key, 0x058, 1, 0, 31, 31, .rw, false, false, (.const 0)⟩
def KEY_IRQ_SOCKET : Fld := ⟨.key, 0x058, 1, 0, 23, 20, .rw, false, false, (.const 0)⟩
def KEY_IRQ_CORE : Fld := ⟨.key, 0x058, 1, 0, 19, 11, .rw, false, false, (.const 0)⟩
def KEY_IRQ_THREAD : Fld := ⟨.key, 0x058, 1, 0, 10, 10, .rw, false, false, (.const 0)⟩
def KEY_IRQ_VEC : Fld := ⟨.key, 0x058, 1, 0, 9, 0, .rw, false, false, (.const 0)⟩
def KEY_LDG_VALID : Fld := ⟨.key, 0x05C, 1, 0, 29, 16, .ro, false, false, (.const 0)⟩
def KEY_LDG_FREE : Fld := ⟨.key, 0x05C, 1, 0, 13, 0, .ro, false, false, (.const 8192)⟩
def KEY_MSRX_EN : Fld := ⟨.key, 0x060, 32, 4, 31, 31, .rwb, false, false, (.const 0)⟩
def KEY_MSRX_STRICT : Fld := ⟨.key, 0x060, 32, 4, 30, 30, .rwb, false, false, (.const 0)⟩
def KEY_MSRX_NSC : Fld := ⟨.key, 0x060, 32, 4, 29, 28, .rwb, false, false, (.const 0)⟩
def KEY_MSRX_BASE : Fld := ⟨.key, 0x060, 32, 4, 12, 0, .rwb, false, false, (.const 0)⟩

-- key slots, pages 0x200 to 0x2FF (R459)
def KEY_CTL_V : Fld := ⟨.keyslot, 0x000, 32, 32, 31, 31, .ro, false, false, (.const 0)⟩
def KEY_CTL_DIR : Fld := ⟨.keyslot, 0x000, 32, 32, 30, 30, .ro, false, false, (.const 0)⟩
def KEY_CTL_MODE : Fld := ⟨.keyslot, 0x000, 32, 32, 29, 28, .ro, false, false, (.const 0)⟩
def KEY_CTL_KLEN : Fld := ⟨.keyslot, 0x000, 32, 32, 27, 27, .ro, false, false, (.const 0)⟩
def KEY_CTL_ENC : Fld := ⟨.keyslot, 0x000, 32, 32, 26, 26, .ro, false, false, (.const 0)⟩
def KEY_CTL_ESN : Fld := ⟨.keyslot, 0x000, 32, 32, 25, 25, .ro, false, false, (.const 0)⟩
def KEY_CTL_AN : Fld := ⟨.keyslot, 0x000, 32, 32, 23, 22, .ro, false, false, (.const 0)⟩
def KEY_CTL_SC : Fld := ⟨.keyslot, 0x000, 32, 32, 21, 21, .ro, false, false, (.const 0)⟩
def KEY_CTL_INST : Fld := ⟨.keyslot, 0x000, 32, 32, 19, 10, .ro, false, false, (.const 0)⟩
def KEY_GEN_GEN : Fld := ⟨.keyslot, 0x004, 32, 32, 15, 0, .ro, false, false, (.const 0)⟩
def KEY_ID_LO_ID : Fld := ⟨.keyslot, 0x008, 32, 32, 31, 0, .ro, false, false, (.const 0)⟩
def KEY_ID_HI_ID : Fld := ⟨.keyslot, 0x00C, 32, 32, 31, 0, .ro, false, false, (.const 0)⟩
def KEY_SEQ_LO_SEQ : Fld := ⟨.keyslot, 0x010, 32, 32, 31, 0, .ro, false, false, (.const 0)⟩
def KEY_SEQ_HI_SEQ : Fld := ⟨.keyslot, 0x014, 32, 32, 31, 0, .ro, false, false, (.const 0)⟩
def KEY_WIN_WEN : Fld := ⟨.keyslot, 0x018, 32, 32, 31, 31, .ro, false, false, (.const 0)⟩
def KEY_WIN_SIZE : Fld := ⟨.keyslot, 0x018, 32, 32, 15, 0, .ro, false, false, (.const 0)⟩
def KEY_USE_DRAIN : Fld := ⟨.keyslot, 0x01C, 32, 32, 31, 31, .ro, false, false, (.const 0)⟩
def KEY_USE_INUSE : Fld := ⟨.keyslot, 0x01C, 32, 32, 15, 0, .ro, false, false, (.const 0)⟩

-- VEN_ page 0x400 + i (R481)
def VEN_ID_INST : Fld := ⟨.ven, 0x000, 1, 0, 9, 0, .ro, false, false, .inst⟩
def VEN_STAT_CTROVF : Fld := ⟨.ven, 0x004, 1, 0, 6, 6, .w1c, false, false, (.const 0)⟩
def VEN_STAT_OVD : Fld := ⟨.ven, 0x004, 1, 0, 5, 5, .ro, false, false, (.const 0)⟩
def VEN_STAT_OVK : Fld := ⟨.ven, 0x004, 1, 0, 4, 4, .ro, false, false, (.const 0)⟩
def VEN_STAT_OVF : Fld := ⟨.ven, 0x004, 1, 0, 3, 3, .ro, false, false, (.const 0)⟩
def VEN_STAT_OVQ : Fld := ⟨.ven, 0x004, 1, 0, 2, 2, .ro, false, false, (.const 0)⟩
def VEN_STAT_STATE : Fld := ⟨.ven, 0x004, 1, 0, 1, 0, .ro, false, false, (.const 0)⟩
def VEN_CMD_GO : Fld := ⟨.ven, 0x008, 1, 0, 31, 31, .w1s, false, false, (.const 0)⟩
def VEN_CMD_OP : Fld := ⟨.ven, 0x008, 1, 0, 30, 27, .rw, false, false, (.const 0)⟩
def VEN_CMD_INDEX : Fld := ⟨.ven, 0x008, 1, 0, 17, 0, .rw, false, false, (.const 0)⟩
def VEN_CMDSTAT_CODE : Fld := ⟨.ven, 0x00C, 1, 0, 7, 4, .ro, false, false, (.const 0)⟩
def VEN_CMDSTAT_REJ : Fld := ⟨.ven, 0x00C, 1, 0, 3, 3, .w1c, false, false, (.const 0)⟩
def VEN_CMDSTAT_ERR : Fld := ⟨.ven, 0x00C, 1, 0, 2, 2, .w1c, false, false, (.const 0)⟩
def VEN_CMDSTAT_DONE : Fld := ⟨.ven, 0x00C, 1, 0, 1, 1, .w1c, false, false, (.const 0)⟩
def VEN_CMDSTAT_BUSY : Fld := ⟨.ven, 0x00C, 1, 0, 0, 0, .ro, false, false, (.const 0)⟩
def VEN_TEVT_RESET : Fld := ⟨.ven, 0x010, 1, 0, 4, 4, .w1c, false, false, (.const 0)⟩
def VEN_TEVT_OVERQ : Fld := ⟨.ven, 0x010, 1, 0, 3, 3, .w1c, false, false, (.const 0)⟩
def VEN_TEVT_OUTACK : Fld := ⟨.ven, 0x010, 1, 0, 2, 2, .w1c, false, false, (.const 0)⟩
def VEN_TEVT_MBIN : Fld := ⟨.ven, 0x010, 1, 0, 1, 1, .w1c, false, false, (.const 0)⟩
def VEN_TEVT_CMD : Fld := ⟨.ven, 0x010, 1, 0, 0, 0, .w1c, false, false, (.const 0)⟩
def VEN_USE_QK_QUSE : Fld := ⟨.ven, 0x014, 1, 0, 30, 16, .ro, false, false, (.const 0)⟩
def VEN_USE_QK_KUSE : Fld := ⟨.ven, 0x014, 1, 0, 13, 0, .ro, false, false, (.const 0)⟩
def VEN_USE_F_FUSE : Fld := ⟨.ven, 0x018, 1, 0, 18, 0, .ro, false, false, (.const 0)⟩
def VEN_USE_DC_DUSE : Fld := ⟨.ven, 0x01C, 1, 0, 28, 16, .ro, false, false, (.const 0)⟩
def VEN_USE_DC_CUSE : Fld := ⟨.ven, 0x01C, 1, 0, 11, 0, .ro, false, false, (.const 0)⟩
def VEN_REFUSED_COUNT : Fld := ⟨.ven, 0x020, 1, 0, 31, 0, .ro, false, false, (.const 0)⟩
def VEN_BWDLY_COUNT : Fld := ⟨.ven, 0x024, 1, 0, 31, 0, .ro, false, false, (.const 0)⟩
def VEN_CTRSEL_SET : Fld := ⟨.ven, 0x028, 1, 0, 10, 0, .rw, false, false, (.const 0)⟩
def VEN_CTR_FR_LO_COUNT : Fld := ⟨.ven, 0x02C, 1, 0, 31, 0, .ro, false, false, (.const 0)⟩
def VEN_CTR_FR_HI_COUNT : Fld := ⟨.ven, 0x030, 1, 0, 15, 0, .ro, false, false, (.const 0)⟩
def VEN_CTR_BY_LO_COUNT : Fld := ⟨.ven, 0x034, 1, 0, 31, 0, .ro, false, false, (.const 0)⟩
def VEN_CTR_BY_HI_COUNT : Fld := ⟨.ven, 0x038, 1, 0, 15, 0, .ro, false, false, (.const 0)⟩
def VEN_CTR_DROP_COUNT : Fld := ⟨.ven, 0x03C, 1, 0, 31, 0, .ro, false, false, (.const 0)⟩
def VEN_STG_DATA : Fld := ⟨.ven, 0x040, 16, 4, 31, 0, .rw, false, false, (.const 0)⟩
def VEN_MBIN_DATA : Fld := ⟨.ven, 0x080, 16, 4, 31, 0, .rw, false, false, (.const 0)⟩
def VEN_MBOUT_DATA : Fld := ⟨.ven, 0x0C0, 16, 4, 31, 0, .rw, false, false, (.const 0)⟩
def VEN_MBCTL_OUTSEND : Fld := ⟨.ven, 0x100, 1, 0, 7, 7, .w1s, false, false, (.const 0)⟩
def VEN_MBCTL_OUTACK : Fld := ⟨.ven, 0x100, 1, 0, 6, 6, .w1s, false, false, (.const 0)⟩
def VEN_MBCTL_INSEND : Fld := ⟨.ven, 0x100, 1, 0, 5, 5, .w1s, false, false, (.const 0)⟩
def VEN_MBCTL_INACK : Fld := ⟨.ven, 0x100, 1, 0, 4, 4, .w1s, false, false, (.const 0)⟩
def VEN_MBCTL_OUTOVR : Fld := ⟨.ven, 0x100, 1, 0, 3, 3, .w1c, false, false, (.const 0)⟩
def VEN_MBCTL_INOVR : Fld := ⟨.ven, 0x100, 1, 0, 2, 2, .w1c, false, false, (.const 0)⟩
def VEN_MBCTL_OUTFULL : Fld := ⟨.ven, 0x100, 1, 0, 1, 1, .ro, false, false, (.const 0)⟩
def VEN_MBCTL_INFULL : Fld := ⟨.ven, 0x100, 1, 0, 0, 0, .ro, false, false, (.const 0)⟩
def VEN_QREAD_DATA : Fld := ⟨.ven, 0x104, 4, 4, 31, 0, .ro, false, false, (.const 0)⟩
def VEN_MCMD_GO : Fld := ⟨.ven, 0x200, 1, 0, 31, 31, .w1s, false, false, (.const 0)⟩
def VEN_MCMD_OP : Fld := ⟨.ven, 0x200, 1, 0, 30, 28, .rw, false, false, (.const 0)⟩
def VEN_MCMD_RES : Fld := ⟨.ven, 0x200, 1, 0, 2, 0, .rw, false, false, (.const 0)⟩
def VEN_MSTAT_POOLREJ : Fld := ⟨.ven, 0x204, 1, 0, 8, 8, .w1c, false, false, (.const 0)⟩
def VEN_MSTAT_CODE : Fld := ⟨.ven, 0x204, 1, 0, 7, 4, .ro, false, false, (.const 0)⟩
def VEN_MSTAT_REJ : Fld := ⟨.ven, 0x204, 1, 0, 3, 3, .w1c, false, false, (.const 0)⟩
def VEN_MSTAT_ERR : Fld := ⟨.ven, 0x204, 1, 0, 2, 2, .w1c, false, false, (.const 0)⟩
def VEN_MSTAT_DONE : Fld := ⟨.ven, 0x204, 1, 0, 1, 1, .w1c, false, false, (.const 0)⟩
def VEN_MSTAT_BUSY : Fld := ⟨.ven, 0x204, 1, 0, 0, 0, .ro, false, false, (.const 0)⟩
def VEN_OWNER_VMID : Fld := ⟨.ven, 0x208, 1, 0, 11, 0, .rw, false, false, (.const 0)⟩
def VEN_LPMASK_LP : Fld := ⟨.ven, 0x20C, 1, 0, 31, 0, .rw, false, false, (.const 0)⟩
def VEN_QRANGE_QCNT : Fld := ⟨.ven, 0x210, 1, 0, 30, 16, .rw, false, false, (.const 0)⟩
def VEN_QRANGE_QBASE : Fld := ⟨.ven, 0x210, 1, 0, 13, 0, .rw, false, false, (.const 0)⟩
def VEN_KRANGE_KCNT : Fld := ⟨.ven, 0x214, 1, 0, 29, 16, .rw, false, false, (.const 0)⟩
def VEN_KRANGE_KBASE : Fld := ⟨.ven, 0x214, 1, 0, 12, 0, .rw, false, false, (.const 0)⟩
def VEN_CRANGE_CCNT : Fld := ⟨.ven, 0x218, 1, 0, 27, 16, .rw, false, false, (.const 0)⟩
def VEN_CRANGE_CBASE : Fld := ⟨.ven, 0x218, 1, 0, 10, 0, .rw, false, false, (.const 0)⟩
def VEN_MCRANGE_MCOK : Fld := ⟨.ven, 0x21C, 1, 0, 31, 31, .rw, false, false, (.const 0)⟩
def VEN_MCRANGE_MCCNT : Fld := ⟨.ven, 0x21C, 1, 0, 28, 16, .rw, false, false, (.const 0)⟩
def VEN_MCRANGE_MCBASE : Fld := ⟨.ven, 0x21C, 1, 0, 11, 0, .rw, false, false, (.const 0)⟩
def VEN_QUOTA_QK_QMAX : Fld := ⟨.ven, 0x220, 1, 0, 30, 16, .rw, false, false, (.const 0)⟩
def VEN_QUOTA_QK_KMAX : Fld := ⟨.ven, 0x220, 1, 0, 13, 0, .rw, false, false, (.const 0)⟩
def VEN_QUOTA_F_FMAX : Fld := ⟨.ven, 0x224, 1, 0, 18, 0, .rw, false, false, (.const 0)⟩
def VEN_QUOTA_D_DMAX : Fld := ⟨.ven, 0x228, 1, 0, 12, 0, .rw, false, false, (.const 4096)⟩
def VEN_BW_EN : Fld := ⟨.ven, 0x22C, 1, 0, 31, 31, .rw, false, false, (.const 0)⟩
def VEN_BW_BURST : Fld := ⟨.ven, 0x22C, 1, 0, 30, 16, .rw, false, false, (.const 16)⟩
def VEN_BW_RATE : Fld := ⟨.ven, 0x22C, 1, 0, 13, 0, .rw, false, false, (.const 0)⟩
def VEN_TTGT_EN : Fld := ⟨.ven, 0x230, 1, 0, 31, 31, .rw, false, false, (.const 0)⟩
def VEN_TTGT_HOST : Fld := ⟨.ven, 0x230, 1, 0, 30, 30, .rw, false, false, (.const 0)⟩
def VEN_TTGT_SOCKET : Fld := ⟨.ven, 0x230, 1, 0, 24, 21, .rw, false, false, (.const 0)⟩
def VEN_TTGT_CORE : Fld := ⟨.ven, 0x230, 1, 0, 20, 12, .rw, false, false, (.const 0)⟩
def VEN_TTGT_THREAD : Fld := ⟨.ven, 0x230, 1, 0, 11, 11, .rw, false, false, (.const 0)⟩
def VEN_TTGT_VEC : Fld := ⟨.ven, 0x230, 1, 0, 10, 0, .rw, false, false, (.const 0)⟩
def VEN_MTGT_EN : Fld := ⟨.ven, 0x234, 1, 0, 31, 31, .rw, false, false, (.const 0)⟩
def VEN_MTGT_SOCKET : Fld := ⟨.ven, 0x234, 1, 0, 24, 21, .rw, false, false, (.const 0)⟩
def VEN_MTGT_CORE : Fld := ⟨.ven, 0x234, 1, 0, 20, 12, .rw, false, false, (.const 0)⟩
def VEN_MTGT_THREAD : Fld := ⟨.ven, 0x234, 1, 0, 11, 11, .rw, false, false, (.const 0)⟩
def VEN_MTGT_VEC : Fld := ⟨.ven, 0x234, 1, 0, 10, 0, .rw, false, false, (.const 0)⟩
def VEN_MEVT_DENY : Fld := ⟨.ven, 0x238, 1, 0, 3, 3, .w1c, false, false, (.const 0)⟩
def VEN_MEVT_INACK : Fld := ⟨.ven, 0x238, 1, 0, 2, 2, .w1c, false, false, (.const 0)⟩
def VEN_MEVT_MBOUT : Fld := ⟨.ven, 0x238, 1, 0, 1, 1, .w1c, false, false, (.const 0)⟩
def VEN_MEVT_OVERQ : Fld := ⟨.ven, 0x238, 1, 0, 0, 0, .w1c, false, false, (.const 0)⟩
def VEN_POOLQ_ASG : Fld := ⟨.ven, 0x240, 1, 0, 30, 16, .ro, false, false, (.const 0)⟩
def VEN_POOLQ_FREE : Fld := ⟨.ven, 0x240, 1, 0, 14, 0, .ro, false, false, (.const 16384)⟩
def VEN_POOLK_ASG : Fld := ⟨.ven, 0x244, 1, 0, 29, 16, .ro, false, false, (.const 0)⟩
def VEN_POOLK_FREE : Fld := ⟨.ven, 0x244, 1, 0, 13, 0, .ro, false, false, (.const 8192)⟩
def VEN_POOLC_ASG : Fld := ⟨.ven, 0x248, 1, 0, 27, 16, .ro, false, false, (.const 0)⟩
def VEN_POOLC_FREE : Fld := ⟨.ven, 0x248, 1, 0, 11, 0, .ro, false, false, (.const 2048)⟩
def VEN_POOLF_ASG_COUNT : Fld := ⟨.ven, 0x24C, 1, 0, 18, 0, .ro, false, false, (.const 0)⟩
def VEN_POOLF_FREE_COUNT : Fld := ⟨.ven, 0x250, 1, 0, 18, 0, .ro, false, false, (.const 262144)⟩
def VEN_POOLBW_ASG : Fld := ⟨.ven, 0x254, 1, 0, 29, 16, .ro, false, false, (.const 0)⟩
def VEN_POOLBW_FREE : Fld := ⟨.ven, 0x254, 1, 0, 13, 0, .ro, false, false, (.const 16000)⟩

-- EAS_ mailbox, page 0x030 of tile D (R506)
def EAS_CMD_GO : Fld := ⟨.eas, 0x000, 1, 0, 31, 31, .w1s, false, false, (.const 0)⟩
def EAS_CMD_OP : Fld := ⟨.eas, 0x000, 1, 0, 7, 0, .rw, false, false, (.const 0)⟩
def EAS_CMDSTAT_CODE : Fld := ⟨.eas, 0x004, 1, 0, 7, 4, .ro, false, false, (.const 0)⟩
def EAS_CMDSTAT_REJ : Fld := ⟨.eas, 0x004, 1, 0, 3, 3, .w1c, false, false, (.const 0)⟩
def EAS_CMDSTAT_ERR : Fld := ⟨.eas, 0x004, 1, 0, 2, 2, .w1c, false, false, (.const 0)⟩
def EAS_CMDSTAT_DONE : Fld := ⟨.eas, 0x004, 1, 0, 1, 1, .w1c, false, false, (.const 0)⟩
def EAS_CMDSTAT_BUSY : Fld := ⟨.eas, 0x004, 1, 0, 0, 0, .ro, false, false, (.const 0)⟩
def EAS_ARG_ARG : Fld := ⟨.eas, 0x008, 8, 4, 31, 0, .rw, false, false, (.const 0)⟩
def EAS_RES_RES : Fld := ⟨.eas, 0x028, 8, 4, 31, 0, .ro, false, false, (.const 0)⟩
def EAS_EVT_VARNISH : Fld := ⟨.eas, 0x048, 1, 0, 3, 3, .w1c, false, false, (.const 0)⟩
def EAS_EVT_STBYSW : Fld := ⟨.eas, 0x048, 1, 0, 2, 2, .w1c, false, false, (.const 0)⟩
def EAS_EVT_PALCHG : Fld := ⟨.eas, 0x048, 1, 0, 1, 1, .w1c, false, false, (.const 0)⟩
def EAS_EVT_LOG : Fld := ⟨.eas, 0x048, 1, 0, 0, 0, .w1c, false, false, (.const 0)⟩
def EAS_IRQ_EN : Fld := ⟨.eas, 0x04C, 1, 0, 31, 31, .rw, false, false, (.const 0)⟩
def EAS_IRQ_SOCKET : Fld := ⟨.eas, 0x04C, 1, 0, 23, 20, .rw, false, false, (.const 0)⟩
def EAS_IRQ_CORE : Fld := ⟨.eas, 0x04C, 1, 0, 19, 11, .rw, false, false, (.const 0)⟩
def EAS_IRQ_THREAD : Fld := ⟨.eas, 0x04C, 1, 0, 10, 10, .rw, false, false, (.const 0)⟩
def EAS_IRQ_VEC : Fld := ⟨.eas, 0x04C, 1, 0, 9, 0, .rw, false, false, (.const 0)⟩
def EAS_LOGSEQ_SEQ : Fld := ⟨.eas, 0x050, 1, 0, 31, 0, .ro, false, false, (.const 0)⟩
def EAS_LCS_PEND : Fld := ⟨.eas, 0x054, 1, 0, 3, 3, .ro, true, false, (.const 0)⟩
def EAS_LCS_STATE : Fld := ⟨.eas, 0x054, 1, 0, 2, 0, .ro, true, true, (.const 0)⟩
def EAS_BOOT_REVOKED : Fld := ⟨.eas, 0x058, 1, 0, 31, 28, .ro, false, false, (.const 0)⟩
def EAS_BOOT_FUSED : Fld := ⟨.eas, 0x058, 1, 0, 27, 24, .ro, false, false, (.const 0)⟩
def EAS_BOOT_RECOVERY : Fld := ⟨.eas, 0x058, 1, 0, 19, 19, .ro, false, false, (.const 0)⟩
def EAS_BOOT_BACKUP : Fld := ⟨.eas, 0x058, 1, 0, 18, 18, .ro, false, false, (.const 0)⟩
def EAS_BOOT_FAILP : Fld := ⟨.eas, 0x058, 1, 0, 17, 14, .ro, false, false, (.const 0)⟩
def EAS_BOOT_COUNT : Fld := ⟨.eas, 0x058, 1, 0, 13, 8, .ro, false, false, (.const 0)⟩
def EAS_BOOT_SECVER : Fld := ⟨.eas, 0x058, 1, 0, 5, 0, .ro, false, false, (.const 0)⟩

-- PRM_ page 0x031 of tile D (R538)
def PRM_CMD_GO : Fld := ⟨.prm, 0x000, 1, 0, 31, 31, .w1s, true, false, (.const 0)⟩
def PRM_CMD_OP : Fld := ⟨.prm, 0x000, 1, 0, 30, 28, .rw, true, false, (.const 0)⟩
def PRM_CMD_TARGET : Fld := ⟨.prm, 0x000, 1, 0, 8, 0, .rw, true, false, (.const 0)⟩
def PRM_CMDSTAT_CODE : Fld := ⟨.prm, 0x004, 1, 0, 7, 4, .ro, true, false, (.const 0)⟩
def PRM_CMDSTAT_REJ : Fld := ⟨.prm, 0x004, 1, 0, 3, 3, .w1c, true, false, (.const 0)⟩
def PRM_CMDSTAT_ERR : Fld := ⟨.prm, 0x004, 1, 0, 2, 2, .w1c, true, false, (.const 0)⟩
def PRM_CMDSTAT_DONE : Fld := ⟨.prm, 0x004, 1, 0, 1, 1, .w1c, true, false, (.const 0)⟩
def PRM_CMDSTAT_BUSY : Fld := ⟨.prm, 0x004, 1, 0, 0, 0, .ro, true, false, (.const 0)⟩
def PRM_FCFG_CEN : Fld := ⟨.prm, 0x008, 1, 0, 31, 31, .rw, true, false, (.const 0)⟩
def PRM_FCFG_SEN : Fld := ⟨.prm, 0x008, 1, 0, 30, 30, .rw, true, false, (.const 0)⟩
def PRM_FCFG_HOLD : Fld := ⟨.prm, 0x008, 1, 0, 29, 29, .rw, true, false, (.const 0)⟩
def PRM_FCFG_PERIOD : Fld := ⟨.prm, 0x008, 1, 0, 15, 0, .rw, true, false, (.const 24)⟩
def PRM_FSTAT_ACTIVE : Fld := ⟨.prm, 0x00C, 1, 0, 31, 31, .ro, true, false, (.const 0)⟩
def PRM_FSTAT_KIND : Fld := ⟨.prm, 0x00C, 1, 0, 30, 30, .ro, true, false, (.const 0)⟩
def PRM_FSTAT_TARGET : Fld := ⟨.prm, 0x00C, 1, 0, 8, 0, .ro, true, false, (.const 0)⟩
def PRM_FDONE_FAILS : Fld := ⟨.prm, 0x010, 1, 0, 31, 16, .ro, true, false, (.const 0)⟩
def PRM_FDONE_TESTS : Fld := ⟨.prm, 0x010, 1, 0, 15, 0, .ro, true, false, (.const 0)⟩
def PRM_LAST_FAIL : Fld := ⟨.prm, 0x014, 1, 0, 31, 31, .ro, true, false, (.const 0)⟩
def PRM_LAST_KIND : Fld := ⟨.prm, 0x014, 1, 0, 30, 30, .ro, true, false, (.const 0)⟩
def PRM_LAST_TARGET : Fld := ⟨.prm, 0x014, 1, 0, 29, 21, .ro, true, false, (.const 0)⟩
def PRM_LAST_US : Fld := ⟨.prm, 0x014, 1, 0, 20, 0, .ro, true, false, (.const 0)⟩
def PRM_SAVEB_LO_PA : Fld := ⟨.prm, 0x018, 1, 0, 31, 12, .rw, true, false, (.const 0)⟩
def PRM_SAVEB_HI_PA : Fld := ⟨.prm, 0x01C, 1, 0, 19, 0, .rw, true, false, (.const 0)⟩
def PRM_RECSEL_WORD : Fld := ⟨.prm, 0x020, 1, 0, 7, 0, .rw, true, false, (.const 0)⟩
def PRM_RECDATA_DATA : Fld := ⟨.prm, 0x024, 1, 0, 31, 0, .ro, true, false, (.const 0)⟩
def PRM_AUDIT_CHECKED : Fld := ⟨.prm, 0x028, 1, 0, 31, 16, .ro, true, false, (.const 0)⟩
def PRM_AUDIT_MISMATCH : Fld := ⟨.prm, 0x028, 1, 0, 15, 0, .ro, true, false, (.const 0)⟩
def PRM_AMIS_TILE : Fld := ⟨.prm, 0x02C, 1, 0, 31, 24, .ro, true, false, (.const 0)⟩
def PRM_AMIS_PAGE : Fld := ⟨.prm, 0x02C, 1, 0, 23, 13, .ro, true, false, (.const 0)⟩
def PRM_AMIS_OFFSET : Fld := ⟨.prm, 0x02C, 1, 0, 12, 5, .ro, true, false, (.const 0)⟩
def PRM_AMIS_FIELD : Fld := ⟨.prm, 0x02C, 1, 0, 4, 0, .ro, true, false, (.const 0)⟩

-- socket PWR_ page 0x032 of tile D (R505)
def PWR_PL_W : Fld := ⟨.spwr, 0x000, 1, 0, 9, 0, .rw, true, true, (.const 720)⟩
def PWR_PLSTAT_AVG : Fld := ⟨.spwr, 0x004, 1, 0, 25, 16, .ro, true, false, (.const 0)⟩
def PWR_PLSTAT_EFF : Fld := ⟨.spwr, 0x004, 1, 0, 9, 0, .ro, true, false, (.const 720)⟩
def PWR_LOOP_UNCCUT : Fld := ⟨.spwr, 0x008, 1, 0, 31, 31, .rw, true, false, (.const 0)⟩
def PWR_LOOP_HOTF : Fld := ⟨.spwr, 0x008, 1, 0, 23, 16, .rw, true, false, (.const 64)⟩
def PWR_LOOP_TAU : Fld := ⟨.spwr, 0x008, 1, 0, 15, 0, .rw, true, false, (.const 1000)⟩
def PWR_STAT_REFUSED : Fld := ⟨.spwr, 0x00C, 1, 0, 5, 5, .w1c, true, false, (.const 0)⟩
def PWR_STAT_STBYSW : Fld := ⟨.spwr, 0x00C, 1, 0, 4, 4, .w1c, true, false, (.const 0)⟩
def PWR_STAT_VRHOT : Fld := ⟨.spwr, 0x00C, 1, 0, 3, 3, .w1c, true, false, (.const 0)⟩
def PWR_STAT_OVER : Fld := ⟨.spwr, 0x00C, 1, 0, 2, 2, .w1c, true, false, (.const 0)⟩
def PWR_STAT_FLOOR : Fld := ⟨.spwr, 0x00C, 1, 0, 1, 1, .w1c, true, false, (.const 0)⟩
def PWR_STAT_CAPPING : Fld := ⟨.spwr, 0x00C, 1, 0, 0, 0, .ro, true, false, (.const 0)⟩
def PWR_STBY_SWITCHES : Fld := ⟨.spwr, 0x010, 1, 0, 31, 16, .ro, true, false, (.const 0)⟩
def PWR_STBY_ONBAK : Fld := ⟨.spwr, 0x010, 1, 0, 1, 1, .ro, true, false, (.const 0)⟩
def PWR_STBY_BAKOK : Fld := ⟨.spwr, 0x010, 1, 0, 0, 0, .ro, true, false, (.const 0)⟩
def PWR_ENERGY_LO_UJ : Fld := ⟨.spwr, 0x014, 1, 0, 31, 0, .ro, true, false, (.const 0)⟩
def PWR_ENERGY_HI_UJ : Fld := ⟨.spwr, 0x018, 1, 0, 31, 0, .ro, true, false, (.const 0)⟩
def PWR_BOFF_OFF : Fld := ⟨.spwr, 0x01C, 1, 0, 26, 0, .rw, true, false, (.const 0)⟩
def PWR_BSTAT_ON : Fld := ⟨.spwr, 0x020, 1, 0, 26, 0, .ro, true, false, (.const 134217727)⟩
def PWR_REFUSE_REASON : Fld := ⟨.spwr, 0x024, 1, 0, 23, 20, .ro, true, false, (.const 0)⟩
def PWR_REFUSE_DOMAIN : Fld := ⟨.spwr, 0x024, 1, 0, 15, 0, .ro, true, false, (.const 0)⟩

-- socket CLK_ page 0x033 of tile D (R505)
def CLK_REF_LOSS : Fld := ⟨.sclk, 0x000, 1, 0, 1, 1, .w1c, true, false, (.const 0)⟩
def CLK_REF_LOCK : Fld := ⟨.sclk, 0x000, 1, 0, 0, 0, .ro, true, false, (.const 1)⟩
def CLK_ALLCORE_FMAX : Fld := ⟨.sclk, 0x004, 1, 0, 15, 8, .w1s, true, false, (.const 0)⟩
def CLK_ALLCORE_FMIN : Fld := ⟨.sclk, 0x004, 1, 0, 7, 0, .w1s, true, false, (.const 0)⟩

-- counter collector, page 0x034 of tile D (R560, R563)
def PERF_GCTL_RUN : Fld := ⟨.gperf, 0x000, 1, 0, 31, 31, .rw, false, false, (.const 1)⟩
def PERF_GCTL_CLRALL : Fld := ⟨.gperf, 0x000, 1, 0, 30, 30, .w1s, false, false, (.const 0)⟩
def PERF_GCTL_SNAP : Fld := ⟨.gperf, 0x000, 1, 0, 29, 29, .w1s, false, false, (.const 0)⟩
def PERF_GSTAT_PENDING : Fld := ⟨.gperf, 0x004, 1, 0, 3, 3, .ro, false, false, (.const 0)⟩
def PERF_GSTAT_SNAPBUSY : Fld := ⟨.gperf, 0x004, 1, 0, 2, 2, .ro, false, false, (.const 0)⟩
def PERF_GSTAT_SKIP : Fld := ⟨.gperf, 0x004, 1, 0, 1, 1, .w1c, false, false, (.const 0)⟩
def PERF_GSTAT_SNAPERR : Fld := ⟨.gperf, 0x004, 1, 0, 0, 0, .w1c, false, false, (.const 0)⟩
def PERF_SNAPB_LO_PA : Fld := ⟨.gperf, 0x008, 1, 0, 31, 15, .rw, false, false, (.const 0)⟩
def PERF_SNAPB_LO_SIZE : Fld := ⟨.gperf, 0x008, 1, 0, 3, 0, .rw, false, false, (.const 0)⟩
def PERF_SNAPB_HI_PA : Fld := ⟨.gperf, 0x00C, 1, 0, 19, 0, .rw, false, false, (.const 0)⟩
def PERF_SNAPPER_US : Fld := ⟨.gperf, 0x010, 1, 0, 19, 0, .rw, false, false, (.const 0)⟩
def PERF_SNAPSEQ_SEQ : Fld := ⟨.gperf, 0x014, 1, 0, 31, 0, .ro, false, false, (.const 0)⟩
def PERF_SNAPSKIP_COUNT : Fld := ⟨.gperf, 0x018, 1, 0, 31, 0, .ro, false, false, (.const 0)⟩
def PERF_SNAPIRQ_EN : Fld := ⟨.gperf, 0x01C, 1, 0, 31, 31, .rw, false, false, (.const 0)⟩
def PERF_SNAPIRQ_SOCKET : Fld := ⟨.gperf, 0x01C, 1, 0, 23, 20, .rw, false, false, (.const 0)⟩
def PERF_SNAPIRQ_CORE : Fld := ⟨.gperf, 0x01C, 1, 0, 19, 11, .rw, false, false, (.const 0)⟩
def PERF_SNAPIRQ_THREAD : Fld := ⟨.gperf, 0x01C, 1, 0, 10, 10, .rw, false, false, (.const 0)⟩
def PERF_SNAPIRQ_VEC : Fld := ⟨.gperf, 0x01C, 1, 0, 9, 0, .rw, false, false, (.const 0)⟩
def PERF_BWSEL_EN : Fld := ⟨.gperf, 0x100, 16, 32, 31, 31, .rw, false, false, (.const 0)⟩
def PERF_BWSEL_KIND : Fld := ⟨.gperf, 0x100, 16, 32, 30, 28, .rw, false, false, (.const 0)⟩
def PERF_BWSEL_DIR : Fld := ⟨.gperf, 0x100, 16, 32, 27, 27, .rw, false, false, (.const 0)⟩
def PERF_BWSEL_WEXP : Fld := ⟨.gperf, 0x100, 16, 32, 26, 22, .rw, false, false, (.const 0)⟩
def PERF_BWSEL_INDEX : Fld := ⟨.gperf, 0x100, 16, 32, 21, 14, .rw, false, false, (.const 0)⟩
def PERF_BWSEL_SUB : Fld := ⟨.gperf, 0x100, 16, 32, 13, 11, .rw, false, false, (.const 0)⟩
def PERF_BWRATE_MBS : Fld := ⟨.gperf, 0x104, 16, 32, 31, 0, .ro, false, false, (.const 0)⟩
def PERF_BWBYTES_LO_BYTES : Fld := ⟨.gperf, 0x108, 16, 32, 31, 0, .ro, false, false, (.const 0)⟩
def PERF_BWBYTES_HI_BYTES : Fld := ⟨.gperf, 0x10C, 16, 32, 15, 0, .ro, false, false, (.const 0)⟩
def PERF_BWPEAK_MBS : Fld := ⟨.gperf, 0x110, 16, 32, 31, 0, .ro, false, false, (.const 0)⟩
def PERF_BWWIN_COUNT : Fld := ⟨.gperf, 0x114, 16, 32, 31, 0, .ro, false, false, (.const 0)⟩

end F

/-- The fields of the Palette, page 0x010 of tile D. -/
def flds_pal : List Fld :=
  [F.PAL_ID_FAMILY, F.PAL_ID_DIESET, F.PAL_ID_FORMAT, F.PAL_UNITS_MTILE, F.PAL_UNITS_P1, F.PAL_UNITS_P0, F.PAL_UNITS_CXLMEM, F.PAL_UNITS_EP, F.PAL_UNITS_DVT, F.PAL_UNITS_PE, F.PAL_CORES_UNUSABLE, F.PAL_CORES_FUSEDOFF, F.PAL_CORES_SPARE, F.PAL_CORES_CORES, F.PAL_SLICES_UNUSABLE, F.PAL_SLICES_SLICES, F.PAL_MEM_CXLPORTS, F.PAL_MEM_CHANNELS, F.PAL_IO_MAXSKT, F.PAL_IO_LINKS, F.PAL_IO_GROUPS, F.PAL_IO_LANES, F.PAL_NET_SERDES, F.PAL_NET_PORTS] ++
  [F.PAL_FLOWS_FLOWS, F.PAL_QUEUES_QUEUES, F.PAL_KEYS_KEYS, F.PAL_VENEER_INSTANCES, F.PAL_SKT_SKTCNT, F.PAL_SKT_SKTID, F.PAL_TOPO_ISLANDS, F.PAL_TOPO_DOMAINS, F.PAL_TOPO_YDIM, F.PAL_TOPO_XDIM, F.PAL_POWER_PLMAX, F.PAL_POWER_PLMIN, F.PAL_GEN_GEN, F.PAL_CORE_MAP_INSVC, F.PAL_SLICE_MAP_INSVC]

/-- The fields of the FAB_ page 0x000 of each tile. -/
def flds_fab : List Fld :=
  [F.FAB_ID_DIE, F.FAB_ID_KIND, F.FAB_ID_Y, F.FAB_ID_X, F.FAB_ID_TILE, F.FAB_ARBCFG_BSLIP, F.FAB_ARBCFG_BRSP, F.FAB_ARBCFG_BSNP, F.FAB_ARBCFG_BREQ, F.FAB_EPOCH_FRAME, F.FAB_STNCTL_HOLD, F.FAB_STNCTL_EN, F.FAB_STNAT_FRAME, F.FAB_STNSTAT_PASTAT, F.FAB_STNSTAT_SLIP, F.FAB_STNSTAT_SHORT, F.FAB_STNSTAT_TICKLOST, F.FAB_STNSTAT_PEND, F.FAB_STNSTAT_ACTIVE, F.FAB_STNLAST_FRAME, F.FAB_SLIPCNT_COUNT, F.FAB_SLIPRX_COUNT, F.FAB_UNUSED_COUNT, F.FAB_HISTCFG_EN] ++
  [F.FAB_HISTCFG_BASE, F.FAB_STATSTAT_CLR, F.FAB_STATSTAT_FREEZE, F.FAB_STATSTAT_OVF, F.FAB_LINKERR_REPLAYS, F.FAB_GFLOW_A_V, F.FAB_GFLOW_A_GFID, F.FAB_GFLOW_A_DST, F.FAB_GFLOW_B_INITMASK, F.FAB_ARB_GRANTS_COUNT, F.FAB_ARB_WAITS_COUNT, F.FAB_ARB_MAXWAIT_MAX, F.FAB_LDG_REQ_VC3, F.FAB_LDG_REQ_VC2, F.FAB_LDG_REQ_VC1, F.FAB_LDG_REQ_VC0, F.FAB_LDG_DATA_VC3, F.FAB_LDG_DATA_VC2, F.FAB_LDG_DATA_VC1, F.FAB_LDG_DATA_VC0, F.FAB_STAT_VALUE]

/-- The fields of the Stencil tables, pages 0x008 to 0x00C of each tile. -/
def flds_stn : List Fld :=
  [F.STN_ENTRY_V, F.STN_ENTRY_IN, F.STN_ENTRY_GFID]

/-- The fields of the PERF_ page 0x004 of each tile. -/
def flds_perf : List Fld :=
  [F.PERF_ID_TILE, F.PERF_ID_KIND, F.PERF_ID_NCTR, F.PERF_CTL_CLR, F.PERF_CTL_FREEZE, F.PERF_CTL_RUN, F.PERF_OVF_OVF, F.PERF_IRQ_EN, F.PERF_IRQ_SOCKET, F.PERF_IRQ_CORE, F.PERF_IRQ_THREAD, F.PERF_IRQ_VEC, F.PERF_VOTECNT_COUNT, F.PERF_VOTELAST_VALID, F.PERF_VOTELAST_COPY, F.PERF_VOTELAST_PAGE, F.PERF_VOTELAST_WORD, F.PERF_VOTELAST_BIT, F.PERF_CTR_LO_COUNT, F.PERF_CTR_HI_COUNT, F.PERF_CFG_EN, F.PERF_CFG_OVFIE, F.PERF_CFG_VMF, F.PERF_CFG_VMID] ++
  [F.PERF_CFG_LVMASK, F.PERF_CFG_EVT]

/-- The fields of the RAS_ page 0x006 of each tile. -/
def flds_ras : List Fld :=
  [F.RAS_ID_TILE, F.RAS_ID_KIND, F.RAS_STAT_OVF, F.RAS_STAT_LOGOVF, F.RAS_STAT_MCE, F.RAS_STAT_UNC, F.RAS_STAT_LASTING, F.RAS_STAT_CORR, F.RAS_IRQ_EN, F.RAS_IRQ_CORRIE, F.RAS_IRQ_SOCKET, F.RAS_IRQ_CORE, F.RAS_IRQ_THREAD, F.RAS_IRQ_VEC, F.RAS_LOGSEQ_SEQ, F.RAS_LOGSEL_SEQ, F.RAS_LOGSTAT_VALID, F.RAS_MCSTAT_VALID, F.RAS_LOGD_DATA, F.RAS_MCSEQ_SEQ, F.RAS_UNMAP_LO_ADDR, F.RAS_UNMAP_HI_ADDR, F.RAS_UNMAP_INFO_VALID, F.RAS_UNMAP_INFO_COUNT] ++
  [F.RAS_UNMAP_INFO_INIT, F.RAS_UNMAP_INFO_TYPE, F.RAS_WCFG_EN, F.RAS_WCFG_ACT, F.RAS_WCFG_N, F.RAS_WCFG_W, F.RAS_WCNT_PEND, F.RAS_WCNT_COUNT, F.RAS_WCNT_LASTING, F.RAS_ECNT_COUNT]

/-- The fields of the PWR_ page 0x007 of each tile. -/
def flds_pwr : List Fld :=
  [F.PWR_C_RST, F.PWR_C_MODE, F.PWR_C_IDLET, F.PWR_TCTL_RST, F.PWR_TCTL_OFF, F.PWR_TSTAT_C1, F.PWR_TSTAT_C0, F.PWR_TSTAT_REFUSED, F.PWR_TSTAT_REASON, F.PWR_ENERGY_UJ, F.PWR_UNCON_ON]

/-- The fields of the CLK_ page 0x00D of each tile. -/
def flds_clk : List Fld :=
  [F.CLK_C_FMIN, F.CLK_C_FMAX, F.CLK_C_FEFF, F.CLK_UNC_FMIN, F.CLK_UNC_FMAX, F.CLK_UNC_FEFF, F.CLK_TSTAT_UNCHELD, F.CLK_TSTAT_CAP1, F.CLK_TSTAT_CAP0]

/-- The fields of the LLC_ page 0x002 of a core tile. -/
def flds_llc : List Fld :=
  [F.LLC_ID_SLICE, F.LLC_ID_TILE, F.LLC_ID_INSVC, F.LLC_CFG_CLEANVICT, F.LLC_CFG_IOALLOC, F.LLC_CFG_MEMFILL, F.LLC_WAYPWR_ON, F.LLC_WAYSTAT_RETIRED, F.LLC_WAYSTAT_WAKING, F.LLC_WAYSTAT_CLEANING, F.LLC_WAYSTAT_POWERED, F.LLC_ALLOC_WAYS, F.LLC_TPART_C1T1, F.LLC_TPART_C1T0, F.LLC_TPART_C0T1, F.LLC_TPART_C0T0, F.LLC_PFCTL_L2DIST, F.LLC_PFCTL_L2PF1, F.LLC_PFCTL_L1PF1, F.LLC_PFCTL_L2PF0, F.LLC_PFCTL_L1PF0, F.LLC_MAINT_GO, F.LLC_MAINT_GROUPS, F.LLC_MAINT_OP] ++
  [F.LLC_MSTAT_REJ, F.LLC_MSTAT_DONE, F.LLC_MSTAT_BUSY, F.LLC_OCC_LINES, F.LLC_REDIR_EXTRA]

/-- The fields of the COH_ page 0x003 of a core tile. -/
def flds_coh : List Fld :=
  [F.COH_CFG_PROG, F.COH_CFG_AMOPOL, F.COH_CFG_EGRANT, F.COH_CFG_HOLD, F.COH_TMO_US, F.COH_ARBCFG_BBINV, F.COH_ARBCFG_BMAINT, F.COH_ARBCFG_BWAKE, F.COH_ARBCFG_BRSP, F.COH_ARBCFG_BREQ, F.COH_STAT_OVF, F.COH_STAT_DIRFULL, F.COH_STAT_LATE, F.COH_STAT_TMO, F.COH_LDG_ABUSED, F.COH_LDG_ABFREE, F.COH_LDG_TRKUSED, F.COH_LDG_TRKFREE, F.COH_TMOCNT_COUNT, F.COH_TMOADDR_LO_ADDR, F.COH_TMOADDR_HI_ADDR, F.COH_TMOHOLD_VALID, F.COH_TMOHOLD_SOCKET, F.COH_TMOHOLD_TILE] ++
  [F.COH_TMOHOLD_CORE, F.COH_TMOHOLD_WHAT, F.COH_BINV_COUNT, F.COH_LATE_COUNT, F.COH_AMOF_COUNT, F.COH_AMOHOT_COUNT, F.COH_AMOC_FAR, F.COH_AMOC_NEAR, F.COH_ARB_GRANTS_COUNT, F.COH_ARB_WAITS_COUNT, F.COH_ARB_MAXWAIT_MAX]

/-- The fields of the CORE_ page of a core. -/
def flds_core : List Fld :=
  [F.CORE_ID_SOCKET, F.CORE_ID_CORE, F.CORE_ID_INSVC, F.CORE_CFG_ROBMAX, F.CORE_CFG_ICGATE, F.CORE_CFG_LBEN, F.CORE_CFG_RASEN, F.CORE_CFG_BTBEN, F.CORE_CFG_FPOL, F.CORE_CFG_T1EN, F.CORE_CFG_EFF_PEND, F.CORE_CFG_EFF_ROBMAX, F.CORE_CFG_EFF_ICGATE, F.CORE_CFG_EFF_LBEN, F.CORE_CFG_EFF_RASEN, F.CORE_CFG_EFF_BTBEN, F.CORE_CFG_EFF_FPOL, F.CORE_CFG_EFF_T1EN, F.CORE_BTBCTL_RESEED_F, F.CORE_BTBCTL_RESEED_H, F.CORE_BTBCTL_FLUSH, F.CORE_PLUMB_EN, F.CORE_PLUMB_OVRIE, F.CORE_PLUMB_OVRVEC] ++
  [F.CORE_PLUMB_MEMLAT, F.CORE_PLUMB_STAT_ACTIVE, F.CORE_PLUMB_STAT_ENTERING, F.CORE_PLUMB_STAT_PEND, F.CORE_PLUMB_STAT_MEMLAT, F.CORE_PLUMB_OVR_OVR, F.CORE_PLUMB_OVR_COUNT, F.CORE_PLUMB_OVR_MAXEX, F.CORE_THSTAT_T1, F.CORE_THSTAT_T0, F.ICDB_DATA]

/-- The fields of the TLB_ page of a core. -/
def flds_tlb : List Fld :=
  [F.TLB_GFINFO_VALID, F.TLB_GFINFO_LOST, F.TLB_GFINFO_WALK, F.TLB_GFINFO_LEVEL, F.TLB_GFINFO_KIND, F.TLB_GFA_LO_GPA, F.TLB_GFA_HI_GPA]

/-- The fields of the MC_ page of a channel. -/
def flds_mc : List Fld :=
  [F.MC_ID_TILE, F.MC_ID_CHANNEL, F.MC_CFG_WHWM, F.MC_CFG_WLWM, F.MC_CFG_WRCRC, F.MC_CFG_PAGE, F.MC_CFG_REFMODE, F.MC_STAT_SPEED, F.MC_STAT_RANKS, F.MC_STAT_DPC, F.MC_STAT_OVF, F.MC_STAT_NOSPARE, F.MC_STAT_RETRAIN, F.MC_STAT_OVERCAP, F.MC_STAT_SELFREF, F.MC_STAT_TRAINING, F.MC_STAT_TRAINED, F.MC_STAT_PEND, F.MC_CAP_GB, F.MC_SCRUB_EN, F.MC_SCRUB_PERIOD, F.MC_SCRUBPOS_PASSES, F.MC_SCRUBPOS_GB, F.MC_SPARE_EN] ++
  [F.MC_SPARE_RANK, F.MC_SPARE_STATE, F.MC_SPARE_FROM, F.MC_SPARE_PCT, F.MC_RANKOFF_OFF, F.MC_CECNT_COUNT, F.MC_UECNT_COUNT, F.MC_ERRADDR_LO_ADDR, F.MC_ERRADDR_HI_ADDR, F.MC_ERRINFO_VALID, F.MC_ERRINFO_UE, F.MC_ERRINFO_SRC, F.MC_ERRINFO_RANK, F.MC_ERRINFO_DEVICE, F.MC_ERRINFO_CHUNK, F.MC_LDG_RQUSED, F.MC_LDG_RQFREE, F.MC_LDG_WQUSED, F.MC_LDG_WQFREE, F.MC_ARBCFG_BCOPY, F.MC_ARBCFG_BSCRUB, F.MC_ARBCFG_BPWB, F.MC_ARBCFG_BWR, F.MC_ARBCFG_BRD] ++
  [F.MC_LINKERR_COUNT, F.MC_ARB_GRANTS_COUNT, F.MC_ARB_WAITS_COUNT, F.MC_ARB_MAXWAIT_MAX]

/-- The fields of the interleave table, M0 page 0x020. -/
def flds_ilv : List Fld :=
  [F.MC_ILVCTL_COMMIT, F.MC_ILVSTAT_BAD, F.MC_ILVSTAT_PEND, F.MC_ILVSUM_CRC, F.MC_ILV_BASE_V, F.MC_ILV_BASE_BASE, F.MC_ILV_LIMIT_LIMIT, F.MC_ILV_TGT_KIND, F.MC_ILV_TGT_PERS, F.MC_ILV_TGT_GRAN, F.MC_ILV_TGT_HASH, F.MC_ILV_TGT_SKTWAYS, F.MC_ILV_TGT_SKTBASE, F.MC_ILV_TGT_CHMASK, F.MC_ILV_CHOFF_CHOFF]

/-- The fields of the VAR_ page 0x028 of a memory tile. -/
def flds_var : List Fld :=
  [F.VAR_CTL_ARM, F.VAR_STAT_FULL, F.VAR_STAT_DONE, F.VAR_STAT_FLUSHING, F.VAR_STAT_ARMED, F.VAR_LDG_USED, F.VAR_LDG_FREE, F.VAR_HWM_MAX]

/-- The fields of the VAR_SEQ, M0 page 0x028. -/
def flds_varseq : List Fld :=
  [F.VAR_SEQ_GPFGRP, F.VAR_SEQ_GPFTMO]

/-- The fields of the DVT_ page of a link. -/
def flds_dvt : List Fld :=
  [F.DVT_CTL_RETRAIN, F.DVT_CTL_MAXW, F.DVT_CTL_EN, F.DVT_STAT_OVF, F.DVT_STAT_FAILSEEN, F.DVT_STAT_RETRAINED, F.DVT_STAT_YIELD, F.DVT_STAT_REASON, F.DVT_STAT_GROUP, F.DVT_STAT_WIDTH, F.DVT_STAT_STATE, F.DVT_PEER_TAG, F.DVT_PEER_ID, F.DVT_PEER_LINK, F.DVT_PEER_SKTCNT, F.DVT_LANES_GOOD, F.DVT_REPLAYS_COUNT, F.DVT_RETRAINS_COUNT, F.DVT_REINJ_ACTIVE, F.DVT_REINJ_DONE, F.DVT_REINJ_ALAST, F.DVT_REINJ_SENT, F.DVT_DUPS_COUNT, F.DVT_LDG0_VC3] ++
  [F.DVT_LDG0_VC2, F.DVT_LDG0_VC1, F.DVT_LDG0_VC0, F.DVT_LDG1_VC6, F.DVT_LDG1_VC5, F.DVT_LDG1_VC4, F.DVT_RBUF_USED, F.DVT_RBUF_FREE]

/-- The fields of the socket-wide DVT_ registers, L0 page. -/
def flds_dvtg : List Fld :=
  [F.DVT_ENUM_DONE, F.DVT_ENUM_FAIL, F.DVT_ENUM_MASTER, F.DVT_ENUM_SKTCNT, F.DVT_ENUM_SKTID, F.DVT_ENUM_TAG, F.DVT_MAP_LO_UP, F.DVT_MAP_HI_UP, F.DVT_REACH_SKT, F.DVT_GSTAT_ISOL, F.DVT_GSTAT_LOST, F.DVT_GSTAT_ILVMIS, F.DVT_GSTAT_CAPLOW, F.DVT_TSYNC_LOCKED, F.DVT_TSYNC_OFFSET, F.DVT_GPWR_EN, F.DVT_GPWR_MODE, F.DVT_GPWR_CAP, F.DVT_PWRWT_WEIGHT, F.DVT_PWRSHARE_W, F.DVT_ILVMIS_SKT]

/-- The fields of the PCI_ group page. -/
def flds_pcig : List Fld :=
  [F.PCI_GRP_ID_TILE, F.PCI_GRP_ID_GROUP, F.PCI_GRP_CFG_MODE, F.PCI_GRP_CFG_SPLIT, F.PCI_GRP_CTL_RST, F.PCI_GRP_STAT_OVERLAP, F.PCI_GRP_STAT_BAD, F.PCI_GRP_STAT_INRESET, F.PCI_GRP_EFF_MODE, F.PCI_GRP_EFF_SPLIT]

/-- The fields of the endpoint registers, group 0 page. -/
def flds_ep : List Fld :=
  [F.EP_ROMPAGE_TGT, F.EP_ROMPAGE_PAGE, F.EP_HDB_VEC, F.EP_HDBTGT_EN, F.EP_HDBTGT_CORE, F.EP_HDBTGT_THREAD, F.EP_HINT_VEC, F.EP_STAT_FLR, F.EP_STAT_BME, F.EP_STAT_LINKUP, F.EP_STAT_READY, F.EP_OUTBASE_BASE, F.EP_EVT_FLR, F.EP_EVT_BME, F.EP_EVT_LDOWN]

/-- The fields of the PCI_ port page. -/
def flds_pcip : List Fld :=
  [F.PCI_PORT_ID_WIDTH, F.PCI_PORT_ID_PORT, F.PCI_PORT_CTL_RELEASE, F.PCI_PORT_CTL_RETRAIN, F.PCI_PORT_CTL_MAXSPEED, F.PCI_PORT_CTL_ECRC, F.PCI_PORT_CTL_EN, F.PCI_PORT_STAT_OVF, F.PCI_PORT_STAT_PRESENT, F.PCI_PORT_STAT_CONTAINED, F.PCI_PORT_STAT_CMODE, F.PCI_PORT_STAT_FLIT, F.PCI_PORT_STAT_SPEED, F.PCI_PORT_STAT_WIDTH, F.PCI_PORT_STAT_STATE, F.PCI_PORT_ERR_LUP, F.PCI_PORT_ERR_SRCVAL, F.PCI_PORT_ERR_ECRC, F.PCI_PORT_ERR_MALF, F.PCI_PORT_ERR_CTO, F.PCI_PORT_ERR_CA, F.PCI_PORT_ERR_UR, F.PCI_PORT_ERR_POISON, F.PCI_PORT_ERR_SURPRISE] ++
  [F.PCI_PORT_ERR_CONTAIN, F.PCI_PORT_ERR_LDOWN, F.PCI_PORT_IRQ_EN, F.PCI_PORT_IRQ_SOCKET, F.PCI_PORT_IRQ_CORE, F.PCI_PORT_IRQ_THREAD, F.PCI_PORT_IRQ_VEC, F.PCI_PORT_CTO_MS, F.PCI_PORT_WINBASE_MB, F.PCI_PORT_WINLIM_MB, F.PCI_PORT_BUS_SUB, F.PCI_PORT_BUS_SEC, F.PCI_PORT_DROPS_COUNT, F.PCI_PORT_LDG_FREE, F.PCI_PORT_LDG_USED]

/-- The fields of the IOT_ page 0x038 of a PCIe/CXL tile. -/
def flds_iot : List Fld :=
  [F.IOT_CTL_FQEN, F.IOT_CTL_ATSEN, F.IOT_CTL_EN, F.IOT_STAT_OFFSEEN, F.IOT_STAT_FQFULL, F.IOT_DTB_LO_PA, F.IOT_DTB_HI_PA, F.IOT_DMB_LO_PA, F.IOT_DMB_HI_PA, F.IOT_FQB_LO_PA, F.IOT_FQB_LO_SIZE, F.IOT_FQB_HI_PA, F.IOT_FQHEAD_IDX, F.IOT_FQTAIL_IDX, F.IOT_FQIRQ_EN, F.IOT_FQIRQ_SOCKET, F.IOT_FQIRQ_CORE, F.IOT_FQIRQ_THREAD, F.IOT_FQIRQ_VEC, F.IOT_FQOVF_COUNT, F.IOT_INV_CMD_GO, F.IOT_INV_CMD_SCOPE, F.IOT_INV_CMD_DOMAIN, F.IOT_INV_CMD_RID] ++
  [F.IOT_INV_PSID_PSID, F.IOT_INV_ADDR_LO_ADDR, F.IOT_INV_ADDR_HI_ADDR, F.IOT_INV_STAT_REJ, F.IOT_INV_STAT_ATSTMO, F.IOT_INV_STAT_DONE, F.IOT_INV_STAT_BUSY, F.IOT_ATSTMO_MS]

/-- The fields of the NET_ global page 0x100. -/
def flds_netg : List Fld :=
  [F.NET_ID_TILE, F.NET_CTL_RST, F.NET_STAT_BUFCFG, F.NET_STAT_OVF, F.NET_STAT_DBREJ, F.NET_STAT_ABANDON, F.NET_STAT_INRESET, F.NET_QCTXB_LO_PA, F.NET_QCTXB_HI_PA, F.NET_FLOWB_LO_PA, F.NET_FLOWB_HI_PA, F.NET_MCB_LO_PA, F.NET_MCB_HI_PA, F.NET_FLOWCMD_GO, F.NET_FLOWCMD_ALL, F.NET_FLOWCMD_BUCKET, F.NET_FLOWSTAT_REJ, F.NET_FLOWSTAT_DONE, F.NET_FLOWSTAT_BUSY, F.NET_QCMD_GO, F.NET_QCMD_OP, F.NET_QCMD_CLR, F.NET_QCMD_QUEUE, F.NET_QCMDSTAT_ERRCODE] ++
  [F.NET_QCMDSTAT_REJ, F.NET_QCMDSTAT_ERR, F.NET_QCMDSTAT_DONE, F.NET_QCMDSTAT_BUSY, F.NET_QREAD0_PIDX, F.NET_QREAD0_DCIDX, F.NET_QREAD1_CPIDX, F.NET_QREAD1_CCIDX, F.NET_QREAD2_DROPS, F.NET_QREAD2_LOST, F.NET_QREAD3_CELLS, F.NET_QREAD3_ERRSEEN, F.NET_QREAD3_STATE, F.NET_MCSEL_GROUP, F.NET_MCFRAMES_COUNT, F.NET_MCREPL_COUNT, F.NET_MCDROP_COUNT, F.NET_BUFCFG_TXRES, F.NET_LDG_CELL_USED, F.NET_LDG_CELL_FREE, F.NET_LDG_DESC_USED, F.NET_LDG_DESC_FREE, F.NET_ARBCFG_BMC, F.NET_ARBCFG_BCMPL] ++
  [F.NET_ARBCFG_BDESC, F.NET_ARBCFG_BTX, F.NET_ARBCFG_BRX, F.NET_ARB_GRANTS_COUNT, F.NET_ARB_WAITS_COUNT, F.NET_ARB_MAXWAIT_MAX]

/-- The fields of the MAC page 0x110 + m. -/
def flds_mac : List Fld :=
  [F.NET_MAC_CFG_AN, F.NET_MAC_CFG_MAXLEN, F.NET_MAC_CFG_SPEED, F.NET_MAC_STAT_CONFLICT, F.NET_MAC_STAT_BAD, F.NET_MAC_STAT_LDOWN, F.NET_MAC_STAT_LUP, F.NET_MAC_STAT_STATE, F.NET_MAC_TSADJ_NS, F.NET_MAC_RXOK_COUNT, F.NET_MAC_RXBYTES_LO_COUNT, F.NET_MAC_RXBYTES_HI_COUNT, F.NET_MAC_TXOK_COUNT, F.NET_MAC_TXBYTES_LO_COUNT, F.NET_MAC_TXBYTES_HI_COUNT, F.NET_MAC_FCSERR_COUNT, F.NET_MAC_RUNT_COUNT, F.NET_MAC_OVERSIZE_COUNT, F.NET_MAC_FRAG_COUNT, F.NET_MAC_JABBER_COUNT, F.NET_MAC_NOLP_COUNT, F.NET_MAC_PAUSERX_COUNT, F.NET_MAC_PAUSETX_COUNT, F.NET_MAC_FECCORR_COUNT] ++
  [F.NET_MAC_FECUNC_COUNT, F.NET_MAC_STOMP_COUNT]

/-- The fields of the logical port page 0x120 + n. -/
def flds_lp : List Fld :=
  [F.NET_LP_CFG_EN, F.NET_LP_CFG_MAC, F.NET_LP_CFG_SEL, F.NET_LP_CFG_ERRDELIV, F.NET_LP_CFG_FCSCT, F.NET_LP_CFG_DOWNHOLD, F.NET_LP_CFG_MARKECN, F.NET_LP_CFG_PAUSE, F.NET_LP_CFG_KEY, F.NET_LP_CFG_PEND, F.NET_LP_VSEL_VHI, F.NET_LP_VSEL_VLO, F.NET_LP_DEFQ_DROP, F.NET_LP_DEFQ_QUEUE, F.NET_LP_ERRQ_QUEUE, F.NET_LP_BUF_RXMAX, F.NET_LP_BUF_RXMIN, F.NET_LP_PAUSE_XON, F.NET_LP_PAUSE_XOFF, F.NET_LP_CLS_B3, F.NET_LP_CLS_B2, F.NET_LP_CLS_B1, F.NET_LP_CLS_B0, F.NET_LP_RXOK_COUNT] ++
  [F.NET_LP_RXDROP_COUNT, F.NET_LP_RXNOQ_COUNT, F.NET_LP_TXOK_COUNT, F.NET_LP_TXDOWN_COUNT, F.NET_LP_CELLS_CELLS]

/-- The fields of the KEY_ global page 0x300. -/
def flds_key : List Fld :=
  [F.KEY_CMD_GO, F.KEY_CMD_OP, F.KEY_CMD_SLOT, F.KEY_CMDSTAT_ERRCODE, F.KEY_CMDSTAT_REJ, F.KEY_CMDSTAT_ERR, F.KEY_CMDSTAT_DONE, F.KEY_CMDSTAT_BUSY, F.KEY_STG_CTL_V, F.KEY_STG_WIN_V, F.KEY_STG_ID_LO_ID, F.KEY_STG_ID_HI_ID, F.KEY_STG_SEQ_LO_SEQ, F.KEY_STG_SEQ_HI_SEQ, F.KEY_STG_SALT_SALT, F.KEY_STG_K_KEY, F.KEY_SEL_SLOT, F.KEY_OKCNT_COUNT, F.KEY_TAGFAIL_COUNT, F.KEY_REPLAY_COUNT, F.KEY_EVT_SEQHI, F.KEY_EVT_OVF, F.KEY_EVT_SLOT, F.KEY_IRQ_EN] ++
  [F.KEY_IRQ_SOCKET, F.KEY_IRQ_CORE, F.KEY_IRQ_THREAD, F.KEY_IRQ_VEC, F.KEY_LDG_VALID, F.KEY_LDG_FREE, F.KEY_MSRX_EN, F.KEY_MSRX_STRICT, F.KEY_MSRX_NSC, F.KEY_MSRX_BASE]

/-- The fields of the key slots, pages 0x200 to 0x2FF. -/
def flds_keyslot : List Fld :=
  [F.KEY_CTL_V, F.KEY_CTL_DIR, F.KEY_CTL_MODE, F.KEY_CTL_KLEN, F.KEY_CTL_ENC, F.KEY_CTL_ESN, F.KEY_CTL_AN, F.KEY_CTL_SC, F.KEY_CTL_INST, F.KEY_GEN_GEN, F.KEY_ID_LO_ID, F.KEY_ID_HI_ID, F.KEY_SEQ_LO_SEQ, F.KEY_SEQ_HI_SEQ, F.KEY_WIN_WEN, F.KEY_WIN_SIZE, F.KEY_USE_DRAIN, F.KEY_USE_INUSE]

/-- The fields of the VEN_ page 0x400 + i. -/
def flds_ven : List Fld :=
  [F.VEN_ID_INST, F.VEN_STAT_CTROVF, F.VEN_STAT_OVD, F.VEN_STAT_OVK, F.VEN_STAT_OVF, F.VEN_STAT_OVQ, F.VEN_STAT_STATE, F.VEN_CMD_GO, F.VEN_CMD_OP, F.VEN_CMD_INDEX, F.VEN_CMDSTAT_CODE, F.VEN_CMDSTAT_REJ, F.VEN_CMDSTAT_ERR, F.VEN_CMDSTAT_DONE, F.VEN_CMDSTAT_BUSY, F.VEN_TEVT_RESET, F.VEN_TEVT_OVERQ, F.VEN_TEVT_OUTACK, F.VEN_TEVT_MBIN, F.VEN_TEVT_CMD, F.VEN_USE_QK_QUSE, F.VEN_USE_QK_KUSE, F.VEN_USE_F_FUSE, F.VEN_USE_DC_DUSE] ++
  [F.VEN_USE_DC_CUSE, F.VEN_REFUSED_COUNT, F.VEN_BWDLY_COUNT, F.VEN_CTRSEL_SET, F.VEN_CTR_FR_LO_COUNT, F.VEN_CTR_FR_HI_COUNT, F.VEN_CTR_BY_LO_COUNT, F.VEN_CTR_BY_HI_COUNT, F.VEN_CTR_DROP_COUNT, F.VEN_STG_DATA, F.VEN_MBIN_DATA, F.VEN_MBOUT_DATA, F.VEN_MBCTL_OUTSEND, F.VEN_MBCTL_OUTACK, F.VEN_MBCTL_INSEND, F.VEN_MBCTL_INACK, F.VEN_MBCTL_OUTOVR, F.VEN_MBCTL_INOVR, F.VEN_MBCTL_OUTFULL, F.VEN_MBCTL_INFULL, F.VEN_QREAD_DATA, F.VEN_MCMD_GO, F.VEN_MCMD_OP, F.VEN_MCMD_RES] ++
  [F.VEN_MSTAT_POOLREJ, F.VEN_MSTAT_CODE, F.VEN_MSTAT_REJ, F.VEN_MSTAT_ERR, F.VEN_MSTAT_DONE, F.VEN_MSTAT_BUSY, F.VEN_OWNER_VMID, F.VEN_LPMASK_LP, F.VEN_QRANGE_QCNT, F.VEN_QRANGE_QBASE, F.VEN_KRANGE_KCNT, F.VEN_KRANGE_KBASE, F.VEN_CRANGE_CCNT, F.VEN_CRANGE_CBASE, F.VEN_MCRANGE_MCOK, F.VEN_MCRANGE_MCCNT, F.VEN_MCRANGE_MCBASE, F.VEN_QUOTA_QK_QMAX, F.VEN_QUOTA_QK_KMAX, F.VEN_QUOTA_F_FMAX, F.VEN_QUOTA_D_DMAX, F.VEN_BW_EN, F.VEN_BW_BURST, F.VEN_BW_RATE] ++
  [F.VEN_TTGT_EN, F.VEN_TTGT_HOST, F.VEN_TTGT_SOCKET, F.VEN_TTGT_CORE, F.VEN_TTGT_THREAD, F.VEN_TTGT_VEC, F.VEN_MTGT_EN, F.VEN_MTGT_SOCKET, F.VEN_MTGT_CORE, F.VEN_MTGT_THREAD, F.VEN_MTGT_VEC, F.VEN_MEVT_DENY, F.VEN_MEVT_INACK, F.VEN_MEVT_MBOUT, F.VEN_MEVT_OVERQ, F.VEN_POOLQ_ASG, F.VEN_POOLQ_FREE, F.VEN_POOLK_ASG, F.VEN_POOLK_FREE, F.VEN_POOLC_ASG, F.VEN_POOLC_FREE, F.VEN_POOLF_ASG_COUNT, F.VEN_POOLF_FREE_COUNT, F.VEN_POOLBW_ASG] ++
  [F.VEN_POOLBW_FREE]

/-- The fields of the EAS_ mailbox, page 0x030 of tile D. -/
def flds_eas : List Fld :=
  [F.EAS_CMD_GO, F.EAS_CMD_OP, F.EAS_CMDSTAT_CODE, F.EAS_CMDSTAT_REJ, F.EAS_CMDSTAT_ERR, F.EAS_CMDSTAT_DONE, F.EAS_CMDSTAT_BUSY, F.EAS_ARG_ARG, F.EAS_RES_RES, F.EAS_EVT_VARNISH, F.EAS_EVT_STBYSW, F.EAS_EVT_PALCHG, F.EAS_EVT_LOG, F.EAS_IRQ_EN, F.EAS_IRQ_SOCKET, F.EAS_IRQ_CORE, F.EAS_IRQ_THREAD, F.EAS_IRQ_VEC, F.EAS_LOGSEQ_SEQ, F.EAS_LCS_PEND, F.EAS_LCS_STATE, F.EAS_BOOT_REVOKED, F.EAS_BOOT_FUSED, F.EAS_BOOT_RECOVERY] ++
  [F.EAS_BOOT_BACKUP, F.EAS_BOOT_FAILP, F.EAS_BOOT_COUNT, F.EAS_BOOT_SECVER]

/-- The fields of the PRM_ page 0x031 of tile D. -/
def flds_prm : List Fld :=
  [F.PRM_CMD_GO, F.PRM_CMD_OP, F.PRM_CMD_TARGET, F.PRM_CMDSTAT_CODE, F.PRM_CMDSTAT_REJ, F.PRM_CMDSTAT_ERR, F.PRM_CMDSTAT_DONE, F.PRM_CMDSTAT_BUSY, F.PRM_FCFG_CEN, F.PRM_FCFG_SEN, F.PRM_FCFG_HOLD, F.PRM_FCFG_PERIOD, F.PRM_FSTAT_ACTIVE, F.PRM_FSTAT_KIND, F.PRM_FSTAT_TARGET, F.PRM_FDONE_FAILS, F.PRM_FDONE_TESTS, F.PRM_LAST_FAIL, F.PRM_LAST_KIND, F.PRM_LAST_TARGET, F.PRM_LAST_US, F.PRM_SAVEB_LO_PA, F.PRM_SAVEB_HI_PA, F.PRM_RECSEL_WORD] ++
  [F.PRM_RECDATA_DATA, F.PRM_AUDIT_CHECKED, F.PRM_AUDIT_MISMATCH, F.PRM_AMIS_TILE, F.PRM_AMIS_PAGE, F.PRM_AMIS_OFFSET, F.PRM_AMIS_FIELD]

/-- The fields of the socket PWR_ page 0x032 of tile D. -/
def flds_spwr : List Fld :=
  [F.PWR_PL_W, F.PWR_PLSTAT_AVG, F.PWR_PLSTAT_EFF, F.PWR_LOOP_UNCCUT, F.PWR_LOOP_HOTF, F.PWR_LOOP_TAU, F.PWR_STAT_REFUSED, F.PWR_STAT_STBYSW, F.PWR_STAT_VRHOT, F.PWR_STAT_OVER, F.PWR_STAT_FLOOR, F.PWR_STAT_CAPPING, F.PWR_STBY_SWITCHES, F.PWR_STBY_ONBAK, F.PWR_STBY_BAKOK, F.PWR_ENERGY_LO_UJ, F.PWR_ENERGY_HI_UJ, F.PWR_BOFF_OFF, F.PWR_BSTAT_ON, F.PWR_REFUSE_REASON, F.PWR_REFUSE_DOMAIN]

/-- The fields of the socket CLK_ page 0x033 of tile D. -/
def flds_sclk : List Fld :=
  [F.CLK_REF_LOSS, F.CLK_REF_LOCK, F.CLK_ALLCORE_FMAX, F.CLK_ALLCORE_FMIN]

/-- The fields of the counter collector, page 0x034 of tile D. -/
def flds_gperf : List Fld :=
  [F.PERF_GCTL_RUN, F.PERF_GCTL_CLRALL, F.PERF_GCTL_SNAP, F.PERF_GSTAT_PENDING, F.PERF_GSTAT_SNAPBUSY, F.PERF_GSTAT_SKIP, F.PERF_GSTAT_SNAPERR, F.PERF_SNAPB_LO_PA, F.PERF_SNAPB_LO_SIZE, F.PERF_SNAPB_HI_PA, F.PERF_SNAPPER_US, F.PERF_SNAPSEQ_SEQ, F.PERF_SNAPSKIP_COUNT, F.PERF_SNAPIRQ_EN, F.PERF_SNAPIRQ_SOCKET, F.PERF_SNAPIRQ_CORE, F.PERF_SNAPIRQ_THREAD, F.PERF_SNAPIRQ_VEC, F.PERF_BWSEL_EN, F.PERF_BWSEL_KIND, F.PERF_BWSEL_DIR, F.PERF_BWSEL_WEXP, F.PERF_BWSEL_INDEX, F.PERF_BWSEL_SUB] ++
  [F.PERF_BWRATE_MBS, F.PERF_BWBYTES_LO_BYTES, F.PERF_BWBYTES_HI_BYTES, F.PERF_BWPEAK_MBS, F.PERF_BWWIN_COUNT]

/-- The fields of a block. -/
def Blk.flds : Blk → List Fld
  | .pal => flds_pal
  | .fab => flds_fab
  | .stn => flds_stn
  | .perf => flds_perf
  | .ras => flds_ras
  | .pwr => flds_pwr
  | .clk => flds_clk
  | .llc => flds_llc
  | .coh => flds_coh
  | .core => flds_core
  | .tlb => flds_tlb
  | .mc => flds_mc
  | .ilv => flds_ilv
  | .var => flds_var
  | .varseq => flds_varseq
  | .dvt => flds_dvt
  | .dvtg => flds_dvtg
  | .pcig => flds_pcig
  | .ep => flds_ep
  | .pcip => flds_pcip
  | .iot => flds_iot
  | .netg => flds_netg
  | .mac => flds_mac
  | .lp => flds_lp
  | .key => flds_key
  | .keyslot => flds_keyslot
  | .ven => flds_ven
  | .eas => flds_eas
  | .prm => flds_prm
  | .spwr => flds_spwr
  | .sclk => flds_sclk
  | .gperf => flds_gperf

end Sys2Proof.Machine
end

