-- ==== Sys2Proof/Machine/Map.lean ====
section
/-!
DEFINITION. Where units sit: tiles, core tiles, pages and the physical address map (R12 to R22, R28,
R29), and the places of the control registers.
-/
namespace Sys2Proof.Machine

/-- Kinds of tile (FAB_ID.KIND, R279). -/
inductive TileKind where | core | mem | pcie | net | dvt
  deriving DecidableEq, Repr

def TileKind.code : TileKind → Nat
  | .core => 0 | .mem => 1 | .pcie => 2 | .net => 3 | .dvt => 4

def tileP0 : Nat := 5
def tileN : Nat := 6
def tileP1 : Nat := 138
def tileD : Nat := 137

/-- Memory tile Mi (R12). -/
def memTile : Nat → Nat
  | 0 => 12 | 1 => 48 | 2 => 84 | 3 => 120 | 4 => 23 | 5 => 59 | 6 => 95 | _ => 131

/-- The special tiles in ascending tile number (R12). -/
def specialTiles : List Nat := [5, 6, 12, 23, 48, 59, 84, 95, 120, 131, 137, 138]

def tileKind (t : Nat) : TileKind :=
  if t = tileP0 ∨ t = tileP1 then .pcie
  else if t = tileN then .net
  else if t = tileD then .dvt
  else if specialTiles.contains t then .mem
  else .core

/-- The tile of core tile ordinal `k`, special tiles skipped (R13). -/
def coreTile (k : Nat) : Nat := specialTiles.foldl (fun a sp => if sp ≤ a then a + 1 else a) k

/-- The core tile ordinal of a tile, when it is a core tile (R13). -/
def coreOrd (t : Nat) : Option Nat :=
  if t < 144 ∧ tileKind t = .core then some (t - (specialTiles.filter (· < t)).length) else none

/-- Memory tile index of a tile. -/
def memIndex (t : Nat) : Option Nat :=
  if t < 144 ∧ tileKind t = .mem then (List.range 8).find? (fun i => memTile i = t) else none

/-- The tile that holds core `n` (R13). -/
def tileOfCore (n : Nat) : Nat := coreTile (n / 2)
/-- The tile of channel `c` (R12). -/
def tileOfChan (c : Nat) : Nat := memTile (c / 2)
/-- The tile of lane group `g` (R12). -/
def tileOfGroup (g : Nat) : Nat := if g < 4 then tileP0 else tileP1
/-- The compute die of a tile (R14). -/
def dieOf (t : Nat) : Nat := (if t % 12 < 6 then 0 else 1) + (if t / 12 < 6 then 0 else 2)

/-- Numbers of units. -/
def nCores : Nat := 264
def nTiles : Nat := 144
def nSlices : Nat := 132

/-- Regions of the physical address map (R18). -/
inductive Region where
  | mem | pcieWin
  /-- control window of a socket: socket and offset -/
  | ctl (socket off : Nat)
  /-- local control window: offset -/
  | loc (off : Nat)
  | reserved
  deriving DecidableEq, Repr

def regionOf (pa : Nat) : Region :=
  if pa < 0xE000000000000 then .mem
  else if pa < 0xF000000000000 then .pcieWin
  else if pa < 0xFFF0000000000 then .reserved
  else if pa < 0xFFF1000000000 then
    .ctl ((pa - 0xFFF0000000000) / 0x100000000) ((pa - 0xFFF0000000000) % 0x100000000)
  else if pa < 0xFFF1100000000 then .loc (pa - 0xFFF1000000000)
  else .reserved

/-- The P tile of an address in the PCIe and CXL.io window (R378): socket and lane group. -/
def aperture (pa : Nat) : Nat × Nat := (pa / 0x100000000000 % 16, pa / 0x20000000000 % 8)

/-- A control page: its tile and its page number (R20). -/
structure Pg where
  tile : Nat
  page : Nat
  deriving DecidableEq, Repr

/-- The page of unit `u` of a block (R21). -/
def Blk.place (b : Blk) (u : Nat) : Pg :=
  match b with
  | .pal => ⟨tileD, 0x010⟩
  | .fab => ⟨u, 0x000⟩
  | .stn => ⟨u / 5, 0x008 + u % 5⟩
  | .perf => ⟨u, 0x004⟩
  | .ras => ⟨u, 0x006⟩
  | .pwr => ⟨u, 0x007⟩
  | .clk => ⟨u, 0x00D⟩
  | .llc => ⟨coreTile u, 0x002⟩
  | .coh => ⟨coreTile u, 0x003⟩
  | .core => ⟨tileOfCore u, 0x010 + 8 * (u % 2)⟩
  | .tlb => ⟨tileOfCore u, 0x011 + 8 * (u % 2)⟩
  | .mc => ⟨tileOfChan u, 0x020 + u % 2⟩
  | .ilv => ⟨memTile 0, 0x020⟩
  | .var => ⟨memTile u, 0x028⟩
  | .varseq => ⟨memTile 0, 0x028⟩
  | .dvt => ⟨tileD, 0x020 + u⟩
  | .dvtg => ⟨tileD, 0x020⟩
  | .pcig => ⟨tileOfGroup u, 0x030 + u % 4⟩
  | .ep => ⟨tileP0, 0x030⟩
  | .pcip => ⟨if u < 32 then tileP0 else tileP1, 0x040 + u % 32⟩
  | .iot => ⟨if u = 0 then tileP0 else tileP1, 0x038⟩
  | .netg => ⟨tileN, 0x100⟩
  | .mac => ⟨tileN, 0x110 + u⟩
  | .lp => ⟨tileN, 0x120 + u⟩
  | .key => ⟨tileN, 0x300⟩
  | .keyslot => ⟨tileN, 0x200 + u⟩
  | .ven => ⟨tileN, 0x400 + u⟩
  | .eas => ⟨tileD, 0x030⟩
  | .prm => ⟨tileD, 0x031⟩
  | .spwr => ⟨tileD, 0x032⟩
  | .sclk => ⟨tileD, 0x033⟩
  | .gperf => ⟨tileD, 0x034⟩

/-- The blocks, with the number of the unit, whose registers lie in a page (R21). The interleave
table and VAR_SEQ share a page with the channel and buffer of M0; the socket-wide DVT_ registers
share the page of L0; the endpoint registers share the page of group 0. -/
def pageBlocks (p : Pg) : List (Blk × Nat) :=
  let t := p.tile
  if t ≥ 144 then []
  else if p.page = 0x000 then [(.fab, t)]
  else if p.page = 0x004 then [(.perf, t)]
  else if p.page = 0x006 then [(.ras, t)]
  else if p.page = 0x007 then [(.pwr, t)]
  else if 0x008 ≤ p.page ∧ p.page ≤ 0x00C then [(.stn, 5 * t + (p.page - 8))]
  else if p.page = 0x00D then [(.clk, t)]
  else
    match tileKind t with
    | .core =>
      let k := (coreOrd t).getD 0
      if p.page = 0x002 then [(.llc, k)]
      else if p.page = 0x003 then [(.coh, k)]
      else if p.page = 0x010 then [(.core, 2 * k)]
      else if p.page = 0x011 then [(.tlb, 2 * k)]
      else if p.page = 0x018 then [(.core, 2 * k + 1)]
      else if p.page = 0x019 then [(.tlb, 2 * k + 1)]
      else []
    | .mem =>
      let i := (memIndex t).getD 0
      if p.page = 0x020 then (if i = 0 then [(.mc, 0), (.ilv, 0)] else [(.mc, 2 * i)])
      else if p.page = 0x021 then [(.mc, 2 * i + 1)]
      else if p.page = 0x028 then (if i = 0 then [(.var, 0), (.varseq, 0)] else [(.var, i)])
      else []
    | .pcie =>
      let h := if t = tileP0 then 0 else 1
      if 0x030 ≤ p.page ∧ p.page ≤ 0x033 then
        (if t = tileP0 ∧ p.page = 0x030 then [(.pcig, 0), (.ep, 0)] else [(.pcig, 4 * h + (p.page - 0x30))])
      else if p.page = 0x038 then [(.iot, h)]
      else if 0x040 ≤ p.page ∧ p.page ≤ 0x05F then [(.pcip, 32 * h + (p.page - 0x40))]
      else []
    | .net =>
      if p.page = 0x100 then [(.netg, 0)]
      else if 0x110 ≤ p.page ∧ p.page ≤ 0x11F then [(.mac, p.page - 0x110)]
      else if 0x120 ≤ p.page ∧ p.page ≤ 0x13F then [(.lp, p.page - 0x120)]
      else if p.page = 0x300 then [(.key, 0)]
      else if 0x200 ≤ p.page ∧ p.page ≤ 0x2FF then [(.keyslot, p.page - 0x200)]
      else if 0x400 ≤ p.page ∧ p.page ≤ 0x7FF then [(.ven, p.page - 0x400)]
      else []
    | .dvt =>
      if p.page = 0x010 then [(.pal, 0)]
      else if p.page = 0x020 then [(.dvt, 0), (.dvtg, 0)]
      else if 0x021 ≤ p.page ∧ p.page ≤ 0x023 then [(.dvt, p.page - 0x20)]
      else if p.page = 0x030 then [(.eas, 0)]
      else if p.page = 0x031 then [(.prm, 0)]
      else if p.page = 0x032 then [(.spwr, 0)]
      else if p.page = 0x033 then [(.sclk, 0)]
      else if p.page = 0x034 then [(.gperf, 0)]
      else []

/-- Register word `i` of a field, 0 to 255 (R539). -/
def Fld.word (f : Fld) (i : Nat) : Nat := (f.off + f.stride * i) / 4 % 256

/-- The key of a field in the register store: tile, page, word and lowest bit. -/
def fldKey (p : Pg) (word lo : Nat) : Nat := ((p.tile * 4096 + p.page) * 256 + word) * 32 + lo

/-- The key of field `f` of unit `u`, register `i` of its name. -/
def Fld.key (f : Fld) (u i : Nat) : Nat := fldKey (f.blk.place u) (f.word i) f.lo

def Fld.width (f : Fld) : Nat := f.hi - f.lo + 1

/-- The default escalation action, threshold and window of source `s` of a tile (R517): (ACT, N, W).
A threshold of 256 does not fit the 8-bit field: it is in force until N is written, and the field
then reads its low 8 bits, 0 (notes/assumptions/14.md). -/
def srcDefault (k : TileKind) (s : Nat) : Option (Nat × Nat × Nat) :=
  if s = 10 then some (0, 8, 9)
  else if s = 11 then some (0, 100, 9)
  else if s = 13 then some (0, 1, 0)
  else match k with
  | .core =>
    if s < 2 then some (3, 2, 20) else if s < 4 then some (3, 16, 20)
    else if s < 6 then some (1, 32, 20) else if s < 8 then some (3, 16, 20)
    else if s = 8 then some (2, 64, 20) else if s = 9 then some (4, 16, 20)
    else if s = 12 then some (0, 1, 0) else none
  | .mem =>
    if s < 2 then some (6, 24, 20) else if s < 4 then some (6, 2, 20)
    else if s < 6 then some (0, 10, 9) else if s = 6 then some (0, 16, 20) else none
  | .pcie =>
    if s < 4 then some (0, 256, 9) else if s < 8 then some (0, 1, 0)
    else if s = 8 then some (0, 16, 20) else none
  | .net =>
    if s = 0 then some (0, 64, 9) else if s = 1 then some (0, 16, 20)
    else if s = 2 then some (0, 4, 20) else if s = 3 then some (0, 1, 0) else none
  | .dvt =>
    if s < 4 then some (5, 256, 9) else if s < 8 then some (5, 4, 14) else none

/-- The reset value of field `f` of unit `u`, register `i`. -/
def Fld.resetVal (f : Fld) (u i : Nat) : Nat :=
  let t := (f.blk.place u).tile
  match f.rst with
  | .const n => n
  | .tile => t
  | .kind => (tileKind t).code
  | .x => t % 12
  | .y => t / 12
  | .die => dieOf t
  | .slice => u
  | .core => u
  | .chan => u
  | .group => u
  | .port => u
  | .inst => u
  | .lpen => if u = 0 then 1 else 0
  | .lpmac => u % 16
  | .wact => ((srcDefault (tileKind t) i).getD (0, 0, 0)).1
  | .wn => ((srcDefault (tileKind t) i).getD (0, 0, 0)).2.1
  | .ww => ((srcDefault (tileKind t) i).getD (0, 0, 0)).2.2

end Sys2Proof.Machine
end

