-- ==== Sys2Proof/Machine/Part.lean ====
section
/-!
DEFINITION. The state of one Helgen part, as plain data, apart from the queue of waiting commands.
-/
namespace Sys2Proof.Machine

/-- The state of the part. -/
structure Part where
  /-- how many free values have been used: the model's own field (notes/assumptions/2.md) -/
  free : Nat
  /-- a counter that numbers stores and messages: the model's own field -/
  seq : Nat
  /-- TIME in nanoseconds (R369) -/
  time : Nat
  /-- control register fields in force, by key (`fldKey`) -/
  ctl : Tab Nat
  /-- written values of buffered fields that wait for their natural boundary (R550) -/
  held : Tab Nat
  /-- threads by 2 × core + thread -/
  thr : Tab Thr
  /-- interrupt controllers by 2 × core + thread -/
  ic : Tab Ic
  core : Tab CoreSt
  slice : Tab SliceSt
  /-- messages in flight, oldest first -/
  net : List Msg
  /-- the torus that carries them -/
  fab : FabSt
  /-- DRAM bytes by channel × 2^44 + channel address -/
  mem : List (Nat × Byte)
  /-- poisoned DRAM chunks by key / 16 -/
  pois : Tab Nat
  chan : Tab ChanSt
  mt : Tab MtSt
  ras : Tab RasSt
  /-- the Easel log, newest first, with the TILE byte (R585) -/
  elog : List (Nat × RasEnt)
  /-- the P tiles: I/O translation, ports, the endpoint -/
  pci : PciSt
  pkt : PktSt
  key : KeySt
  ven : VeneerSt
  /-- Easel, Primer, contacts, Dovetail, Varnish and the collector -/
  sys : SysSt
  deriving DecidableEq, Repr

end Sys2Proof.Machine
end

