-- ==== Sys2Proof/Machine/Ctl.lean ====
section
/-!
DEFINITION. Named reads and writes of control register fields, of threads, controllers, cores, slices
and channels, and the use of free values.
-/
namespace Sys2Proof.Machine

/-- A fresh open value (notes/assumptions/2.md). -/
def Part.freshNat (p : Part) : Nat := Config.freeNat p.free
def Part.used (p : Part) : Part := { p with free := p.free + 1 }

/-- The value in force of field `f` of unit `u`, register `i` of its name. -/
def Part.rg (p : Part) (f : Fld) (u : Nat := 0) (i : Nat := 0) : Nat :=
  p.ctl.get (f.resetVal u i) (f.key u i)

/-- Whether a one-bit field is 1. -/
def Part.rgOn (p : Part) (f : Fld) (u : Nat := 0) (i : Nat := 0) : Bool := p.rg f u i % 2 = 1

/-- Put a value into a field, cut to its width. -/
def Part.setRg (p : Part) (f : Fld) (v : Nat) (u : Nat := 0) (i : Nat := 0) : Part :=
  { p with ctl := p.ctl.put (f.key u i) (v % 2 ^ f.width) }

/-- The value last written to a buffered field (R9, R550). -/
def Part.rgWritten (p : Part) (f : Fld) (u : Nat := 0) (i : Nat := 0) : Nat :=
  p.held.get (p.rg f u i) (f.key u i)

/-- Add `n` to a wrapping counter; `none` when it did not wrap. -/
def Part.incWrap (p : Part) (f : Fld) (n : Nat) (u : Nat := 0) (i : Nat := 0) : Part × Bool :=
  let v := p.rg f u i + n
  (p.setRg f v u i, v ≥ 2 ^ f.width)

/-- Add `n` to a wrapping counter whose wrap sets the sticky field `ovf` of the same unit (R318, R342). -/
def Part.count (p : Part) (f : Fld) (ovf : Fld) (u : Nat := 0) (i : Nat := 0) (n : Nat := 1) : Part :=
  let (q, w) := p.incWrap f n u i
  if w then q.setRg ovf 1 u else q

/-- Add `n` to a saturating counter. -/
def Part.countSat (p : Part) (f : Fld) (u : Nat := 0) (i : Nat := 0) (n : Nat := 1) : Part :=
  p.setRg f (min (p.rg f u i + n) (2 ^ f.width - 1)) u i

/-- Apply every held field whose key satisfies `sel` (R550): all together, last value written. -/
def Part.applyHeld (p : Part) (sel : Nat → Bool) : Part :=
  { p with ctl := p.ctl.putAll (p.held.filter (fun e => sel e.1)),
           held := p.held.filter (fun e => !sel e.1) }

/-- Keys of the fields of a page. -/
def inPage (pg : Pg) (key : Nat) : Bool := key / 8192 = pg.tile * 4096 + pg.page

/-- Some buffered field of the page waits for its boundary. -/
def Part.pendingIn (p : Part) (pg : Pg) : Bool := p.held.any (fun e => inPage pg e.1)

/-- Return every field of the page to its reset value and discard held writes (R552). -/
def Part.resetPage (p : Part) (pg : Pg) : Part :=
  { p with ctl := p.ctl.filter (fun e => !inPage pg e.1), held := p.held.filter (fun e => !inPage pg e.1) }

def Part.thread (p : Part) (t : Nat) : Thr := p.thr.get Thr.reset t
def Part.modThread (p : Part) (t : Nat) (f : Thr → Thr) : Part :=
  { p with thr := p.thr.upd Thr.reset t f }
/-- A stored system register. -/
def Thr.sys (th : Thr) (n : Nat) : Dword := th.sr.get 0 n
def Thr.setSys (th : Thr) (n : Nat) (v : Dword) : Thr := { th with sr := th.sr.put n v }
/-- The VMID of S2ROOT (R189). -/
def Thr.vmid (th : Thr) : Nat := (th.sys 0x810).toNat / 2 ^ 44 % 2 ^ 12
/-- The VMID attributed to the thread's requests and events: S2ROOT.VMID while V = 1, else 0 (R555). -/
def Thr.attrVmid (th : Thr) : Nat := if th.vm then th.vmid else 0
def Part.icOf (p : Part) (t : Nat) : Ic := p.ic.get Ic.reset t
def Part.modIc (p : Part) (t : Nat) (f : Ic → Ic) : Part := { p with ic := p.ic.upd Ic.reset t f }
def Part.coreOf (p : Part) (c : Nat) : CoreSt := p.core.get CoreSt.reset c
def Part.modCore (p : Part) (c : Nat) (f : CoreSt → CoreSt) : Part :=
  { p with core := p.core.upd CoreSt.reset c f }
def Part.sliceOf (p : Part) (k : Nat) : SliceSt := p.slice.get SliceSt.reset k
def Part.modSlice (p : Part) (k : Nat) (f : SliceSt → SliceSt) : Part :=
  { p with slice := p.slice.upd SliceSt.reset k f }
def Part.chanOf (p : Part) (c : Nat) : ChanSt := p.chan.get ChanSt.reset c
def Part.modChan (p : Part) (c : Nat) (f : ChanSt → ChanSt) : Part :=
  { p with chan := p.chan.upd ChanSt.reset c f }
def Part.mtOf (p : Part) (i : Nat) : MtSt := p.mt.get MtSt.reset i
def Part.modMt (p : Part) (i : Nat) (f : MtSt → MtSt) : Part := { p with mt := p.mt.upd MtSt.reset i f }
def Part.rasOf (p : Part) (t : Nat) : RasSt := p.ras.get RasSt.reset t
def Part.modRas (p : Part) (t : Nat) (f : RasSt → RasSt) : Part :=
  { p with ras := p.ras.upd RasSt.reset t f }

def Part.modPci (p : Part) (f : PciSt → PciSt) : Part := { p with pci := f p.pci }
def Part.modPkt (p : Part) (f : PktSt → PktSt) : Part := { p with pkt := f p.pkt }
def Part.modKey (p : Part) (f : KeySt → KeySt) : Part := { p with key := f p.key }
def Part.modVen (p : Part) (f : VeneerSt → VeneerSt) : Part := { p with ven := f p.ven }
def Part.modSys (p : Part) (f : SysSt → SysSt) : Part := { p with sys := f p.sys }
def Part.modPins (p : Part) (f : Pins → Pins) : Part := p.modSys (fun s => { s with pins := f s.pins })
def Part.modPwr (p : Part) (f : PwrSt → PwrSt) : Part := p.modSys (fun s => { s with pwr := f s.pwr })
def Part.modPrm (p : Part) (f : PrmSt → PrmSt) : Part := p.modSys (fun s => { s with prm := f s.prm })
def Part.modGperf (p : Part) (f : GperfSt → GperfSt) : Part := p.modSys (fun s => { s with gperf := f s.gperf })
def Part.modDvt (p : Part) (f : DvtSt → DvtSt) : Part := p.modSys (fun s => { s with dvt := f s.dvt })
def Part.modVarn (p : Part) (f : VarnSt → VarnSt) : Part := p.modSys (fun s => { s with varn := f s.varn })

def Part.iotOf (p : Part) (u : Nat) : IotSt := p.pci.iot.get IotSt.reset u
def Part.modIot (p : Part) (u : Nat) (f : IotSt → IotSt) : Part :=
  p.modPci (fun s => { s with iot := s.iot.upd IotSt.reset u f })
def Part.portOf (p : Part) (n : Nat) : PortSt := p.pci.port.get PortSt.reset n
def Part.modPort (p : Part) (n : Nat) (f : PortSt → PortSt) : Part :=
  p.modPci (fun s => { s with port := s.port.upd PortSt.reset n f })
def Part.modEp (p : Part) (f : EpSt → EpSt) : Part := p.modPci (fun s => { s with ep := f s.ep })
def Part.linkOf (p : Part) (d : Nat) : LinkSt := p.sys.dvt.link.get LinkSt.reset d
def Part.modLink (p : Part) (d : Nat) (f : LinkSt → LinkSt) : Part :=
  p.modDvt (fun s => { s with link := s.link.upd LinkSt.reset d f })
def Part.queueOf (p : Part) (q : Nat) : QueueSt := p.pkt.q.get QueueSt.reset q
def Part.modQueue (p : Part) (q : Nat) (f : QueueSt → QueueSt) : Part :=
  p.modPkt (fun s => { s with q := s.q.upd QueueSt.reset q f })
def Part.slotOf (p : Part) (k : Nat) : SlotSt := p.key.slot.get SlotSt.reset k
def Part.modSlot (p : Part) (k : Nat) (f : SlotSt → SlotSt) : Part :=
  p.modKey (fun s => { s with slot := s.slot.upd SlotSt.reset k f })
def Part.instOf (p : Part) (i : Nat) : VenSt := p.ven.inst.get VenSt.reset i
def Part.modInst (p : Part) (i : Nat) (f : VenSt → VenSt) : Part :=
  p.modVen (fun s => { s with inst := s.inst.upd VenSt.reset i f })

def Part.modFab (p : Part) (f : FabSt → FabSt) : Part := { p with fab := f p.fab }
def Part.tileFab (p : Part) (t : Nat) : TileFab := p.fab.tile.get TileFab.reset t
def Part.modTileFab (p : Part) (t : Nat) (f : TileFab → TileFab) : Part :=
  p.modFab (fun s => { s with tile := s.tile.upd TileFab.reset t f })

/-- Send a message: it gets its number and waits at its sender's local input. -/
def Part.send (p : Part) (m : Msg) : Part :=
  { p with net := p.net ++ [{ m with id := p.fab.next }], fab := { p.fab with next := p.fab.next + 1 } }

/-- A message of a transaction that is complete already: it crosses the torus and has no further effect. -/
def Part.passed (p : Part) (m : Msg) : Part :=
  p.modFab (fun s => { s with pass := s.pass ++ [{ m with id := s.next }], next := s.next + 1 })

/-- TIME counts `ns` nanoseconds, but for those for which it is held still (R369); without REFCLK it stops
(R487), and it reads zero until RSTIN_N rises (R369). -/
def Part.advance (p : Part) (ns : Nat) : Part :=
  if p.sys.pwr.refLoss ∨ p.sys.boot = .off then p
  else
  let h := min p.sys.dvt.still ns
  { p with time := p.time + (ns - h), sys := { p.sys with dvt := { p.sys.dvt with still := p.sys.dvt.still - h } } }

/-- This socket's ID: the voted value (R344, R547). -/
def Part.sktId (p : Part) : Nat := p.rg F.PAL_SKT_SKTID
/-- Sockets enumerated; 1 until enumeration has completed (R344). -/
def Part.sktCnt (p : Part) : Nat := max 1 (p.rg F.PAL_SKT_SKTCNT)

/-- A physical core is in service: its bit of PAL_CORE_MAP (R24, R29). -/
def Part.coreInSvc (p : Part) (n : Nat) : Bool :=
  decide (n < nCores) && (p.rg F.PAL_CORE_MAP_INSVC 0 (n / 32)).testBit (n % 32)
/-- A slice is in service: its bit of PAL_SLICE_MAP (R24, R230). -/
def Part.sliceInSvc (p : Part) (k : Nat) : Bool :=
  decide (k < nSlices) && (p.rg F.PAL_SLICE_MAP_INSVC 0 (k / 32)).testBit (k % 32)
/-- A memory tile is present (R27). -/
def Part.memTilePresent (p : Part) (i : Nat) : Bool := (p.rg F.PAL_UNITS_MTILE).testBit i

/-- The target of a device access (R18, R20, R378): the tile that holds the address. -/
def Part.devDst (p : Part) (pa : Nat) : Agent :=
  match regionOf pa with
  | .ctl s o => ⟨s, o / 2 ^ 24, 0⟩
  | .pcieWin => ⟨(aperture pa).1, tileOfGroup (aperture pa).2, (aperture pa).2 % 4⟩
  | .loc o => ⟨p.sktId, o / 2 ^ 24, 0⟩
  | _ => ⟨p.sktId, tileD, 0⟩

/-- Address of a register pair LO, HI with shifts. -/
def Part.addrOf (p : Part) (lo hi : Fld) (u : Nat := 0) : Nat :=
  p.rg lo u * 2 ^ lo.lo + p.rg hi u * 2 ^ 32

end Sys2Proof.Machine
end

