-- ==== Sys2Proof/Machine/Ras.lean ====
section
/-!
DEFINITION. The RAS_ log of a tile, the Easel log, window counters and declarations, and the signals
that units send as IPIs (R159, R513 to R519, R584, R585).
-/
namespace Sys2Proof.Machine

/-- An IPI message (R158, R159): `op` the vector, `aux` the target 2 × core + thread, `bc` set when a
unit sends it on its own behalf, `sz` the sender's level, `plb` its V, `txid` the sender's store
number that must have been performed. -/
def ipiMsg (src : Agent) (skt target vec : Nat) (unit : Bool) (level : Nat) (v : Bool) (vmid : Nat)
    (after : Nat) : Msg :=
  { Msg.blank with opc := .ipi, src := src, dst := ⟨skt, tileOfCore (target / 2), 0⟩, op := vec,
                   aux := target, bc := unit, sz := level, plb := v, vmid := vmid, txid := after }

/-- A unit of `tile` signals the target named by an interrupt register, as an IPI (R159). -/
def Part.signal (p : Part) (tile init skt core thread vec : Nat) : Part :=
  p.send (ipiMsg ⟨p.sktId, tile, init⟩ skt (2 * core + thread) vec true 0 false 0 0)

/-- Signal through a register with fields EN, SOCKET, CORE, THREAD and VEC, if EN = 1. -/
def Part.signalReg (p : Part) (tile init : Nat) (en skt core thread vec : Fld) (u : Nat := 0) : Part :=
  if p.rgOn en u then p.signal tile init (p.rg skt u) (p.rg core u) (p.rg thread u) (p.rg vec u) else p

/-- Set an EAS_EVT bit; a change from 0 to 1 is signalled through EAS_IRQ (R506). -/
def Part.easEvent (p : Part) (f : Fld) : Part :=
  if p.rgOn f then p
  else (p.setRg f 1).signalReg tileD 4 F.EAS_IRQ_EN F.EAS_IRQ_SOCKET F.EAS_IRQ_CORE F.EAS_IRQ_THREAD
    F.EAS_IRQ_VEC

/-- Append an entry to the Easel log, numbered by EAS_LOGSEQ; the last 1,024 are kept (R506, R585). -/
def Part.easelAdd (p : Part) (tile : Nat) (e : RasEnt) : Part :=
  let n := (p.rg F.EAS_LOGSEQ_SEQ + 1) % 2 ^ 32
  (({ p with elog := ((tile, { e with seq := n }) :: p.elog).take 1024 }).setRg F.EAS_LOGSEQ_SEQ n).easEvent
    F.EAS_EVT_LOG

/-- Easel's own log event `code` (R585): SRC 0xFF, KIND 13, INIT 0xFF. -/
def Part.easelLog (p : Part) (code sev addr info : Nat) : Part :=
  p.easelAdd 0xFF { time := p.time, seq := 0, src := 0xFF, kind := 13, sev := sev, init := 0xFF, addr := addr,
                    info := code + info, read := false }

/-- The initiator in whose name a tile's own registers send an IPI. DESIGN CHOICE (notes/assumptions/24.md): R277 gives the RAS_ and
PERF_ pages none: the slice and home of a core tile, Easel of tile D, else initiator 0. -/
def pageInit (tile : Nat) : Nat := if (coreOrd tile).isSome ∨ tile = tileD then 4 else 0

/-- Set a severity bit of RAS_STAT; a change from 0 to 1 is signalled under RAS_IRQ (R537). -/
def Part.rasStat (p : Part) (tile : Nat) (f : Fld) : Part :=
  if p.rgOn f tile then p
  else
    let q := p.setRg f 1 tile
    if f = F.RAS_STAT_CORR ∧ ¬ q.rgOn F.RAS_IRQ_CORRIE tile then q
    else q.signalReg tile (pageInit tile) F.RAS_IRQ_EN F.RAS_IRQ_SOCKET F.RAS_IRQ_CORE F.RAS_IRQ_THREAD F.RAS_IRQ_VEC tile

/-- INFO of a log entry (R514): as a rule gives it; a rule says what it names and not how; or no rule says
anything, an open value each time (notes/assumptions/44.md). -/
inductive LogInfo where
  | fixed (n : Nat)
  | named (l : List Nat)
  | unstated
  deriving DecidableEq, Repr

def LogInfo.value (i : LogInfo) (p : Part) : Nat :=
  match i with
  | .fixed n => n
  | .named l => Config.logInfo l
  | .unstated => p.freshNat

/-- Put one entry into the RAS_ log of a tile (R514): the oldest of 16 is overwritten, LOGOVF is set
when it had not been read, and contained and machine-check entries are copied to the Easel log. -/
def Part.rasPut (p : Part) (tile src kind sev init addr : Nat) (info : LogInfo) : Part :=
  let n := (p.rg F.RAS_LOGSEQ_SEQ tile + 1) % 2 ^ 32
  let e : RasEnt := { time := p.time, seq := n, src := src, kind := kind, sev := sev, init := init,
                      addr := addr, info := info.value p % 2 ^ 56, read := false }
  let old := (p.rasOf tile).log
  let lost := (old.drop 15).any (fun x => !x.read)
  let q := (p.modRas tile (fun r => { r with log := (e :: r.log).take 16 })).setRg F.RAS_LOGSEQ_SEQ n tile
  let q := if info = .unstated then q.used else q
  let q := if lost then q.setRg F.RAS_STAT_LOGOVF 1 tile else q
  let q := if sev ≥ 2 then q.easelAdd tile e else q
  match sev with
  | 1 => q.rasStat tile F.RAS_STAT_CORR
  | 2 => q.rasStat tile F.RAS_STAT_UNC
  | 3 => q.rasStat tile F.RAS_STAT_MCE
  | _ => q

/-- Length of a window in nanoseconds (R516); codes 21 to 31 as 20. -/
def windowNs (w : Nat) : Nat :=
  match w with
  | 0 => 1000000 | 1 => 2000000 | 2 => 5000000 | 3 => 10000000 | 4 => 20000000 | 5 => 50000000
  | 6 => 100000000 | 7 => 200000000 | 8 => 500000000 | 9 => 1000000000 | 10 => 2000000000
  | 11 => 5000000000 | 12 => 10000000000 | 13 => 20000000000 | 14 => 50000000000 | 15 => 100000000000
  | 16 => 200000000000 | 17 => 500000000000 | 18 => 1000000000000 | 19 => 2000000000000
  | _ => 3600000000000

/-- Count one event of source `s` in its window and declare a lasting fault at N (R515, R518). `unit`
and `detail` name what an escalation action acts on. -/
def Part.windowEvent (p : Part) (tile s unit detail : Nat) : Part :=
  match srcDefault (tileKind tile) s with
  | none => p
  | some _ =>
    let p := (p.count F.RAS_ECNT_COUNT F.RAS_STAT_OVF tile s)
    if ¬ p.rgOn F.RAS_WCFG_EN tile s then p
    else
      let n := max 1 (p.rg F.RAS_WCFG_N tile s)
      let isOpen := decide (p.time < (p.rasOf tile).win.get 0 s)
      let c := if isOpen then p.rg F.RAS_WCNT_COUNT tile s + 1 else 1
      if c ≥ n then
        let p := (p.modRas tile (fun r => { r with win := r.win.del s })).setRg F.RAS_WCNT_COUNT 0 tile s
        let p := p.count F.RAS_WCNT_LASTING F.RAS_STAT_OVF tile s
        let p := (p.rasPut tile s 4 0 0xFF 0 .unstated).rasStat tile F.RAS_STAT_LASTING
        let act := p.rg F.RAS_WCFG_ACT tile s
        if act = 0 then p
        else (p.modRas tile (fun r => { r with acts := r.acts ++ [⟨s, act, unit, detail⟩] })).setRg
          F.RAS_WCNT_PEND 1 tile s
      else
        let e := if isOpen then (p.rasOf tile).win.get 0 s
                 else p.time + windowNs (p.rg F.RAS_WCFG_W tile s)
        (p.modRas tile (fun r => { r with win := r.win.put s e })).setRg F.RAS_WCNT_COUNT c tile s

/-- Write a log entry of the tile (R514, R584); entries of SEV 2 and 3 count in source 13 (R517). -/
def Part.rasLog (p : Part) (tile src kind sev init addr : Nat) (info : LogInfo) : Part :=
  let q := p.rasPut tile src kind sev init addr info
  if sev = 2 ∨ sev = 3 then q.windowEvent tile 13 tile 0 else q

/-- An event counted by window-counter source `s`: one entry with SRC = s, and the count (R515, R584). -/
def Part.rasCount (p : Part) (tile s kind sev init addr : Nat) (info : LogInfo) (unit detail : Nat) : Part :=
  (p.rasLog tile s kind sev init addr info).windowEvent tile s unit detail

/-- Record an unassigned access in the initiator's tile (R19): type as RAS_UNMAP_INFO.TYPE. -/
def Part.logUnmapped (p : Part) (tile init ty addr : Nat) : Part :=
  let c := if p.rgOn F.RAS_UNMAP_INFO_VALID tile then min (p.rg F.RAS_UNMAP_INFO_COUNT tile + 1) 32767 else 1
  let p := (p.setRg F.RAS_UNMAP_LO_ADDR addr tile).setRg F.RAS_UNMAP_HI_ADDR (addr / 2 ^ 32) tile
  let p := ((p.setRg F.RAS_UNMAP_INFO_VALID 1 tile).setRg F.RAS_UNMAP_INFO_COUNT c tile)
  let p := (p.setRg F.RAS_UNMAP_INFO_INIT init tile).setRg F.RAS_UNMAP_INFO_TYPE ty tile
  p.rasLog tile 0xFF 7 0 init addr .unstated

/-- The tile of a thread. -/
def tileOfThread (t : Nat) : Nat := tileOfCore (t / 2)
/-- INIT of a thread within its tile (R277). -/
def initOfThread (t : Nat) : Nat := t % 4

/-- The records of a MACHINE_CHECK of thread `t` (R513): an entry of the tile's log and of the Easel
log, its number in RAS_MCSEQ, and the VALID bit. INIT names the thread that the cause concerns, 0xFF for a
socket-wide cause (R514). -/
def Part.mceRecord (p : Part) (tile t init : Nat) (info : LogInfo) : Part :=
  let p := p.rasLog tile 0xFF 3 3 init 0 info
  let n := p.rg F.EAS_LOGSEQ_SEQ
  let rt := tileOfCore (t / 2)
  let p := p.setRg F.RAS_MCSEQ_SEQ n rt (t % 4)
  p.setRg F.RAS_MCSTAT_VALID (p.rg F.RAS_MCSTAT_VALID rt ||| 2 ^ (t % 4)) rt

/-- A MACHINE_CHECK that no retiring instruction consumes becomes pending for thread `t` (R145, R512). -/
def Part.machineCheck (p : Part) (tile t init : Nat) (info : LogInfo) : Part :=
  let p := p.mceRecord tile t init info
  p.modThread t (fun th => { th with mce := th.mce ++ [p.rg F.EAS_LOGSEQ_SEQ] })

/-- The thread that takes socket-wide MACHINE_CHECKs: thread 0 of the lowest-numbered core in service
(R512). -/
def Part.socketThread (p : Part) : Nat :=
  2 * (((List.range nCores).find? p.coreInSvc).getD 0)

/-- A socket-wide MACHINE_CHECK (R512). -/
def Part.socketCheck (p : Part) (tile : Nat) (what : List Nat) : Part := p.machineCheck tile p.socketThread 0xFF (.named what)

end Sys2Proof.Machine
end

