-- ==== Sys2Proof/Machine/Perf.lean ====
section
/-!
DEFINITION. The tile counters (R553 to R557): counting an event of a block.
-/
namespace Sys2Proof.Machine

/-- Counter `c` of a tile, 48 bits. -/
def Part.perfVal (p : Part) (tile c : Nat) : Nat :=
  p.rg F.PERF_CTR_LO_COUNT tile c + p.rg F.PERF_CTR_HI_COUNT tile c * 2 ^ 32

def Part.perfSet (p : Part) (tile c v : Nat) : Part :=
  (p.setRg F.PERF_CTR_LO_COUNT v tile c).setRg F.PERF_CTR_HI_COUNT (v / 2 ^ 32) tile c

/-- Counters run in a tile: PERF_CTL.RUN, that is PERF_GCTL.RUN in force and FREEZE = 0 (R559). -/
def Part.perfRun (p : Part) (tile : Nat) : Bool :=
  p.rgOn F.PERF_GCTL_RUN && !p.rgOn F.PERF_CTL_FREEZE tile

/-- Counter `c` counts `n` events; a wrap sets its PERF_OVF bit and may signal (R557). -/
def Part.perfAdd (p : Part) (tile c n : Nat) : Part :=
  let v := p.perfVal tile c + n
  let q := p.perfSet tile c (v % 2 ^ 48)
  if v < 2 ^ 48 then q
  else
    let q := q.setRg F.PERF_OVF_OVF (q.rg F.PERF_OVF_OVF tile ||| 2 ^ c) tile
    if q.rgOn F.PERF_CFG_OVFIE tile c then
      q.signalReg tile (pageInit tile) F.PERF_IRQ_EN F.PERF_IRQ_SOCKET F.PERF_IRQ_CORE F.PERF_IRQ_THREAD F.PERF_IRQ_VEC tile
    else q

/-- `n` events `evt` of the block whose counters are `first` to `first + cnt - 1` (R554 to R556).
`vmid` is the attributed VMID, `none` for an event without one; `level` the thread's level for a core
event. -/
def Part.perfEvent (p : Part) (tile first cnt evt n : Nat) (vmid : Option Nat) (level : Option Level) : Part :=
  if ¬ p.perfRun tile then p
  else (List.range cnt).foldl (fun q j =>
    let c := first + j
    let lv := match level with
      | some l => (q.rg F.PERF_CFG_LVMASK tile c).testBit l.code
      | none => true
    let vm := !q.rgOn F.PERF_CFG_VMF tile c || decide (vmid = some (q.rg F.PERF_CFG_VMID tile c))
    if q.rgOn F.PERF_CFG_EN tile c && decide (q.rg F.PERF_CFG_EVT tile c = evt) && vm && lv then
      q.perfAdd tile c n
    else q) p

/-- A port carries `n` bytes in a direction: the enabled monitors of the port count them (R562). -/
def Part.bwCount (p : Part) (kind dir index sub n : Nat) : Part :=
  let on (b : Nat) : Bool := p.rgOn F.PERF_BWSEL_EN 0 b && decide (p.rg F.PERF_BWSEL_KIND 0 b = kind)
    && decide (p.rg F.PERF_BWSEL_INDEX 0 b = index) && (decide (kind = 0) || decide (p.rg F.PERF_BWSEL_DIR 0 b = dir))
    && ((decide (kind ≠ 0) && decide (kind ≠ 5)) || decide (p.rg F.PERF_BWSEL_SUB 0 b = sub))
  p.modGperf (fun s => { s with bw := s.bw.map (fun e => if on e.1 then (e.1, (e.2.1, e.2.2.1 + n, e.2.2.2)) else e) })

/-- The clock of the island that counter `c` of tile `t` counts cycles of with code 0, in steps of 25 MHz (R16, R482, R554); 0 for
a core, which counts its own, and for a block that is off. -/
def Part.islandClock (p : Part) (t c : Nat) : Nat :=
  let dom (n : Nat) (f : Nat) : Nat := if (p.rg F.PWR_BSTAT_ON).testBit n then f else 0
  let unc := p.rg F.CLK_UNC_FEFF t
  match tileKind t with
  | .core => if c < 16 then 0 else if c < 20 ∧ ¬ p.rgOn F.PWR_UNCON_ON t then 0 else unc
  | .mem => if c < 16 then match memIndex t with
      | some i => dom (2 * i + c / 8) (p.rg F.MC_STAT_SPEED (2 * i + c / 8) / 2)
      | none => 0
    else unc
  | .pcie =>
    let g := (if t = tileP0 then 0 else 4) + c / 4
    if c < 16 then (if p.rgOn F.PCI_GRP_STAT_INRESET g then 0 else dom (16 + g) 40) else unc
  | .net =>
    if c < 8 ∨ (12 ≤ c ∧ c < 20) then (if p.rgOn F.NET_STAT_INRESET then 0 else unc)
    else if c < 12 then dom 24 48 else unc
  | .dvt => unc

/-- Counters with code 0 add the cycles of their islands up to TIME (R555, R556). -/
def Part.perfCycles (p : Part) : Part :=
  let t0 := p.sys.gperf.cyc
  let page (k : Nat) : Bool := decide (k / 8192 % 4096 = 4)
  let ts := (p.ctl.filterMap (fun e => if page e.1 then some (e.1 / 8192 / 4096) else none)).eraseDups
  ts.foldl (fun (r : Part) (t : Nat) => (List.range 24).foldl (fun (s : Part) (c : Nat) =>
    let f := s.islandClock t c
    let n := p.time * f / 40 - t0 * f / 40
    if n = 0 ∨ ¬ s.rgOn F.PERF_CFG_EN t c then s else s.perfEvent t c 1 0 n none none) r)
    (p.modGperf (fun s => { s with cyc := max s.cyc p.time }))

/-- The events that lie below the model's grain (DESIGN CHOICE, notes/assumptions/42.md): fetch cycles lost, page hits, bank
conflicts, cycles with the read queue full or FULL, and replayed TLPs; with whether each carries a VMID (R555). -/
def fineEvent (t c evt : Nat) : Option Bool :=
  match tileKind t with
  | .core => if c < 16 ∧ evt = 2 then some true else none
  | .mem => if c < 16 then (if evt = 3 ∨ evt = 4 then some true else if evt = 7 then some false else none)
    else if c < 20 ∧ evt = 3 then some false else none
  | .pcie => if c < 16 ∧ evt = 3 then some false else none
  | _ => none

/-- A counter of such events advances by an open amount when it is read. -/
def Part.fineStep (p : Part) (t c : Nat) : Part :=
  match fineEvent t c (p.rg F.PERF_CFG_EVT t c) with
  | some vm =>
    if p.perfRun t && p.rgOn F.PERF_CFG_EN t c && (vm || !p.rgOn F.PERF_CFG_VMF t c) then p.used.perfAdd t c p.freshNat else p
  | none => p

end Sys2Proof.Machine
end

