-- ==== Sys2Proof/Machine/Fabric.lean ====
section
/-!
DEFINITION. The Chaob torus (R246 to R281): messages as flits, routing and virtual channels, links with their sideband and
replay, router outputs with their arbiters and Stencil slots, injection and ejection with the statistics. A command takes a
message only once it lies with its destination's agents.
-/
namespace Sys2Proof.Machine

/-! ### Messages as flits (R246, R251, R252, R287, R288) -/

/-- An agent as a number, for messages that name a third agent. -/
def Agent.code (a : Agent) : Nat := a.skt * 2 ^ 16 + a.tile * 2 ^ 4 + a.init
def agentOf (n : Nat) : Agent := ⟨n / 2 ^ 16, n / 2 ^ 4 % 2 ^ 12, n % 16⟩
/-- Is an operation code of the response class, the snoop class? (R287) -/
def Opc.cls : Opc → Nat
  | .rds => 0 | .rdo => 0 | .upg => 0 | .own => 0 | .rdna => 0 | .wrna => 0 | .wrnap => 0 | .wbm => 0 | .wbc => 0
  | .amof => 0 | .pwt => 0 | .cmoc => 0 | .cmof => 0 | .cmoi => 0 | .cmoii => 0 | .drd => 0 | .dwr => 0 | .mrd => 0
  | .mwr => 0 | .mpwt => 0
  | .snps => 1 | .snpo => 1 | .snpi => 1 | .snpna => 1 | .snpc => 1 | .snpf => 1 | .snpii => 1 | .snpbi => 1
  | .tinv => 1 | .ipi => 1
  | _ => 2

/-- The slots of a message on a link (R352). -/
def Msg.slots (m : Msg) : Nat :=
  match m.opc with
  | .wrna => 5 | .wbm => 5 | .wbc => if m.mask = 0 then 1 else 5
  | .wrnap => 6 | .pwt => 6 | .dwr => 6 | .mwr => 5 | .mpwt => 6
  | .amof => if m.sz = 4 then 3 else 2
  | .mrd => 2 | .tinv => 2 | .ipi => 2
  | .ds => 5 | .de => 5 | .dm => 5 | .dna => 5 | .sdat => 5 | .amor => 5 | .drdr => 5
  | _ => 1

/-- Every store that thread `t` issued before number `n` has been performed (R158): none is left in its buffers, a held
persistent one among them, and no write to a device is on its way. -/
def Part.storesDone (p : Part) (t n : Nat) : Bool :=
  let mine (e : MbEnt) : Bool := decide (e.thread = t % 2) && decide (e.seq < n)
  !(p.coreOf (t / 2)).mb.any mine && !(p.coreOf (t / 2)).sq.any mine
    && !p.net.any (fun m => decide (m.opc = .dwr) && decide (m.aux = t) && decide (m.txid < n)
          && decide (m.src = ⟨p.sktId, tileOfThread t, initOfThread t⟩))

/-- The IPI message is a thread's of this socket. -/
def Part.ipiOwn (p : Part) (m : Msg) : Bool := !m.bc && decide (m.src.skt = p.sktId)

/-- An IPI goes only after what R158 and R159 put before it: a thread's stores, and its earlier IPIs accepted or rejected; of
a unit, the writes that it posted. One that has come from another socket waits for nothing here. -/
def Part.ipiReady (p : Part) (m : Msg) : Bool :=
  if m.src.skt ≠ p.sktId then true
  else if m.bc then !p.pci.iow.any (fun w => decide (w.agent.tile = m.src.tile) && decide (w.agent.skt = m.src.skt))
  else p.storesDone m.addr m.txid && decide ((p.thread m.addr).ipis = 0)
    && decide (p.net.find? (fun x => decide (x.opc = .ipi) && p.ipiOwn x && decide (x.addr = m.addr)) = some m)

/-- Remove the first message that `sel` selects: it and the state without it. -/
def takeMsg (sel : Msg → Bool) : List Msg → Option (Msg × List Msg)
  | [] => none
  | m :: r => if sel m then some (m, r) else (takeMsg sel r).map (fun x => (x.1, m :: x.2))


/-- OPC (R287). -/
def Opc.num : Opc → Nat
  | .rds => 0x01 | .rdo => 0x02 | .upg => 0x03 | .own => 0x04 | .rdna => 0x05 | .wrna => 0x06 | .wrnap => 0x07 | .wbm => 0x08
  | .wbc => 0x09 | .amof => 0x0A | .pwt => 0x0B | .cmoc => 0x0C | .cmof => 0x0D | .cmoi => 0x0E | .cmoii => 0x0F
  | .drd => 0x10 | .dwr => 0x11 | .mrd => 0x18 | .mwr => 0x19 | .mpwt => 0x1A
  | .snps => 0x20 | .snpo => 0x21 | .snpi => 0x22 | .snpna => 0x23 | .snpc => 0x24 | .snpf => 0x25 | .snpii => 0x26
  | .snpbi => 0x27 | .tinv => 0x28 | .ipi => 0x29
  | .ds => 0x40 | .de => 0x41 | .dm => 0x42 | .dna => 0x43 | .gnt => 0x44 | .acki => 0x45 | .acks => 0x46 | .acko => 0x47
  | .acke => 0x48 | .sdat => 0x49 | .cack => 0x4A | .cmp => 0x4B | .amor => 0x4C | .pack => 0x4D | .vis => 0x4E | .drdr => 0x4F

/-- DATA of the header, or payload flits after it. -/
def Msg.carries (m : Msg) : Bool := decide (m.slots > 1)
/-- How many flits a message has (R246). -/
def Msg.flits (m : Msg) : Nat := if m.opc.cls < 2 then m.slots else 1
/-- Response-class messages that may travel in the guaranteed class (R287). -/
def Opc.bindable : Opc → Bool
  | .ds => true | .de => true | .dm => true | .dna => true | .drdr => true | _ => false
/-- TINV and IPI: they are sunk into a queue of their own (R287). -/
def Opc.queued : Opc → Bool
  | .tinv => true | .ipi => true | _ => false
/-- Coherence snoops, which alone have a BC (R288). -/
def Opc.snoops (o : Opc) : Bool := decide (o.cls = 1) && !o.queued
/-- Device and control-window accesses. -/
def Opc.device : Opc → Bool
  | .drd => true | .dwr => true | _ => false

/-- The tile of this torus at which a message enters it, and the one at which it leaves (R248): tile D for another socket. -/
def Part.fabSrc (p : Part) (m : Msg) : Nat := if m.src.skt = p.sktId then m.src.tile % 144 else tileD
def Part.fabDst (p : Part) (m : Msg) : Nat := if m.dst.skt = p.sktId then m.dst.tile % 144 else tileD
/-- It crosses this torus: one between two other sockets stays in tile D (R360). -/
def Part.crosses (p : Part) (m : Msg) : Bool := decide (m.src.skt = p.sktId) || decide (m.dst.skt = p.sktId)

/-- SKT of a header. -/
def Part.hdrSkt (p : Part) (m : Msg) : Nat := if m.dst.skt ≠ p.sktId then m.dst.skt else m.src.skt

/-- ATTR (R288). SZ is that of accesses whose size varies (DESIGN CHOICE, notes/assumptions/46.md). -/
def Msg.attr (m : Msg) : BitVec 15 :=
  BitVec.ofNat 4 (if m.opc = .amof ∨ m.opc.device then m.op else 0)
    ++ BitVec.ofNat 3 (if m.opc = .amof ∨ m.opc.device then m.sz else 0)
    ++ BitVec.ofBool m.pers ++ BitVec.ofBool (m.plb && !m.opc.queued) ++ BitVec.ofBool (m.hint && decide (m.opc = .amof))
    ++ BitVec.ofBool (m.bc && m.opc.snoops) ++ (0 : BitVec 2) ++ BitVec.ofNat 2 m.chunk

/-- The header of a request-plane packet (R251). -/
def Part.hdrReq (p : Part) (m : Msg) : BitVec 128 :=
  BitVec.ofNat 8 m.dst.tile ++ BitVec.ofNat 8 m.src.tile ++ BitVec.ofNat 4 (p.hdrSkt m)
    ++ BitVec.ofNat 1 m.opc.cls ++ BitVec.ofNat 3 m.src.init ++ BitVec.ofNat 7 m.opc.num
    ++ BitVec.ofNat 12 m.txid ++ BitVec.ofNat 3 (m.slots - 1) ++ BitVec.ofNat 3 m.part
    ++ BitVec.ofNat 12 m.vmid ++ m.attr ++ BitVec.ofNat 52 m.addr

/-- The header of a data-plane flit (R252). -/
def Part.hdrData (p : Part) (m : Msg) (f : Flit) : BitVec 64 :=
  BitVec.ofNat 8 m.dst.tile ++ BitVec.ofNat 8 m.src.tile ++ BitVec.ofNat 4 (p.hdrSkt m)
    ++ BitVec.ofBool (decide (f.cls = 3)) ++ BitVec.ofNat 3 m.src.init ++ BitVec.ofNat 7 m.opc.num
    ++ BitVec.ofNat 12 m.txid ++ BitVec.ofNat 10 f.gfid ++ BitVec.ofNat 2 m.status
    ++ BitVec.ofBool m.carries ++ BitVec.ofBool f.slip ++ BitVec.ofBool (m.hint && decide (m.opc = .amor)) ++ (0 : BitVec 6)

/-- The bytes of a line that a mask selects, the others zero. -/
def maskedLine (d : Vec) (m : Dword) : Vec := mergeVec 0 d m
/-- The four 16-byte pieces of a line. -/
def lineFlits (d : Vec) : List (BitVec 128) := (List.range 4).map (fun j => d.extractLsb' (128 * j) 128)

/-- The payload flits of a request-plane packet (R288). -/
def Msg.payload (m : Msg) : List (BitVec 128) :=
  match m.opc with
  | .wrna => lineFlits m.data | .wbm => lineFlits m.data | .mwr => lineFlits m.data
  | .wbc => if m.carries then lineFlits m.data else []
  | .wrnap => m.mask.setWidth 128 :: lineFlits (maskedLine m.data m.mask)
  | .pwt => m.mask.setWidth 128 :: lineFlits (maskedLine m.data m.mask)
  | .dwr => m.mask.setWidth 128 :: lineFlits (maskedLine m.data m.mask)
  | .mpwt => m.mask.setWidth 128 :: lineFlits (maskedLine m.data m.mask)
  | .amof =>
    if m.sz = 4 then [BitVec.ofNat 128 m.aux, m.data.setWidth 128]
    else [BitVec.ofNat 64 m.aux ++ m.data.setWidth 64]
  | .mrd =>
    let a := agentOf m.aux
    [BitVec.ofNat 128 (a.tile + a.skt * 2 ^ 8 + a.init * 2 ^ 12 + m.txid % 2 ^ 12 * 2 ^ 15 + m.op * 2 ^ 27 + m.hint.toNat * 2 ^ 29)]
  | .tinv => [BitVec.ofNat 128 (m.addr % 2 ^ 64 + m.aux % 2 ^ 16 * 2 ^ 64 + m.op * 2 ^ 80)]
  | .ipi => [BitVec.ofNat 128 (m.op % 2 ^ 10 + m.aux % 2 * 2 ^ 10 + m.aux / 2 % 2 ^ 9 * 2 ^ 11 + m.dst.skt * 2 ^ 20)]
  | _ => []

/-- The bits of a vector, the most significant first. -/
def bitList {w : Nat} (v : BitVec w) : List Bool := (List.range w).map (fun i => v.getLsbD (w - 1 - i))

/-- The bits of a flit, header first: those of its message's header, payload flit or line. -/
def Part.flitBits (p : Part) (f : Flit) : List Bool :=
  match (p.net ++ p.fab.pass).find? (fun m => m.id = f.id) with
  | none => []
  | some m =>
    if f.cls ≥ 2 then bitList (p.hdrData m f) ++ bitList m.data
    else if f.k = 0 then bitList (p.hdrReq m) else bitList (m.payload.getD (f.k - 1) 0)

/-- CRC-16 of a link: polynomial 0x1021, initial value 0xFFFF (R253). -/
def crc16 (l : List Bool) : BitVec 16 :=
  l.foldl (fun (c : BitVec 16) (b : Bool) => if c.getLsbD 15 != b then (c <<< 1) ^^^ 0x1021 else c <<< 1) 0xFFFF

/-- The poison bits of a flit: one for a request-plane flit, four for a line (R253). -/
def Part.flitPois (p : Part) (f : Flit) : List Bool :=
  match (p.net ++ p.fab.pass).find? (fun m => m.id = f.id) with
  | none => []
  | some m =>
    if f.cls ≥ 2 then bitList m.pois
    else [decide (f.k > 0) && decide (m.slots ≥ 5) && m.pois.getLsbD (f.k - (m.slots - 4))]

/-- What a link carries with a flit, but for the CRC: VC, HEAD and TAIL, POISON and the sequence number, after the flit. -/
def Part.linkBits (p : Part) (f : Flit) (up : Bool) (seq : Nat) : List Bool :=
  p.flitBits f ++ [decide (f.cls % 2 = 1), up] ++ (if f.cls < 2 then [decide (f.k = 0), decide (f.k + 1 = f.n)] else [])
    ++ p.flitPois f ++ bitList (BitVec.ofNat 5 seq)
/-- The CRC-16 that the sending router generates (R253). The order of the bits is DESIGN CHOICE (notes/assumptions/46.md). -/
def Part.linkCrc (p : Part) (f : Flit) (up : Bool) (seq : Nat) : BitVec 16 := crc16 (p.linkBits f up seq)
/-- The parity of a crossing's entry (R255). -/
def Part.wireParity (p : Part) (w : Wire) : Bool := (p.linkBits w.flit w.up w.seq ++ bitList w.crc).foldl xor false

/-! ### Messages waiting, under way and arrived -/

/-- Take a message that lies with its agents out of the torus; one that is still under way crosses it to no further effect. -/
def TileFab.without (x : TileFab) (id : Nat) : TileFab := { x with eject := x.eject.filter (fun h => h.flit.id ≠ id) }

/-- The message has arrived whole (R246): with the agents that took it at once, or in their buffers. -/
def Part.landed (p : Part) (m : Msg) : Bool :=
  p.fab.here.contains m.id
    || (let l := (p.tileFab (p.fabDst m)).eject.filter (fun h => h.flit.id = m.id)
        !l.isEmpty && decide (l.length = m.flits))

/-- A message is no longer in flight for the model: its flits leave the buffers, or go on without effect. -/
def Part.fabTake (p : Part) (m : Msg) : Part :=
  if p.landed m then
    (p.modFab (fun s => { s with here := s.here.filter (· ≠ m.id), out := s.out.del m.id, link := s.link.del m.id })).modTileFab
      (p.fabDst m) (fun x => x.without m.id)
  else if p.fab.out.get 0 m.id = 0 then p
  else p.modFab (fun s => { s with pass := s.pass ++ [m] })

/-- Take a message out of flight. -/
def Part.takeOut (p : Part) (m : Msg) : Part := ({ p with net := p.net.erase m } : Part).fabTake m

/-- A message that is where it is going already: one that waits there from an agent outside the part's state. -/
def Part.sendHere (p : Part) (m : Msg) : Part :=
  { p with net := p.net ++ [{ m with id := p.fab.next }],
           fab := { p.fab with next := p.fab.next + 1, here := p.fab.here ++ [p.fab.next] } }

/-- The same message, as a command names it: equal in code, sender, number, line and destination (notes/assumptions/24.md). -/
def Msg.same (a b : Msg) : Bool :=
  decide (a.opc = b.opc) && decide (a.src = b.src) && decide (a.txid = b.txid) && decide (a.addr / 64 = b.addr / 64)
    && decide (a.dst = b.dst)

/-- The flow that a message is bound to at its source tile (R268): the lowest binding that matches. One for another socket has
tile D as its destination here, and leaves the flow there (R264, R352). -/
def Part.flowOf (p : Part) (m : Msg) : Option Nat :=
  let t := p.fabSrc m
  if m.opc.bindable ∧ m.src.skt = p.sktId then
    ((List.range 8).find? (fun n => p.rgOn F.FAB_GFLOW_A_V t n && decide (p.rg F.FAB_GFLOW_A_DST t n = p.fabDst m)
      && (p.rg F.FAB_GFLOW_B_INITMASK t n).testBit m.src.init)).map (fun n => p.rg F.FAB_GFLOW_A_GFID t n)
  else none

/-- `a` arrives before `b` (R250): the same class, sender and destination tile, and sent before it. TINV and IPI have queues of
their own, and a guaranteed flow an order of its own. -/
def Part.goesBefore (p : Part) (a b : Msg) : Bool :=
  decide (a.id < b.id) && decide (a.src = b.src) && decide (p.fabDst a = p.fabDst b) && decide (a.opc.cls = b.opc.cls)
    && decide (a.opc.queued = b.opc.queued) && decide (p.flowOf a = p.flowOf b)

/-- The message that a command names is in flight and has not arrived, or one that goes before it has not been taken. -/
def Part.underway (p : Part) (q : Msg) : Bool :=
  match p.net.find? q.same with
  | none => false
  | some m => decide (m.dst.skt ≠ p.sktId) || !p.landed m || p.net.any (fun a => p.goesBefore a m)

/-! ### Routes (R248, R249, R254) -/

/-- The output port at router `cur` of a packet from `src` to `dst`: 0 +x, 1 −x, 2 +y, 3 −y, 4 local (R248, R279). -/
def torusOut (src dst cur : Nat) : Nat :=
  let dx := (dst % 12 + 12 - cur % 12) % 12
  let dy := (dst / 12 + 12 - cur / 12) % 12
  if dx ≠ 0 then (if dx < 6 ∨ (dx = 6 ∧ src % 12 % 2 = 0) then 0 else 1)
  else if dy = 0 then 4
  else if dy < 6 ∨ (dy = 6 ∧ src / 12 % 2 = 0) then 2 else 3

/-- The tile at the other end of an output's link. -/
def torusNext (t out : Nat) : Nat :=
  match out with
  | 0 => t / 12 * 12 + (t % 12 + 1) % 12
  | 1 => t / 12 * 12 + (t % 12 + 11) % 12
  | 2 => (t / 12 + 1) % 12 * 12 + t % 12
  | 3 => (t / 12 + 11) % 12 * 12 + t % 12
  | _ => t

/-- The link at an output is the wrap link of its ring, the dateline (R249). -/
def torusWraps (t out : Nat) : Bool :=
  match out with
  | 0 => decide (t % 12 = 11) | 1 => decide (t % 12 = 0) | 2 => decide (t / 12 = 11) | 3 => decide (t / 12 = 0)
  | _ => false

/-- Whether a packet that came in by `inp` goes on on the upper VC of its class through `out` (R249): it does beyond the
dateline of the ring that it is in. -/
def torusUp (t inp out : Nat) (up : Bool) : Bool :=
  if out = 4 then up else (decide (inp < 4) && decide (inp / 2 = out / 2) && up) || torusWraps t out

/-- A flit's output at tile `t`. -/
def Flit.outAt (f : Flit) (t : Nat) : Nat := torusOut f.src f.dst t

/-- Router cycles that a tile's island has run after `n` cycles of 2.4 GHz (R254, R485: FEFF counts steps of 25 MHz). -/
def Part.ownCycles (p : Part) (t n : Nat) : Nat := n * p.rg F.CLK_UNC_FEFF t / 96
/-- The island runs a router cycle in the present cycle of 2.4 GHz. -/
def Part.routerRuns (p : Part) (t : Nat) : Bool := decide (p.ownCycles t (p.fab.now + 1) ≠ p.ownCycles t p.fab.now)

/-- Cycles of 2.4 GHz from a router's output to the next buffer (R254, R266, R273): 2 / f + 0.37 ns, and 2 ns more between
dies, in whole cycles; 3 to the agents. -/
def Part.transit (p : Part) (t out : Nat) : Nat :=
  if out = 4 then 3
  else (192000 / max 1 (p.rg F.CLK_UNC_FEFF t) + 888 + (if dieOf t = dieOf (torusNext t out) then 0 else 4800) + 999) / 1000

/-! ### Buffers and credits (R256, R257) -/

/-- Depth of a buffer of a class's VC. -/
def fabDepth (cls : Nat) : Nat := if cls < 2 then 8 else if cls = 2 then 4 else 6

/-- Flits of a VC on the way to an input's buffer or in it. -/
def TileFab.fill (x : TileFab) (cls inp : Nat) (up : Bool) : Nat :=
  let mine (f : Flit) (i : Nat) (u : Bool) : Bool := decide (f.cls = cls) && decide (i = inp) && decide (u = up)
  (x.buf.filter (fun h => mine h.flit h.inp h.up)).length + (x.wire.filter (fun w => mine w.flit w.inp w.up)).length
    + ((x.link.get LinkEnd.reset (2 * inp + cls / 2)).cross.filter (fun w => mine w.1.flit w.1.inp w.1.up)).length
/-- Flits of a VC on the way to the agents or in their buffers. -/
def TileFab.ejFill (x : TileFab) (cls : Nat) (up : Bool) : Nat :=
  (x.eject.filter (fun h => decide (h.flit.cls = cls) && decide (h.up = up))).length
    + (x.ejw.filter (fun w => decide (w.flit.cls = cls) && decide (w.up = up))).length

/-- Credits that output `out` of tile `t` holds for a VC (R257). -/
def Part.credits (p : Part) (t out cls : Nat) (up : Bool) : Nat :=
  fabDepth cls - (if out = 4 then (p.tileFab t).ejFill cls up else (p.tileFab (torusNext t out)).fill cls (out ^^^ 1) up)

/-- The link at an output takes a flit: it has not failed, and its sender still keeps 16 flits or fewer (R253). -/
def Part.linkOpen (p : Part) (t out plane : Nat) : Bool :=
  decide (out = 4) ||
    (let x := p.tileFab (torusNext t out)
     !(x.link.get LinkEnd.reset (2 * (out ^^^ 1) + plane)).dead
       && decide ((x.wire.filter (fun w => decide (w.inp = out ^^^ 1) && decide (w.flit.cls / 2 = plane))).length < 12))

/-! ### Statistics (R277, R278) -/

/-- Initiators that a kind of tile has (R277). -/
def TileKind.inits : TileKind → Nat
  | .core => 5 | .mem => 3 | .pcie => 4 | .net => 4 | .dvt => 5

/-- Add to word `w` of an initiator's statistics, unless they are frozen. -/
def Part.statAdd (p : Part) (t i w n : Nat) : Part :=
  if p.rgOn F.FAB_STATSTAT_FREEZE t ∨ i ≥ (tileKind t).inits then p
  else p.count F.FAB_STAT_VALUE F.FAB_STATSTAT_OVF t (16 * i + w) n

/-- Add bytes to a 48-bit count whose low word is `w`. -/
def Part.statBytes (p : Part) (t i w n : Nat) : Part :=
  if p.rgOn F.FAB_STATSTAT_FREEZE t ∨ i ≥ (tileKind t).inits ∨ n = 0 then p
  else
    let v := p.rg F.FAB_STAT_VALUE t (16 * i + w) + p.rg F.FAB_STAT_VALUE t (16 * i + w + 1) * 2 ^ 32 + n
    let q := (p.setRg F.FAB_STAT_VALUE v t (16 * i + w)).setRg F.FAB_STAT_VALUE (v / 2 ^ 32 % 2 ^ 16) t (16 * i + w + 1)
    if v ≥ 2 ^ 48 then q.setRg F.FAB_STATSTAT_OVF 1 t else q

/-- The bucket of a latency, for T of FAB_HISTCFG.BASE. -/
def histBucket (lat base : Nat) : Nat :=
  let b := max 1 base
  if lat < b then 0 else min 7 (Nat.log2 (lat / b) + 1)

/-- Record a latency: its bucket and the largest so far. Both stand still with FAB_HISTCFG.EN = 0 (DEDUCED,
notes/assumptions/46.md). -/
def Part.statLat (p : Part) (t i lat : Nat) : Part :=
  if p.rgOn F.FAB_STATSTAT_FREEZE t ∨ i ≥ (tileKind t).inits ∨ ¬ p.rgOn F.FAB_HISTCFG_EN t then p
  else
    let q := p.count F.FAB_STAT_VALUE F.FAB_STATSTAT_OVF t (16 * i + histBucket lat (p.rg F.FAB_HISTCFG_BASE t))
    q.setRg F.FAB_STAT_VALUE (min (2 ^ 32 - 1) (max lat (q.rg F.FAB_STAT_VALUE t (16 * i + 12)))) t (16 * i + 12)

/-- Payload bytes of a flit (R278). -/
def Flit.bytes (f : Flit) : Nat := if ¬ f.data then 0 else if f.cls < 2 then 16 else 64

/-- A request whose answer comes back to its tile with the same TXID (R287, R289). -/
def Msg.answered (m : Msg) : Bool :=
  match m.opc with
  | .wbc => false | .mrd => m.hint | o => decide (o.cls = 0)

/-! ### Links (R253, R255) -/

/-- Change one plane of the link into input `inp`. -/
def Part.modLinkEnd (p : Part) (t inp plane : Nat) (f : LinkEnd → LinkEnd) : Part :=
  p.modTileFab t (fun x => { x with link := x.link.upd LinkEnd.reset (2 * inp + plane) f })
def Part.linkEnd (p : Part) (t inp plane : Nat) : LinkEnd := (p.tileFab t).link.get LinkEnd.reset (2 * inp + plane)

/-- Put a flit on the link into tile `t`: it takes the next sequence number and a new CRC. -/
def Part.linkSend (p : Part) (t inp : Nat) (f : Flit) (up : Bool) (at_ : Nat) : Part :=
  let e := p.linkEnd t inp (f.cls / 2)
  let w : Wire := ⟨f, inp, up, at_, e.next, p.linkCrc f up e.next⟩
  (p.modTileFab t (fun x => { x with wire := x.wire ++ [w] })).modLinkEnd t inp (f.cls / 2) (fun e =>
    { e with next := (e.next + 1) % 32, sent := (e.sent ++ [w]).drop (e.sent.length + 1 - 16) })

/-- A replay is counted (R253); at the eighth failure in a row of one flit the link has failed. -/
def Part.linkError (p : Part) (t inp times : Nat) : Part :=
  let p := p.count F.FAB_LINKERR_REPLAYS F.FAB_STATSTAT_OVF t inp
  let p := (p.rasCount t 11 1 1 0xFF 0 .unstated inp 0).perfEvent t 20 4 5 1 none none
  if times ≥ 8 then (p.modLinkEnd t inp 0 (fun e => { e with dead := true })).modLinkEnd t inp 1 (fun e => { e with dead := true })
    |>.socketCheck t [1, t, inp] else p

/-- A flit of the link fails: it and every later one are discarded, and the sender resends them from it (R253). -/
def Part.replay (p : Part) (t inp plane seq times : Nat) : Part :=
  let again := (p.linkEnd t inp plane).sent.dropWhile (fun w => w.seq ≠ seq)
  let again := (again.zip (List.range again.length)).map (fun x => { x.1 with at_ := p.fab.now + 16 + x.2 })
  ((p.modTileFab t (fun x =>
    { x with wire := x.wire.filter (fun w => !(decide (w.inp = inp) && decide (w.flit.cls / 2 = plane))) ++ again })).modLinkEnd
      t inp plane (fun e => { e with cross := [], fails := times })).linkError t inp times

/-- A flit comes out of the crossing: the receiving router checks it and buffers it, or asks for a replay. -/
def Part.linkTake (p : Part) (t inp plane : Nat) (w : Wire) (par : Bool) : Part :=
  let e := p.linkEnd t inp plane
  if w.crc = p.linkCrc w.flit w.up w.seq ∧ par = p.wireParity w ∧ w.seq = e.exp then
    (p.modTileFab t (fun x => { x with buf := x.buf ++ [⟨w.flit, inp, w.up, false⟩] })).modLinkEnd t inp plane (fun e =>
      { e with cross := e.cross.drop 1, exp := (e.exp + 1) % 32, fails := 0 })
  else p.replay t inp plane w.seq (e.fails + 1)

/-- One router cycle of one plane of a link: a flit enters the crossing while it has room, and one leaves it. -/
def Part.linkIn (p : Part) (t inp plane : Nat) : Part :=
  if (p.linkEnd t inp plane).dead then p
  else
    let p := match (p.tileFab t).wire.find? (fun w => decide (w.inp = inp) && decide (w.flit.cls / 2 = plane)) with
      | some w =>
        if w.at_ ≤ p.fab.now ∧ (p.linkEnd t inp plane).cross.length < 4 then
          (p.modTileFab t (fun x => { x with wire := x.wire.erase w })).modLinkEnd t inp plane (fun e =>
            { e with cross := e.cross ++ [(w, p.wireParity w)] })
        else p
      | none => p
    match (p.linkEnd t inp plane).cross with
    | [] => p
    | (w, par) :: _ => p.linkTake t inp plane w par

/-! ### Outputs (R258 to R262, R265 to R267) -/

/-- The arbiter of R258: priorities, pointer and base priorities; who requests. Answers the winner. -/
def arbitrate (prio base : List Nat) (ptr : Nat) (req : List Nat) : Option (Nat × List Nat × Nat) :=
  let n := prio.length
  let top := req.foldl (fun a r => max a (prio.getD r 0)) 0
  match ((List.range n).map (fun k => (ptr + k) % n)).find? (fun r => req.contains r && decide (prio.getD r 0 = top)) with
  | none => none
  | some w => some (w, (List.range n).map (fun r => if r = w then base.getD r 0 else if req.contains r then min 15 (prio.getD r 0 + 1) else prio.getD r 0),
      (w + 1) % n)

/-- The Stencil slot of a router: its own cycles since the frame began (R263), counted on modulo 256 without a tick (R270). -/
def Part.slotNow (p : Part) (t : Nat) : Nat := (p.ownCycles t p.fab.now - p.ownCycles t p.fab.frame) % 256

/-- The entry in force of an output's table at a slot, input and flow, if it counts as valid (R265, R281). -/
def Part.stnEntry (p : Part) (t out slot : Nat) : Option (Nat × Nat) :=
  let i := p.rg F.STN_ENTRY_IN (5 * t + out) slot
  if p.rgOn F.STN_ENTRY_V (5 * t + out) slot ∧ p.rgOn F.FAB_STNCTL_EN t ∧ i ≤ 4 ∧ (i ≠ out ∨ out = 4) then
    some (i, p.rg F.STN_ENTRY_GFID (5 * t + out) slot)
  else none

/-- The output's table has a slot for a flow from an input. -/
def Part.stnNames (p : Part) (t out inp gfid : Nat) : Bool :=
  (List.range 256).any (fun s => decide (p.stnEntry t out s = some (inp, gfid)))

/-- Guaranteed flits that no entry serves slip at once (R267). -/
def Part.slipMark (p : Part) (t : Nat) : Part :=
  let l := (p.tileFab t).buf.filter (fun h => decide (h.flit.cls = 3) && !h.slips && !p.stnNames t (h.flit.outAt t) h.inp h.flit.gfid)
  l.foldl (fun (r : Part) (h : Held) =>
    (((r.modTileFab t (fun x => { x with buf := x.buf.map (fun y =>
      if y = h then { h with slips := true, flit := { h.flit with slip := true } } else y) })).count F.FAB_SLIPCNT_COUNT
        F.FAB_STATSTAT_OVF t).setRg F.FAB_STNSTAT_SLIP 1 t).perfEvent t 20 4 4 1 none none) p

/-- A flit may go through `out` now: it has a credit, the link takes it, and on the request plane its packet holds the output
VC or, with its header, finds it free (R256). -/
def Part.mayGo (p : Part) (t out : Nat) (h : Held) : Bool :=
  let up := torusUp t h.inp out h.up
  let holder := (p.tileFab t).own.find? (fun o => decide (o.out = out) && decide (o.cls = h.flit.cls) && decide (o.up = up))
  decide (p.credits t out h.flit.cls up > 0) && p.linkOpen t out (h.flit.cls / 2)
    && (decide (h.flit.cls ≥ 2) || (match holder with
      | none => decide (h.flit.k = 0)
      | some o => decide (h.flit.k > 0) && decide (o.inp = h.inp) && decide (o.inUp = h.up)))

/-- The flit that requester `j`, 5 × class + input, offers an output from one VC: the VC's oldest, of the guaranteed class the
oldest that has slipped. -/
def Part.offer (p : Part) (t out plane j : Nat) (up : Bool) : Option Held :=
  let cls := 2 * plane + j / 5
  let mine (h : Held) : Bool := decide (h.flit.cls = cls) && decide (h.inp = j % 5) && decide (h.up = up)
  let h := if cls = 3 then (p.tileFab t).buf.find? (fun h => mine h && h.slips && decide (h.flit.outAt t = out))
    else ((p.tileFab t).buf.find? mine).filter (fun h => decide (h.flit.outAt t = out))
  h.filter (p.mayGo t out)

/-- Send a flit through an output: to the next router's link, or to the tile's agents. -/
def Part.hopSend (p : Part) (t out : Nat) (h : Held) : Part :=
  let up := torusUp t h.inp out h.up
  let own : VcOwn := ⟨out, h.flit.cls, up, h.inp, h.up⟩
  let q := p.modTileFab t (fun x => { x with
    buf := x.buf.erase h,
    own := if h.flit.cls ≥ 2 ∨ h.flit.n = 1 then x.own
           else if h.flit.k = 0 then x.own ++ [own] else if h.flit.k + 1 = h.flit.n then x.own.erase own else x.own })
  let q := if h.flit.cls < 2 then q.perfEvent t 20 4 1 1 (some h.flit.vmid) none else q.perfEvent t 20 4 2 1 none none
  let q := q.bwCount 0 0 t out h.flit.bytes
  let at_ := p.fab.now + p.transit t out
  if out = 4 then q.modTileFab t (fun x => { x with ejw := x.ejw ++ [⟨h.flit, 4, up, at_, 0, 0⟩] })
  else q.linkSend (torusNext t out) (out ^^^ 1) h.flit up at_

/-- Base priorities of the requesters of a plane (R262, R280). -/
def Part.arbBase (p : Part) (t plane : Nat) : List Nat :=
  let a := p.rg (if plane = 0 then F.FAB_ARBCFG_BREQ else F.FAB_ARBCFG_BRSP) t
  let b := p.rg (if plane = 0 then F.FAB_ARBCFG_BSNP else F.FAB_ARBCFG_BSLIP) t
  [a, a, a, a, a, b, b, b, b, b]

/-- A round of an output's arbiter (R258, R261, R262): the requesters are those with a flit that may go; of a pair's two VCs
the one not served last comes first. -/
def Part.arbRound (p : Part) (t out plane : Nat) : Part :=
  let a := (p.tileFab t).arb.get (Arb.reset plane) (2 * out + plane)
  let offers := (List.range 10).filterMap (fun j =>
    let u := !(a.alt.getD j true)
    (match p.offer t out plane j u with | some h => some h | none => p.offer t out plane j (!u)).map (fun h => (j, h)))
  let req := offers.map (·.1)
  match arbitrate a.prio (p.arbBase t plane) a.ptr req with
  | none => p
  | some (w, prio, ptr) =>
    match offers.find? (fun x => x.1 = w) with
    | none => p
    | some (_, h) =>
      let run := (List.range 10).map (fun j =>
        if j = w then 0 else if req.contains j then a.run.getD j 0 + 1 else a.run.getD j 0)
      let lost := req.filter (· ≠ w)
      let p := p.modTileFab t (fun x => { x with arb := x.arb.put (2 * out + plane) ⟨prio, ptr, run, a.alt.set w h.up⟩ })
      let p := p.count F.FAB_ARB_GRANTS_COUNT F.FAB_STATSTAT_OVF t (10 * plane + w)
      let p := lost.foldl (fun (r : Part) (j : Nat) =>
        (r.count F.FAB_ARB_WAITS_COUNT F.FAB_STATSTAT_OVF t (10 * plane + j)).setRg F.FAB_ARB_MAXWAIT_MAX
          (min 65535 (max (run.getD j 0) (r.rg F.FAB_ARB_MAXWAIT_MAX t (10 * plane + j)))) t (10 * plane + j)) p
      let p := if lost.isEmpty then p else p.perfEvent t 20 4 6 lost.length none none
      p.hopSend t out h

/-- One router cycle of an output: on the data plane a reserved slot sends the oldest flit of its flow; any other slot is a
round of the arbiter (R265). A reserved flit without a credit leaves its slot unused (DESIGN CHOICE,
notes/assumptions/46.md). -/
def Part.outPort (p : Part) (t out plane : Nat) : Part :=
  match (if plane = 1 then p.stnEntry t out (p.slotNow t) else none) with
  | none => p.arbRound t out plane
  | some (i, g) =>
    match ((p.tileFab t).buf.find? (fun h => decide (h.flit.cls = 3) && decide (h.inp = i) && decide (h.flit.gfid = g)
        && decide (h.flit.outAt t = out))).filter (p.mayGo t out) with
    | some h => (p.perfEvent t 20 4 3 1 none none).hopSend t out h
    | none => (p.count F.FAB_UNUSED_COUNT F.FAB_STATSTAT_OVF t).arbRound t out plane

/-! ### Injection and ejection (R268, R276 to R278) -/

/-- A message has flits that are not in the torus yet, and nothing keeps it back (R158, R159). -/
def Part.waits (p : Part) (m : Msg) : Bool :=
  p.crosses m && decide (p.fab.out.get 0 m.id < m.flits) && (decide (m.opc ≠ .ipi) || p.ipiReady m)

/-- The messages that wait at a tile's local input, in the order in which they were sent. -/
def Part.waitingAt (p : Part) (t : Nat) : List Msg := (p.net ++ p.fab.pass).filter (fun m => decide (p.fabSrc m = t) && p.waits m)

/-- The class of a message as it travels (R246, R268). -/
def Part.flowCls (p : Part) (m : Msg) : Nat := if m.opc.cls = 2 ∧ (p.flowOf m).isSome then 3 else m.opc.cls

/-- The initiator of its source tile that a message is charged to (R277): its own, or the link it came by. -/
def Part.chargedTo (p : Part) (m : Msg) : Nat := if m.src.skt = p.sktId then m.src.init else p.fab.link.get 0 m.id
/-- The initiator that takes a message (R277): channels by number, the persistent write buffer for an MPWT. -/
def Part.takenBy (p : Part) (m : Msg) : Option Nat :=
  if m.dst.skt ≠ p.sktId then none else if m.opc = .mpwt then some 2 else some m.dst.init

/-- Flit `k` of a message. -/
def Part.flit (p : Part) (m : Msg) (k : Nat) : Flit :=
  { id := m.id, k := k, n := m.flits, cls := p.flowCls m, src := p.fabSrc m, dst := p.fabDst m, dinit := p.takenBy m,
    txid := m.txid % 2 ^ 12, vmid := m.vmid, gfid := (p.flowOf m).getD 0, slip := false,
    data := if m.opc.cls < 2 then decide (k > 0) else m.carries, sunk := decide (m.opc.cls = 2) || m.opc.queued }

/-- A tile's agents put one flit of a plane into the local input: the oldest message of a class whose buffer has room. Answers
the initiator whose flit moved. -/
def Part.inject (p : Part) (t plane : Nat) : Part × Option Nat :=
  let l := (p.waitingAt t).filter (fun m => decide (m.opc.cls / 2 = plane))
  match l.find? (fun m => decide ((l.find? (fun x => p.flowCls x = p.flowCls m)).map Msg.id = some m.id)
      && decide ((p.tileFab t).fill (p.flowCls m) 4 false < fabDepth (p.flowCls m))) with
  | none => (p, none)
  | some m =>
    let k := p.fab.out.get 0 m.id
    let f := p.flit m k
    let i := p.chargedTo m
    let q := (p.modTileFab t (fun x => { x with
      buf := x.buf ++ [⟨f, 4, false, false⟩],
      lat := if k = 0 ∧ m.answered then x.lat ++ [(i, f.txid, p.ownCycles t p.fab.now)] else x.lat })).modFab (fun s =>
        { s with out := s.out.put m.id (k + 1) })
    ((q.statBytes t i 8 f.bytes).bwCount 5 1 t i f.bytes, some i)

/-- The initiators that had a flit ready which did not move stall for a cycle (R278). -/
def Part.stalls (p : Part) (t : Nat) (ready moved : List Nat) : Part :=
  (ready.eraseDups.filter (fun i => !moved.contains i)).foldl (fun (r : Part) (i : Nat) => r.statAdd t i 13 1) p

/-- A flit reaches the agents of its tile: they count it, take a response, a TINV or an IPI at once, and hold the rest in
their buffers (R247, R256, R267, R278). -/
def Part.land (p : Part) (t : Nat) (f : Flit) (up : Bool) : Part :=
  let p := if f.slip then p.count F.FAB_SLIPRX_COUNT F.FAB_STATSTAT_OVF t else p
  let p := match f.dinit with | some i => (p.statBytes t i 10 f.bytes).bwCount 5 0 t i f.bytes | none => p
  let p := match (if f.cls ≥ 2 then (p.tileFab t).lat.find? (fun e => decide (some e.1 = f.dinit) && decide (e.2.1 = f.txid)) else none) with
    | some e => (p.statLat t e.1 (p.ownCycles t p.fab.now - e.2.2)).modTileFab t (fun x => { x with lat := x.lat.erase e })
    | none => p
  match p.fab.pass.any (fun m => decide (m.id = f.id)), f.sunk with
  | false, false => p.modTileFab t (fun x => { x with eject := x.eject ++ [⟨f, 4, up, false⟩] })
  | false, true => if f.k + 1 ≠ f.n then p else p.modFab (fun s => { s with here := s.here ++ [f.id] })
  | true, _ =>
    if f.k + 1 ≠ f.n then p
    else
      let q := p.modFab (fun s => { s with pass := s.pass.filter (fun m => decide (m.id ≠ f.id)), out := s.out.del f.id, link := s.link.del f.id })
      q.modTileFab t (fun x => x.without f.id)

/-- One router cycle of one plane of the way to the agents. -/
def Part.ejectIn (p : Part) (t plane : Nat) : Part :=
  match (p.tileFab t).ejw.find? (fun w => decide (w.flit.cls / 2 = plane)) with
  | some w => if w.at_ ≤ p.fab.now then (p.modTileFab t (fun x => { x with ejw := x.ejw.erase w })).land t w.flit w.up else p
  | none => p

/-! ### Cycles -/

/-- One router cycle of a tile: the links in, the slips, the outputs, the agents. -/
def Part.routerCycle (p : Part) (t : Nat) : Part :=
  let p := [0, 1, 2, 3].foldl (fun (r : Part) (i : Nat) => (r.linkIn t i 0).linkIn t i 1) p
  let p := ((p.ejectIn t 0).ejectIn t 1).slipMark t
  let p := [0, 1, 2, 3, 4].foldl (fun (r : Part) (o : Nat) => (r.outPort t o 0).outPort t o 1) p
  let ready := (p.waitingAt t).map p.chargedTo
  let (p, a) := p.inject t 0
  let (p, b) := p.inject t 1
  p.stalls t ready (a.toList ++ b.toList)

/-- Flits move in a tile's router, in its links or to its agents. -/
def TileFab.moves (x : TileFab) : Bool :=
  !(x.buf.isEmpty && x.wire.isEmpty && x.ejw.isEmpty && x.link.all (fun e => e.2.cross.isEmpty))

/-- No flit moves and none waits to enter. -/
def Part.fabQuiet (p : Part) : Bool :=
  p.fab.tile.all (fun e => !e.2.moves) && !(p.net ++ p.fab.pass).any p.waits

/-- A router has something to do: flits, or slots of an enabled Stencil to count. -/
def Part.routerBusy (p : Part) (t : Nat) : Bool :=
  (p.tileFab t).moves || p.rgOn F.FAB_STNCTL_EN t || !(p.waitingAt t).isEmpty

/-- One cycle of 2.4 GHz of the torus: every router whose island has a cycle then takes it, in the order of the tiles
(DESIGN CHOICE, notes/assumptions/46.md). -/
def Part.fabCycle (p : Part) : Part :=
  let q := (List.range nTiles).foldl (fun (r : Part) (t : Nat) =>
    if r.routerBusy t && r.routerRuns t then r.routerCycle t else r) p
  q.modFab (fun s => { s with now := s.now + 1 })

/-- Run the torus until `stop` holds, it is quiet, or `n` cycles are over. -/
def Part.fabUntil (stop : Part → Bool) : Nat → Part → Part
  | 0, p => p
  | n + 1, p => if stop p || p.fabQuiet then p else Part.fabUntil stop n p.fabCycle

/-- Run the torus for `n` cycles. Cycles in which no flit moves and no Stencil is enabled are passed over. -/
def Part.fabRun : Nat → Part → Part
  | 0, p => p
  | n + 1, p =>
    if p.fabQuiet && !(List.range nTiles).any (fun t => p.rgOn F.FAB_STNCTL_EN t) then
      p.modFab (fun s => { s with now := s.now + n + 1 })
    else Part.fabRun n p.fabCycle

/-- Run the torus until a message has arrived. -/
def Part.fabTo (p : Part) (m : Msg) : Part := p.fabUntil (fun r => r.landed m) 4096

/-- A command of a message that is in flight acts once the message has arrived, in its turn (R250); one that cannot arrive yet
stays in flight. -/
def Part.onArrival (q : Msg) (f : Part → Part) (p : Part) : Part :=
  let r := p.fabUntil (fun r => !r.underway q) 4096
  if r.underway q then r else f r

/-- A frame starts (R263): the routers have run the rest of the old one, 256 cycles of 2.4 GHz. -/
def Part.fabFrame (p : Part) : Part :=
  (p.fabRun (p.fab.frame + 256 - p.fab.now)).modFab (fun s => { s with frame := s.now })

/-- The requesters of a tile's local input are masked while its agents are reset (R260): their P returns to BASE. -/
def Part.fabMask (p : Part) (t : Nat) : Part :=
  if p.fab.tile.find? t = none then p
  else p.modTileFab t (fun x => { x with arb := x.arb.map (fun e =>
    let base := p.arbBase t (e.1 % 2)
    (e.1, { e.2 with prio := ((e.2.prio.set 4 (base.getD 4 0)).set 9 (base.getD 9 0)), run := (e.2.run.set 4 0).set 9 0 })) })

/-- Give a message that is in flight another destination (R231): it starts again from its sender. -/
def Part.readdress (p : Part) (m : Msg) (dst : Agent) : Part :=
  let q := p.fabTake m
  { q with net := q.net.map (fun x => if x.id = m.id then { m with id := q.fab.next, dst := dst } else x),
           fab := { q.fab with next := q.fab.next + 1 } }

end Sys2Proof.Machine
end

