-- ==== Sys2Proof/Machine/Memory.lean ====
section
/-!
DEFINITION. The interleave tables and the memory channels: decoding an address (R321, R322), DRAM
bytes in canonical form, write queues and persistent write buffers (R324, R325, R327, R335, R337).
-/
namespace Sys2Proof.Machine

/-- One interleave range (R321). -/
structure Ilv where
  v : Bool
  base : Nat
  limit : Nat
  cxl : Bool
  pers : Bool
  gran : Nat
  hash : Bool
  sktways : Nat
  sktbase : Nat
  chmask : Nat
  choff : Nat
  deriving DecidableEq, Repr

/-- Range `r` of the effective table. -/
def Part.ilv (p : Part) (r : Nat) : Ilv :=
  { v := p.rgOn F.MC_ILV_BASE_V 0 r, base := p.rg F.MC_ILV_BASE_BASE 0 r, limit := p.rg F.MC_ILV_LIMIT_LIMIT 0 r,
    cxl := p.rgOn F.MC_ILV_TGT_KIND 0 r, pers := p.rgOn F.MC_ILV_TGT_PERS 0 r, gran := p.rg F.MC_ILV_TGT_GRAN 0 r,
    hash := p.rgOn F.MC_ILV_TGT_HASH 0 r, sktways := p.rg F.MC_ILV_TGT_SKTWAYS 0 r,
    sktbase := p.rg F.MC_ILV_TGT_SKTBASE 0 r, chmask := p.rg F.MC_ILV_TGT_CHMASK 0 r,
    choff := p.rg F.MC_ILV_CHOFF_CHOFF 0 r }

/-- S, the socket count of a range. -/
def Ilv.socks (t : Ilv) : Nat := 2 ^ t.sktways
/-- n, its targets in one socket. -/
def Ilv.targets (t : Ilv) : Nat := onesBelow 16 t.chmask
/-- W = S × n. -/
def Ilv.ways (t : Ilv) : Nat := t.socks * t.targets
/-- The granule in bytes. -/
def Ilv.gsize (t : Ilv) : Nat := match t.gran with | 0 => 64 | 1 => 256 | _ => 4096

/-- The conditions of R322 that make a range with V = 1 invalid, against the current state of the part. -/
def Part.ilvBad (p : Part) (t : Ilv) : Bool :=
  let named := (List.range 16).filter (fun c => t.chmask.testBit c)
  t.v && (decide (t.limit < t.base) || decide (t.limit > 0x37FFFF) || decide (t.chmask = 0) || decide (t.gran = 3)
    || decide (t.sktways > 4) || decide ((t.limit - t.base + 1) % (max 1 t.ways) ≠ 0)
    || decide (t.sktbase % t.socks ≠ 0) || decide (t.sktbase + t.socks > p.sktCnt)
    || (!t.cxl && named.any (fun c => !p.memTilePresent (c / 2) || !p.rgOn F.MC_STAT_TRAINED c))
    || (t.cxl && (named.any (fun g => decide (g > 7) || decide (p.rg F.PCI_GRP_EFF_MODE g ≠ 1) || p.rgOn F.PCI_GRP_STAT_BAD g
                                || p.rgOn F.PCI_GRP_STAT_INRESET g)
                  || !(decide (t.targets = 1) || decide (t.targets = 2) || decide (t.targets = 4))
                  || decide (t.sktways ≠ 0) || t.hash || decide (t.gran = 0)))
    || (t.pers && !t.cxl && named.any (fun c => !p.rgOn F.VAR_CTL_ARM (c / 2)))
    || (t.pers && t.cxl && !p.rgOn F.VAR_CTL_ARM 0))

/-- MC_ILVSTAT.BAD (R322). -/
def Part.ilvBadBits (p : Part) : Nat :=
  (List.range 16).foldl (fun a r => if p.ilvBad (p.ilv r) then a + 2 ^ r else a) 0

/-- The agent that serves a target: its channel, or the lane group of a CXL range (R277). -/
def Target.agent (t : Target) : Agent :=
  ⟨t.skt, if t.cxl then tileOfGroup t.chan else tileOfChan t.chan, if t.cxl then t.chan % 4 else t.chan % 2⟩

/-- The decode of R321 within one range. -/
def Ilv.decode (t : Ilv) (pa : Nat) : Target :=
  let off := pa - t.base * 2 ^ 30
  let g := off / t.gsize
  let w := t.ways
  let grp := g / w
  let fold := ((grp % 2 ^ 16) ^^^ (grp / 2 ^ 16 % 2 ^ 16)) ^^^ (grp / 2 ^ 32 % 2 ^ 16)
  let pos := (g % w + (if t.hash then fold % w else 0)) % w
  { cxl := t.cxl, pers := t.pers, skt := t.sktbase + pos % t.socks, chan := nthOne 16 t.chmask (pos / t.socks),
    ca := t.choff * 2 ^ 30 + grp * t.gsize + off % t.gsize }

/-- The valid range with the lowest number that covers the address decodes it; none: unassigned. -/
def Part.decode (p : Part) (pa : Nat) : Option Target :=
  match (List.range 16).find? (fun r =>
      let t := p.ilv r
      t.v && !p.ilvBad t && decide (t.base * 2 ^ 30 ≤ pa) && decide (pa < (t.limit + 1) * 2 ^ 30)) with
  | some r => some ((p.ilv r).decode pa)
  | none => none

/-- Where a memory message goes: to the target that its home's decode found, which a change of the table no longer moves (R323). -/
def Part.target (p : Part) (q : Msg) : Option Target := q.tgt.or (p.decode q.addr)

/-- The channel address lies at or above MC_CAP (R322). -/
def Part.overCap (p : Part) (c ca : Nat) : Bool := decide (ca ≥ p.rg F.MC_CAP_GB c * 2 ^ 30)

/-- Memory in canonical form: keys strictly rising, no listed byte equal to what an unlisted one reads. -/
def Memory.wf (m : List (Nat × Byte)) : Bool :=
  Tab.sorted m && m.all (fun e => e.2 ≠ Config.dramReset)

/-- The byte at a key. -/
def Memory.get (m : List (Nat × Byte)) (k : Nat) : Byte := Tab.get Config.dramReset m k

/-- Write a byte, keeping the canonical form. -/
def Memory.put (m : List (Nat × Byte)) (k : Nat) (b : Byte) : List (Nat × Byte) :=
  if b = Config.dramReset then Tab.del m k else Tab.put m k b

/-- The key of a byte of a channel. -/
def dramKey (c ca : Nat) : Nat := c * 2 ^ 44 + ca

/-- The 64 bytes at a key, as a line without its poison. -/
def Memory.line (m : List (Nat × Byte)) (k : Nat) : Vec :=
  BitVec.ofNat 512 ((List.range 64).foldl (fun a i => a + (Memory.get m (k + i)).toNat * 2 ^ (8 * i)) 0)

/-- Write the bytes that a mask selects. -/
def Memory.putLine (m : List (Nat × Byte)) (k : Nat) (d : Vec) (mask : Dword) : List (Nat × Byte) :=
  (List.range 64).foldl (fun a i => if mask.getLsbD i then Memory.put a (k + i) (vecByte d i) else a) m

/-- The line that DRAM itself holds. -/
def Part.dramLine (p : Part) (c ca : Nat) : Line :=
  let k := dramKey c ca
  { data := Memory.line p.mem k,
    pois := BitVec.ofNat 4 ((List.range 4).foldl (fun a j => a + (p.pois.get 0 (k / 16 + j)) % 2 * 2 ^ j) 0) }

/-- Write a queue entry to DRAM (R310, R330, R335). -/
def Part.dramWrite (p : Part) (c : Nat) (e : WqEnt) : Part :=
  let k := dramKey c e.ca
  let l := (p.dramLine c e.ca).write e.data e.mask e.pois
  { p with mem := Memory.putLine p.mem k e.data e.mask,
           pois := (List.range 4).foldl
             (fun t j => if l.pois.getLsbD j then Tab.put t (k / 16 + j) 1 else Tab.del t (k / 16 + j)) p.pois }

/-- A newer entry for the same line replaces the bytes it writes. -/
def WqEnt.merge (a b : WqEnt) : WqEnt :=
  { ca := a.ca, data := mergeVec a.data b.data b.mask, mask := a.mask ||| b.mask,
    pois := (a.pois &&& ~~~ fullChunks b.mask) ||| b.pois }

def Line.overlay (l : Line) (e : WqEnt) : Line := l.write e.data e.mask e.pois

/-- The bytes of a line that wait in the write queue or the persistent write buffer. -/
def Part.queuedMask (p : Part) (c ca : Nat) : Dword :=
  (((p.chanOf c).wq.filter (fun e => e.ca = ca)).foldl (fun (m : Dword) (e : WqEnt) => m ||| e.mask) 0) |||
    ((p.mtOf (c / 2)).pwb.filter (fun e => e.1 = c ∧ e.2.ca = ca)).foldl (fun (m : Dword) (e : Nat × WqEnt) => m ||| e.2.mask) 0

/-- What an MRD returns: every byte that an earlier accepted write of the line wrote (R325). -/
def Part.chanRead (p : Part) (c ca : Nat) : Line :=
  let l := ((p.chanOf c).wq.filter (fun e => e.ca = ca)).foldl Line.overlay (p.dramLine c ca)
  ((p.mtOf (c / 2)).pwb.filter (fun e => e.1 = c ∧ e.2.ca = ca)).foldl (fun l e => l.overlay e.2) l

/-- The oldest write queue entry goes to DRAM. -/
def Part.wqDrain (p : Part) (c : Nat) : Part :=
  match (p.chanOf c).wq with
  | [] => p
  | e :: r => (p.modChan c (fun s => { s with wq := r })).dramWrite c e

/-- Write every queued entry of one line to DRAM, oldest first, and unlist it: a newer write of the line
never reaches DRAM before them (R325). -/
def Part.wqLine (p : Part) (c ca : Nat) : Part :=
  let l := (p.chanOf c).wq.filter (fun e => e.ca = ca)
  l.foldl (fun (r : Part) (e : WqEnt) => r.dramWrite c e) (p.modChan c (fun s => { s with wq := s.wq.filter (fun e => e.ca ≠ ca) }))

/-- A flush has started: the channel front ends serve only buffer drains and refresh (R337). -/
def Part.flushOn (p : Part) : Bool := p.sys.varn.flush.isSome

/-- Accept an MWR (R324, R325): it merges into the persistent-buffer entry of its line if there is
one, else into the write queue. A full queue first drains its oldest entry. -/
def Part.chanWrite (p : Part) (c : Nat) (e : WqEnt) : Part :=
  if (p.mtOf (c / 2)).pwb.any (fun x => x.1 = c ∧ x.2.ca = e.ca) then
    p.modMt (c / 2) (fun s => { s with pwb := s.pwb.map (fun x => if x.1 = c ∧ x.2.ca = e.ca then (c, x.2.merge e) else x) })
  else
    let p := if (p.chanOf c).wq.length ≥ 64 ∧ ¬ p.flushOn then p.wqDrain c else p
    p.modChan c (fun s => { s with wq := s.wq ++ [e] })

/-- Accept an MPWT (R335), unless the buffer has stopped allocating (R337) or has no free entry, which
sets FULL. The stand-in of a channel out of service completes it and loses the data (R341). -/
def Part.pwbAccept (p : Part) (c : Nat) (e : WqEnt) : Option Part × Part :=
  let i := c / 2
  if (p.chanOf c).off then
    let q := p.rasLog (tileOfChan c) 0xFF 8 0 4 e.ca .unstated
    (some q, q)
  else if p.flushOn ∧ p.rgOn F.VAR_CTL_ARM i then (none, p)
  else if (p.mtOf i).pwb.any (fun x => x.1 = c ∧ x.2.ca = e.ca) then
    let q := p.modMt i (fun s => { s with pwb := s.pwb.map (fun x => if x.1 = c ∧ x.2.ca = e.ca then (c, x.2.merge e) else x) })
    (some q, q)
  else if (p.mtOf i).pwb.length ≥ 2048 then (none, p.setRg F.VAR_STAT_FULL 1 i)
  else
    let q := p.modMt i (fun s => { s with pwb := s.pwb ++ [(c, e)] })
    let n := (q.mtOf i).pwb.length
    let q := if n > q.rg F.VAR_HWM_MAX i then q.setRg F.VAR_HWM_MAX n i else q
    (some q, q)

/-- The oldest persistent-buffer entry of a tile whose channel is in service drains to DRAM (R335). -/
def Part.pwbDrain (p : Part) (i : Nat) : Part :=
  match (p.mtOf i).pwb.find? (fun x => !(p.chanOf x.1).off) with
  | none => p
  | some (c, e) => ((p.modMt i (fun s => { s with pwb := s.pwb.erase (c, e) })).wqLine c e.ca).dramWrite c e

/-- A memory message to the P tile of a CXL range, or to another socket. -/
def Part.sendMem (p : Part) (opc : Opc) (t : Target) (pa : Nat) (d : Vec) (mask : Dword) (pois : BitVec 4)
    (home : Nat) : Part :=
  p.send { Msg.blank with opc := opc, src := ⟨p.sktId, coreTile home, 4⟩,
                          dst := t.agent, tgt := some t, addr := pa, data := d, mask := mask, pois := pois, pers := t.pers }

/-- The home agent of slice `k`, and the agent of channel `c` (R277). -/
def Part.homeAgent (p : Part) (k : Nat) : Agent := ⟨p.sktId, coreTile k, 4⟩
def Part.chanAgent (p : Part) (c : Nat) : Agent := ⟨p.sktId, tileOfChan c, c % 2⟩

/-! ### Arbiters of five requesters (R258 to R261) -/

/-- The registers of an arbiter: grants, lost rounds, the longest run of them, the wrap bit, and the base priorities. -/
structure ArbRegs where
  grants : Fld
  waits : Fld
  most : Fld
  ovf : Fld
  base : List Fld

def homeArb : ArbRegs :=
  ⟨F.COH_ARB_GRANTS_COUNT, F.COH_ARB_WAITS_COUNT, F.COH_ARB_MAXWAIT_MAX, F.COH_STAT_OVF,
   [F.COH_ARBCFG_BREQ, F.COH_ARBCFG_BRSP, F.COH_ARBCFG_BWAKE, F.COH_ARBCFG_BMAINT, F.COH_ARBCFG_BBINV]⟩
def chanArb : ArbRegs :=
  ⟨F.MC_ARB_GRANTS_COUNT, F.MC_ARB_WAITS_COUNT, F.MC_ARB_MAXWAIT_MAX, F.MC_STAT_OVF,
   [F.MC_ARBCFG_BRD, F.MC_ARBCFG_BWR, F.MC_ARBCFG_BPWB, F.MC_ARBCFG_BSCRUB, F.MC_ARBCFG_BCOPY]⟩

/-- A round among the requesters `req`: the winner, and the arbiter after it. -/
def Rounds.play (s : Rounds) (base req : List Nat) : Option (Nat × Rounds) :=
  (arbitrate s.prio base s.ptr req).map (fun (w, prio, ptr) =>
    (w, { prio := prio, ptr := ptr,
          run := (List.range 5).map (fun j =>
            if j = w then 0 else if req.contains j then s.run.getD j 0 + 1 else s.run.getD j 0) }))

/-- The counters of a round that `w` won (R261). -/
def Part.roundCount (p : Part) (x : ArbRegs) (u w : Nat) (req : List Nat) (s : Rounds) : Part :=
  ((List.range 5).filter (fun j => req.contains j && decide (j ≠ w))).foldl (fun (r : Part) (j : Nat) =>
    (r.count x.waits x.ovf u j).setRg x.most (min 65535 (max (s.run.getD j 0) (r.rg x.most u j))) u j)
    (p.count x.grants x.ovf u w)

/-- Home `k` grants requester `r` its round, the others in `wants` requesting; none if another wins it. -/
def Part.homeRound (p : Part) (k r : Nat) (wants : List Nat) : Option Part :=
  match (p.sliceOf k).arb.play (homeArb.base.map (fun f => p.rg f k)) (r :: wants) with
  | some (w, s) => if w = r then some ((p.modSlice k (fun x => { x with arb := s })).roundCount homeArb k w (r :: wants) s) else none
  | none => none

/-- The same for the front end of channel `c` (R327). -/
def Part.chanRound (p : Part) (c r : Nat) (wants : List Nat) : Option Part :=
  match (p.chanOf c).arb.play (chanArb.base.map (fun f => p.rg f c)) (r :: wants) with
  | some (w, s) => if w = r then some ((p.modChan c (fun x => { x with arb := s })).roundCount chanArb c w (r :: wants) s) else none
  | none => none

/-- A round with no other requester. -/
def Part.homeGrant (p : Part) (k r : Nat) : Part := (p.homeRound k r []).getD p
def Part.chanGrant (p : Part) (c r : Nat) : Part := (p.chanRound c r []).getD p

/-- A message has been taken by its agent: a home's arbiter granted it, as a request or a response (R305), or a
channel's, as a read (R327). -/
def Part.homeTook (p : Part) (opc : Opc) (dst : Agent) : Part :=
  if dst.skt = p.sktId ∧ dst.init = 4 then
    match coreOrd dst.tile with
    | some k => p.homeGrant k (if opc.cls = 0 then 0 else 1)
    | none => p
  else if dst.skt = p.sktId ∧ opc = .mrd then
    match memIndex dst.tile with
    | some i => p.chanGrant (2 * i + dst.init) 0
    | none => p
  else p

/-- A message of a transaction that the model completes in one step: it crosses the torus and has no further effect
(notes/assumptions/46.md). -/
def Part.crossed (p : Part) (opc : Opc) (src dst : Agent) (txid line : Nat) : Part :=
  (p.homeTook opc dst).passed { Msg.blank with opc := opc, src := src, dst := dst, txid := txid, addr := line * 64, mask := BitVec.allOnes 64 }

/-- A message and its answer. -/
def Part.crossedPair (p : Part) (opc ans : Opc) (src dst : Agent) (line : Nat) : Part :=
  (p.crossed opc src dst p.fab.next line).crossed ans dst src p.fab.next line

/-- A channel has served a read, or accepted a write, of a line: the event and its bytes (R555, R562). -/
def Part.chanServed (p : Part) (c : Nat) (write : Bool) (vmid : Option Nat) : Part :=
  (p.perfEvent (tileOfChan c) (8 * (c % 2)) 8 (if write then 2 else 1) 1 vmid none).bwCount 1 (if write then 1 else 0) c 0 64

/-- Write bytes of a line to memory from a home (R324, R341): a channel that is off loses them. During a flush a write that finds
the queue full waits as a message (R327, R337). -/
def Part.memWrite (p : Part) (home line : Nat) (d : Vec) (mask : Dword) (pois : BitVec 4) : Part :=
  match p.decode (line * 64) with
  | none => p
  | some t =>
    if t.cxl then p.sendMem .mwr t (line * 64) d mask pois home
    else if p.overCap t.chan t.ca then p.setRg F.MC_STAT_OVERCAP 1 t.chan
    else if (p.chanOf t.chan).off then
      p.rasLog (tileOfChan t.chan) 0xFF 8 0 4 (line * 64) (.named [0, coreTile home])
    else if p.flushOn ∧ (p.chanOf t.chan).wq.length ≥ 64 then p.sendMem .mwr t (line * 64) d mask pois home
    else ((p.chanWrite t.chan ⟨t.ca, d, mask, pois⟩).chanServed t.chan true (some 0)).crossedPair .mwr .cmp (p.homeAgent home) (p.chanAgent t.chan) line

/-- How a memory read ends. -/
inductive MemAns where
  | line (l : Line)
  /-- the stand-in answers: poisoned, STATUS 2 -/
  | standIn
  | unassigned
  /-- another unit or socket must answer -/
  | remote (t : Target)
  deriving DecidableEq, Repr

/-- Read a line of memory (R324). -/
def Part.memRead (p : Part) (line : Nat) : MemAns :=
  match p.decode (line * 64) with
  | none => .unassigned
  | some t =>
    if t.cxl then .remote t
    else if p.overCap t.chan t.ca then .unassigned
    else if (p.chanOf t.chan).off then .standIn
    else if p.flushOn then .remote t
    else .line (p.chanRead t.chan t.ca)

/-- What a memory tile records of a read that memory does not answer: the stand-in's log entry (R19), or a
channel address beyond the capacity (R321). `home` is the tile that asked. -/
def Part.memNote (p : Part) (line home : Nat) : MemAns → Part
  | .standIn =>
    let t := match p.decode (line * 64) with | some t => tileOfChan t.chan | none => 0
    p.rasLog t 0xFF 8 0 4 (line * 64) (.named [0, home])
  | .unassigned =>
    match p.decode (line * 64) with
    | some t => if t.skt = p.sktId && !t.cxl && p.overCap t.chan t.ca then p.setRg F.MC_STAT_OVERCAP 1 t.chan else p
    | none => p
  | _ => p

end Sys2Proof.Machine
end

