-- ==== Sys2Proof/Machine/Home.lean ====
section
/-!
DEFINITION. The home of a line and what one whole transaction of R289 and R290 does to the L2s, the
directory, the slice, the atomic unit and memory. A core's load, store drain or AMO uses these net
effects in one step; the single messages of R287 act on the same state (Machine/Protocol.lean).
-/
namespace Sys2Proof.Machine

/-- The result of an access to coherent memory. -/
inductive Acc2 where
  | done (p : Part) (l : Line)
  /-- it must wait: the line is busy, or another socket, device or buffer must answer first -/
  | wait (p : Part)
  /-- the address is unassigned (R19) -/
  | unassigned (p : Part)

/-- The home slice of a line within this socket (R230). -/
def Part.homeOf (p : Part) (line : Nat) : Nat :=
  let h := homeSlot line
  (((List.range nSlices).map (fun i => (h + i) % nSlices)).find? p.sliceInSvc).getD h

/-- The home socket of a line, if the line is assigned. -/
def Part.homeSkt (p : Part) (line : Nat) : Option Nat := (p.decode (line * 64)).map (·.skt)

/-- The code of the L2 of core `c` of this socket as an owner (R283). -/
def Part.ownCode (p : Part) (c : Nat) : Nat := p.sktId * 512 + tileOfCore c * 2 + c % 2
/-- The code of a core tile of this socket as a sharer. -/
def Part.tileCode (p : Part) (c : Nat) : Nat := p.sktId * 256 + tileOfCore c
/-- The core of an owner code. -/
def ownCore (o : Nat) : Nat := 2 * ((coreOrd (o / 2 % 256)).getD 0) + o % 2
/-- The first core of a sharer's tile. -/
def shareCore (t : Nat) : Nat := 2 * ((coreOrd (t % 256)).getD 0)

/-- The line in the L2 of core `c`. -/
def Part.l2Get (p : Part) (c line : Nat) : Option L2Line := (p.coreOf c).l2.find? line

/-- The line in the L2 of core `c` or in its write-back buffers (R292). -/
def Part.copyGet (p : Part) (c line : Nat) : Option L2Line :=
  match p.l2Get c line with
  | some x => some x
  | none => (p.coreOf c).wbuf.find? line

/-- Invalidate the L2 copy, and the L1 copies in the same step (R220); a copy in a write-back buffer goes too. -/
def Part.l2Drop (p : Part) (c line : Nat) : Part :=
  p.modCore c (fun s => { s with l2 := s.l2.del line, wbuf := s.wbuf.del line, l1d := s.l1d.drop line, l1i := s.l1i.drop line })

/-- A line of the L2 is used: the replacement tree of its set follows (R218). -/
def Part.l2Touch (p : Part) (c line : Nat) : Part :=
  match p.l2Get c line with
  | some x => p.modCore c (fun s => { s with l2p := s.l2p.put (l2Set line) (treeTouch x.way 3 1 (s.l2p.get 0 (l2Set line))) })
  | none => p

/-- The access that a won line was asked for has been performed: the use-once deferral ends (R303). -/
def Part.l2Used (p : Part) (c line : Nat) : Part :=
  match p.l2Get c line with
  | some x => if x.held ∨ x.foreign then p.modCore c (fun s => { s with l2 := s.l2.put line { x with held := false, foreign := false } })
              else p
  | none => p

/-- Both L2s of a core tile lose the line. -/
def Part.tileDrop (p : Part) (c line : Nat) : Part := (p.l2Drop (c / 2 * 2) line).l2Drop (c / 2 * 2 + 1) line

/-- Does either L2 of the core's tile hold the line? -/
def Part.tileHolds (p : Part) (c line : Nat) : Bool :=
  (p.copyGet (c / 2 * 2) line).isSome || (p.copyGet (c / 2 * 2 + 1) line).isSome

/-- The copy of core `c`, in its L2 or in a write-back buffer, changes state. -/
def Part.l2SetState (p : Part) (c line : Nat) (st : L2St) : Part :=
  match p.l2Get c line with
  | some x => p.modCore c (fun s => { s with l2 := s.l2.put line { x with st := st } })
  | none =>
    match (p.coreOf c).wbuf.find? line with
    | some x => p.modCore c (fun s => { s with wbuf := s.wbuf.put line { x with st := st } })
    | none => p

def Part.dirGet (p : Part) (k line : Nat) : Option DirEnt := (p.sliceOf k).dir.find? line
/-- Record the entry of a line; a new entry takes a free way of its set, and the set's replacement tree follows (R283,
R286). -/
def Part.dirPut (p : Part) (k line : Nat) (d : DirEnt) : Part :=
  p.modSlice k (fun s =>
    let taken := (s.dirw.filter (fun e => dirSet e.1 = dirSet line)).map (·.2)
    let w := (s.dirw.find? line).getD (((List.range 16).find? (fun i => !taken.contains i)).getD 0)
    { s with dir := s.dir.put line d, dirw := s.dirw.put line w,
             dirp := s.dirp.put (dirSet line) (treeTouch w 4 1 (s.dirp.get 0 (dirSet line))) })
def Part.dirDel (p : Part) (k line : Nat) : Part :=
  p.modSlice k (fun s => { s with dir := s.dir.del line, dirw := s.dirw.del line })

/-- Whether a transaction on the line has begun and not completed (R282). -/
def Part.lineBusy (p : Part) (k line : Nat) : Bool :=
  (p.sliceOf k).trk.any (fun t => t.active && decide (t.req.addr / 64 = line))

/-- Trackers in use (R282): a back-invalidation is no request and takes none. -/
def Part.trkUsed (p : Part) (k : Nat) : Nat := ((p.sliceOf k).trk.filter (fun t => t.req.opc ≠ .snpbi)).length

/-- A request for the line that reaches home `k` now begins at once: no transaction of the line is under way or waits,
and a tracker is free (R282). -/
def Part.homeFree (p : Part) (k line : Nat) : Bool :=
  !(p.sliceOf k).trk.any (fun t => decide (t.req.addr / 64 = line)) && decide (p.trkUsed k < 64)

/-- Requesters of home `k`'s arbiter with work (R305): requests and responses that have arrived, and waiting requests that
can start. Maintenance and back-invalidations request when they act. -/
def Part.homeWants (p : Part) (k : Nat) : List Nat :=
  let s := p.sliceOf k
  let here (req : Bool) : Bool := p.net.any (fun m => decide (m.dst = p.homeAgent k) && decide (decide (m.opc.cls = 0) = req) && p.landed m)
  let ready (t : Trk) : Bool := !t.active && !s.trk.any (fun x => x.active &&
    (decide (x.req.addr / 64 = t.req.addr / 64) || (decide (x.req.opc = .snpbi) && decide (dirSet (x.req.addr / 64) = dirSet (t.req.addr / 64)))))
  (if here true && decide (p.trkUsed k < 64) then [0] else []) ++ (if here false then [1] else []) ++ (if s.trk.any ready then [2] else [])

/-- Requester `r` of home `k` has its turn, unless another wins the round. -/
def Part.homeTurn (p : Part) (k r : Nat) : Option Part := p.homeRound k r (p.homeWants k)

/-- Core `c` makes a snoop that removes or downgrades the line wait: for PACK of a PWT of the line, or for the deferral,
24 core cycles at most, or hold of a won line (R292, R303, R304). -/
def Part.coreKeeps (p : Part) (c line : Nat) : Bool :=
  (p.coreOf c).pwt.contains line ||
    (match p.l2Get c line with
    | some x => (x.held && decide ((p.coreOf c).cycle ≤ x.won + 24)) || decide ((p.coreOf c).cycle < x.won + x.hold)
    | none => false)

/-- Either core of a tile makes such a snoop wait. -/
def Part.tileKeeps (p : Part) (c line : Nat) : Bool :=
  p.coreKeeps (c / 2 * 2) line || p.coreKeeps (c / 2 * 2 + 1) line

/-- The SHARERS format after a holder is added (R285). -/
def fmtAfter (home : Nat) (f : DirFmt) (sharers : List Nat) : DirFmt :=
  match f with
  | .loc => if sharers.all (fun t => t / 256 = home) then .loc else if sharers.length ≤ 8 then .ptr else .bcast
  | .ptr => if sharers.length ≤ 8 then .ptr else .bcast
  | .bcast => .bcast

/-- Add a sharer tile to an entry. -/
def Part.addSharer (p : Part) (d : DirEnt) (t : Nat) : DirEnt :=
  let sh := if d.sharers.contains t then d.sharers else d.sharers ++ [t]
  { d with sharers := sh, fmt := fmtAfter p.sktId d.fmt sh }

/-- The ways in which partition `q` may allocate (R237). -/
def Part.sliceWays (p : Part) (k q : Nat) : List Nat :=
  (List.range 16).filter (fun w => (p.rg F.LLC_ALLOC_WAYS k q).testBit w
    && (p.rg F.LLC_WAYSTAT_POWERED k).testBit (w / 4) && !(p.rg F.LLC_WAYSTAT_RETIRED k).testBit w)

/-- Drop a line from the slice's data ways. -/
def Part.sliceDrop (p : Part) (k line : Nat) : Part := p.modSlice k (fun s => { s with llc := s.llc.del line })

/-- A line of the slice's data ways is used: the replacement tree of its set follows (R218). -/
def Part.sliceTouch (p : Part) (k line : Nat) : Part :=
  match (p.sliceOf k).llc.find? line with
  | some x => p.modSlice k (fun s => { s with llcp := s.llcp.put (llcSet line) (treeTouch x.way 4 1 (s.llcp.get 0 (llcSet line))) })
  | none => p

/-- Put a line into the slice for partition `q` (R232, R237): into its way if present, else a free allocatable way, else
the allocatable way that the set's tree points to (R218), whose modified data goes to memory. With no allocatable way a
modified line goes to memory. -/
def Part.sliceAlloc (p : Part) (k line q : Nat) (l : Line) (dirty : Bool) : Part :=
  match (p.sliceOf k).llc.find? line with
  | some x => (p.modSlice k (fun s => { s with llc := s.llc.put line { x with line := l, dirty := x.dirty || dirty } })).sliceTouch k line
  | none =>
    let ways := p.sliceWays k q
    let inSet := (p.sliceOf k).llc.filter (fun e => llcSet e.1 = llcSet line)
    let put (p : Part) (w : Nat) : Part :=
      (p.modSlice k (fun s => { s with llc := s.llc.put line ⟨l, dirty, q, w⟩ })).sliceTouch k line
    match ways.find? (fun w => !inSet.any (fun e => e.2.way = w)) with
    | some w => put p w
    | none =>
      if ways.length = 0 then
        (if dirty then p.memWrite k line l.data (BitVec.allOnes 64) l.pois else p)
      else
        let w := treeVictim ways.contains ((p.sliceOf k).llcp.get 0 (llcSet line)) 4 1 0
        let p := match inSet.find? (fun e => e.2.way = w) with
          | some (a, x) =>
            (if x.dirty then p.memWrite k a x.line.data (BitVec.allOnes 64) x.line.pois else p).sliceDrop k a
          | none => p
        put p w

/-- Take a line out of the atomic unit's buffer and write it to the slice under partition 7 (R300). -/
def Part.abufOut (p : Part) (k line : Nat) : Part :=
  match (p.sliceOf k).abuf.find? (fun e => e.line = line) with
  | none => p
  | some e =>
    (p.modSlice k (fun s => { s with abuf := s.abuf.filter (fun x => x.line ≠ line) })).sliceAlloc k line 7 e.val true

/-- The home's own data for a line: the atomic unit's buffer, the slice, or memory. -/
def Part.homeData (p : Part) (k line : Nat) : Part × MemAns × Bool :=
  let p := p.abufOut k line
  match (p.sliceOf k).llc.find? line with
  | some x => (p.sliceTouch k line, .line x.line, false)
  | none =>
    let a := p.memRead line
    (p.memNote line (coreTile k) a, a, true)

/-- Is the line in a region marked persistent? -/
def Part.isPers (p : Part) (line : Nat) : Bool :=
  match p.decode (line * 64) with | some t => t.pers | none => false

/-- Write a modified line that reaches the home (R232, R290): into the slice, or on to memory. -/
def Part.homeWriteBack (p : Part) (k line q : Nat) (l : Line) : Part := p.sliceAlloc k line q l true

/-- Remove core `c` from the entry of a line it no longer holds (R283, R290). -/
def Part.dirRemove (p : Part) (k line c : Nat) : Part :=
  match p.dirGet k line with
  | none => p
  | some d =>
    let sh := if p.tileHolds c line then d.sharers else d.sharers.filter (· ≠ p.tileCode c)
    let owns := decide (d.st ≠ .s) && decide (d.owner = p.ownCode c)
    if owns then
      (if sh.isEmpty ∨ d.st ≠ .o then p.dirDel k line else p.dirPut k line { d with st := .s, owner := 0, sharers := sh })
    else if d.st = .s ∧ sh.isEmpty then p.dirDel k line
    else p.dirPut k line { d with sharers := sh }

/-- The partition number of a thread's requests (R236). -/
def Part.partOf (p : Part) (t : Nat) : Nat :=
  let k := t / 4
  match t % 4 with
  | 0 => p.rg F.LLC_TPART_C0T0 k
  | 1 => p.rg F.LLC_TPART_C0T1 k
  | 2 => p.rg F.LLC_TPART_C1T0 k
  | _ => p.rg F.LLC_TPART_C1T1 k

/-- The L2 of core `c` evicts a line (R229): a modified line is written to its home slice (WBM), of a clean one the home
has notice (WBC), with data, which the home uses under its CLEANVICT. Where the home cannot serve the eviction at once
the line waits in a write-back buffer (R292) and the message is sent. It is charged to thread `t`, whose miss caused it, and
to the thread's partition (R236, R277). -/
def Part.l2Evict (p : Part) (c line t : Nat) : Part :=
  match p.l2Get c line with
  | none => p
  | some x =>
    let k := p.homeOf line
    let wb := decide (x.st = .m) || decide (x.st = .o)
    let q := p.partOf t
    let a : Agent := ⟨p.sktId, tileOfCore c, initOfThread t⟩
    if p.homeSkt line = some p.sktId ∧ p.homeFree k line then
      let p := (p.l2Drop c line).dirRemove k line c
      let p := if wb then p.crossedPair .wbm .cmp a (p.homeAgent k) line else p.crossed .wbc a (p.homeAgent k) p.fab.next line
      if wb then p.homeWriteBack k line q x.line
      else if p.rgOn F.LLC_CFG_CLEANVICT k ∧ ((p.sliceOf k).llc.find? line).isNone then p.sliceAlloc k line q x.line false
      else p
    else
      let sk := (p.homeSkt line).getD p.sktId
      let r := (p.l2Drop c line).modCore c (fun s =>
        { s with wbuf := s.wbuf.put line { x with held := false, hold := 0 }, wbout := s.wbout ++ [line] })
      let r := r.send { Msg.blank with opc := (if wb then .wbm else .wbc), src := a,
                                       dst := ⟨sk, if sk = r.sktId then coreTile k else coreTile (homeSlot line), 4⟩,
                                       txid := r.seq, addr := line * 64, data := x.line.data,
                                       mask := (if wb ∨ sk ≠ r.sktId ∨ r.rgOn F.LLC_CFG_CLEANVICT k then BitVec.allOnes 64 else 0), pois := x.line.pois, part := q, pers := wb && r.isPers line }
      { r with seq := r.seq + 1 }

/-- Put a line into the L2 of core `c` for a miss of thread `t`, evicting the way of its set that the tree points to when no way is free (R218). -/
def Part.l2Install (p : Part) (c line t : Nat) (st : L2St) (l : Line) : Part :=
  let cs := p.coreOf c
  match cs.l2.find? line with
  | some x => (p.modCore c (fun s => { s with l2 := s.l2.put line { x with st := st, line := l } })).l2Touch c line
  | none =>
    let ways := (List.range 8).filter (fun w => !cs.l2ret.contains w)
    let inSet := cs.l2.filter (fun e => l2Set e.1 = l2Set line)
    let put (p : Part) (w : Nat) : Part :=
      (p.modCore c (fun s => { s with l2 := s.l2.put line ⟨st, l, w, false, 0, 0, false⟩ })).l2Touch c line
    match ways.find? (fun w => !inSet.any (fun e => e.2.way = w)) with
    | some w => put p w
    | none =>
      let w := treeVictim ways.contains (cs.l2p.get 0 (l2Set line)) 3 1 0
      put (match inSet.find? (fun e => e.2.way = w) with
        | some (a, _) => p.l2Evict c a t
        | none => p) w

/-- All holders of an entry lie in this socket. -/
def Part.dirLocal (p : Part) (d : DirEnt) : Bool :=
  d.sharers.all (fun t => t / 256 = p.sktId) && (decide (d.st = .s) || decide (d.owner / 512 = p.sktId))

/-- The entry's holders that are L2s of this socket: every core of its tiles. -/
def DirEnt.cores (d : DirEnt) : List Nat :=
  (if d.st = .s then [] else [ownCore d.owner]) ++ (d.sharers.map (fun t => [shareCore t, shareCore t + 1])).flatten

/-- Invalidate every holder of an entry but core `keep`, and free the entry (SNPI to all). The
modified data of an owner is the caller's to take first. -/
def Part.invalidateAll (p : Part) (k line : Nat) (d : DirEnt) (keep : Option Nat) : Part :=
  (d.cores.foldl (fun q c => if some c = keep then q else q.l2Drop c line) p).dirDel k line

/-- The owner's line, when an L2 owns it. -/
def Part.ownerLine (p : Part) (d : DirEnt) (line : Nat) : Option L2Line :=
  if d.st = .s then none else p.copyGet (ownCore d.owner) line

/-- An owner's data is modified. -/
def L2Line.modified (x : L2Line) : Bool := decide (x.st = .m) || decide (x.st = .o)

/-- A holder's tile, core `c`'s apart, makes a snoop that removes its copy wait (R292). -/
def Part.keptBack (p : Part) (d : DirEnt) (line : Nat) (c : Option Nat) : Bool :=
  d.cores.any (fun x => decide (some x ≠ c) && p.tileKeeps x line)

/-- The tiles that an entry's holders lie in: the owner's, then the sharers'. -/
def DirEnt.tiles (d : DirEnt) : List Nat :=
  let own := if d.st = .s then [] else [d.owner / 512 * 256 + d.owner / 2 % 256]
  own ++ d.sharers.filter (fun t => !own.contains t)

/-- Where a snoop to every holder goes (R285): in BCAST format to every core tile of the home's socket `me` when a holder
lies there, and once to tile D of each other socket with a holder; otherwise to each holder's tile. -/
def DirEnt.snoopTiles (d : DirEnt) (me : Nat) : List Nat :=
  if d.fmt ≠ .bcast then d.tiles
  else
    let skts := (d.tiles.map (· / 256)).eraseDups
    (if skts.contains me then (List.range nSlices).map (fun o => me * 256 + coreTile o) else [])
      ++ (skts.filter (· ≠ me)).map (fun s => s * 256 + tileD)

/-- HOME_TMO of a request accepted now, in microseconds (R306, R318). -/
def Part.homeTmo (p : Part) (k : Nat) : Nat := min 10000 (max 1 (p.rg F.COH_TMO_US k))

/-- Begin the back-invalidation of an entry by messages: SNPBI to every holder, under a record of its own whose request is
the SNPBI itself (R286). -/
def Part.backInv (p : Part) (k line : Nat) (d : DirEnt) : Part :=
  let home : Agent := ⟨p.sktId, coreTile k, 4⟩
  let q : Msg := { Msg.blank with opc := .snpbi, src := home, txid := p.seq, addr := line * 64, bc := decide (d.fmt = .bcast) }
  let tiles := d.snoopTiles p.sktId
  let t : Trk := { req := q, active := true, ans := tiles, cack := false, cacked := false, others := false, vis := false, memw := false, fill := false,
                   data := none, step := 0, time := p.time, tmo := p.homeTmo k }
  let p := p.modSlice k (fun s => { s with trk := s.trk ++ [t] })
  let p := tiles.foldl (fun (r : Part) (x : Nat) => r.send { q with dst := ⟨x / 256, x % 256, 0⟩ }) p
  ({ p with seq := p.seq + 1 } : Part).homeGrant k 4

/-- Make room in the directory set of a line (R286): with 16 entries in the set, the victim is the entry that the set's
tree points to among those whose lines are not busy; it is back-invalidated and its modified data written back. The Bool
says that there is room; otherwise the request waits, for the answers to a back-invalidation of the set under way, or
because every line of the set is busy (COH_STAT.DIRFULL). -/
def Part.dirRoom (p : Part) (k line : Nat) : Part × Bool :=
  let inSet := (p.sliceOf k).dir.filter (fun e => dirSet e.1 = dirSet line)
  if (p.dirGet k line).isSome ∨ inSet.length < 16 then (p, true)
  else if (p.sliceOf k).trk.any (fun t => decide (t.req.opc = .snpbi) && decide (dirSet (t.req.addr / 64) = dirSet line)) then (p, false)
  else
    let free := inSet.filter (fun e => !p.lineBusy k e.1)
    let wayOf (a : Nat) : Nat := (p.sliceOf k).dirw.get 0 a
    let w := treeVictim (fun i => free.any (fun e => wayOf e.1 = i)) ((p.sliceOf k).dirp.get 0 (dirSet line)) 4 1 0
    match free.find? (fun e => wayOf e.1 = w) with
    | none => (p.setRg F.COH_STAT_DIRFULL 1 k, false)
    | some (a, d) =>
      let p := p.count F.COH_BINV_COUNT F.COH_STAT_OVF k
      if ¬ p.dirLocal d ∨ p.keptBack d a none then (p.backInv k a d, false)
      else
        let own := p.ownerLine d a
        let p := (p.invalidateAll k a d none).homeGrant k 4
        match own with
        | some x => (if x.modified then p.homeWriteBack k a 7 x.line else p, true)
        | none => (p, true)

/-- A line that core `c` is writing back cannot be asked for again before its home has it (R292). -/
def Part.inWbuf (p : Part) (c line : Nat) : Bool := (p.coreOf c).wbout.contains line

/-- A line read from memory for a core enters the slice under LLC_CFG.MEMFILL (R232). -/
def Part.memFill (p : Part) (k line q : Nat) (l : Line) (fromMem : Bool) : Part :=
  if fromMem ∧ p.rgOn F.LLC_CFG_MEMFILL k then p.sliceAlloc k line q l false else p

/-- Reading for sharing, RDS (R289): the line for core `c` at thread `t`'s request, and the new states. -/
def Part.cohRead (p : Part) (c line t : Nat) : Acc2 :=
  let q := p.partOf t
  match p.l2Get c line with
  | some x => .done (p.l2Touch c line) x.line
  | none =>
    match p.homeSkt line with
    | none => .unassigned p
    | some sk =>
      let k := p.homeOf line
      if sk ≠ p.sktId ∨ p.inWbuf c line ∨ ¬ p.homeFree k line then .wait p
      else
        match p.dirGet k line with
        | some d =>
          if ¬ p.dirLocal d then .wait p
          else
            match d.st, p.ownerLine d line with
            | .s, _ =>
              let (p, a, fromMem) := p.homeData k line
              match a with
              | .line l =>
                .done (((p.memFill k line q l fromMem).dirPut k line (p.addSharer d (p.tileCode c))).l2Install c line t .s l) l
              | .standIn => .done p { data := 0, pois := 0xF }
              | .unassigned => .unassigned p
              | .remote _ => .wait p
            | _, some x =>
              let oc := ownCore d.owner
              if p.tileKeeps oc line then .wait p
              else if x.modified then
                .done (((p.l2SetState oc line .o).dirPut k line
                  (p.addSharer { d with st := .o } (p.tileCode c))).l2Install c line t .s x.line) x.line
              else
                .done (((p.l2SetState oc line .s).dirPut k line
                  (p.addSharer (p.addSharer { d with st := .s, owner := 0 } (p.tileCode oc)) (p.tileCode c))).l2Install
                    c line t .s x.line) x.line
            | _, none => .wait p
        | none =>
          let (p, room) := p.dirRoom k line
          if ¬ room then .wait p else
          let (p, a, fromMem) := p.homeData k line
          match a with
          | .line l =>
            let p := p.memFill k line q l fromMem
            if p.rgOn F.COH_CFG_EGRANT k then
              .done ((p.dirPut k line ⟨.e, p.ownCode c, .loc, []⟩).l2Install c line t .e l) l
            else .done ((p.dirPut k line ⟨.s, 0, .loc, [p.tileCode c]⟩).l2Install c line t .s l) l
          | .standIn => .done p { data := 0, pois := 0xF }
          | .unassigned => .unassigned p
          | .remote _ => .wait p

/-- Reading with ownership, RDO, UPG or OWN (R289, R291): core `c` then holds the line M. With
`whole` no data is fetched (R228). -/
def Part.cohOwn (p : Part) (c line t : Nat) (whole : Bool) : Acc2 :=
  let q := p.partOf t
  match p.homeSkt line with
  | none => .unassigned p
  | some sk =>
    let k := p.homeOf line
    match p.l2Get c line with
    | some x =>
      if x.st = .m ∨ x.st = .e then .done ((p.l2SetState c line .m).l2Touch c line) x.line
      else if sk ≠ p.sktId ∨ ¬ p.homeFree k line then .wait p
      else
        match p.dirGet k line with
        | none => .wait p
        | some d =>
          if ¬ p.dirLocal d ∨ p.keptBack d line (some c) then .wait p
          else .done ((((p.invalidateAll k line d (some c)).dirPut k line ⟨.m, p.ownCode c, .loc, []⟩).l2SetState c line .m).l2Touch c line)
                 x.line
    | none =>
      if sk ≠ p.sktId ∨ p.inWbuf c line ∨ ¬ p.homeFree k line then .wait p
      else
        let grant (p : Part) (l : Line) : Acc2 :=
          .done ((p.dirPut k line ⟨.m, p.ownCode c, .loc, []⟩).l2Install c line t .m l) l
        let fromHome (p : Part) : Acc2 :=
          if whole then grant ((p.abufOut k line).sliceDrop k line) Line.zero
          else
            let (p, a, fromMem) := p.homeData k line
            match a with
            | .line l => grant (p.memFill k line q l fromMem) l
            | .standIn => .done p { data := 0, pois := 0xF }
            | .unassigned => .unassigned p
            | .remote _ => .wait p
        match p.dirGet k line with
        | some d =>
          if ¬ p.dirLocal d ∨ p.keptBack d line none then .wait p
          else
            match p.ownerLine d line with
            | some x => grant (p.invalidateAll k line d none) x.line
            | none =>
              match fromHome p with
              | .done r l => if (r.l2Get c line).isSome then fromHome (p.invalidateAll k line d none) else .done r l
              | a => a
        | none =>
          let (p, room) := p.dirRoom k line
          if room then fromHome p else .wait p

/-- A non-allocating read, RDNA (R289, R293). -/
def Part.naRead (p : Part) (line : Nat) : Acc2 :=
  match p.homeSkt line with
  | none => .unassigned p
  | some sk =>
    let k := p.homeOf line
    if sk ≠ p.sktId ∨ ¬ p.homeFree k line then .wait p
    else
      let home (p : Part) : Acc2 :=
        let (p, a, _) := p.homeData k line
        match a with
        | .line l => .done p l
        | .standIn => .done p { data := 0, pois := 0xF }
        | .unassigned => .unassigned p
        | .remote _ => .wait p
      match p.dirGet k line with
      | some d =>
        if d.st = .s then home p
        else
          match p.ownerLine d line with
          | some x => .done p x.line
          | none => .wait p
      | none => home p

/-- Write bytes into the slice copy of a line, if one exists; a line that the atomic unit holds leaves it first (R290,
R300). -/
def Part.sliceMerge (p : Part) (k line : Nat) (d : Vec) (m : Dword) (pois : BitVec 4) : Part :=
  let p := p.abufOut k line
  match (p.sliceOf k).llc.find? line with
  | some x => (p.modSlice k (fun s => { s with llc := s.llc.put line { x with line := x.line.write d m pois } })).sliceTouch k line
  | none => p

/-- The bytes of a persistent write: into the slice copy if one exists, and to the persistent write
buffer of the memory tile (R290, R335). `none`: not accepted yet. -/
def Part.persist (p : Part) (k line : Nat) (d : Vec) (m : Dword) (pois : BitVec 4) : Option Part × Part :=
  match p.decode (line * 64) with
  | none => (some p, p)
  | some t =>
    if t.cxl then (none, p)
    else
      match p.pwbAccept t.chan ⟨t.ca, d, m, pois⟩ with
      | (some q, _) =>
        let q := ((q.sliceMerge k line d m pois).perfEvent (tileOfChan t.chan) 16 4 1 1 none none).crossedPair .mpwt .cmp (p.homeAgent k) ⟨p.sktId, tileOfChan t.chan, 2⟩ line
        (some q, q)
      | (none, q) => (none, q)

/-- Write a line or bytes of it that a prepared write brings (R232, R294): an I/O agent's into the slice under
LLC_CFG.IOALLOC, other bytes to memory with any slice copy updated. -/
def Part.naPut (p : Part) (k line : Nat) (d : Vec) (m : Dword) (pois : BitVec 4) (io : Bool) : Part :=
  let alloc := io && p.rgOn F.LLC_CFG_IOALLOC k
  match (p.sliceOf k).llc.find? line with
  | some x =>
    if alloc then p.sliceAlloc k line 7 (x.line.write d m pois) true
    else (p.sliceMerge k line d m pois).memWrite k line d m pois
  | none =>
    if alloc ∧ m = BitVec.allOnes 64 then p.sliceAlloc k line 7 ⟨d, pois⟩ true
    else if alloc then
      match p.memRead line with
      | .line l => p.sliceAlloc k line 7 (l.write d m pois) true
      | _ => p.memWrite k line d m pois
    else p.memWrite k line d m pois

/-- The bytes to write when an owner's modified line has been collected: that line with the new bytes, or the new bytes
alone (R289). -/
def withOwner (own : Option Line) (d : Vec) (m : Dword) (pois : BitVec 4) : Vec × Dword × BitVec 4 :=
  match own with
  | some b => ((b.write d m pois).data, BitVec.allOnes 64, (b.write d m pois).pois)
  | none => (d, m, pois)

/-- A non-allocating write, WRNA or WRNAP with its VIS (R289, R294): every copy is removed, an owner's
modified data is merged, and the line is written. A line of a persistent region goes to the persistent write buffer when
`pers`. -/
def Part.naWrite (p : Part) (line : Nat) (d : Vec) (m : Dword) (pois : BitVec 4) (io pers : Bool) : Acc2 :=
  match p.homeSkt line with
  | none => .unassigned p
  | some sk =>
    let k := p.homeOf line
    if sk ≠ p.sktId ∨ ¬ p.homeFree k line then .wait p
    else
      let ent := p.dirGet k line
      if (match ent with | some e => !p.dirLocal e || p.keptBack e line none | none => false) then .wait p
      else
        let own := match ent with | some e => p.ownerLine e line | none => none
        let p0 := p
        let p := p.abufOut k line
        let p := match ent with | some e => p.invalidateAll k line e none | none => p
        let (data, mask, ps) := withOwner ((own.filter L2Line.modified).map L2Line.line) d m pois
        if pers then
          match p.persist k line data mask ps with
          | (some q, _) => .done q Line.zero
          | (none, q) => .wait { p0 with net := q.net, fab := q.fab, ctl := q.ctl }
        else .done (p.naPut k line data mask ps io) Line.zero

/-- Bring a line without L2 copies into the atomic unit's buffer (R297, R300): `own` is the line that an owner gave up.
Eight lines are held, most recently used first; the last leaves for a new one. -/
def Part.abufTake (p : Part) (k line : Nat) (own : Option Line) : Acc2 :=
  let put (p : Part) (l : Line) : Acc2 :=
    let ab := (p.sliceOf k).abuf
    let p := if ab.length ≥ 8 then (match ab.getLast? with | some e => p.abufOut k e.line | none => p) else p
    .done ((p.sliceDrop k line).modSlice k (fun s => { s with abuf := ⟨line, l⟩ :: s.abuf })) l
  match own with
  | some l => put (p.modSlice k (fun s => { s with abuf := s.abuf.filter (fun e => e.line ≠ line) })) l
  | none =>
    match (p.sliceOf k).abuf.find? (fun e => e.line = line) with
    | some e => .done (p.modSlice k (fun s => { s with abuf := e :: s.abuf.filter (fun x => x.line ≠ line) })) e.val
    | none =>
      match (p.sliceOf k).llc.find? line with
      | some x => put p x.line
      | none =>
        let a := p.memRead line
        let p := p.memNote line (coreTile k) a
        match a with
        | .line l => put p l
        | .standIn => .done p { data := 0, pois := 0xF }
        | .unassigned => .unassigned p
        | .remote _ => .wait p

/-- Another agent's AMO on the line at unit `k` is at most 1,024 router cycles old (R299). A router cycle of an uncore at
FEFF steps of 25 MHz lasts 40 / FEFF ns. -/
def Part.amoRecent (p : Part) (k line who : Nat) : Bool :=
  (p.sliceOf k).amos.any (fun a => decide (a.line = line) && decide (a.who ≠ who)
    && decide ((p.time - a.time) * p.rg F.CLK_UNC_FEFF (coreTile k) ≤ 1024 * 40))

/-- Note an executed AMO for later ones (R299); records too old for any uncore speed go. -/
def Part.amoNote (p : Part) (k line who : Nat) : Part :=
  p.modSlice k (fun s => { s with amos := ⟨line, who, p.time⟩ :: s.amos.filter (fun a =>
    !(decide (a.line = line) && decide (a.who = who)) && decide (p.time - a.time ≤ 1024)) })

/-- Bring a line into the atomic unit's buffer with every L2 copy removed, in one step (R297, R300). The Bool says whether
an L2 other than that of core `core` held the line. -/
def Part.abufIn (p : Part) (line core : Nat) : Acc2 × Bool :=
  match p.homeSkt line with
  | none => (.unassigned p, false)
  | some sk =>
    let k := p.homeOf line
    if sk ≠ p.sktId ∨ ¬ p.homeFree k line then (.wait p, false)
    else
      match p.dirGet k line with
      | none => (p.abufTake k line none, false)
      | some e =>
        if ¬ p.dirLocal e ∨ p.keptBack e line none then (.wait p, false)
        else
          let own := (p.ownerLine e line).map L2Line.line
          let others := e.cores.any (fun c => c ≠ core && (p.copyGet c line).isSome)
          match (p.invalidateAll k line e none).abufTake k line own with
          | .wait _ => (.wait p, others)
          | a => (a, others)

/-- The four functions of CMO that act through the home. -/
inductive Cmo where | clean | flush | inval
  deriving DecidableEq, Repr

def Cmo.opc : Cmo → Opc | .clean => .cmoc | .flush => .cmof | .inval => .cmoi

/-- Write a whole line to memory, or to the persistent write buffer for a persistent region (R97, R316). -/
def Part.writeHome (p : Part) (k line : Nat) (l : Line) : Option Part × Part :=
  if p.isPers line then p.persist k line l.data (BitVec.allOnes 64) l.pois
  else
    let q := p.memWrite k line l.data (BitVec.allOnes 64) l.pois
    (some q, q)

/-- CMO CLEAN, FLUSH and INVAL at the home (R289, R97). -/
def Part.cmo (p : Part) (line : Nat) (f : Cmo) : Acc2 :=
  match p.homeSkt line with
  | none => .unassigned p
  | some sk =>
    if sk ≠ p.sktId then .wait p
    else
      let k := p.homeOf line
      if ¬ p.homeFree k line then .wait p
      else
        let p0 := p
        let p := p.abufOut k line
        let ent := p.dirGet k line
        if (match ent with | some e => !p.dirLocal e || p.keptBack e line none | none => false) then .wait p0
        else
          let own := match ent with | some e => p.ownerLine e line | none => none
          match f with
          | .inval =>
            let p := match ent with | some e => p.invalidateAll k line e none | none => p
            .done (p.sliceDrop k line) Line.zero
          | _ =>
            -- the newest copy that memory does not hold
            let newest : Option Line := match own with
              | some x => if x.modified then some x.line else
                  (match (p.sliceOf k).llc.find? line with | some y => if y.dirty then some y.line else none | none => none)
              | none => match (p.sliceOf k).llc.find? line with
                | some y => if y.dirty then some y.line else none
                | none => none
            let w := match newest with | some l => p.writeHome k line l | none => (some p, p)
            match w with
            | (none, q) => .wait { p0 with net := q.net, fab := q.fab, ctl := q.ctl }
            | (some q, _) =>
              if f = .flush then
                let q := match ent with | some e => q.invalidateAll k line e none | none => q
                .done (q.sliceDrop k line) Line.zero
              else
                let q := match (q.sliceOf k).llc.find? line with
                  | some y =>
                    let y2 : SlLine := { y with dirty := false, line := newest.getD y.line }
                    q.modSlice k (fun s => { s with llc := s.llc.put line y2 })
                  | none => q
                match ent, own with
                | some e, some x =>
                  if e.st = .o then
                    .done ((q.l2SetState (ownCore e.owner) line .s).dirPut k line
                      (q.addSharer { e with st := .s, owner := 0 } (q.tileCode (ownCore e.owner)))) x.line
                  else .done ((q.l2SetState (ownCore e.owner) line .e).dirPut k line { e with st := .e }) x.line
                | _, _ => .done q Line.zero

/-! ### The messages of a transaction that one step completes (R289) -/

/-- The grant or completion of a request; the snoop of an owner, and whether it has the owner forward the line; whether sharers
lose their copies, and whether the request wants data; the requester's last message. -/
def Opc.grant : Opc → Opc
  | .rds => .ds | .rdo => .dm | .rdna => .dna | .amof => .amor | .cmoc => .cmp | .cmof => .cmp | .cmoi => .cmp | .cmoii => .cmp
  | _ => .gnt
def Opc.ownerSnoop : Opc → Opc
  | .rds => .snps | .rdo => .snpo | .rdna => .snpna | .cmoc => .snpc | .upg => .snpi | .own => .snpi | .cmoi => .snpi
  | _ => .snpf
def Opc.forwards : Opc → Bool
  | .rds => true | .rdo => true | .rdna => true | _ => false
def Opc.takesAll : Opc → Bool
  | .rds => false | .rdna => false | .cmoc => false | _ => true
def Opc.wantsLine : Opc → Bool
  | .rds => true | .rdo => true | .rdna => true | .amof => true | _ => false
def Opc.lastOf : Opc → Option Opc
  | .rds => some .cack | .rdo => some .cack | .upg => some .cack | .own => some .cack
  | .wrna => some .vis | .wrnap => some .vis | _ => none

/-- The messages of a request of agent `a` that was served in one step from state `p`, put onto the torus of state `r`
(R289, notes/assumptions/46.md). -/
def Part.transacts (p : Part) (a : Agent) (line : Nat) (o : Opc) (r : Part) : Part :=
  let k := p.homeOf line
  let h := p.homeAgent k
  let x := r.fab.next
  let say (q : Part) (opc : Opc) (s d : Agent) : Part := q.crossed opc s d x line
  let core (c : Nat) : Agent := ⟨p.sktId, tileOfCore c, 2 * (c % 2)⟩
  let ent := p.dirGet k line
  let owner : Option Nat := match ent with
    | some d => (p.ownerLine d line).map (fun _ => ownCore d.owner)
    | none => none
  let vm := if a.skt = p.sktId ∧ a.init < 4 then match coreOrd a.tile with
    | some n => (p.thread (4 * n + a.init)).attrVmid | none => 0
    else 0
  let ev (q : Part) (e n : Nat) : Part := q.perfEvent (coreTile k) 16 4 e n (some vm) none
  let fromMem := o.wantsLine && owner.isNone && ((p.sliceOf k).llc.find? line).isNone
    && !(p.sliceOf k).abuf.any (fun e => e.line = line)
  let r := ev (say r o a h) 1 1
  let r := match owner with
    | some c =>
      let r := ev (say r o.ownerSnoop h (core c)) 4 1
      let r := if o.forwards then say r o.grant (core c) a else r
      say r (if o.forwards ∨ o.ownerSnoop = .snpi then .acki else .sdat) (core c) h
    | none => r
  let r := match ent with
    | some d => if o.takesAll then d.sharers.foldl (fun (q : Part) (t : Nat) =>
        say (ev (say q .snpi h ⟨p.sktId, t % 256, 0⟩) 4 1) .acki ⟨p.sktId, t % 256, 0⟩ h) r else r
    | none => r
  let r := match (if fromMem then p.decode (line * 64) else none) with
    | some t =>
      say ((ev (say r .mrd h (p.chanAgent t.chan)) 3 1).chanServed t.chan false (some vm)) (if o = .amof then .dna else o.grant) (p.chanAgent t.chan) (if o = .amof then h else a)
    | none => if o.wantsLine && owner.isNone then ev r 2 1 else r
  let r := if o = .amof then ev r 7 1 else r
  let r := if (owner.isSome ∧ o.forwards) ∨ (fromMem ∧ o ≠ .amof) then r else say r o.grant h a
  match o.lastOf with | some l => say r l a h | none => r

/-- The request that an access of core `c` to a line makes, none for a hit (R228, R289). -/
def Part.coreAsks (p : Part) (c line : Nat) (own whole : Bool) : Option Opc :=
  match p.l2Get c line with
  | some x => if ¬ own ∨ x.st = .m ∨ x.st = .e then none else some .upg
  | none => some (if own then (if whole then .own else .rdo) else .rds)

/-- An access that was served in one step, with its messages on the torus. -/
def Part.heard (p : Part) (a : Agent) (line : Nat) (o : Option Opc) : Acc2 → Acc2
  | .done r l => .done (match o with | some o => p.transacts a line o r | none => r) l
  | x => x

/-- The agent of a thread of this socket (R277). -/
def Part.threadAgent (p : Part) (t : Nat) : Agent := ⟨p.sktId, tileOfThread t, initOfThread t⟩

/-- CMO IINV (R289, R97): the L1 instruction caches and loop buffers of every core lose the line. -/
def Part.iinvAll (p : Part) (line : Nat) : Part :=
  { p with core := p.core.map (fun e => (e.1,
      { e.2 with l1i := e.2.l1i.drop line,
                 fbuf := if e.2.fbuf = some line then none else e.2.fbuf,
                 cap0 := e.2.cap0.filter (fun b => !b.lines.contains line),
                 cap1 := e.2.cap1.filter (fun b => !b.lines.contains line) })) }

end Sys2Proof.Machine
end

