-- ==== Sys2Proof/Machine/Thread.lean ====
section
/-!
DEFINITION. Registers of a thread (R31 to R36), its banks (R58, R60), the delegation of causes (R40),
the interrupts that may be taken (R152, R153), taking an exception and returning from one (R41 to R43,
R142 to R149).
-/
namespace Sys2Proof.Machine

/-- g register `i`; g0 reads zero (R32). -/
def Thr.gr (th : Thr) (i : BitVec 5) : Dword := if i = 0 then 0 else th.g.get 0 i.toNat
/-- Write a g register; a write to g0 is discarded (R32). -/
def Thr.setG (th : Thr) (i : BitVec 5) (v : Dword) : Thr :=
  if i = 0 then th else { th with g := th.g.put i.toNat v }
/-- Condition register `i`; c0 reads true (R32). -/
def Thr.cr (th : Thr) (i : BitVec 3) : Bool := if i = 0 then true else th.c.getLsbD i.toNat
def Thr.setC (th : Thr) (i : BitVec 3) (b : Bool) : Thr :=
  if i = 0 then th
  else { th with c := (th.c &&& ~~~ (BitVec.ofNat 8 (2 ^ i.toNat))) ||| (if b then BitVec.ofNat 8 (2 ^ i.toNat) else 0) }
/-- Vector register `i`. -/
def Thr.vr (th : Thr) (i : BitVec 5) : Vec := th.v.get 0 i.toNat
def Thr.setV (th : Thr) (i : BitVec 5) (v : Vec) : Thr :=
  { th with v := th.v.put i.toNat v }
/-- Mask register `i`; m0 reads all ones (R32). -/
def Thr.mr (th : Thr) (i : BitVec 3) : Dword := if i = 0 then BitVec.allOnes 64 else th.m.get 0 i.toNat
def Thr.setM (th : Thr) (i : BitVec 3) (v : Dword) : Thr :=
  if i = 0 then th else { th with m := th.m.put i.toNat v }

/-- Numbers of the loop registers and LACT (R59). -/
def srLC (n : Nat) : Nat := 0x020 + 4 * n
def srLS (n : Nat) : Nat := 0x021 + 4 * n
def srLE (n : Nat) : Nat := 0x022 + 4 * n
def srLACT : Nat := 0x028

def Thr.lact (th : Thr) (n : Nat) : Bool := (th.sys srLACT).getLsbD n
/-- Address bits [63:2] of the end of loop level `n`, as an address. -/
def Thr.loopEnd (th : Thr) (n : Nat) : Dword := th.sys (srLE n) &&& ~~~ 3
def Thr.loopLevel (th : Thr) (n : Nat) : Nat := (th.sys (srLE n)).toNat % 4

/-- The first number of the bank of a level: the guest copies for S while V = 1 (R58, R147). -/
def bankBase (l : Level) (vm : Bool) : Nat :=
  match l with
  | .u => 0x400
  | .s => if vm then 0x880 else 0x400
  | .h => 0x800
  | .f => 0xC00

/-- A core event of thread `t` (R554, R555). -/
def Part.coreEvent (p : Part) (t evt n : Nat) : Part :=
  let th := p.thread t
  p.perfEvent (tileOfThread t) (8 * (t / 2 % 2)) 8 evt n (some th.attrVmid) (some th.level)

/-- Plumb mode is in force on a core (R177). -/
def Part.plumb (p : Part) (c : Nat) : Bool := p.rgOn F.CORE_PLUMB_STAT_ACTIVE c

/-- M of R181: the effective MEMLAT, below 64 applied as 64. -/
def Part.plumbM (p : Part) (c : Nat) : Nat := max 64 (p.rg F.CORE_PLUMB_STAT_MEMLAT c)

/-! ### Interrupts that may be taken -/

/-- Configuration of vector `v`. -/
def Ic.vecOf (ic : Ic) (v : Nat) : IcVec := ic.vec.get IcVec.reset v
def Ic.modVec (ic : Ic) (v : Nat) (f : IcVec → IcVec) : Ic := { ic with vec := ic.vec.upd IcVec.reset v f }

/-- The threshold that governs a vector: ICTHR of its level, ICVTHR for a guest vector (R152). -/
def Ic.threshold (ic : Ic) (x : IcVec) : Nat :=
  match x.lv with
  | .f => (ic.reg.get 0 0xC21).toNat
  | .h => (ic.reg.get 0 0x821).toNat
  | _ => if x.g then (ic.reg.get 0 0x829).toNat else (ic.reg.get 0 0x421).toNat

/-- Unmasked in the sense of R93: every condition of R153 but the current level and the enable. -/
def Ic.unmasked (ic : Ic) (th : Thr) (v : Nat) : Bool :=
  let x := ic.vecOf v
  x.en && x.pend && decide (v ≥ ic.threshold x)
    && (if x.lv = .s then (if x.g then th.vm && decide (th.vmid = x.vmid) else !th.vm) else true)

/-- Deliverable (R153). -/
def Ic.deliverable (ic : Ic) (th : Thr) (v : Nat) : Bool :=
  let x := ic.vecOf v
  ic.unmasked th v && decide (th.level.code ≤ x.lv.code)
    && (th.sys (bankBase x.lv (x.lv = .s && x.g))).getLsbD 0

/-- The vector to take first: highest target level, then highest number (R145). -/
def Ic.best (ic : Ic) (th : Thr) : Option Nat :=
  ((ic.vec.map (·.1)).filter (ic.deliverable th)).foldl (fun b v =>
    match b with
    | none => some v
    | some w =>
      if (ic.vecOf v).lv.code > (ic.vecOf w).lv.code ∨ ((ic.vecOf v).lv = (ic.vecOf w).lv ∧ v > w) then some v
      else b) none

/-- The thread is at a boundary at which an event may be taken (R132, R137): not between a transfer and
its slot, and not while an access that is certain to retire is on its way (R52). -/
def Thr.boundary (th : Thr) : Bool :=
  th.dev.isEmpty && (match th.slot with | none => true | some s => s.fresh)

/-- Plumb entry is under way on a core (R177). -/
def Part.plumbEntering (p : Part) (c : Nat) : Bool := p.rgOn F.CORE_PLUMB_STAT_ENTERING c

/-- An event is due that goes before the next instruction (R145); none is taken while Plumb entry is under way (R177). -/
def Part.eventDue (p : Part) (t : Nat) : Bool :=
  let th := p.thread t
  !(decide (t % 2 = 0) && p.plumbEntering (t / 2)) && th.boundary && (!th.mce.isEmpty || ((p.icOf t).best th).isSome)

/-! ### Core-wide effects of a context-synchronising event -/

/-- A thread parks if it may: it runs or waits, and is at a boundary that R132 permits. -/
def Thr.parkIf (th : Thr) : Thr :=
  if (th.run = .running ∨ th.run = .waiting) ∧ th.boundary then { th with run := .parked } else th

/-- Held CORE_CFG fields take effect (R185): parks or unparks thread 1 through T1EN. -/
def Part.applyCoreCfg (p : Part) (c : Nat) : Part :=
  let pg := Blk.core.place c
  let isCfg (k : Nat) : Bool := inPage pg k && decide (k / 32 % 256 = 1)
  if ¬ p.held.any (fun e => isCfg e.1) then p
  else
    let p := p.applyHeld isCfg
    let t1 := 2 * c + 1
    p.modThread t1 (fun th =>
      -- parked at its next permitted boundary (R132): a thread between a transfer and its slot goes on
      if ¬ p.rgOn F.CORE_CFG_T1EN c then th.parkIf
      else if th.run = .parked ∧ ¬ p.plumb c ∧ ¬ p.plumbEntering c then { th with run := .running }
      else th)

/-- Invalidate caches and predictors of a core at Plumb entry (R177 steps 3 to 5). -/
def CoreSt.clearFront (s : CoreSt) : CoreSt :=
  { s with l1d := TagCache.empty, l1i := TagCache.empty, btb := [], ras0 := [], ras1 := [], cap0 := none, cap1 := none, fbuf := none }

/-- A held CORE_PLUMB write is applied at a context-synchronising instruction of thread 0 (R177). Entry sets ENTERING;
`flush` carries it on. -/
def Part.applyPlumb (p : Part) (c : Nat) (flush : Part → Part) : Part :=
  let pg := Blk.core.place c
  let isPl (k : Nat) : Bool := inPage pg k && decide (k / 32 % 256 = 4)
  if ¬ p.held.any (fun e => isPl e.1) then p
  else
    let p := p.applyHeld isPl
    let p := p.setRg F.CORE_PLUMB_STAT_MEMLAT (max 64 (p.rg F.CORE_PLUMB_MEMLAT c)) c
    let on := p.rgOn F.CORE_PLUMB_EN c
    if on ∧ ¬ p.plumb c then flush ((p.modThread (2 * c + 1) Thr.parkIf).setRg F.CORE_PLUMB_STAT_ENTERING 1 c)
    else if ¬ on ∧ p.plumb c then
      let p := (p.modCore c CoreSt.clearFront).setRg F.CORE_PLUMB_STAT_ACTIVE 0 c
      p.modThread (2 * c + 1) (fun th =>
        if th.run = .parked ∧ p.rgOn F.CORE_CFG_T1EN c then { th with run := .running } else th)
    else p

/-- A level is protected by a secret (R170). -/
def Level.secret (l : Level) : Bool := decide (l = .h) || decide (l = .f)

/-- U and S entries of a thread leave the branch target buffer and its return-address stack (R170). -/
def Part.btbDropUS (p : Part) (t : Nat) : Part :=
  p.modCore (t / 2) (fun s =>
    let s := { s with btb := s.btb.filter (fun b => b.level.secret || decide (b.thread ≠ t)) }
    if t % 2 = 0 then { s with ras0 := s.ras0.filter (fun e => e.level.secret) }
    else { s with ras1 := s.ras1.filter (fun e => e.level.secret) })

/-! ### Taking an exception -/

/-- The level that takes a cause (R40): `toH` marks the causes that go to H or F whatever HDELEG says
(R57 case 1, R99, R199). -/
def Thr.target (th : Thr) (cause : Nat) (toH : Bool) : Level :=
  let fd := (th.sys 0xC08).getLsbD cause
  let hd := (th.sys 0x808).getLsbD cause
  if th.level = .f then .f
  else if ¬ fd then .f
  else if toH ∨ ¬ hd ∨ cause = 16 then .h
  else if th.level = .h then .h
  else .s

/-- The LP and LN that R142 gives for a saved pc, when DS = 0. -/
def Thr.loopFlags (th : Thr) (xpc : Dword) : Bool × Bool :=
  let at1 := th.lact 1 && decide (th.loopEnd 1 = xpc) && decide (th.loopLevel 1 = th.level.code)
  let at0 := th.lact 0 && decide (th.loopEnd 0 = xpc) && decide (th.loopLevel 0 = th.level.code)
  if at1 then (true, true) else if at0 then (true, false) else (false, false)

/-- What an exception entry saves besides the cause. -/
structure Saved where
  xpc : Dword
  /-- the destination, when the saved instruction is a delay slot (R134) -/
  xtgt : Option Dword
  xaddr : Dword
  /-- LP and LN follow R142; false for TRAP (R90) -/
  loopFlags : Bool
  deriving DecidableEq, Repr

/-- Exception entry at level `l` (R41, R142, R146, R147), as one step. `cause` is XCAUSE. XPC holds every bit
of the saved address, a misaligned destination's bits [1:0] among them (R45, R148). DESIGN CHOICE
(notes/assumptions/74.md): R60's "read zero" is met where SRD reads it. -/
def Thr.enter (th : Thr) (l : Level) (sv : Saved) (cause : Dword) (off : Nat) : Thr :=
  let b := bankBase l th.vm
  let stat := th.sys b
  let ds := sv.xtgt.isSome
  let (lp, ln) := if ds ∨ ¬ sv.loopFlags then (false, false) else th.loopFlags sv.xpc
  let n := (if ln then 64 else 0) + (if lp then 32 else 0) + (if ds then 16 else 0) + (if th.vm then 8 else 0)
             + (if stat.getLsbD 0 then 4 else 0) + th.level.code
  let th := ((th.setSys (b + 1) sv.xpc).setSys (b + 2) (sv.xtgt.getD 0)).setSys (b + 4) cause
  let th := ((th.setSys (b + 5) sv.xaddr).setSys (b + 3) (dw n)).setSys b 2
  { th with level := l, vm := (if l = .s then th.vm else false), slot := none,
            pc := (th.sys (b + 7) &&& ~~~ 0xFFF) + dw off, blk := (th.sys (b + 7) &&& ~~~ 0xFFF) + dw off }

/-- Halt a thread under R43 and report it to Easel (R585 event 2). -/
def Part.halt (p : Part) (t : Nat) (pc : Dword) (cause : Nat) : Part :=
  (p.modThread t (fun th => { th with run := .halted })).easelLog 2 3 pc.toNat
    ((t / 2) * 2 ^ 8 + t % 2 * 2 ^ 17 + cause * 2 ^ 18)

/-- Effects that every exception and interrupt entry has on the core: context synchronisation (R185, R177), the branch
structures when the level or V of the thread is no longer that of `old` (R170), the fetch buffer (R180) and the event
count. -/
def Part.afterEntry (p : Part) (t : Nat) (old : Thr) (flush : Part → Part) : Part :=
  let th := p.thread t
  let p := if th.level ≠ old.level ∨ th.vm ≠ old.vm then p.btbDropUS t else p
  let p := p.applyCoreCfg (t / 2)
  let p := if t % 2 = 0 then p.applyPlumb (t / 2) flush else p
  (p.modCore (t / 2) (fun s => { s with fbuf := none })).coreEvent t 11 1

/-- Take a synchronous cause or a MACHINE_CHECK (R40 to R43). `sv` is the state to save. -/
def Part.takeCause (p : Part) (t cause : Nat) (toH : Bool) (sv : Saved) (flush : Part → Part) : Part :=
  let th := p.thread t
  let l := th.target cause toH
  let nest (x : Level) : Bool := (th.sys (bankBase x th.vm)).getLsbD 1
  let off := if cause = 16 then 0x100 else 0
  if ¬ nest l then (p.modThread t (fun x => x.enter l sv (dw cause) off)).afterEntry t th flush
  else if l = .f ∨ nest .f then p.halt t sv.xpc cause
  else
    let p := p.mceRecord (tileOfThread t) t (initOfThread t) (.fixed cause)
    (p.modThread t (fun x => x.enter .f { sv with xaddr := 0 } 16 0x100)).afterEntry t th flush

/-- Take interrupt vector `v`: entry at its level, and its PEND is cleared in the same step (R146, R153). -/
def Part.takeInterrupt (p : Part) (t v : Nat) (sv : Saved) (flush : Part → Part) : Part :=
  let l := ((p.icOf t).vecOf v).lv
  let p := p.modIc t (fun ic => ic.modVec v (fun x => { x with pend := false }))
  let th := p.thread t
  (p.modThread t (fun th => th.enter l sv (dw (2 ^ 63 + v)) 0x200)).afterEntry t th flush

/-- What RETX checks (R43, R147): PRIV at U, with PLV above the level, or with PV = 1 and PLV H or F. -/
def Thr.retxDenied (th : Thr) : Bool :=
  let st := (th.sys (bankBase th.level th.vm + 3)).toNat
  let plv := st % 4
  let pv := decide (st / 8 % 2 = 1)
  decide (th.level = .u) || decide (plv > th.level.code) || (pv && decide (plv ≥ 2))

/-- RETX at the current level (R43, R147, R149): the restores and the resumed point. -/
def Thr.ret (th : Thr) : Thr :=
  let b := bankBase th.level th.vm
  let st := (th.sys (b + 3)).toNat
  let keepV := decide (th.level = .s) && th.vm
  let th2 := th.setSys b (if st / 4 % 2 = 1 then 1 else 0)
  { th2 with level := Level.ofCode st,
             vm := if keepV then true else decide (st / 8 % 2 = 1),
             pc := th.sys (b + 1), blk := th.sys (b + 1),
             slot := if st / 16 % 2 = 1 then some ⟨th.sys (b + 2), true⟩ else none }

end Sys2Proof.Machine
end

