-- ==== Sys2Proof/Machine/Walk.lean ====
section
/-!
DEFINITION. Address translation (R186 to R207): table entries and their validity, the walks of one and
two stages, permissions, memory types, TLB entries, and the stage-2 fault record.
-/
namespace Sys2Proof.Machine

/-- What an access needs of its translation (R193, R195) and how TLB_GFINFO names it (R200). -/
structure AccKind where
  r : Bool
  w : Bool
  x : Bool
  /-- A = 1 is required: every access but the LOOP checks -/
  a : Bool
  kind : Nat
  deriving DecidableEq, Repr

def AccKind.fetch : AccKind := ⟨false, false, true, true, 0⟩
/-- The check reads of LOOP (R86, R195). -/
def AccKind.check : AccKind := ⟨false, false, true, false, 0⟩
def AccKind.load : AccKind := ⟨true, false, false, true, 1⟩
def AccKind.store : AccKind := ⟨false, true, false, true, 2⟩
def AccKind.amo : AccKind := ⟨true, true, false, true, 2⟩

/-- The record of a stage-2 cause (R199, R200). -/
structure GFault where
  walk : Bool
  level : Nat
  gpa : Nat
  kind : Nat
  deriving DecidableEq, Repr

/-- The access is made only to cacheable memory: a fetch (R194) or an AMO (R81). -/
def AccKind.cached (k : AccKind) : Bool := k.x || (k.r && k.w)

/-- Result of a translation. -/
inductive Tr where
  /-- physical address, memory type, and the number of walk reads made -/
  | ok (p : Part) (pa : Nat) (mt : MemType) (reads : Nat)
  | fault (p : Part) (cause : Nat) (gf : Option GFault) (reads : Nat)
  | wait (p : Part)

/-- Cause codes (R143). -/
def cIllegal : Nat := 1
def cSlotIllegal : Nat := 2
def cLoopIllegal : Nat := 3
def cPriv : Nat := 4
def cAlign : Nat := 5
def cFetchPerm : Nat := 6
def cLoadPerm : Nat := 7
def cStorePerm : Nat := 8
def cPageAbsent : Nat := 9
def cAccessFlag : Nat := 10
def cDirtyFlag : Nat := 11
def cDataPoison : Nat := 12
def cTrap : Nat := 13
def cBreak : Nat := 14
def cVectorFault : Nat := 15

/-! ### Requests of a core that another agent answers -/

/-- What an L2 asks the home of a line for (R228, R289). -/
inductive Want where
  /-- to read it -/
  | read
  /-- to write some bytes of it -/
  | own
  /-- to write all of it -/
  | whole
  deriving DecidableEq, Repr

/-- The home agent of a line: its slice in this socket, or the slice that its address selects in another. -/
def Part.homeAt (p : Part) (line : Nat) : Agent :=
  let sk := (p.homeSkt line).getD p.sktId
  ⟨sk, if sk = p.sktId then coreTile (p.homeOf line) else coreTile (homeSlot line), 4⟩

/-- Put a request of core `c` for a line on its way to the home, once (R289): RDS, UPG of a copy held without write
permission, OWN for a whole line (R228), or RDO. The miss entry holds it until DS, DE, DM or GNT arrives; a line on its
way back to its home is asked for when it is there. `chunk` is the critical chunk (R233, R288). -/
def Part.askLine (p : Part) (t line : Nat) (want : Want) (chunk : Nat) : Part :=
  let c := t / 2
  if (p.coreOf c).miss.any (fun m => m.1 = line) ∨ p.inWbuf c line ∨ (p.coreOf c).miss.length ≥ 48 then p
  else
    let opc : Opc := match want with
      | .read => .rds
      | .whole => .own
      | .own => if (p.l2Get c line).isSome then .upg else .rdo
    let m : Msg := { Msg.blank with opc := opc, src := ⟨p.sktId, tileOfCore c, initOfThread t⟩,
                                    dst := p.homeAt line, txid := p.seq, addr := line * 64,
                                    vmid := (p.thread t).attrVmid, pers := p.isPers line, part := p.partOf t,
                                    chunk := chunk }
    let p := (p.send m).modCore c (fun s => { s with miss := s.miss ++ [(line, decide (want ≠ .read))] })
    { p with seq := p.seq + 1 }

/-- The answer to an access that thread `t` sent, if it has arrived. It stays until the instruction ends. -/
def Part.devAnswer (p : Part) (t addr size : Nat) : Option (Vec × BitVec 4 × Nat) :=
  match (p.thread t).dev.find? (fun d => decide (d.addr = addr) && decide (d.size = size)) with
  | some d => d.ans
  | none => none

/-- Note that an access of thread `t` is on its way. -/
def Part.devNote (p : Part) (t addr size : Nat) : Part :=
  if (p.thread t).dev.any (fun d => decide (d.addr = addr) && decide (d.size = size)) then p
  else p.modThread t (fun th => { th with dev := th.dev ++ [⟨addr, size, false, none⟩] })

/-- Send an access that another unit answers, once. -/
def Part.devSend (p : Part) (t addr size : Nat) (m : Msg) : Part :=
  if (p.thread t).dev.any (fun d => decide (d.addr = addr) && decide (d.size = size)) then p
  else
    let p := (p.send { m with txid := p.seq }).devNote t addr size
    { p with seq := p.seq + 1 }

/-- An answer arrives for an access of thread `t`; that of a stale access is dropped with it. -/
def Part.devFill (p : Part) (t addr size : Nat) (a : Vec × BitVec 4 × Nat) : Part :=
  let mine (d : DevAcc) : Bool := decide (d.addr = addr) && decide (d.size = size)
  let fill (d : DevAcc) : DevAcc := if mine d ∧ d.ans = none then { d with ans := some a } else d
  p.modThread t (fun th => { th with dev := (th.dev.filter (fun d => !(d.stale && mine d))).map fill })

/-- A TLB invalidation takes effect: line reads of the thread, among which may be those of a walk, are made again (R206). -/
def Thr.dropReads (th : Thr) : Thr :=
  let read (d : DevAcc) : Bool := decide (d.size = 64) && decide (regionOf d.addr = .mem)
  let old (d : DevAcc) : DevAcc := if read d then { d with stale := true } else d
  { th with dev := (th.dev.filter (fun d => !(read d && d.ans.isSome))).map old }

/-- An access of a Plumb core is counted for the cost of its instruction (R181). -/
def Part.charge (p : Part) (c n : Nat) : Part :=
  if p.plumb c then p.modCore c (fun s => { s with acc := s.acc + n }) else p

/-- Accesses of a Plumb core whose result is kept: an instruction that waits does not make them again. -/
def Part.keepAcc (p : Part) (c n : Nat) : Part :=
  if p.plumb c then p.modCore c (fun s => { s with accKept := s.accKept + n }) else p

/-- An instruction of a Plumb core that waits makes its other accesses again. -/
def Part.againAcc (p : Part) (c : Nat) : Part :=
  if p.plumb c then p.modCore c (fun s => { s with acc := s.accKept }) else p

/-- A line read that allocates nothing, by a Plumb core or from write-combining or device memory
(R194, R293, R296). -/
def Part.naLine (p : Part) (t line : Nat) (chunk : Nat := 0) : Acc2 :=
  match p.devAnswer t (line * 64) 64 with
  | some (d, ps, st) =>
    if st = 3 then .unassigned p else .done p ⟨d, ps⟩
  | none =>
    match p.heard (p.threadAgent t) line (some .rdna) (p.naRead line) with
    | .wait q =>
      .wait (q.devSend t (line * 64) 64 { Msg.blank with
        opc := .rdna, src := ⟨q.sktId, tileOfThread t, initOfThread t⟩, dst := q.homeAt line, part := q.partOf t,
        chunk := chunk, addr := line * 64, plb := q.plumb (t / 2), vmid := (q.thread t).attrVmid })
    | a => a

/-- A coherent read of a line by thread `t`: through the L2, or non-allocating in Plumb mode. A line
that cannot be had at once is asked for. -/
def Part.cohLine (p : Part) (t line : Nat) (chunk : Nat := 0) : Acc2 :=
  if p.plumb (t / 2) then p.naLine t line chunk
  else
    match p.devAnswer t (line * 64) 64 with
    | some (d, ps, _) => .done p ⟨d, ps⟩   -- a poison completion (R307)
    | none =>
    let hit := (p.l2Get (t / 2) line).isSome
    match p.heard (p.threadAgent t) line (p.coreAsks (t / 2) line false false) (p.cohRead (t / 2) line t) with
    | .done q l => .done (if hit then q else q.coreEvent t 6 1) l
    | .wait q => .wait (q.askLine t line .read chunk)
    | .unassigned q => .unassigned q

/-! ### Table entries -/

/-- Levels of a walk: 4 to 0, and 5 for level 0K (R190). -/
def walkIndex (va lvl : Nat) : Nat :=
  if lvl = 5 then va / 2 ^ 16 % 32 else va / 2 ^ (12 + 9 * lvl) % 512

/-- Page size of a leaf of a level (R190). -/
def leafSize (lvl : Nat) : Nat :=
  match lvl with
  | 2 => 2 ^ 30 | 1 => 2 ^ 21 | 5 => 2 ^ 16 | _ => 2 ^ 12

def entKind (e : Nat) : Nat := e / 2 % 4
/-- PA of an entry, as an address. -/
def entPa (e : Nat) : Nat := e / 2 ^ 12 % 2 ^ 40 * 2 ^ 12
def entMt (e : Nat) : Nat := e / 2 ^ 52 % 4
def entGlobal (e : Nat) : Bool := e.testBit 11

/-- UR UW UX SR SW SX A D of a leaf, from bit 0. -/
def entPerm (e : Nat) : BitVec 8 := BitVec.ofNat 8 (e / 2 ^ 3 % 2 ^ 8)

/-- The kinds of entry that a level permits (R190). -/
def kindAllowed (lvl k : Nat) : Bool :=
  match lvl with
  | 4 => k = 0 | 3 => k = 0 | 2 => k = 0 || k = 1 | 1 => k = 0 || k = 1 || k = 2 | _ => k = 1

/-- An entry is invalid (R192). -/
def entInvalid (e lvl : Nat) (stage2 : Bool) : Bool :=
  let k := entKind e
  !e.testBit 0 || !kindAllowed lvl k || decide (e / 2 ^ 54 % 4 ≠ 0)
    || (decide (k ≠ 1) && (decide (e / 2 ^ 3 % 2 ^ 9 ≠ 0) || decide (entMt e ≠ 0)))
    || (decide (k = 1) && (decide (entMt e = 3) || decide (entPa e % leafSize lvl ≠ 0)
          || (stage2 && (e.testBit 3 || e.testBit 4 || e.testBit 5 || e.testBit 11))))

/-- One read of a table entry (R204). -/
inductive WRd where
  | val (p : Part) (e : Nat)
  | poison (p : Part)
  | absent (p : Part)
  | wait (p : Part)

/-- Read the 8 bytes at a physical address for a walk of thread `t` (R204). -/
def Part.walkRead (p : Part) (t pa : Nat) : WRd :=
  let lost (q : Part) : WRd := .absent (q.logUnmapped (tileOfThread t) (initOfThread t) 3 pa)
  if regionOf pa ≠ .mem then lost p
  else
    match (p.charge (t / 2) 1).cohLine t (pa / 64) (pa % 64 / 16) with
    | .done q l => if l.poisoned (pa % 64) 8 then .poison q else .val q (l.bytes (pa % 64) 8)
    | .wait q => .wait q
    | .unassigned q => lost q

/-- Result of one stage's walk: the leaf and its level. -/
inductive Leaf where
  | leaf (p : Part) (e lvl reads : Nat)
  | fault (p : Part) (cause : Nat) (gf : Option GFault) (reads : Nat)
  | wait (p : Part)

/-- A walk whose table addresses are physical (R190): stage 1 of a native regime, or stage 2. A cause
of a stage-2 walk carries `gf`. -/
def Part.walkPhys (p : Part) (t : Nat) (stage2 : Bool) (gf : Option GFault) (addr : Nat) :
    Nat → Nat → Nat → Nat → Leaf
  | 0, _, _, reads => .fault p cPageAbsent gf reads
  | fuel + 1, lvl, table, reads =>
    match p.walkRead t (table + 8 * walkIndex addr lvl) with
    | .wait q => .wait q
    | .absent q => .fault q cPageAbsent gf (reads + 1)
    | .poison q => .fault q cDataPoison gf (reads + 1)
    | .val q e =>
      if entInvalid e lvl stage2 then .fault q cPageAbsent gf (reads + 1)
      else if entKind e = 1 then .leaf q e lvl (reads + 1)
      else q.walkPhys t stage2 gf addr fuel (if entKind e = 2 then 5 else lvl - 1) (entPa e) (reads + 1)

/-- Table address of a root register: bits [43:4] are address bits [51:12] (R189). -/
def rootTable (r : Dword) : Nat := r.toNat / 16 % 2 ^ 40 * 2 ^ 12
def rootMode (r : Dword) : Nat := r.toNat % 16
def rootAsid (r : Dword) : Nat := r.toNat / 2 ^ 48

/-- The number of entries of a TLB (R202). -/
def TlbPlace.cap : TlbPlace → Nat
  | .instr => 64
  | .data => 96
  | .second => 3072

/-- Two entries name the same page of the same regime. -/
def TlbEnt.same (a b : TlbEnt) : Bool :=
  decide (a.place = b.place) && decide (a.s2 = b.s2) && decide (a.vm = b.vm) && decide (a.vmid = b.vmid) && decide (a.asid = b.asid)
    && decide (a.glob = b.glob) && decide (a.va = b.va) && decide (a.size = b.size)

/-- The set of an entry of the L2 TLB (R202). -/
def TlbEnt.set (e : TlbEnt) : Nat := Config.tlbHash (e.va / e.size) e.size e.asid % 256

/-- The entries that compete with an entry for a place: all of a fully associative L1 TLB, or those of one set of 12 ways
of the L2 TLB (R202). -/
def TlbEnt.rivals (e : TlbEnt) (l : List TlbEnt) : List TlbEnt :=
  let pl := l.filter (fun x => decide (x.place = e.place))
  if e.place = .second ∧ pl.length ≥ 12 then pl.filter (fun x => x.set = e.set) else pl

/-- How many entries may compete: the L1 TLB whole, or the ways of the L2 TLB (R202). -/
def TlbPlace.room : TlbPlace → Nat
  | .second => 12
  | pl => pl.cap

/-- Record an entry, in place of one that names the same page. With every place taken that it may have, a Plumb core
replaces the least recently used entry (R179); otherwise the entry that makes way is open. -/
def Part.tlbFill (p : Part) (c : Nat) (e : TlbEnt) : Part :=
  let p := p.modCore c (fun s => { s with tlb := s.tlb.filter (fun x => !x.same e) })
  let r := e.rivals (p.coreOf c).tlb
  if r.length < e.place.room then p.modCore c (fun s => { s with tlb := e :: s.tlb })
  else if p.plumb c then p.modCore c (fun s => { s with tlb := e :: s.tlb.erase (r.getLastD e) })
  else (p.modCore c (fun s => { s with tlb := e :: s.tlb.erase (r.getD (p.freshNat % r.length) e) })).used

/-- Use one of the entries that match: the only one, or with several an open one (R203). It becomes the
most recently used. -/
def Part.tlbPick (p : Part) (c : Nat) (hit : TlbEnt → Bool) : Option (Part × TlbEnt) :=
  let m := (p.coreOf c).tlb.filter hit
  let front (e : TlbEnt) : Part := p.modCore c (fun s => { s with tlb := e :: s.tlb.erase e })
  match m with
  | [] => none
  | [e] => some (front e, e)
  | d :: _ =>
    let e := m.getD (p.freshNat % m.length) d
    some ((front e).used, e)

/-- What a lookup gives: an entry that permits the access, or the need to walk (R196, R203). -/
inductive TlbRes where
  | use (p : Part) (e : TlbEnt)
  | walk (p : Part)

/-- Look up the entries of one TLB that match: the one used is discarded when it does not permit the access, and the
access walks (R196). `none`: nothing matches. -/
def Part.tlbTry (p : Part) (c : Nat) (hit ok : TlbEnt → Bool) : Option TlbRes :=
  match p.tlbPick c hit with
  | none => none
  | some (q, e) => if ok e then some (.use q e) else some (.walk (q.modCore c (fun s => { s with tlb := s.tlb.erase e })))

/-- Fill the L1 TLB of an access, and outside Plumb mode the L2 TLB too (R202, R205). The `n` walk reads
are not made again. -/
def Part.tlbFinal (p : Part) (c n : Nat) (e : TlbEnt) : Part :=
  let p := (p.tlbFill c e).keepAcc c n
  if p.plumb c then p else p.tlbFill c { e with place := .second }

/-- The memory type that an MT code names. -/
def mtOfCode (n : Nat) : MemType := match n with | 0 => .cacheable | 1 => .wc | _ => .device

/-- The stronger of two memory types (R194). -/
def MemType.max (a b : MemType) : MemType :=
  match a, b with
  | .device, _ => .device
  | _, .device => .device
  | .wc, _ => .wc
  | _, .wc => .wc
  | _, _ => .cacheable

/-- The type of the region of a physical address (R194). The rule gives the reserved regions of R18 no type:
they add nothing to the types of the leaves. -/
def regionType (pa : Nat) : MemType :=
  match regionOf pa with
  | .pcieWin | .ctl _ _ | .loc _ => .device
  | .mem | .reserved => .cacheable

/-- The cause of a fetch or an AMO that meets another type (R81, R194). -/
def AccKind.typeCause (k : AccKind) : Nat := if k.x then cFetchPerm else cStorePerm

/-- The first cause that a leaf gives for an access (R144 rank 10, R193, R195). `u` selects the U bits;
`non` marks memory that is not cacheable, which a fetch and an AMO refuse. -/
def leafCause (perm : BitVec 8) (ak : AccKind) (u non : Bool) : Option Nat :=
  let b (i : Nat) : Bool := perm.getLsbD i
  let o := if u then 0 else 3
  if ak.x && (!b (o + 2) || non) then some cFetchPerm
  else if ak.r && !b o then some cLoadPerm
  else if ak.w && (!b (o + 1) || (ak.r && non)) then some cStorePerm
  else if ak.a && !b 6 then some cAccessFlag
  else if ak.w && !b 7 then some cDirtyFlag
  else none

/-- Result of translating a guest-physical address in stage 2. -/
inductive S2Res where
  /-- physical address, MT, permissions of the leaf, page size -/
  | ok (p : Part) (pa mt : Nat) (perm : BitVec 8) (size reads : Nat)
  | fault (p : Part) (cause : Nat) (gf : Option GFault) (reads : Nat)
  | wait (p : Part)

/-- Stage-2 translation of a guest-physical address (R197 to R199). Stage-2 leaves always use the S
bits. The entry is kept for guest walks except in Plumb mode, which does not use the L2 TLB (R205). -/
def Part.stage2 (p : Part) (t gpa : Nat) (ak : AccKind) (g : GFault) : S2Res :=
  let th := p.thread t
  let root := th.sys 0x810
  if gpa ≥ 2 ^ 52 then .fault p cPageAbsent (some g) 0
  else if rootMode root ≠ 5 then .ok p gpa 0 (BitVec.allOnes 8) (2 ^ 52) 0
  else
    let hit (e : TlbEnt) : Bool := e.s2 && decide (e.vmid = th.vmid) && decide (gpa / e.size = e.va / e.size)
    let ok (e : TlbEnt) : Bool :=
      (leafCause e.perm ak false (decide (e.mt ≠ 0) || decide (regionType (e.pa + gpa % e.size) ≠ .cacheable))).isNone
    match if p.plumb (t / 2) then .walk p else (p.tlbTry (t / 2) hit ok).getD (.walk p) with
    | .use q e => .ok q (e.pa + gpa % e.size) e.mt e.perm e.size 0
    | .walk p =>
      match p.walkPhys t true (some g) gpa 6 4 (rootTable root) 0 with
      | .wait q => .wait q
      | .fault q c gf n => .fault q c gf n
      | .leaf q e lvl n =>
        let size := leafSize lvl
        let pa := entPa e + gpa % size
        match leafCause (entPerm e) ak false (decide (entMt e ≠ 0) || decide (regionType pa ≠ .cacheable)) with
        | some c => .fault q c (some g) n
        | none =>
          let q := if entPerm e &&& 0x40 ≠ 0 ∧ ¬ q.plumb (t / 2) then
              q.tlbFill (t / 2) ⟨.second, true, true, th.vmid, 0, true, gpa / size * size, size, entPa e, entPerm e, entMt e,
                BitVec.allOnes 8⟩
            else q
          .ok q pa (entMt e) (entPerm e) size n

/-- The stage-1 walk of a guest: every table address is guest-physical and is translated by stage 2
before it is read, with SR and A required there (R193, R195, R198). -/
def Part.walkGuest (p : Part) (t : Nat) (kind va : Nat) : Nat → Nat → Nat → Nat → Leaf
  | 0, _, _, reads => .fault p cPageAbsent none reads
  | fuel + 1, lvl, table, reads =>
    let gpa := table + 8 * walkIndex va lvl
    match p.stage2 t gpa { AccKind.load with kind := kind } ⟨true, lvl, gpa, kind⟩ with
    | .wait q => .wait q
    | .fault q c gf n => .fault q c gf (reads + n)
    | .ok q pa _ _ _ n =>
      match q.walkRead t pa with
      | .wait q => .wait q
      | .absent q => .fault q cPageAbsent none (reads + n + 1)
      | .poison q => .fault q cDataPoison none (reads + n + 1)
      | .val q e =>
        if entInvalid e lvl false then .fault q cPageAbsent none (reads + n + 1)
        else if entKind e = 1 then .leaf q e lvl (reads + n + 1)
        else q.walkGuest t kind va fuel (if entKind e = 2 then 5 else lvl - 1) (entPa e) (reads + n + 1)

/-- A TLB entry matches an access (R203). -/
def TlbEnt.hits (e : TlbEnt) (vm : Bool) (vmid asid va : Nat) : Bool :=
  !e.s2 && decide (e.vm = vm) && (!vm || decide (e.vmid = vmid))
    && (e.glob || decide (e.asid = asid)) && decide (va / e.size = e.va / e.size)

/-- The L1 TLB that an access uses (R202). The check reads of LOOP are fetches. -/
def AccKind.tlb (k : AccKind) : TlbPlace := if k.x then .instr else .data

/-- The address lies within the page of a final entry that permits the access (R196, R203). -/
def TlbEnt.permits (e : TlbEnt) (ak : AccKind) (u : Bool) (va : Nat) : Bool :=
  let non := decide ((mtOfCode e.mt).max (regionType (e.pa + va % e.size)) ≠ .cacheable)
  (leafCause e.perm ak u non).isNone && (leafCause e.perm2 ak false non).isNone

/-- Look a final translation up: in the L1 TLB of the access, then, when nothing matches there and outside Plumb mode, in
the L2 TLB, whose entry is copied (R202, R205). -/
def Part.tlbLook (p : Part) (c : Nat) (pl : TlbPlace) (hit ok : TlbEnt → Bool) : TlbRes :=
  match p.tlbTry c (fun e => decide (e.place = pl) && hit e) ok with
  | some r => r
  | none =>
    if p.plumb c then .walk p
    else
      match p.tlbTry c (fun e => decide (e.place = .second) && hit e) ok with
      | some (.use q e) => .use (q.tlbFill c { e with place := pl }) e
      | some r => r
      | none => .walk p

/-- An access without tables (R187). -/
def Part.identity (p : Part) (va : Nat) (ak : AccKind) : Tr :=
  if va ≥ 2 ^ 52 then .fault p cPageAbsent none 0
  else if ak.cached ∧ regionType va ≠ .cacheable then .fault p ak.typeCause none 0
  else .ok p va (regionType va) 0

/-- Translate a virtual address for an access of thread `t` (R186 to R199, R203). A fetch or AMO that a guest makes to
memory that is not cacheable has a stage-2 cause when the type comes from the stage-2 leaf or the region of the address,
a stage-1 cause when it comes from the stage-1 leaf: R199 does not say (DESIGN CHOICE, notes/assumptions/77.md). -/
def Part.translate (p : Part) (t : Nat) (ak : AccKind) (addr : Dword) : Tr :=
  let th := p.thread t
  let va := addr.toNat
  let c := t / 2
  if th.level = .h ∨ th.level = .f then p.identity va ak
  else
    let u := decide (th.level = .u)
    let root := if th.vm then th.sys 0x890 else th.sys 0x410
    let asid := rootAsid root
    let canon := decide (va / 2 ^ 57 = (if va.testBit 56 then 127 else 0))
    if rootMode root ≠ 5 then
      if ¬ th.vm then p.identity va ak
      else if rootMode (th.sys 0x810) ≠ 5 then
        -- stage 2 is the identity too: no walk and no entry
        match p.stage2 t va ak ⟨false, 7, va, ak.kind⟩ with
        | .wait q => .wait q
        | .fault q cs gf n => .fault q cs gf n
        | .ok q pa mt _ _ n =>
          let ty := (mtOfCode mt).max (regionType pa)
          if ak.cached ∧ ty ≠ .cacheable then .fault q ak.typeCause (some ⟨false, 7, va, ak.kind⟩) n
          else .ok q pa ty n
      else
        -- the virtual address is the guest-physical address (R197)
        match p.tlbLook c ak.tlb (fun e => e.hits true th.vmid asid va) (fun e => e.permits ak u va) with
        | .use q e => .ok q (e.pa + va % e.size) ((mtOfCode e.mt).max (regionType (e.pa + va % e.size))) 0
        | .walk p =>
          match p.stage2 t va ak ⟨false, 7, va, ak.kind⟩ with
          | .wait q => .wait q
          | .fault q cs gf n => .fault (q.coreEvent t 7 1) cs gf n
          | .ok q pa mt perm size n =>
            let q := if n = 0 then q else q.coreEvent t 7 1
            let q := if perm.getLsbD 6 then
                q.tlbFinal c n ⟨ak.tlb, false, true, th.vmid, asid, false, va / size * size, size, pa / size * size,
                  BitVec.allOnes 8, mt, perm⟩
              else q
            let ty := (mtOfCode mt).max (regionType pa)
            if ak.cached ∧ ty ≠ .cacheable then .fault q ak.typeCause (some ⟨false, 7, va, ak.kind⟩) n
            else .ok q pa ty n
    else if ¬ canon then .fault p cPageAbsent none 0
    else
      match p.tlbLook c ak.tlb (fun e => e.hits th.vm th.vmid asid va) (fun e => e.permits ak u va) with
      | .use q e => .ok q (e.pa + va % e.size) ((mtOfCode e.mt).max (regionType (e.pa + va % e.size))) 0
      | .walk p =>
        let w := if th.vm then p.walkGuest t ak.kind va 6 4 (rootTable root) 0
                 else p.walkPhys t false none va 6 4 (rootTable root) 0
        match w with
        | .wait q => .wait q
        | .fault q cs gf n => .fault (q.coreEvent t 7 1) cs gf n
        | .leaf q e lvl n =>
          let size1 := leafSize lvl
          let a1 := entPa e + va % size1
          let non1 := decide (entMt e ≠ 0) || (!th.vm && decide (regionType a1 ≠ .cacheable))
          match leafCause (entPerm e) ak u non1 with
          | some cs => .fault (q.coreEvent t 7 1) cs none n
          | none =>
            if th.vm then
              match q.stage2 t a1 ak ⟨false, 7, a1, ak.kind⟩ with
              | .wait q => .wait q
              | .fault q cs gf m => .fault (q.coreEvent t 7 1) cs gf (n + m)
              | .ok q pa mt2 perm2 size2 m =>
                let q := q.coreEvent t 7 1
                let size := min size1 size2
                let mt := if mtOfCode mt2 = .device ∨ mtOfCode (entMt e) = .device then 2 else Nat.max mt2 (entMt e)
                let q := if (entPerm e).getLsbD 6 && perm2.getLsbD 6 then
                    q.tlbFinal c (n + m) ⟨ak.tlb, false, true, th.vmid, asid, entGlobal e, va / size * size, size,
                      pa / size * size, entPerm e, mt, perm2⟩
                  else q
                let ty := (mtOfCode mt).max (regionType pa)
                if ak.cached ∧ ty ≠ .cacheable then .fault q ak.typeCause (some ⟨false, 7, a1, ak.kind⟩) (n + m)
                else .ok q pa ty (n + m)
            else
              let q := q.coreEvent t 7 1
              let q := if (entPerm e).getLsbD 6 then
                  q.tlbFinal c n ⟨ak.tlb, false, false, 0, asid, entGlobal e, va / size1 * size1, size1, entPa e,
                    entPerm e, entMt e, BitVec.allOnes 8⟩
                else q
              .ok q a1 ((mtOfCode (entMt e)).max (regionType a1)) n

/-- Write TLB_GFINFO and TLB_GFA for a stage-2 cause (R199, R200). -/
def Part.recordGf (p : Part) (t : Nat) (g : GFault) : Part :=
  let c := t / 2
  let i := t % 2
  let lost := p.rgOn F.TLB_GFINFO_VALID c i
  let p := if lost then p.setRg F.TLB_GFINFO_LOST 1 c i else p
  let p := (p.setRg F.TLB_GFINFO_VALID 1 c i).setRg F.TLB_GFINFO_WALK (if g.walk then 1 else 0) c i
  let p := (p.setRg F.TLB_GFINFO_LEVEL g.level c i).setRg F.TLB_GFINFO_KIND g.kind c i
  (p.setRg F.TLB_GFA_LO_GPA g.gpa c i).setRg F.TLB_GFA_HI_GPA (g.gpa / 2 ^ 32) c i

end Sys2Proof.Machine
end

