-- ==== Sys2Proof/Machine/Access.lean ====
section
/-!
DEFINITION. Data accesses of a thread: the merging buffer and its drains (R222 to R226), loads and
stores with every byte checked first (R46, R47), device accesses (R52, R225), atomics (R78 to R81, R297
to R299), and line maintenance (R97, R98).
-/
namespace Sys2Proof.Machine

/-- The outcome of an access for its instruction. -/
inductive MRes where
  | ok (p : Part) (v : Nat)
  | exc (p : Part) (cause : Nat) (addr : Dword) (gf : Option GFault)
  /-- it is not complete: another agent must act first -/
  | wait (p : Part)

/-! ### The merging buffer -/

/-- Two entries are the same write. -/
def MbEnt.same (a b : MbEnt) : Bool :=
  decide (a.thread = b.thread) && decide (a.seq = b.seq) && decide (a.pa = b.pa) && decide (a.ty = b.ty)

/-- Remove a buffer entry. -/
def Part.mbDel (p : Part) (c : Nat) (e : MbEnt) : Part :=
  p.modCore c (fun s => { s with mb := s.mb.filter (fun x => !x.same e) })

/-- A device or write-combining write leaves for its target as a DWR (R225, R287, R544). -/
def dwrMsg (p : Part) (t addr size lvl vmid : Nat) (d : Vec) (m : Dword) : Msg :=
  { Msg.blank with opc := .dwr, src := ⟨p.sktId, tileOfThread t, initOfThread t⟩, dst := p.devDst addr, addr := addr, sz := size,
                   op := lvl, vmid := vmid, data := d, mask := m, txid := p.seq, aux := t,
                   plb := p.plumb (t / 2) }

/-- DWRs of a thread that have not been performed. -/
def Part.ownDwr (p : Part) (t : Nat) : Bool :=
  p.net.any (fun m => decide (m.opc = .dwr) && decide (m.aux = t) && decide (m.src = ⟨p.sktId, tileOfThread t, initOfThread t⟩))

/-- A persistent write-through of a drained line (R290, R316): at once where its home can take it, else
as a PWT whose PACK is awaited. -/
def Part.persistOrSend (p : Part) (t line : Nat) (d : Vec) (m : Dword) (pois : BitVec 4) : Part :=
  let c := t / 2
  let k := p.homeOf line
  let viaHome := if p.homeSkt line = some p.sktId ∧ p.homeFree k line then (p.persist k line d m pois).1 else none
  match viaHome with
  | some q => q
  | none =>
    let q := (p.send { Msg.blank with opc := .pwt, src := ⟨p.sktId, tileOfCore c, initOfThread t⟩, dst := p.homeAt line,
                                      txid := p.seq, addr := line * 64, pers := true, data := d, mask := m,
                                      pois := pois, part := p.partOf t }).modCore c (fun s => { s with pwt := s.pwt ++ [line] })
    { q with seq := q.seq + 1 }

/-- Write bytes into a line that the L2 of core `c` holds M; the store is performed (R223), and the deferral of a line won for it ends
(R303). -/
def Part.l2Write (p : Part) (c line : Nat) (d : Vec) (m : Dword) : Part :=
  match p.l2Get c line with
  | some x =>
    let y : L2Line := { x with st := .m, line := x.line.write d m, held := false, foreign := false }
    (p.modCore c (fun s => { s with l2 := s.l2.put line y })).l2Touch c line
  | none => p

/-- A write that a poisoned or absent grant loses (R307). -/
def Part.lostStore (p : Part) (t line : Nat) : Part :=
  p.rasLog (tileOfThread t) 0xFF 13 0 (initOfThread t) (line * 64) .unstated

/-- How a write of memory that no L2 holds for the writer goes. -/
inductive UncRes where
  | done (p : Part)
  /-- its request is on its way: GNT and VIS, CMP or PACK complete it -/
  | sent (p : Part)

/-- A write of memory that no L2 holds for the writer: Plumb, write-combining and device stores (R225, R296). Where the
home cannot take it at once a Plumb core's goes as a WRNAP, another core's as a WRNAP or, to a persistent region, as a
PWT. -/
def Part.uncachedWrite (p : Part) (t pa : Nat) (d : Vec) (m : Dword) : UncRes :=
  let line := pa / 64
  match p.heard (p.threadAgent t) line (some .wrnap) (p.naWrite line d m 0 false (p.isPers line)) with
  | .done q _ => .done q
  | .unassigned q => .done (q.logUnmapped (tileOfThread t) (initOfThread t) 1 pa)
  | .wait q =>
    let pers := q.isPers line
    let msg : Msg := { Msg.blank with opc := (if pers ∧ ¬ q.plumb (t / 2) then .pwt else .wrnap),
                                      src := ⟨q.sktId, tileOfThread t, initOfThread t⟩, dst := q.homeAt line,
                                      addr := line * 64, pers := pers, plb := q.plumb (t / 2), bc := true, data := d, mask := m,
                                      part := q.partOf t }
    if q.plumb (t / 2) then .sent (q.devSend t (line * 64) 65 msg)
    else
      let q := q.send { msg with txid := q.seq }
      let q := if msg.opc = .pwt then q.modCore (t / 2) (fun s => { s with pwt := s.pwt ++ [line] }) else q
      .sent { q with seq := q.seq + 1 }

/-- An entry stays behind an earlier write of its thread: a device store behind every earlier device store (R51), and a
write outside the caches behind one to its line that is on its way (R50). -/
def Part.mbBehind (p : Part) (c : Nat) (e : MbEnt) : Bool :=
  let before := (p.coreOf c).mb.takeWhile (fun x => !x.same e)
  before.any (fun x => decide (x.thread = e.thread) && ((decide (x.ty = .device) && decide (e.ty = .device))
    || (x.sent && decide (x.line = e.line))))
    || (decide (e.ty = .device) && p.ownDwr (2 * c + e.thread))

/-- Drain one entry of core `c` (R223, R225, R228). `none`: it cannot drain yet. -/
def Part.drainEntry (p : Part) (c : Nat) (e : MbEnt) : Option Part × Part :=
  let pa := e.pa
  let t := 2 * c + e.thread
  let gone (q : Part) : Option Part × Part :=
    let q := (q.mbDel c e).logUnmapped (tileOfThread t) (initOfThread t) 1 pa
    (some q, q)
  if e.sent ∨ p.mbBehind c e then (none, p)
  else
    match regionOf pa with
    | .reserved => gone p
    | .mem =>
      match e.ty with
      | .cacheable =>
        let whole := decide (e.mask = BitVec.allOnes 64)
        match p.heard (p.threadAgent t) e.line (p.coreAsks c e.line true whole) (p.cohOwn c e.line t whole) with
        | .unassigned q => gone q
        | .wait q => (none, q.askLine t e.line (if whole then .whole else .own)
            (((List.range 64).find? (fun i => e.mask.getLsbD i)).getD 0 / 16))
        | .done q _ =>
          let q := q.mbDel c e
          if (q.l2Get c e.line).isNone then
            let q := q.lostStore t e.line
            (some q, q)
          else
            let q := q.l2Write c e.line e.data e.mask
            let q := if q.isPers e.line then q.persistOrSend t e.line e.data e.mask 0 else q
            (some q, q)
      | _ =>
        match p.uncachedWrite t pa e.data e.mask with
        | .done q =>
          let q := q.mbDel c e
          (some q, q)
        | .sent q =>
          (none, q.modCore c (fun s => { s with mb := s.mb.map (fun x => if x.same e then { x with sent := true } else x) }))
    | _ =>
      let q := (p.mbDel c e).send (dwrMsg p t e.pa e.sz e.lvl e.vmid e.data e.mask)
      let q := { q with seq := q.seq + 1 }
      (some q, q)

/-- Drain the entries of a list in order, as far as they can; the Bool says that all of them drained. -/
def Part.drainList (p : Part) (c : Nat) : List MbEnt → Part × Bool
  | [] => (p, true)
  | e :: r =>
    match p.drainEntry c e with
    | (some q, _) => q.drainList c r
    | (none, q) => ((q.drainList c r).1, false)

/-- 12 or more entries are occupied: the oldest drains (R223). -/
def Part.mbSpill (p : Part) (c : Nat) : Part :=
  if (p.coreOf c).mb.length ≥ 12 then (match (p.coreOf c).mb with | e :: _ => (p.drainEntry c e).2 | [] => p) else p

/-- A retired write enters the merging buffer (R222, R225): into the open entry of its thread, line and type, or into one
of its own; a device store never merges. `none`: all 16 entries are occupied. -/
def Part.mbEnter (p : Part) (c : Nat) (e : MbEnt) : Option Part × Part :=
  let full (p : Part) (x : MbEnt) : Option Part × Part :=
    let q := if x.mask = BitVec.allOnes 64 then (p.drainEntry c x).2 else p
    (some q, q)
  match if e.ty = .device then none else (p.coreOf c).mb.find? (fun x =>
      !x.sent && decide (x.thread = e.thread) && decide (x.line = e.line) && decide (x.ty = e.ty)) with
  | some x =>
    let y : MbEnt := { x with data := mergeVec x.data e.data e.mask, mask := x.mask ||| e.mask }
    full (p.modCore c (fun s => { s with mb := s.mb.map (fun z => if z.same x then y else z) })) y
  | none =>
    let p := p.mbSpill c
    if (p.coreOf c).mb.length ≥ 16 then (none, p)
    else
      match full (p.modCore c (fun s => { s with mb := s.mb ++ [e] })) e with
      | (some q, _) => (some (q.mbSpill c), q.mbSpill c)
      | r => r

/-- The writes of a store queue enter the merging buffer in the order of their threads (R222); the thread of one that
finds no entry waits, which is counted (R555 event 12). `blocked` are the threads that wait. -/
def Part.sqGo (p : Part) (c : Nat) : List MbEnt → List Nat → Part
  | [], _ => p
  | e :: r, blocked =>
    if blocked.contains e.thread then p.sqGo c r blocked
    else
      match (p.modCore c (fun s => { s with sq := s.sq.filter (fun x => !x.same e) })).mbEnter c e with
      | (some q, _) => q.sqGo c r blocked
      | (none, q) =>
        -- the queue as it was
        let was := (p.coreOf c).sq
        ((q.modCore c (fun s => { s with sq := was })).coreEvent (2 * c + e.thread) 12 1).sqGo c r (e.thread :: blocked)

/-- The store queue of a core goes on (R222). -/
def Part.sqPump (p : Part) (c : Nat) : Part := p.sqGo c (p.coreOf c).sq []

/-- Drain the entries of one thread that `sel` selects, oldest first, and those that its store queue holds, `n` times over;
the Bool says that none is left. -/
def Part.drainTurns (p : Part) (t : Nat) (sel : MbEnt → Bool) : Nat → Part × Bool
  | 0 => (p, false)
  | n + 1 =>
    let c := t / 2
    let mine (e : MbEnt) : Bool := e.thread = t % 2 && sel e
    let (q, ok) := p.drainList c ((p.coreOf c).mb.filter mine)
    if ¬ (q.coreOf c).sq.any mine then (q, ok)
    else
      let r := q.sqPump c
      if (r.coreOf c).sq = (q.coreOf c).sq then (r, false) else r.drainTurns t sel n

def Part.drainThread (p : Part) (t : Nat) (sel : MbEnt → Bool) : Part × Bool :=
  p.drainTurns t sel ((p.coreOf (t / 2)).sq.length + 1)

/-- Empty a core's merging buffer and store queue (R177, R309). -/
def Part.drainCore (p : Part) (c : Nat) : Part × Bool :=
  let (p, a) := p.drainThread (2 * c) (fun _ => true)
  let (p, b) := p.drainThread (2 * c + 1) (fun _ => true)
  (p, a && b)

/-- The bytes of a thread's own earlier stores that overlap a line (R224). -/
def Part.forward (p : Part) (t line : Nat) : Vec × Dword :=
  (((p.coreOf (t / 2)).mb ++ (p.coreOf (t / 2)).sq).filter (fun e => e.thread = t % 2 && decide (e.line = line))).foldl
    (fun a e => (mergeVec a.1 e.data e.mask, a.2 ||| e.mask)) (0, 0)

/-! ### Loads -/

/-- The parts of an access of `n` bytes that lie in one line each: offset from its start, and length. -/
def segments (addr n : Nat) : List (Nat × Nat) :=
  let room := 64 - addr % 64
  if n ≤ room then [(0, n)] else [(0, room), (room, n - room)]

/-- A checked part of an access: its offset, length, physical address and memory type. -/
structure Seg where
  off : Nat
  len : Nat
  pa : Nat
  ty : MemType
  deriving DecidableEq, Repr

/-- Result of checking an access before any effect. -/
inductive Chk where
  | ok (p : Part) (l : List Seg)
  | exc (p : Part) (cause : Nat) (addr : Dword) (gf : Option GFault)
  | wait (p : Part)

/-- Translate and check every part of an access in ascending address order (R46, R47, R144). `dev` is
the cause that device memory gives when `devBad`: it names the address of the access, a translation cause that of the
part. -/
def Part.check (p : Part) (t : Nat) (ak : AccKind) (addr : Dword) (devBad : Bool) (dev : Nat) :
    List (Nat × Nat) → List Seg → Chk
  | [], acc => .ok p acc
  | (off, len) :: r, acc =>
    let a := addr + dw off
    match p.translate t ak a with
    | .wait q => .wait q
    | .fault q cause gf _ => .exc q cause a gf
    | .ok q pa ty _ =>
      if ty = .device ∧ devBad then .exc q dev addr none
      else q.check t ak addr devBad dev r (acc ++ [⟨off, len, pa, ty⟩])

/-- The line at `pa / 64` read for thread `t`, with its own stores forwarded and their chunks without poison (R224): the
bytes of an access of `s.len` bytes at `s.pa`, whose read is complete. -/
def Part.segLine (p : Part) (t : Nat) (s : Seg) (ty : Nat) : Acc2 :=
  let c := t / 2
  let line := s.pa / 64
  let need := byteMask (s.pa % 64) s.len
  let (fd, fm) := p.forward t line
  let mix (q : Part) (l : Line) : Acc2 :=
    -- a chunk keeps its poison while a needed byte of it comes from the line
    .done q ⟨mergeVec l.data fd fm, l.pois &&& someChunks (need &&& ~~~ fm)⟩
  let un (q : Part) : Acc2 := .unassigned (q.logUnmapped (tileOfThread t) (initOfThread t) ty s.pa)
  match regionOf s.pa with
  | .reserved => un p
  | .mem =>
    if s.ty = .cacheable ∧ need &&& ~~~ fm = 0 then mix p Line.zero
    else if s.ty = .cacheable then
      match p.cohLine t line (s.pa % 64 / 16) with
      | .done q l =>
        if q.plumb c ∨ (q.l2Get c line).isNone then mix q l
        else
          let r := q.modCore c (fun x => x.l1dUse line)
          mix (if (q.coreOf c).l1d.has line then r else r.coreEvent t 5 1) l
      | .wait q => .wait q
      | .unassigned q => un q
    else
      -- device and write-combining accesses come after the thread's own earlier ones (R50, R51)
      let (p, done) := p.drainThread t (fun e => decide (e.line = line) || (decide (s.ty = .device) && decide (e.ty = .device)))
      if ¬ done ∨ (s.ty = .device ∧ p.ownDwr t) then .wait p
      else
        match p.naLine t line (s.pa % 64 / 16) with
        | .unassigned q => un q
        | r => r
  | _ =>
    match p.devAnswer t s.pa s.len with
    | some (d, ps, st) =>
      if st = 3 then un p
      else if s.len = 64 then .done p ⟨d, ps⟩
      else .done p ⟨BitVec.ofNat 512 (d.toNat % 2 ^ (8 * s.len) * 2 ^ (8 * (s.pa % 64))), if ps ≠ 0 then 0xF else 0⟩
    | none =>
      let (p, done) := p.drainThread t (fun e => decide (e.ty = .device))
      if ¬ done ∨ p.ownDwr t then .wait p
      else .wait (p.devSend t s.pa s.len
        { Msg.blank with opc := .drd, src := ⟨p.sktId, tileOfThread t, initOfThread t⟩, dst := p.devDst s.pa, addr := s.pa,
                         sz := s.len.log2, op := (p.thread t).level.code, vmid := (p.thread t).attrVmid, aux := t })

/-- A read of one part: the bytes, or that they are poisoned. -/
inductive SegRd where
  | val (p : Part) (v : Nat)
  | poison (p : Part)
  | wait (p : Part)

def Part.readSeg (p : Part) (t : Nat) (s : Seg) (ty : Nat) : SegRd :=
  match p.segLine t s ty with
  | .done q l => if l.poisoned (s.pa % 64) s.len then .poison q else .val q (l.bytes (s.pa % 64) s.len)
  | .wait q => .wait q
  | .unassigned q => .poison q

/-- Where a cause of part `s` of an access at `addr` is reported: the access address, or the first byte of an upper page
(R47, R67). -/
def Seg.causeAt (s : Seg) (addr : Dword) : Dword :=
  if (addr + dw s.off).toNat % 4096 = 0 then addr + dw s.off else addr

/-- Train the prefetchers with a read that thread `t` has made at a virtual address (R243). DESIGN CHOICE
(notes/assumptions/33.md): the rule gives no training, so a stream of the L1 prefetcher keeps the distance between the last
two reads of its instruction, one of the L2 prefetcher the direction of the last two lines of its page that missed the L1
data cache, and a new stream replaces the least recently used. -/
def Part.pfTrain (p : Part) (t : Nat) (va : Nat) (miss : Bool) : Part :=
  let c := t / 2
  let pc := (p.thread t).pc
  if p.plumb c then p
  else
    p.modCore c (fun s =>
      let mine (x : PfStream) : Bool := decide (x.thread = t % 2) && decide (x.pc = pc)
      let step : Int := match s.pf1.find? mine with | some x => (va : Int) - x.last | none => 0
      let own := ((⟨t % 2, pc, va, step⟩ : PfStream) :: s.pf1.filter (fun x => x.thread = t % 2 && !mine x)).take 16
      let s := { s with pf1 := own ++ s.pf1.filter (fun x => x.thread ≠ t % 2) }
      if ¬ miss then s
      else
        let line := va / 64
        let near (x : PfStream) : Bool := decide (x.last / 64 = line / 64)
        let dir : Int := match s.pf2.find? near with | some x => (if line < x.last then -1 else 1) | none => 1
        { s with pf2 := ((⟨t % 2, pc, line, dir⟩ : PfStream) :: s.pf2.filter (fun x => !near x)).take 32 })

/-- Read every part in order. -/
def Part.readSegs (p : Part) (t : Nat) (addr : Dword) (ty : Nat) : List Seg → Nat → MRes
  | [], v => .ok p v
  | s :: r, v =>
    match p.readSeg t s ty with
    | .wait q => .wait q
    | .poison q => .exc q cDataPoison (s.causeAt addr) none
    | .val q x =>
      let miss := !(p.coreOf (t / 2)).l1d.has (s.pa / 64)
      let q := if s.ty = .cacheable then q.pfTrain t (addr + dw s.off).toNat miss else q
      q.readSegs t addr ty r (v + x * 2 ^ (8 * s.off))

/-- A scalar load of `n` bytes (R46, R47, R75, R76). -/
def Part.load (p : Part) (t : Nat) (addr : Dword) (n : Nat) : MRes :=
  match p.check t .load addr (decide (addr.toNat % n ≠ 0)) cAlign (segments addr.toNat n) [] with
  | .wait q => .wait q
  | .exc q c a g => .exc q c a g
  | .ok q l => (q.charge (t / 2) 1).readSegs t addr 0 l 0

/-! ### Stores -/

/-- The bytes of `v` that part `s` writes, in their places of the line. -/
def segData (v : Nat) (s : Seg) : Vec :=
  BitVec.ofNat 512 (v / 2 ^ (8 * s.off) % 2 ^ (8 * s.len) * 2 ^ (8 * (s.pa % 64)))

/-- Part `s` of a store of `v`, its bytes within `sel`, as a write of its line. A write that nothing holds is logged and
lost (R19). -/
def Part.segEnt (p : Part) (t v : Nat) (sel : Dword) (s : Seg) : Part × List MbEnt :=
  let th := p.thread t
  let m := byteMask (s.pa % 64) s.len &&& sel
  let e : MbEnt := { thread := t % 2, line := s.pa / 64, ty := (if regionOf s.pa = .mem then s.ty else .device), data := mergeVec 0 (segData v s) m,
                     mask := m, seq := p.seq, pa := s.pa, sz := s.len.log2, lvl := th.level.code, vmid := th.attrVmid, sent := false }
  if m = 0 then (p, [])
  else if regionOf s.pa = .reserved ∨ (regionOf s.pa = .mem ∧ (p.homeSkt (s.pa / 64)).isNone) then
    (p.logUnmapped (tileOfThread t) (initOfThread t) 1 s.pa, [])
  else (p, [e])

/-- Join a later write to the writes of one instruction: it replaces the bytes that both write (R128), and writes of one
line and type are one. -/
def joinEnt (l : List MbEnt) (e : MbEnt) : List MbEnt :=
  let cleared := (l.map (fun x => if x.line = e.line then { x with mask := x.mask &&& ~~~ e.mask } else x)).filter (fun x => x.mask ≠ 0)
  if cleared.any (fun x => decide (x.line = e.line) && decide (x.ty = e.ty)) then
    cleared.map (fun x => if x.line = e.line ∧ x.ty = e.ty then
      { x with data := mergeVec x.data e.data e.mask, mask := x.mask ||| e.mask } else x)
  else cleared ++ [e]

/-- The writes of a store's parts. -/
def Part.segEnts (p : Part) (t v : Nat) (sel : Dword) : List Seg → List MbEnt → Part × List MbEnt
  | [], acc => (p, acc)
  | s :: r, acc =>
    let (q, l) := p.segEnt t v sel s
    q.segEnts t v sel r (l.foldl joinEnt acc)

/-- A write of a Plumb core is performed at once, or its request is sent (R179, R296). -/
def Part.plumbWrite (p : Part) (t : Nat) (e : MbEnt) : Part :=
  if regionOf e.pa = .mem then
    match p.uncachedWrite t e.pa e.data e.mask with
    | .done q => q
    | .sent q => q
  else
    let q := p.send (dwrMsg p t e.pa e.sz e.lvl e.vmid e.data e.mask)
    { q with seq := q.seq + 1 }

/-- A Plumb core's store whose requests have been sent: whether each has been completed. `none`: no store is under way. -/
def Part.storeBegun (p : Part) (t : Nat) : Option Bool :=
  let l := (p.thread t).dev.filter (fun d => d.size = 65)
  if l.isEmpty then none else some (l.all (fun d => d.ans.isSome))

/-- The accesses that an instruction of a Plumb core has made are not made again (R181). -/
def Part.keepAll (p : Part) (c : Nat) : Part :=
  if p.plumb c then p.modCore c (fun s => { s with accKept := s.acc }) else p

/-- Room in the store queue for the writes of one more instruction of a thread: 48 of its 96 entries, all of them while
thread 1 is parked (R163). DESIGN CHOICE (notes/assumptions/78.md): the writes of one instruction take one entry. -/
def Part.sqRoom (p : Part) (t : Nat) : Bool :=
  let c := t / 2
  let n := (((p.coreOf c).sq.filter (fun e => e.thread = t % 2)).map MbEnt.seq).eraseDups.length
  decide (n < (if (p.thread (2 * c + 1)).run = .parked then 96 else 48))

/-- The writes of a store that retires (R222): into the store queue, or performed before the next instruction in Plumb
mode (R296). -/
def Part.storeOut (p : Part) (t : Nat) (l : List MbEnt) : MRes :=
  let c := t / 2
  if p.plumb c then
    let q := l.foldl (fun (r : Part) (e : MbEnt) => r.plumbWrite t e) p
    match q.storeBegun t with
    | some false => .wait (q.keepAll c)
    | _ => .ok q 0
  else
    let p := if p.sqRoom t then p else p.sqPump c
    if ¬ p.sqRoom t then .wait p
    else
      let p := { p with seq := p.seq + 1 }
      .ok ((p.modCore c (fun s => { s with sq := s.sq ++ l })).sqPump c) 0

/-- A store goes on: one whose requests a Plumb core has sent only waits for them, any other starts with `k`. -/
def Part.storing (p : Part) (t : Nat) (k : Part → MRes) : MRes :=
  match p.storeBegun t with
  | some true => .ok p 0
  | some false => .wait p
  | none => k p

/-- A scalar store of `n` bytes (R46, R47, R75, R222). -/
def Part.store (p : Part) (t : Nat) (addr : Dword) (n : Nat) (v : Nat) : MRes :=
  p.storing t (fun p =>
    match p.check t .store addr (decide (addr.toNat % n ≠ 0)) cAlign (segments addr.toNat n) [] with
    | .wait q => .wait q
    | .exc q c a g => .exc q c a g
    | .ok q l =>
      let (q, w) := (q.charge (t / 2) 1).segEnts t v (BitVec.allOnes 64) l []
      q.storeOut t w)

/-! ### Ordering -/

/-- Perform the thread's earlier stores: every entry, or the cacheable ones (R53, R55, R223, R316). -/
def Part.performStores (p : Part) (t : Nat) (io : Bool) : Part × Bool :=
  let (q, d) := p.drainThread t (fun e => io || decide (e.ty = .cacheable))
  (q, d && !(io && q.ownDwr t))

/-! ### Atomics -/

/-- The value that an operation writes (R78): `none` for a compare that fails. -/
def amoResult (op bits old b exp : Nat) : Option Nat :=
  let s (x : Nat) : Int := if x ≥ 2 ^ (bits - 1) then (x : Int) - 2 ^ bits else x
  match op with
  | 0 => some b
  | 1 => if old = exp then some b else none
  | 2 => some ((old + b) % 2 ^ bits)
  | 3 => some (old &&& b)
  | 4 => some (old ||| b)
  | 5 => some (old ^^^ b)
  | 6 => some (if s old ≤ s b then old else b)
  | 7 => some (if s b ≤ s old then old else b)
  | 8 => some (min old b)
  | _ => some (max old b)

/-- Set and tag of the contention predictor (R299), as one number. -/
def predKey (line : Nat) : Nat :=
  ((line % 128) ^^^ (line / 2 ^ 7 % 128)) * 2 ^ 8 + line / 2 ^ 14 % 256

/-- The ways of a predictor set, most recently used first. -/
def Part.predSet (p : Part) (c line : Nat) : List (Nat × Nat) := (p.coreOf c).pred.get [] (predKey line / 2 ^ 8)

/-- The counter of a line in the predictor. -/
def Part.predGet (p : Part) (c line : Nat) : Option Nat :=
  ((p.predSet c line).find? (fun e => e.1 = predKey line % 2 ^ 8)).map (·.2)

/-- Give a line's entry a counter value; it becomes the most recently used, and a fifth entry of the set replaces the least
recently used one (R299). -/
def Part.predPut (p : Part) (c line n : Nat) : Part :=
  let tag := predKey line % 2 ^ 8
  let l := (tag, n) :: (p.predSet c line).filter (fun e => e.1 ≠ tag)
  p.modCore c (fun s => { s with pred := s.pred.put (predKey line / 2 ^ 8) (l.take 4) })

/-- Train the predictor (R299): up, with `alloc` a new entry at 1, and down. -/
def Part.predUp (p : Part) (c line : Nat) (alloc : Bool) : Part :=
  match p.predGet c line with
  | some n => p.predPut c line (min 3 (n + 1))
  | none => if alloc then p.predPut c line 1 else p

def Part.predDown (p : Part) (c line : Nat) : Part :=
  match p.predGet c line with
  | some n => p.predPut c line (n - 1)
  | none => p

/-- Far or near (R298): the hint, COH_CFG.AMOPOL, the predictor; a Plumb core is always far. -/
def Part.amoFar (p : Part) (t line hint : Nat) : Bool :=
  let c := t / 2
  if p.plumb c then true
  else if hint = 1 then false
  else if hint = 2 then true
  else match p.rg F.COH_CFG_AMOPOL (c / 2) with
    | 1 => false
    | 2 => true
    | _ => decide ((p.predGet c line).getD 0 ≥ 2)

/-- Write the result of an atomic operation into a line. -/
def Line.amoWrite (l : Line) (off n v : Nat) : Line :=
  l.write (BitVec.ofNat 512 (v * 2 ^ (8 * off))) (byteMask off n)

/-- The atomic unit of slice `k` executes an operation for agent `who` on a line that it has taken, `l` (R297, R300): the
old value, and HOT (R299), `others` being whether another L2 held the line. A poisoned old value is not replaced. -/
def Part.amoExec (p : Part) (k line who off n op b exp : Nat) (l : Line) (others : Bool) : Part × Nat × Bool :=
  let hot := others || p.amoRecent k line who
  let q := (p.amoNote k line who).count F.COH_AMOF_COUNT F.COH_STAT_OVF k
  let q := if hot then q.count F.COH_AMOHOT_COUNT F.COH_STAT_OVF k else q
  let old := l.bytes off n
  let q := if l.poisoned off n then q
    else match amoResult op (8 * n) old b exp with
      | none => q
      | some v => q.modSlice k (fun s => { s with abuf := s.abuf.map (fun e =>
          if e.line = line then { e with val := l.amoWrite off n v } else e) })
  (q, old, hot)

/-- A far atomic in one step at the home's atomic unit: the line before it, the old value, and HOT. -/
def Part.farAmo (p : Part) (core line off n op b exp : Nat) : Acc2 × Nat × Bool :=
  match p.abufIn line core with
  | (.done q l, others) =>
    let (r, old, hot) := q.amoExec (q.homeOf line) line core off n op b exp l others
    (.done r l, old, hot)
  | (a, _) => (a, 0, false)

/-- An AMO of `n` bytes at `addr` (R78 to R81, R297): the old value. -/
def Part.amo (p : Part) (t : Nat) (addr : Dword) (n op b exp hint : Nat) (acq rel : Bool) : MRes :=
  if addr.toNat % n ≠ 0 then .exc p cAlign addr none
  else
    match p.check t .amo addr false cAlign [(0, n)] [] with
    | .wait q => .wait q
    | .exc q c a g => .exc q c a g
    | .ok q l =>
      match l with
      | [] => .ok q 0
      | s :: _ =>
        let line := s.pa / 64
        let off := s.pa % 64
        let c := t / 2
        -- earlier stores to the line, and with the release or acquire bit every earlier store, come first
        let (q, done) := q.drainThread t (fun e => rel || acq || decide (e.line = line))
        if ¬ done ∨ ((rel ∨ acq) ∧ q.ownDwr t) then .wait q
        else
          let q := q.charge c 1
          let un (q : Part) : MRes :=
            .exc (q.logUnmapped (tileOfThread t) (initOfThread t) 4 s.pa) cDataPoison addr none
          if q.amoFar t line hint then
            let fin (q : Part) (old : Nat) (bad hot : Bool) : MRes :=
              let q := (q.incWrap F.COH_AMOC_FAR 1 (c / 2) (c % 2)).1
              let q := q.coreEvent t 10 1
              let q := if hot then q.predUp c line false else q.predDown c line
              if bad then .exc q cDataPoison addr none else .ok q old
            match q.devAnswer t s.pa n with
            | some (d, ps, st) =>
              if st % 8 = 3 then un q else fin q (d.toNat % 2 ^ (8 * n)) (ps ≠ 0) (decide (st ≥ 8))
            | none =>
              match q.farAmo c line off n op b exp with
              | (.done r l, old, hot) => fin (q.transacts (q.threadAgent t) line .amof r) old (l.poisoned off n) hot
              | (.unassigned q, _, _) => un q
              | (.wait q, _, _) =>
                .wait (q.devSend t s.pa n
                  { Msg.blank with opc := .amof, src := ⟨q.sktId, tileOfThread t, initOfThread t⟩, dst := q.homeAt line,
                                   part := q.partOf t, addr := s.pa, sz := n.log2, op := op, vmid := (q.thread t).attrVmid,
                                   hint := decide (hint = 2), plb := q.plumb c, pers := q.isPers line,
                                   data := BitVec.ofNat 512 b, aux := exp })
          else
            -- whether the L2 holds the line with write permission already, and whether a line won for this AMO had another
            -- holder (R299)
            let (mine, won) : Bool × Bool := match q.l2Get c line with
              | some x => ((decide (x.st = .m) || decide (x.st = .e)) && !x.held, x.foreign)
              | none => (false, false)
            let other : Bool := match q.dirGet (q.homeOf line) line with
              | some d => d.cores.any (fun x => x ≠ c && (q.copyGet x line).isSome)
              | none => false
            match q.devAnswer t (line * 64) 64 with
            | some _ => .exc q cDataPoison addr none   -- a poison completion (R307)
            | none =>
            match q.heard (q.threadAgent t) line (q.coreAsks c line true false) (q.cohOwn c line t false) with
            | .unassigned q => un q
            | .wait q => .wait (q.askLine t line .own (off / 16))
            | .done q l =>
              let q := (q.incWrap F.COH_AMOC_NEAR 1 (c / 2) (c % 2)).1
              let q := q.coreEvent t 9 1
              let q := if mine then q.predDown c line else if won ∨ other then q.predUp c line true else q
              if l.poisoned off n then .exc (q.l2Used c line) cDataPoison addr none
              else
                let old := l.bytes off n
                match amoResult op (8 * n) old b exp with
                | none => .ok (q.l2Used c line) old
                | some v =>
                  let d : Vec := BitVec.ofNat 512 (v * 2 ^ (8 * off))
                  let q := q.l2Write c line d (byteMask off n)
                  .ok (if q.isPers line then q.persistOrSend t line d (byteMask off n) 0 else q) old

/-! ### Line maintenance -/

/-- Send a CMO to a home that cannot serve it at once; CMP completes it. -/
def Part.cmoSend (p : Part) (t line : Nat) (opc : Opc) : Part :=
  p.devSend t (line * 64) 66
    { Msg.blank with opc := opc, src := ⟨p.sktId, tileOfThread t, initOfThread t⟩, dst := p.homeAt line, part := p.partOf t,
                     addr := line * 64, vmid := (p.thread t).attrVmid, pers := p.isPers line }

/-- CLEAN, FLUSH, INVAL and IINV of the line at `addr` (R97, R98, R226). -/
def Part.lineOp (p : Part) (t : Nat) (addr : Dword) (ak : AccKind) (f : Option Cmo) : MRes :=
  match p.translate t ak addr with
  | .wait q => .wait q
  | .fault q c g _ => .exc q c addr g
  | .ok q pa ty _ =>
    let line := pa / 64
    if ty = .device then .ok (q.charge (t / 2) 1) 0
    else
      let (q, done) := q.drainThread t (fun e => decide (e.line = line))
      if ¬ done then .wait q
      else
        -- the access of a request under way has been counted (R181)
        match (q.thread t).dev.find? (fun d => decide (d.addr = line * 64) && decide (d.size = 66)) with
        | some d => if d.ans.isSome then .ok q 0 else .wait q
        | none =>
          let q := q.charge (t / 2) 1
          let send (q : Part) (o : Opc) : MRes := .wait ((q.cmoSend t line o).keepAll (t / 2))
          match f with
          | none =>
            if (q.homeSkt line).isNone then .ok q 0
            else if q.sktCnt > 1 then send (q.iinvAll line) .cmoii
            else
              let h := q.homeAgent (q.homeOf line)
              .ok ((List.range nSlices).foldl (fun (r : Part) (o : Nat) => r.crossedPair .snpii .acki h ⟨q.sktId, coreTile o, 0⟩ line)
                ((q.iinvAll line).crossedPair .cmoii .cmp (q.threadAgent t) h line)) 0
          | some g =>
            match q.heard (q.threadAgent t) line (some g.opc) (q.cmo line g) with
            | .done q _ => .ok q 0
            | .unassigned q => .ok q 0
            | .wait q => send q g.opc

/-- ZERO of the line at `addr` (R97, R98): a store of 64 zero bytes; eight stores to device memory. -/
def Part.lineZero (p : Part) (t : Nat) (addr : Dword) : MRes :=
  p.storing t (fun p =>
    match p.check t .store addr false cAlign [(0, 1)] [] with
    | .wait q => .wait q
    | .exc q c a g => .exc q c a g
    | .ok q l =>
      match l with
      | [] => .ok q 0
      | s :: _ =>
        let line := s.pa / 64
        let (q, done) := q.drainThread t (fun e => decide (e.line = line))
        if ¬ done then .wait q
        else if regionOf s.pa = .reserved ∨ (regionOf s.pa = .mem ∧ (q.homeSkt line).isNone) then
          .ok ((q.charge (t / 2) 1).logUnmapped (tileOfThread t) (initOfThread t) 5 s.pa) 0
        else
          let q := q.charge (t / 2) 1
          let (q, w) := if s.ty = .device then
              (List.range 8).foldl (fun (r : Part × List MbEnt) i =>
                let (a, l) := r.1.segEnt t 0 (BitVec.allOnes 64) ⟨0, 8, line * 64 + 8 * i, .device⟩
                (a, r.2 ++ l)) (q, [])
            else q.segEnts t 0 (BitVec.allOnes 64) [⟨0, 64, line * 64, s.ty⟩] []
          q.storeOut t w)

end Sys2Proof.Machine
end

