-- ==== Sys2Proof/Machine/Exec.lean ====
section
/-!
DEFINITION. How a thread executes one instruction: its fetch, the checks in the order of R144, the
retirement with the back-edge of R139, delay slots (R132 to R135), exceptions, the counters, and the cost
in Plumb mode (R179 to R182).
-/
namespace Sys2Proof.Machine

/-- What the body of an instruction does once every check before PRIV has passed. -/
inductive Res where
  /-- it retires; execution goes on behind it, at the slot's destination, or at a back-edge -/
  | retire (p : Part)
  /-- LOOP with a zero count: fetch restarts at `next` (R85) -/
  | goto (p : Part) (next : Dword)
  /-- a control transfer: its slot is next (R82) -/
  | transfer (p : Part) (dest : Dword)
  /-- the body has set where execution goes on: RETX -/
  | final (p : Part)
  /-- TRAP: it retires, and then the cause is raised (R90) -/
  | trap (p : Part)
  | exc (p : Part) (cause : Nat) (addr : Dword) (gf : Option GFault) (toH : Bool)
  /-- it is not complete: another agent must act first -/
  | wait (p : Part)

/-- What the word of an instruction says before it executes: a legal encoding (R64), its Slot and Loop
end permissions (R100, R129) and its own cost in Plumb mode (R182). -/
structure Info where
  legal : Bool := true
  slotOk : Bool := true
  loopEnd : Bool := true
  cost : Nat := 1

/-! ### Setting a vector pending -/

/-- Set PEND of a vector; a guest vector that its guest is not running for notifies H (R160). -/
def Part.setPend (p : Part) (t v : Nat) (notify : Bool) : Part :=
  let th := p.thread t
  let x := (p.icOf t).vecOf v
  let p := p.modIc t (fun ic => ic.modVec v (fun y => { y with pend := true }))
  let gnv := ((p.icOf t).reg.get 0 0x828)
  if notify && x.lv = .s && x.g && x.en && !(th.vm && decide (th.vmid = x.vmid)) && gnv.getLsbD 63 then
    p.modIc t (fun ic => ic.modVec (gnv.toNat % 1024) (fun y => { y with pend := true }))
  else p

/-! ### Cycles -/

/-- The accesses of a Plumb instruction that ran past M (R181): `n` accesses, each with an open excess. -/
def Part.plumbExcess (p : Part) (c : Nat) : Nat → Part × Nat
  | 0 => (p, 0)
  | n + 1 =>
    let x := p.freshNat
    let q := p.used
    if x = 0 then q.plumbExcess c n
    else
      let q := q.setRg F.CORE_PLUMB_OVR_OVR 1 c
      let q := q.countSat F.CORE_PLUMB_OVR_COUNT c
      let q := if min x 65535 > q.rg F.CORE_PLUMB_OVR_MAXEX c then q.setRg F.CORE_PLUMB_OVR_MAXEX (min x 65535) c else q
      let q := if q.rgOn F.CORE_PLUMB_OVRIE c then q.setPend (2 * c) (q.rg F.CORE_PLUMB_OVRVEC c) false else q
      let (r, s) := (q.coreEvent (2 * c) 13 1).plumbExcess c n
      (r, s + x)

/-- Time passes for an instruction or an entry of own cost `cost`: exactly in Plumb mode (R181, R182), by
an open number of cycles otherwise. TIME advances by an open amount (R369). -/
def Part.tick (p : Part) (t cost : Nat) : Part :=
  let c := t / 2
  let n := (p.coreOf c).acc
  let (p, cyc) := if p.plumb c then
      let (q, e) := p.plumbExcess c n
      (q, cost + n * q.plumbM c + e)
    else (p.used, p.freshNat)
  let p := p.modCore c (fun s => { s with cycle := (s.cycle + cyc) % 2 ^ 64, acc := 0, accKept := 0 })
  let p := p.coreEvent t 0 cyc
  p.used.advance p.freshNat

/-! ### Loop buffer and branch structures -/

def CoreSt.cap (s : CoreSt) (h : Nat) : Option LoopCap := if h = 0 then s.cap0 else s.cap1
def CoreSt.setCap (s : CoreSt) (h : Nat) (b : Option LoopCap) : CoreSt :=
  if h = 0 then { s with cap0 := b } else { s with cap1 := b }

/-- The index of an address in a captured body. -/
def LoopCap.index (b : LoopCap) (pc : Dword) : Option Nat :=
  if b.start.toNat ≤ pc.toNat ∧ pc.toNat ≤ b.fin.toNat then some ((pc.toNat - b.start.toNat) / 4) else none

/-- The thread fetches from its loop buffer (R172, R173). -/
def Part.fromLoopBuf (p : Part) (t : Nat) : Bool :=
  let th := p.thread t
  match (p.coreOf (t / 2)).cap (t % 2) with
  | some b => b.deliver && decide (b.level = th.level) && (b.index th.pc).isSome
  | none => false

/-- The number of instructions of a body. -/
def LoopCap.size (b : LoopCap) : Nat := (b.fin.toNat - b.start.toNat) / 4 + 1

/-- How many words a pass has fetched in order from START once it fetches word `i` (R172): a word fetched again changes
nothing, and 65, which no body reaches, stands for a pass that left the order. -/
def LoopCap.runAfter (b : LoopCap) (i : Nat) : Nat :=
  if i = 0 then 1 else if i = b.run then i + 1 else if i + 1 = b.run then b.run else 65

/-- A word of the body fetched from the cache is captured while CORE_CFG.LBEN = 1 (R172, R173). -/
def Part.capture (p : Part) (t line : Nat) : Part :=
  let th := p.thread t
  match (p.coreOf (t / 2)).cap (t % 2) with
  | some b =>
    match b.index th.pc with
    | some i =>
      if b.level = th.level ∧ ¬ b.full ∧ p.rgOn F.CORE_CFG_LBEN (t / 2) then
        let b2 : LoopCap := { b with got := b.got ||| dw (2 ^ i), run := b.runAfter i, full := decide (b.runAfter i = b.size),
                                     lines := if b.lines.contains line then b.lines else b.lines ++ [line] }
        p.modCore (t / 2) (fun s => s.setCap (t % 2) (some b2))
      else p
    | none => p
  | none => p

/-- After retirement: a back-edge of a captured body starts delivery, leaving the body at its level ends it (R172). DESIGN
CHOICE (notes/assumptions/79.md): a handler at another level suspends delivery (R173) and does not end it, so that it goes on
when the handler returns into the body. -/
def Part.capStep (p : Part) (t : Nat) (edge : Bool) : Part :=
  let th := p.thread t
  match (p.coreOf (t / 2)).cap (t % 2) with
  | some b =>
    let d := if edge && decide (th.pc = b.start) then b.full
             else b.deliver && (decide (b.level ≠ th.level) || (b.index th.pc).isSome || th.slot.isSome)
    if d = b.deliver then p
    else
      let b2 : LoopCap := { b with deliver := d }
      p.modCore (t / 2) (fun s => s.setCap (t % 2) (some b2))
  | none => p

/-! ### Fetch -/

inductive Fetch where
  | ok (p : Part)
  | exc (p : Part) (cause : Nat) (gf : Option GFault)
  | wait (p : Part)

/-- Fetch the instruction at the thread's pc (R45, R135, R180, R194, R227). The command supplies the word;
the fetch supplies every cause that fetching it can have. -/
def Part.fetch (p : Part) (t : Nat) : Fetch :=
  let th := p.thread t
  let c := t / 2
  if th.pc.toNat % 4 ≠ 0 then .exc p cAlign none
  else
    match p.translate t .fetch th.pc with
    | .wait q => .wait q
    | .fault q cs gf _ => .exc q cs gf
    | .ok q pa _ _ =>
      let line := pa / 64
      if q.fromLoopBuf t then .ok (q.coreEvent t 4 1)
      else if q.plumb c ∧ (q.coreOf c).fbuf = some line then .ok (q.capture t line)
      else
        match (q.charge c 1).cohLine t line (pa % 64 / 16) with
        | .wait r => .wait r
        | .unassigned r => .exc (r.logUnmapped (tileOfThread t) (initOfThread t) 2 pa) cDataPoison none
        | .done r l =>
          let r := if r.plumb c then (r.keepAcc c 1).modCore c (fun s => { s with fbuf := some line })
            else if (r.l2Get c line).isNone then r
            else r.modCore c (fun s => s.l1iUse line)
          if l.poisoned (pa % 64) 4 then .exc r cDataPoison none else .ok (r.capture t line)

/-! ### Retirement -/

/-- Write back every line of an L2 and invalidate it (R177, R309). -/
def Part.l2Flush (p : Part) (c : Nat) : Part :=
  (p.coreOf c).l2.foldl (fun q e => q.l2Evict c e.1 (2 * c)) p

/-- Plumb entry goes on as far as it can (R177): thread 1 parked at its boundary, every earlier access of thread 0
performed, the buffers drained and the L2 written back; then the caches, buffers and predictors are empty and ACTIVE is set.
Until then ENTERING stays 1. -/
def Part.plumbFlush (c : Nat) (p : Part) : Part :=
  let run1 := (p.thread (2 * c + 1)).run
  if ¬ p.plumbEntering c ∨ run1 = .running ∨ run1 = .waiting then p
  else
    let (q, drained) := p.drainCore c
    let s := q.coreOf c
    if ¬ drained ∨ ¬ (q.thread (2 * c)).dev.isEmpty ∨ q.ownDwr (2 * c) ∨ q.ownDwr (2 * c + 1) ∨ ¬ s.miss.isEmpty ∨ ¬ s.pwt.isEmpty then q
    else
      let r := q.l2Flush c
      if ¬ (r.coreOf c).l2.isEmpty ∨ ¬ (r.coreOf c).wbuf.isEmpty then r
      else ((r.modCore c CoreSt.clearFront).setRg F.CORE_PLUMB_STAT_ENTERING 0 c).setRg F.CORE_PLUMB_STAT_ACTIVE 1 c

/-- A context-synchronising instruction of thread `t` retires (R170, R177, R180, R185). -/
def Part.ctxSync (p : Part) (t : Nat) : Part :=
  let p := p.applyCoreCfg (t / 2)
  let p := if t % 2 = 0 then p.applyPlumb (t / 2) (Part.plumbFlush (t / 2)) else p
  p.modCore (t / 2) (fun s => { s with fbuf := none })

/-- The back-edge of R139 at address `a`: the registers after it, and where execution goes on. -/
def Thr.backEdge (th : Thr) (a next : Dword) : Thr × Dword × Bool :=
  let hit (th : Thr) (n : Nat) : Bool :=
    th.lact n && decide (th.loopEnd n = a &&& ~~~ 3) && decide (th.loopLevel n = th.level.code)
  let off (th : Thr) (n : Nat) : Thr :=
    (th.setSys (srLC n) 0).setSys srLACT (th.sys srLACT &&& ~~~ (dw (2 ^ n)))
  let back (th : Thr) (n : Nat) : Thr × Dword × Bool :=
    (th.setSys (srLC n) (th.sys (srLC n) - 1), th.sys (srLS n) &&& ~~~ 3, true)
  if hit th 1 then
    if (th.sys (srLC 1)).toNat > 1 then back th 1
    else
      let th := off th 1
      if hit th 0 then (if (th.sys (srLC 0)).toNat > 1 then back th 0 else (off th 0, next, false))
      else (th, next, false)
  else if hit th 0 then
    if (th.sys (srLC 0)).toNat > 1 then back th 0 else (off th 0, next, false)
  else (th, next, false)

/-- The thread goes on at `next`; a transfer of control (`jump`), or a step into the next 32 bytes, enters another fetch
block (R165, R169). -/
def Thr.goOn (th : Thr) (next : Dword) (jump : Bool) : Thr :=
  { th with pc := next, blk := if jump || decide (next.toNat / 32 ≠ th.blk.toNat / 32) then next else th.blk }

/-- Move the thread behind the retired instruction (R82, R139, R140). -/
def Thr.advance (th : Thr) (next : Dword) : Thr × Bool :=
  match th.slot with
  | some s => (({ th with slot := none }).goOn s.dest true, false)
  | none =>
    let (th2, n, e) := th.backEdge th.pc next
    (th2.goOn n e, e)

/-- Thread 1 parks at its next permitted boundary while T1EN = 0 or Plumb mode is active or being entered (R132, R177,
R185). -/
def Part.parkCheck (p : Part) (t : Nat) : Part :=
  if t % 2 = 1 ∧ (¬ p.rgOn F.CORE_CFG_T1EN (t / 2) ∨ p.plumb (t / 2) ∨ p.plumbEntering (t / 2)) ∧ (p.thread t).boundary
      ∧ (p.thread t).run = .running then
    p.modThread t (fun th => { th with run := .parked })
  else p

/-- What retirement does besides moving on: INSTRET, the counters, time. -/
def Part.retired (p : Part) (t cost : Nat) : Part :=
  let p := p.modThread t (fun th => { th with instret := (th.instret + 1) % 2 ^ 64, dev := [] })
  ((p.coreEvent t 1 1).tick t cost).parkCheck t

/-- Retire the instruction at the thread's pc with `next` behind it. -/
def Part.retireNext (p : Part) (t cost : Nat) (next : Dword) : Part :=
  let (th, edge) := (p.thread t).advance next
  ((p.modThread t (fun _ => th)).capStep t edge).retired t cost

/-- Raise a synchronous cause of the instruction at the thread's pc (R134, R142, R148). -/
def Part.raise (p : Part) (t cause : Nat) (addr : Dword) (gf : Option GFault) (toH : Bool) : Part :=
  let th := p.thread t
  let p := match gf with | some g => p.recordGf t g | none => p
  let p := p.modThread t (fun x => { x with dev := [] })
  let sv : Saved := ⟨th.pc, th.slot.map (·.dest), addr, true⟩
  (p.takeCause t cause (toH || gf.isSome) sv (Part.plumbFlush (t / 2))).tick t 7

/-- The instruction ends an active loop body at its level (R87, R139). -/
def Thr.atLoopEnd (th : Thr) : Bool :=
  th.slot.isNone && ((th.lact 1 && decide (th.loopEnd 1 = th.pc &&& ~~~ 3) && decide (th.loopLevel 1 = th.level.code))
    || (th.lact 0 && decide (th.loopEnd 0 = th.pc &&& ~~~ 3) && decide (th.loopLevel 0 = th.level.code)))

/-- The thread can start an instruction: it runs, no event goes first (R145), a Plumb core's last device
store has been performed (R179), Plumb entry is not under way on thread 0 (R177), and no thermal trip has stopped the core islands (R582). -/
def Part.startable (p : Part) (t : Nat) : Bool :=
  decide ((p.thread t).run = .running) && !p.sys.pins.thermtrip && !p.eventDue t && !(p.plumb (t / 2) && p.ownDwr t)
    && !(decide (t % 2 = 0) && p.plumbEntering (t / 2))

/-- Complete an instruction whose fetch and decode checks have passed. -/
def Part.complete (t cost : Nat) (r : Res) : Part :=
  match r with
  | .retire p => p.retireNext t cost ((p.thread t).pc + 4)
  | .goto p next => ((p.modThread t (fun th => th.goOn next true)).capStep t false).retired t cost
  | .transfer p dest =>
    ((p.modThread t (fun th => { th.goOn (th.pc + 4) false with slot := some ⟨dest, false⟩ })).capStep t false).retired t cost
  | .final p => (p.capStep t false).retired t cost
  | .trap p =>
    let a := (p.thread t).pc
    let (th, edge) := (p.thread t).advance (a + 4)
    let p := (((p.modThread t (fun _ => th)).capStep t edge).retired t cost)
    (p.takeCause t cTrap false ⟨th.pc, none, a, false⟩ (Part.plumbFlush (t / 2))).tick t 6
  | .exc p cause addr gf toH => p.raise t cause addr gf toH
  | .wait p => p.againAcc (t / 2)

/-- Execute one instruction of thread `t`: nothing happens unless the thread can start it; then its
fetch, the checks in the order of R144, and its body. -/
def Part.runInstr (p : Part) (t : Nat) (i : Info) (body : Part → Res) : Part :=
  if ¬ p.startable t then p
  else
    match p.fetch t with
    | .wait q => q.againAcc (t / 2)
    | .exc q cs gf => q.raise t cs (q.thread t).pc gf false
    | .ok q =>
      let th := q.thread t
      if ¬ i.legal then q.raise t cIllegal 0 none false
      else if th.slot.isSome && !i.slotOk then q.raise t cSlotIllegal 0 none false
      else if th.atLoopEnd && !i.loopEnd then q.raise t cLoopIllegal 0 none false
      else Part.complete t i.cost (body q)

/-- The result of a memory access as the end of an instruction that writes nothing more. -/
def MRes.res (r : MRes) (k : Part → Nat → Part) : Res :=
  match r with
  | .ok p v => .retire (k p v)
  | .exc p c a g => .exc p c a g false
  | .wait p => .wait p

end Sys2Proof.Machine
end

