-- ==== Sys2Proof/Machine/Operands.lean ====
section
/-!
DEFINITION. Operand forms of the instruction words (R63, R65, R72, R73): immediates, shift counts, and
sign extension of results (R34).
-/
namespace Sys2Proof.Machine

/-- Sign-extend the low `n` bits of a number to a dword. -/
def sextN (n v : Nat) : Dword :=
  let x := v % 2 ^ n
  if x ≥ 2 ^ (n - 1) then dw (x + (2 ^ 64 - 2 ^ n)) else dw x

/-- imm16, sign-extended (R65). -/
def sextImm (i : BitVec 16) : Dword := i.signExtend 64
/-- imm16, zero-extended. -/
def zextImm (i : BitVec 16) : Dword := i.setWidth 64

/-- A 32-bit result in a g register (R34). -/
def sextW (x : BitVec 32) : Dword := x.signExtend 64

/-- The low word of a dword. -/
def lowW (x : Dword) : BitVec 32 := x.setWidth 32

/-- A width-`n` number as a signed integer. -/
def toSigned (n v : Nat) : Int :=
  let x := v % 2 ^ n
  if x ≥ 2 ^ (n - 1) then (x : Int) - 2 ^ n else x

/-- The address operand of a format I memory instruction (R75). -/
def Thr.ea (th : Thr) (ra : BitVec 5) (imm : BitVec 16) : Dword := th.gr ra + sextImm imm

end Sys2Proof.Machine
end

