-- ==== Sys2Proof/Machine/Flags.lean ====
section
/-!
DEFINITION. Condition computations: the compare conditions of CMP and CMPI (R73) and the functions of
CLOG and of the mask logic (R74, R121).
-/
namespace Sys2Proof.Machine

/-- Compare condition `cc` of two values of one width (R73); `none` for a reserved code. -/
def cmpCond (cc : BitVec 4) {w : Nat} (a b : BitVec w) : Option Bool :=
  match cc.toNat with
  | 0 => some (a = b)
  | 1 => some (a ≠ b)
  | 2 => some (a.slt b)
  | 3 => some (!a.slt b)
  | 4 => some (a.ult b)
  | 5 => some (!a.ult b)
  | 6 => some (a.sle b)
  | 7 => some (!a.sle b)
  | 8 => some (a.ule b)
  | 9 => some (!a.ule b)
  | 10 => some (a &&& b ≠ 0)
  | 11 => some (a &&& b = 0)
  | _ => none

/-- The immediate of CMPI: zero-extended for LTU, GEU, LEU and GTU, else sign-extended (R73). -/
def cmpiImm (cc : BitVec 4) (imm : BitVec 14) : Dword :=
  if cc = 4 ∨ cc = 5 ∨ cc = 8 ∨ cc = 9 then imm.setWidth 64 else imm.signExtend 64

/-- Function `f` of CLOG on two conditions (R74); `none` for a reserved code. -/
def clogFun (f : Nat) (a b : Bool) : Option Bool :=
  match f with
  | 0 => some (a && b)
  | 1 => some (a || b)
  | 2 => some (a != b)
  | 3 => some (a && !b)
  | 4 => some (a || !b)
  | 5 => some (!(a && b))
  | 6 => some (!(a || b))
  | 7 => some (a == b)
  | _ => none

/-- The same functions on masks (R121). -/
def maskFun (f : Nat) (a b : Dword) : Dword :=
  match f with
  | 0 => a &&& b
  | 1 => a ||| b
  | 2 => a ^^^ b
  | 3 => a &&& ~~~ b
  | 4 => a ||| ~~~ b
  | 5 => ~~~ (a &&& b)
  | 6 => ~~~ (a ||| b)
  | _ => ~~~ (a ^^^ b)

end Sys2Proof.Machine
end

