-- ==== Sys2Proof/Machine/Alu.lean ====
section
/-!
DEFINITION. The integer and condition instructions (R69 to R74).
-/
namespace Sys2Proof.Machine

/-- Ones of a number below `n` bits. -/
def popc (n v : Nat) : Nat := onesBelow n v
/-- Leading zeros in `n` bits; `n` for zero (R69). -/
def clz (n v : Nat) : Nat := if v % 2 ^ n = 0 then n else n - 1 - (v % 2 ^ n).log2
/-- Trailing zeros in `n` bits; `n` for zero. -/
def ctz (n v : Nat) : Nat := ((List.range n).find? (fun i => v.testBit i)).getD n
/-- Bytes in reverse order. -/
def bswap (x : Dword) : Dword :=
  dw ((List.range 8).foldl (fun a i => a + x.toNat / 2 ^ (8 * i) % 256 * 2 ^ (8 * (7 - i))) 0)

/-- Division and remainder of two values of one width, with the edges of R70. -/
def divS {w : Nat} (a b : BitVec w) : BitVec w := if b = 0 then BitVec.allOnes w else a.sdiv b
def divU {w : Nat} (a b : BitVec w) : BitVec w := if b = 0 then BitVec.allOnes w else a.udiv b
def remS {w : Nat} (a b : BitVec w) : BitVec w := if b = 0 then a else a.srem b
def remU {w : Nat} (a b : BitVec w) : BitVec w := if b = 0 then a else a.umod b

/-- A 64-bit ALU operation (R69, R70): `none` for a code that is not listed. `z` says that rb is zero,
which the unary operations require. -/
def alu64 (op : Nat) (a b : Dword) (z : Bool) : Option Dword :=
  let un (x : Dword) : Option Dword := if z then some x else none
  match op with
  | 0x00 => some (a + b)
  | 0x01 => some (a - b)
  | 0x02 => some (a &&& b)
  | 0x03 => some (a ||| b)
  | 0x04 => some (a ^^^ b)
  | 0x05 => some (a &&& ~~~ b)
  | 0x06 => some (a ||| ~~~ b)
  | 0x07 => some (~~~ (a ^^^ b))
  | 0x08 => some (a <<< (b.toNat % 64))
  | 0x09 => some (a >>> (b.toNat % 64))
  | 0x0A => some (a.sshiftRight (b.toNat % 64))
  | 0x0B => some (a.rotateRight (b.toNat % 64))
  | 0x10 => some (a * b)
  | 0x11 => some (BitVec.ofInt 64 (a.toInt * b.toInt / 2 ^ 64))
  | 0x12 => some (dw (a.toNat * b.toNat / 2 ^ 64))
  | 0x13 => some (BitVec.ofInt 64 (a.toInt * (b.toNat : Int) / 2 ^ 64))
  | 0x14 => some (divS a b)
  | 0x15 => some (divU a b)
  | 0x16 => some (remS a b)
  | 0x17 => some (remU a b)
  | 0x18 => some (if a.sle b then a else b)
  | 0x19 => some (if b.sle a then a else b)
  | 0x1A => some (if a.ule b then a else b)
  | 0x1B => some (if b.ule a then a else b)
  | 0x20 => un (dw (clz 64 a.toNat))
  | 0x21 => un (dw (ctz 64 a.toNat))
  | 0x22 => un (dw (popc 64 a.toNat))
  | 0x23 => un (bswap a)
  | 0x24 => un (sextN 8 a.toNat)
  | 0x25 => un (sextN 16 a.toNat)
  | 0x26 => un (sextN 32 a.toNat)
  | 0x27 => un (dw (a.toNat % 2 ^ 8))
  | 0x28 => un (dw (a.toNat % 2 ^ 16))
  | 0x29 => un (dw (a.toNat % 2 ^ 32))
  | _ => none

/-- A 32-bit ALU operation (W = 1): `none` where the W column of R69 reads "no". -/
def alu32 (op : Nat) (a b : BitVec 32) (z : Bool) : Option (BitVec 32) :=
  let un (x : BitVec 32) : Option (BitVec 32) := if z then some x else none
  match op with
  | 0x00 => some (a + b)
  | 0x01 => some (a - b)
  | 0x08 => some (a <<< (b.toNat % 32))
  | 0x09 => some (a >>> (b.toNat % 32))
  | 0x0A => some (a.sshiftRight (b.toNat % 32))
  | 0x0B => some (a.rotateRight (b.toNat % 32))
  | 0x10 => some (a * b)
  | 0x14 => some (divS a b)
  | 0x15 => some (divU a b)
  | 0x16 => some (remS a b)
  | 0x17 => some (remU a b)
  | 0x20 => un (BitVec.ofNat 32 (clz 32 a.toNat))
  | 0x21 => un (BitVec.ofNat 32 (ctz 32 a.toNat))
  | 0x22 => un (BitVec.ofNat 32 (popc 32 a.toNat))
  | _ => none

/-- The result of ALU for a word (R64, R69): `none` for an illegal one. -/
def aluResult (fn : BitVec 11) (rb : BitVec 5) (a b : Dword) : Option Dword :=
  if fn.toNat / 64 % 16 ≠ 0 then none
  else
    let op := fn.toNat % 64
    if fn.getLsbD 10 then (alu32 op (lowW a) (lowW b) (rb = 0)).map sextW else alu64 op a b (rb = 0)

/-- Cost of an ALU operation in Plumb mode (R182). -/
def aluCost (fn : BitVec 11) : Nat :=
  let op := fn.toNat % 64
  if 0x10 ≤ op ∧ op ≤ 0x13 then 3
  else if 0x14 ≤ op ∧ op ≤ 0x17 then (if fn.getLsbD 10 then 22 else 40)
  else 1

/-- An instruction that computes g[rd] from the thread's registers; `none` is an illegal word. -/
def Part.gInstr (p : Part) (t cost : Nat) (rd : BitVec 5) (f : Thr → Option Dword) : Part :=
  p.runInstr t { legal := (f (p.thread t)).isSome, cost := cost } (fun q =>
    .retire (q.modThread t (fun th => th.setG rd ((f th).getD 0))))

/-- An instruction that computes c[cd]. -/
def Part.cInstr (p : Part) (t : Nat) (cd : BitVec 3) (f : Thr → Option Bool) : Part :=
  p.runInstr t { legal := (f (p.thread t)).isSome } (fun q =>
    .retire (q.modThread t (fun th => th.setC cd ((f th).getD false))))

/-- ALU (R69, R70). -/
def Part.iAlu (t : Nat) (rd ra rb : BitVec 5) (fn : BitVec 11) (p : Part) : Part :=
  p.gInstr t (aluCost fn) rd (fun th => aluResult fn rb (th.gr ra) (th.gr rb))

/-- SEL (R71). -/
def Part.iSel (t : Nat) (rd ra rb : BitVec 5) (fn : BitVec 11) (p : Part) : Part :=
  p.gInstr t 1 rd (fun th =>
    if fn.toNat / 8 ≠ 0 then none else some (if th.cr (fn.setWidth 3) then th.gr ra else th.gr rb))

/-- ADDI, ANDI, ORI, XORI (R72). -/
def Part.iAddi (t : Nat) (rd ra : BitVec 5) (imm : BitVec 16) (p : Part) : Part :=
  p.gInstr t 1 rd (fun th => some (th.gr ra + sextImm imm))
def Part.iAndi (t : Nat) (rd ra : BitVec 5) (imm : BitVec 16) (p : Part) : Part :=
  p.gInstr t 1 rd (fun th => some (th.gr ra &&& sextImm imm))
def Part.iOri (t : Nat) (rd ra : BitVec 5) (imm : BitVec 16) (p : Part) : Part :=
  p.gInstr t 1 rd (fun th => some (th.gr ra ||| zextImm imm))
def Part.iXori (t : Nat) (rd ra : BitVec 5) (imm : BitVec 16) (p : Part) : Part :=
  p.gInstr t 1 rd (fun th => some (th.gr ra ^^^ zextImm imm))

/-- The operation of an immediate shift: the ALU shift that imm16[7:6] selects (R72). -/
def shiResult (imm : BitVec 16) (a : Dword) : Option Dword :=
  let n := imm.toNat
  let w := imm.getLsbD 8
  if n / 2 ^ 9 ≠ 0 ∨ (w ∧ imm.getLsbD 5) then none
  else
    let op := 8 + n / 64 % 4
    let cnt := dw (n % 64)
    if w then (alu32 op (lowW a) (lowW cnt) false).map sextW else alu64 op a cnt false

/-- SHI (R72). -/
def Part.iShi (t : Nat) (rd ra : BitVec 5) (imm : BitVec 16) (p : Part) : Part :=
  p.gInstr t 1 rd (fun th => shiResult imm (th.gr ra))

/-- LHI (R72). -/
def Part.iLhi (t : Nat) (rd ra : BitVec 5) (imm : BitVec 16) (p : Part) : Part :=
  p.gInstr t 1 rd (fun _ => if ra ≠ 0 then none else some (sextImm imm <<< (16 : Nat)))

/-- INSH: field `k` of rd takes the immediate (R72). -/
def inshResult (old : Dword) (imm : BitVec 16) (k : Nat) : Dword :=
  (old &&& ~~~ (dw (0xFFFF * 2 ^ (16 * k)))) ||| dw (imm.toNat * 2 ^ (16 * k))
def Part.iInsh (t : Nat) (rd ra : BitVec 5) (imm : BitVec 16) (p : Part) : Part :=
  p.gInstr t 1 rd (fun th => if ra.toNat / 4 ≠ 0 then none else some (inshResult (th.gr rd) imm (ra.toNat % 4)))

/-- ADDPC (R72). -/
def Part.iAddpc (t : Nat) (rd ra : BitVec 5) (imm : BitVec 16) (p : Part) : Part :=
  p.gInstr t 1 rd (fun th => if ra ≠ 0 then none else some (th.pc + (sextImm imm <<< (12 : Nat))))

/-- CMP (R73): `low` is bits [8:0] of the word, W above eight zero bits. -/
def cmpResult (cc : BitVec 4) (low : BitVec 9) (a b : Dword) : Option Bool :=
  if low.toNat % 256 ≠ 0 then none
  else if low.getLsbD 8 then cmpCond cc (lowW a) (lowW b)
  else cmpCond cc a b
def Part.iCmp (t : Nat) (cd : BitVec 3) (cc : BitVec 4) (ra rb : BitVec 5) (low : BitVec 9) (p : Part) : Part :=
  p.cInstr t cd (fun th => cmpResult cc low (th.gr ra) (th.gr rb))

/-- CMPI (R73). -/
def Part.iCmpi (t : Nat) (cd : BitVec 3) (cc : BitVec 4) (ra : BitVec 5) (imm : BitVec 14) (p : Part) : Part :=
  p.cInstr t cd (fun th => cmpCond cc (th.gr ra) (cmpiImm cc imm))

/-- CLOG (R74): `z1` and `z2` are bits [15:14] and [10:0]. -/
def Part.iClog (t : Nat) (cd : BitVec 3) (cc : BitVec 4) (ca cb : BitVec 3) (z1 : BitVec 2) (z2 : BitVec 11)
    (p : Part) : Part :=
  p.cInstr t cd (fun th => if z1 ≠ 0 ∨ z2 ≠ 0 then none else clogFun cc.toNat (th.cr ca) (th.cr cb))

end Sys2Proof.Machine
end

