-- ==== Sys2Proof/Machine/Branch.lean ====
section
/-!
DEFINITION. Control transfers (R82 to R84, R168 to R171) and hardware loop setup (R85, R86, R172).
-/
namespace Sys2Proof.Machine

/-! ### Predictions: hints only (R84, R169, R171) -/

def CoreSt.ras (s : CoreSt) (h : Nat) : List RetEnt := if h = 0 then s.ras0 else s.ras1
def CoreSt.setRas (s : CoreSt) (h : Nat) (l : List RetEnt) : CoreSt :=
  if h = 0 then { s with ras0 := l } else { s with ras1 := l }

/-- What the targets and return addresses of thread `t`'s level are combined with: the secret of H or F, nothing at U and S
(R170). DESIGN CHOICE (notes/assumptions/76.md): the combination is an exclusive or. -/
def Part.secretOf (p : Part) (t : Nat) : Dword :=
  match (p.thread t).level with
  | .h => Config.btbSecret (t / 2) (p.coreOf (t / 2)).secretH
  | .f => Config.btbSecret (t / 2) (p.coreOf (t / 2)).secretF
  | _ => 0

/-- CALL and CALLR push; a full stack loses its oldest entry (R171). -/
def Part.rasPush (p : Part) (t : Nat) (a : Dword) : Part :=
  if ¬ p.rgOn F.CORE_CFG_RASEN (t / 2) ∨ p.plumb (t / 2) then p
  else
    let e : RetEnt := ⟨(p.thread t).level, a ^^^ p.secretOf t⟩
    p.modCore (t / 2) (fun s => s.setRas (t % 2) ((e :: s.ras (t % 2)).take 32))

/-- JR g1 pops: the prediction and the stack without its top, which predicts nothing at another level than its own. -/
def Part.rasPop (p : Part) (t : Nat) : Option Dword × Part :=
  if ¬ p.rgOn F.CORE_CFG_RASEN (t / 2) ∨ p.plumb (t / 2) then (none, p)
  else
    match (p.coreOf (t / 2)).ras (t % 2) with
    | [] => (none, p)
    | e :: r => (if e.level = (p.thread t).level then some (e.addr ^^^ p.secretOf t) else none,
                 p.modCore (t / 2) (fun s => s.setRas (t % 2) r))

/-- The entry point of the fetch block that holds an instruction of the thread (R165, R169). -/
def Thr.entryPoint (th : Thr) (pc : Dword) : Dword :=
  if th.blk.toNat / 32 = pc.toNat / 32 ∧ th.blk.toNat ≤ pc.toNat then th.blk else pc

/-- The buffer set of the thread's fetch block, hashed with the level's secret (R169, R170). -/
def Part.btbSet (p : Part) (t : Nat) (pc : Dword) : Nat :=
  Config.btbHash (p.secretOf t) (((p.thread t).entryPoint pc).toNat / 32) % 512

/-- The entry serves the thread's fetch block (R170): a U or S entry of the thread and level, or an H or F entry of the
level. -/
def Part.btbMatch (p : Part) (t : Nat) (pc : Dword) (b : BtbEnt) : Bool :=
  let th := p.thread t
  decide (b.level = th.level) && decide (b.set = p.btbSet t pc) && decide (b.tag = th.entryPoint pc)
    && (th.level.secret || decide (b.thread = t))

/-- The buffer's prediction for a transfer at `pc`: the target of its fetch block's entry, if that entry names its word. -/
def Part.btbFind (p : Part) (t : Nat) (pc : Dword) : Option Dword :=
  if ¬ p.rgOn F.CORE_CFG_BTBEN (t / 2) ∨ p.plumb (t / 2) then none
  else
    match (p.coreOf (t / 2)).btb.find? (p.btbMatch t pc) with
    | some b => if b.off = (pc - b.tag).toNat / 4 then some (b.target ^^^ p.secretOf t) else none
    | none => none

/-- A transfer retires (R169): its entry, allocated or updated after a miss or a wrong prediction, becomes the most
recently used of its set, and a ninth entry of the set replaces the least recently used one. -/
def Part.btbPut (p : Part) (t : Nat) (kind : BtbKind) (pc target : Dword) : Part :=
  let th := p.thread t
  if ¬ p.rgOn F.CORE_CFG_BTBEN (t / 2) ∨ p.plumb (t / 2) then p
  else
    let e : BtbEnt := { level := th.level, thread := t, set := p.btbSet t pc, tag := th.entryPoint pc,
                        off := (pc - th.entryPoint pc).toNat / 4, kind := kind, target := target ^^^ p.secretOf t }
    p.modCore (t / 2) (fun s =>
      let others := s.btb.filter (fun b => !p.btbMatch t pc b)
      { s with btb := e :: ((others.filter (fun b => b.set = e.set)).take 7 ++ others.filter (fun b => b.set ≠ e.set)) })

/-! ### Transfers -/

def transferInfo (legal : Bool) : Info := { legal := legal, slotOk := false, loopEnd := false, cost := 1 }

/-- A transfer whose target follows from the word, taken when `f` says so (R82). -/
def Part.branch (p : Part) (t : Nat) (cs : BitVec 3) (want : Bool) (disp : BitVec 22) : Part :=
  p.runInstr t (transferInfo true) (fun q =>
    let th := q.thread t
    .transfer q (if th.cr cs = want then th.pc + (disp.signExtend 64 <<< (2 : Nat)) else th.pc + 8))

def Part.iBrt (t : Nat) (cs : BitVec 3) (disp : BitVec 22) (p : Part) : Part := p.branch t cs true disp
def Part.iBrf (t : Nat) (cs : BitVec 3) (disp : BitVec 22) (p : Part) : Part := p.branch t cs false disp

def Part.iJmp (t : Nat) (disp : BitVec 26) (p : Part) : Part :=
  p.runInstr t (transferInfo true) (fun q =>
    let th := q.thread t
    let d := th.pc + (disp.signExtend 64 <<< (2 : Nat))
    .transfer (q.btbPut t .jmp th.pc d) d)

def Part.iCall (t : Nat) (disp : BitVec 26) (p : Part) : Part :=
  p.runInstr t (transferInfo true) (fun q =>
    let th := q.thread t
    let d := th.pc + (disp.signExtend 64 <<< (2 : Nat))
    let q := (q.btbPut t .call th.pc d).rasPush t (th.pc + 8)
    .transfer (q.modThread t (fun x => x.setG 1 (th.pc + 8))) d)

/-- JR (R82 to R84): a target that was not predicted counts (R555 event 3). -/
def Part.iJr (t : Nat) (rd ra rb : BitVec 5) (fn : BitVec 11) (p : Part) : Part :=
  p.runInstr t (transferInfo (rd = 0 && rb = 0 && fn = 0)) (fun q =>
    let th := q.thread t
    let d := th.gr ra
    let (guess, q) := if ra = 1 then q.rasPop t else (q.btbFind t th.pc, q)
    let q := if guess = some d then q else q.coreEvent t 3 1
    .transfer (q.btbPut t .jr th.pc d) d)

def Part.iCallr (t : Nat) (rd ra rb : BitVec 5) (fn : BitVec 11) (p : Part) : Part :=
  p.runInstr t (transferInfo (rd = 0 && rb = 0 && fn = 0)) (fun q =>
    let th := q.thread t
    let d := th.gr ra
    let q := if q.btbFind t th.pc = some d then q else q.coreEvent t 3 1
    let q := (q.btbPut t .callr th.pc d).rasPush t (th.pc + 8)
    .transfer (q.modThread t (fun x => x.setG 1 (th.pc + 8))) d)

/-! ### LOOP -/

/-- The word is a legal control transfer (R82, R86). -/
def wordTransfer (w : Nat) : Bool :=
  let op := w / 2 ^ 26
  op = 0x20 || op = 0x21 || op = 0x22
    || ((op = 0x23 || op = 0x24) && decide (w / 2 ^ 21 % 32 = 0) && decide (w % 2 ^ 16 = 0))

/-- The word is a legal LOOP (R85). -/
def wordLoop (w : Nat) : Bool :=
  decide (w / 2 ^ 26 = 0x28) && (w.testBit 24 || decide (w / 2 ^ 17 % 2 ^ 7 = 0))

/-- The word is an instruction whose Loop end entry is "no" (R86, R100): a transfer, LOOP or RETX. A word
with a reserved encoding is not. -/
def wordNoLoopEnd (w : Nat) : Bool := wordTransfer w || wordLoop w || decide (w = 0xC0000006)

/-- A check read of LOOP (R86): the word at a virtual address. -/
inductive WordRd where
  | val (p : Part) (w line : Nat)
  | exc (p : Part) (cause : Nat) (addr : Dword) (gf : Option GFault)
  | wait (p : Part)

def Part.checkWord (p : Part) (t : Nat) (a : Dword) (paid : Option Nat) : WordRd :=
  match p.translate t .check a with
  | .wait q => .wait q
  | .fault q c g _ => .exc q c a g
  | .ok q pa _ _ =>
    let line := pa / 64
    let free := q.plumb (t / 2) && (decide ((q.coreOf (t / 2)).fbuf = some line) || decide (paid = some line))
    match (if free then q else q.charge (t / 2) 1).cohLine t line (pa % 64 / 16) with
    | .wait q => .wait q
    | .unassigned q => .exc (q.logUnmapped (tileOfThread t) (initOfThread t) 2 pa) cDataPoison a none
    | .done q l =>
      if l.poisoned (pa % 64) 4 then .exc q cDataPoison a none
      else .val q (l.bytes (pa % 64) 4) line

/-- The physical lines of the part of a body that lies in END's page; END lies in `line`. -/
def endLines (start fin : Dword) (line : Nat) : List Nat :=
  (List.range (min (fin.toNat / 64 - start.toNat / 64) (fin.toNat / 64 % 64) + 1)).map (line - ·)

/-- A loop set-up for the loop buffer (R172, R173): the same body keeps its capture. END lies in physical line `line`. -/
def Part.loopCapture (p : Part) (t : Nat) (start fin : Dword) (lv n line : Nat) : Part :=
  let th := p.thread t
  let same := match (p.coreOf (t / 2)).cap (t % 2) with
    | some b => decide (b.start = start) && decide (b.fin = fin) && decide (b.level = th.level)
    | none => false
  if same then p
  else
    let b := if n ≠ 0 ∧ (fin.toNat - start.toNat) / 4 < 64 ∧ p.rgOn F.CORE_CFG_LBEN (t / 2)
      then some (⟨start, fin, th.level, lv, 0, 0, false, endLines start fin line, false⟩ : LoopCap) else none
    p.modCore (t / 2) (fun s => s.setCap (t % 2) b)

/-- LOOP (R85, R86, R138). -/
def Part.iLoop (t : Nat) (lv imm : Bool) (cnt len : BitVec 12) (p : Part) : Part :=
  p.runInstr t { legal := imm || decide (cnt.toNat / 32 = 0), slotOk := false, loopEnd := false, cost := 2 } (fun q =>
    let th := q.thread t
    let n : Dword := if imm then cnt.setWidth 64 else th.gr (cnt.setWidth 5)
    let le := th.pc + dw (4 * (len.toNat + 1))
    let i := if lv then 1 else 0
    let setup (q : Part) (line : Nat) : Res :=
      let q := q.loopCapture t (th.pc + 4) le i n.toNat line
      let bit := dw (2 ^ i)
      let q := q.modThread t (fun x =>
        let x := ((x.setSys (srLS i) (th.pc + 4)).setSys (srLE i) (le + dw th.level.code)).setSys (srLC i) n
        x.setSys srLACT (if n = 0 then x.sys srLACT &&& ~~~ bit else x.sys srLACT ||| bit))
      if n = 0 then .goto (q.modCore (t / 2) (fun s => { s with fbuf := none })) (le + 4) else .retire q
    let endWord (q : Part) (paid : Option Nat) : Res :=
      match q.checkWord t le paid with
      | .wait q => .wait q
      | .exc q c a g => .exc q c a g false
      | .val q w line => if wordNoLoopEnd w then .exc q cLoopIllegal 0 none false else setup q line
    if len = 0 then endWord q none
    else
      match q.checkWord t (le - 4) none with
      | .wait q => .wait q
      | .exc q c a g => .exc q c a g false
      | .val q w line => if wordTransfer w then .exc q cLoopIllegal 0 none false else endWord q (some line))

end Sys2Proof.Machine
end

