-- ==== Sys2Proof/Machine/MemI.lean ====
section
/-!
DEFINITION. Loads, stores, ordered accesses, atomics, cache maintenance and TLB maintenance instructions
(R75 to R81, R97 to R99, R206, R207).
-/
namespace Sys2Proof.Machine

/-- A scalar load of `n` bytes into rd, extended (R75, R76). -/
def Part.ldInstr (p : Part) (t n : Nat) (sx : Bool) (rd ra : BitVec 5) (imm : BitVec 16) : Part :=
  p.runInstr t {} (fun q =>
    (q.load t ((q.thread t).ea ra imm) n).res (fun r v =>
      r.modThread t (fun th => th.setG rd (if sx then sextN (8 * n) v else dw v))))

/-- A scalar store of `n` bytes from g[rd] (R75, R76). -/
def Part.stInstr (p : Part) (t n : Nat) (rd ra : BitVec 5) (imm : BitVec 16) : Part :=
  p.runInstr t {} (fun q =>
    (q.store t ((q.thread t).ea ra imm) n (((q.thread t).gr rd).toNat % 2 ^ (8 * n))).res (fun r _ => r))

def Part.iLdb (t : Nat) (rd ra : BitVec 5) (imm : BitVec 16) (p : Part) : Part := p.ldInstr t 1 true rd ra imm
def Part.iLdbu (t : Nat) (rd ra : BitVec 5) (imm : BitVec 16) (p : Part) : Part := p.ldInstr t 1 false rd ra imm
def Part.iLdh (t : Nat) (rd ra : BitVec 5) (imm : BitVec 16) (p : Part) : Part := p.ldInstr t 2 true rd ra imm
def Part.iLdhu (t : Nat) (rd ra : BitVec 5) (imm : BitVec 16) (p : Part) : Part := p.ldInstr t 2 false rd ra imm
def Part.iLdw (t : Nat) (rd ra : BitVec 5) (imm : BitVec 16) (p : Part) : Part := p.ldInstr t 4 true rd ra imm
def Part.iLdwu (t : Nat) (rd ra : BitVec 5) (imm : BitVec 16) (p : Part) : Part := p.ldInstr t 4 false rd ra imm
def Part.iLdd (t : Nat) (rd ra : BitVec 5) (imm : BitVec 16) (p : Part) : Part := p.ldInstr t 8 false rd ra imm
def Part.iStb (t : Nat) (rd ra : BitVec 5) (imm : BitVec 16) (p : Part) : Part := p.stInstr t 1 rd ra imm
def Part.iSth (t : Nat) (rd ra : BitVec 5) (imm : BitVec 16) (p : Part) : Part := p.stInstr t 2 rd ra imm
def Part.iStw (t : Nat) (rd ra : BitVec 5) (imm : BitVec 16) (p : Part) : Part := p.stInstr t 4 rd ra imm
def Part.iStd (t : Nat) (rd ra : BitVec 5) (imm : BitVec 16) (p : Part) : Part := p.stInstr t 8 rd ra imm

/-- Acquire load (R77): `sz` is fn[1:0], `zx` fn[3], `z` fn[10:4]. The thread's release stores come
first (R51); the address is checked for alignment before it is translated (R144 rank 9). -/
def Part.iLdAq (t : Nat) (rd ra rb : BitVec 5) (sz : BitVec 2) (zx : Bool) (z : BitVec 7) (p : Part) : Part :=
  let n := 2 ^ sz.toNat
  p.runInstr t { legal := rb = 0 && z = 0 && !(zx && sz = 3) } (fun q =>
    let a := (q.thread t).gr ra
    if a.toNat % n ≠ 0 then .exc q cAlign a none false
    else
      match q.performStores t true with
      | (r, false) => .wait r
      | (r, true) =>
        (r.load t a n).res (fun r v => r.modThread t (fun th => th.setG rd (if zx ∨ sz = 3 then dw v else sextN (8 * n) v))))

/-- Release store of g[rb] (R77): every earlier access of the thread is performed first (R51, R316). -/
def Part.iStl (t : Nat) (rd ra rb : BitVec 5) (sz : BitVec 2) (zx : Bool) (z : BitVec 7) (p : Part) : Part :=
  let n := 2 ^ sz.toNat
  p.runInstr t { legal := rd = 0 && z = 0 && !zx } (fun q =>
    let th := q.thread t
    let a := th.gr ra
    if a.toNat % n ≠ 0 then .exc q cAlign a none false
    else
      match q.check t .store a false cAlign [(0, n)] [] with
      | .wait r => .wait r
      | .exc r c a g => .exc r c a g false
      | .ok r _ =>
        match r.performStores t true with
        | (r, false) => .wait r
        | (r, true) => (r.store t a n ((th.gr rb).toNat % 2 ^ (8 * n))).res (fun r _ => r))

/-- A register pair (R80). -/
def Thr.pair (th : Thr) (r : BitVec 5) : Nat := (th.gr r).toNat + (th.gr (r + 1)).toNat * 2 ^ 64

/-- AMO (R78 to R81). -/
def amoLegal (rd rb : BitVec 5) (fn : BitVec 11) : Bool :=
  let op := fn.toNat % 16
  let sz := fn.toNat / 16 % 4
  decide (op ≤ 9) && decide (sz ≠ 1) && decide (fn.toNat / 256 % 4 ≠ 3) && !fn.getLsbD 10
    && (decide (sz ≠ 0) || (decide (op = 1) && decide (rd.toNat % 2 = 0) && decide (rb.toNat % 2 = 0)
          && decide (rd ≠ 0) && decide (rb ≠ 0)))

def Part.iAmo (t : Nat) (rd ra rb : BitVec 5) (fn : BitVec 11) (p : Part) : Part :=
  let op := fn.toNat % 16
  let sz := fn.toNat / 16 % 4
  let n := if sz = 0 then 16 else 2 ^ sz
  p.runInstr t { legal := amoLegal rd rb fn } (fun q =>
    let th := q.thread t
    let b := if sz = 0 then th.pair rb else (th.gr rb).toNat % 2 ^ (8 * n)
    let e := if sz = 0 then th.pair rd else (th.gr rd).toNat % 2 ^ (8 * n)
    (q.amo t (th.gr ra) n op b e (fn.toNat / 256 % 4) (fn.getLsbD 6) (fn.getLsbD 7)).res (fun r old =>
      r.modThread t (fun th =>
        if sz = 0 then (th.setG rd (dw old)).setG (rd + 1) (dw (old / 2 ^ 64))
        else if sz = 2 then th.setG rd (sextN 32 old)
        else th.setG rd (dw old))))

/-! ### Cache maintenance -/

/-- A prefetch hint (R97, R201): it brings the line when its translation and the line can be had at once,
and has no effect otherwise. -/
def Part.prefetch (p : Part) (t : Nat) (ak : AccKind) (a : Dword) (own inst : Bool) : Part :=
  if p.plumb (t / 2) then p
  else
    match p.translate t ak a with
    | .ok q pa ty _ =>
      if ty ≠ .cacheable then p
      else
        let line := pa / 64
        let r := q.heard (q.threadAgent t) line (q.coreAsks (t / 2) line own false)
          (if own then q.cohOwn (t / 2) line t false else q.cohRead (t / 2) line t)
        match r with
        | .done q _ =>
          if (q.l2Get (t / 2) line).isNone then q
          else q.modCore (t / 2) (fun s => if inst then s.l1iUse line else s.l1dUse line)
        | _ => p
    | _ => p

def Part.iPrefr (t : Nat) (ra : BitVec 5) (imm : BitVec 16) (p : Part) : Part :=
  p.runInstr t {} (fun q => .retire (q.prefetch t .load ((q.thread t).ea ra imm) false false))
def Part.iPrefw (t : Nat) (ra : BitVec 5) (imm : BitVec 16) (p : Part) : Part :=
  p.runInstr t {} (fun q => .retire (q.prefetch t .store ((q.thread t).ea ra imm) true false))
def Part.iPrefi (t : Nat) (ra : BitVec 5) (imm : BitVec 16) (p : Part) : Part :=
  p.runInstr t {} (fun q => .retire (q.prefetch t .fetch ((q.thread t).ea ra imm) false true))
/-- CLEAN, FLUSH and IINV need R (R193). -/
def Part.iClean (t : Nat) (ra : BitVec 5) (imm : BitVec 16) (p : Part) : Part :=
  p.runInstr t {} (fun q => (q.lineOp t ((q.thread t).ea ra imm) .load (some .clean)).res (fun r _ => r))
def Part.iFlush (t : Nat) (ra : BitVec 5) (imm : BitVec 16) (p : Part) : Part :=
  p.runInstr t {} (fun q => (q.lineOp t ((q.thread t).ea ra imm) .load (some .flush)).res (fun r _ => r))
def Part.iIinv (t : Nat) (ra : BitVec 5) (imm : BitVec 16) (p : Part) : Part :=
  p.runInstr t {} (fun q => (q.lineOp t ((q.thread t).ea ra imm) .load none).res (fun r _ => r))
/-- INVAL is privileged and needs W and D (R97, R193). -/
def Part.iInval (t : Nat) (ra : BitVec 5) (imm : BitVec 16) (p : Part) : Part :=
  p.runInstr t {} (fun q =>
    if (q.thread t).level = .u then .exc q cPriv 0 none false
    else (q.lineOp t ((q.thread t).ea ra imm) .store (some .inval)).res (fun r _ => r))
def Part.iZero (t : Nat) (ra : BitVec 5) (imm : BitVec 16) (p : Part) : Part :=
  p.runInstr t {} (fun q => (q.lineZero t ((q.thread t).ea ra imm)).res (fun r _ => r))

/-! ### TLB maintenance -/

/-- A TLBM request: scope, address, identifier, and the regime it acts on (R99). -/
structure TlbReq where
  scope : Nat
  addr : Nat
  id : Nat
  vm : Bool
  vmid : Nat
  deriving DecidableEq, Repr

/-- Whether an entry is in the scope of a request (R99, R207). -/
def TlbReq.covers (r : TlbReq) (e : TlbEnt) : Bool :=
  let regime := !e.s2 && decide (e.vm = r.vm) && (!r.vm || decide (e.vmid = r.vmid))
  let at? := decide (r.addr / e.size = e.va / e.size)
  match r.scope with
  | 0 => regime && !e.glob && decide (e.asid = r.id % 2 ^ 16) && at?
  | 1 => regime && at?
  | 2 => regime && !e.glob && decide (e.asid = r.id % 2 ^ 16)
  | 3 => regime
  | 4 => (e.s2 && decide (e.vmid = r.id % 2 ^ 12) && at?) || (!e.s2 && e.vm && decide (e.vmid = r.id % 2 ^ 12))
  | 5 => e.vm && decide (e.vmid = r.id % 2 ^ 12)
  | _ => true

/-- The accesses that a core has made so far are performed as far as they can be (R206); the Bool says that all are: its
buffered stores, its writes to devices and its accesses that another unit answers, reads of lines apart. -/
def Part.accessesDone (p : Part) (c : Nat) : Part × Bool :=
  let (q, drained) := p.drainCore c
  let still (t : Nat) : Bool := q.ownDwr t
    || (q.thread t).dev.any (fun d => d.ans.isNone && !(decide (d.size = 64) && decide (regionOf d.addr = .mem)))
  (q, drained && !still (2 * c) && !still (2 * c + 1))

/-- A request takes effect on a core: entries go, with captured bodies whose page loses its translation (R173) and what
walks under way have read (R206). -/
def Part.tlbInval (p : Part) (c : Nat) (r : TlbReq) : Part :=
  let own (h va : Nat) : Bool :=
    let th := p.thread (2 * c + h)
    let root := if th.vm then th.sys 0x890 else th.sys 0x410
    r.covers ⟨.instr, false, th.vm, th.vmid, rootAsid root, false, va / 4096 * 4096, 4096, 0, 0, 0, 0⟩
  ((p.modThread (2 * c) Thr.dropReads).modThread (2 * c + 1) Thr.dropReads).modCore c (fun s =>
    let gone := s.tlb.filter r.covers
    let keep (h : Nat) (b : LoopCap) : Bool :=
      b.level = .h || b.level = .f
        || !(own h b.start.toNat || own h b.fin.toNat || gone.any (fun e =>
            decide (b.start.toNat / e.size = e.va / e.size) || decide (b.fin.toNat / e.size = e.va / e.size)))
    { s with tlb := s.tlb.filter (fun e => !r.covers e), cap0 := s.cap0.filter (keep 0), cap1 := s.cap1.filter (keep 1) })

/-- The request carried by a TINV message (R287, R288). -/
def Msg.tlbReq (m : Msg) : TlbReq := ⟨m.op, m.addr, m.aux % 2 ^ 16, m.plb, m.vmid⟩

/-- Cores of this socket, other than `c`, that hold translations: in service and out of reset (R208). -/
def Part.tlbTargets (p : Part) (c : Nat) : List Nat :=
  (List.range nCores).filter (fun x => x ≠ c && p.coreInSvc x
    && (decide ((p.thread (2 * x)).run ≠ .inReset) || decide ((p.thread (2 * x + 1)).run ≠ .inReset)))

/-- TLBM (R99, R206): PRIV checks, the thread's earlier stores, the effect on its own core, and a TINV to
every other core and socket unless `loc`. Sockets count as targets 1,000 + ID. -/
def Part.tlbm (t scope : Nat) (rd ra rb : BitVec 5) (loc : Bool) (z : BitVec 7) (p : Part) : Part :=
  p.runInstr t { legal := rd = 0 && z = 0 } (fun q =>
    let th := q.thread t
    if th.level = .u then .exc q cPriv 0 none false
    else if th.level = .s ∧ scope ≥ 4 then .exc q cPriv 0 none th.vm
    else
      match q.performStores t true with
      | (r, false) => .wait r
      | (r, true) =>
        let (r, done) := r.accessesDone (t / 2)
        if ¬ done then .wait r else
        let req : TlbReq := ⟨scope, (th.gr ra).toNat, (th.gr rb).toNat % 2 ^ 16,
          decide (th.level = .s) && th.vm, th.vmid⟩
        let r := (r.charge (t / 2) 1).tlbInval (t / 2) req
        if loc then .retire r
        else
          let tg := r.tlbTargets (t / 2) ++ ((List.range r.sktCnt).filter (· ≠ r.sktId)).map (· + 1000)
          if tg.isEmpty then .retire r
          else
            let m : Msg := { Msg.blank with opc := .tinv, src := r.threadAgent t, txid := r.seq, addr := req.addr, op := scope,
                                            aux := req.id + t * 2 ^ 16, plb := req.vm, vmid := req.vmid, bc := true }
            -- one message for each core tile of this socket with a target, one for every other socket
            let r := (((tg.filter (· < nCores)).map tileOfCore).eraseDups.map (fun x => (⟨r.sktId, x, 0⟩ : Agent))
                ++ ((List.range r.sktCnt).filter (· ≠ r.sktId)).map (fun s => (⟨s, 0, 0⟩ : Agent))).foldl
              (fun (q : Part) (d : Agent) => q.send { m with dst := d }) r
            let r := r.modThread t (fun th => { th with tlbm := th.tlbm ++ tg.map (fun c => (r.seq, c)) })
            .retire { r with seq := r.seq + 1 })

def Part.iTinvPage (t : Nat) (rd ra rb : BitVec 5) (loc : Bool) (z : BitVec 7) (p : Part) : Part := p.tlbm t 0 rd ra rb loc z
def Part.iTinvPageAny (t : Nat) (rd ra rb : BitVec 5) (loc : Bool) (z : BitVec 7) (p : Part) : Part := p.tlbm t 1 rd ra rb loc z
def Part.iTinvSpace (t : Nat) (rd ra rb : BitVec 5) (loc : Bool) (z : BitVec 7) (p : Part) : Part := p.tlbm t 2 rd ra rb loc z
def Part.iTinvStage1 (t : Nat) (rd ra rb : BitVec 5) (loc : Bool) (z : BitVec 7) (p : Part) : Part := p.tlbm t 3 rd ra rb loc z
def Part.iTinvGpage (t : Nat) (rd ra rb : BitVec 5) (loc : Bool) (z : BitVec 7) (p : Part) : Part := p.tlbm t 4 rd ra rb loc z
def Part.iTinvGuest (t : Nat) (rd ra rb : BitVec 5) (loc : Bool) (z : BitVec 7) (p : Part) : Part := p.tlbm t 5 rd ra rb loc z
def Part.iTinvEvery (t : Nat) (rd ra rb : BitVec 5) (loc : Bool) (z : BitVec 7) (p : Part) : Part := p.tlbm t 6 rd ra rb loc z

/-- Target `core` of a TINV of thread `t` is done with request `req`. -/
def Part.tinvDone (p : Part) (t req core : Nat) : Part :=
  p.modThread t (fun th => { th with tlbm := th.tlbm.filter (· ≠ (req, core)) })

/-- A target core takes a TINV of thread `t`, request `req`, that has reached its tile, once its accesses have been performed,
and acknowledges it (R206, R208). Another socket's answer, target 1,000 + ID, stands for its cores. -/
def Part.tinvAt (p : Part) (t req core : Nat) : Part :=
  if ¬ (p.thread t).tlbm.contains (req, core) then p
  else if core ≥ 1000 then p.tinvDone t req core
  else
    match p.net.find? (fun m => decide (m.opc = .tinv) && decide (m.txid = req) && decide (m.aux / 2 ^ 16 = t)
        && decide (m.src.skt = p.sktId) && decide (m.dst = ⟨p.sktId, tileOfCore core, 0⟩)) with
    | none => p
    | some m =>
      let p := p.fabTo m
      if ¬ p.landed m then p
      else
        let (p, done) := p.accessesDone core
        if ¬ done then p
        else
          let p := (p.tlbInval core m.tlbReq).tinvDone t req core
          let p := p.crossed .cmp ⟨p.sktId, tileOfCore core, 2 * (core % 2)⟩ m.src req 0
          if (p.thread t).tlbm.any (fun x => decide (x.1 = req) && decide (x.2 < nCores) && decide (tileOfCore x.2 = tileOfCore core))
          then p else p.takeOut m

end Sys2Proof.Machine
end

