-- ==== Sys2Proof/Machine/Cache.lean ====
section
/-!
DEFINITION. Slice way power, maintenance sweeps, hardware prefetch and merging-buffer drains (R223, R238 to
R243), as effects after the control registers have taken a write, and as events.
-/
namespace Sys2Proof.Machine

/-- Bit `g` of a field set to `b`. -/
def setBit (x g : Nat) (b : Bool) : Nat :=
  if x.testBit g = b then x else if b then x + 2 ^ g else x - 2 ^ g

/-- Write modified lines of the ways `sel` selects back to memory; `drop` also invalidates them (R238, R242).
A line that stays becomes clean. -/
def Part.sweepLines (p : Part) (k : Nat) (sel : Nat → Bool) (drop : Bool) : Part :=
  (p.sliceOf k).llc.foldl (fun (r : Part) (e : Nat × SlLine) =>
    if ¬ sel e.2.way then r
    else
      let r := if e.2.dirty then r.memWrite k e.1 e.2.line.data (BitVec.allOnes 64) e.2.line.pois else r
      let clean : SlLine := { e.2 with dirty := false }
      if drop then r.sliceDrop k e.1 else r.modSlice k (fun s => { s with llc := s.llc.put e.1 clean })) p

/-- One way group after LLC_WAYPWR.ON has changed (R238, R239, R240). -/
def Part.wayGroupSet (p : Part) (k g : Nat) (on : Bool) : Part :=
  let pw := p.rg F.LLC_WAYSTAT_POWERED k
  let cl := p.rg F.LLC_WAYSTAT_CLEANING k
  let wk := p.rg F.LLC_WAYSTAT_WAKING k
  if on then
    if cl.testBit g then (p.setRg F.LLC_WAYSTAT_CLEANING (setBit cl g false) k).setRg F.LLC_WAYSTAT_POWERED (setBit pw g true) k
    else if ¬ pw.testBit g ∧ ¬ wk.testBit g then p.setRg F.LLC_WAYSTAT_WAKING (setBit wk g true) k
    else p
  else
    if pw.testBit g then (p.setRg F.LLC_WAYSTAT_POWERED (setBit pw g false) k).setRg F.LLC_WAYSTAT_CLEANING (setBit cl g true) k
    else p

/-- LLC_WAYPWR.ON of slice `k` has changed from `old` to `new` (R238 to R240). A group under a field test
takes the change after the test (R529). -/
def Part.llcWaypwr (p : Part) (k old new : Nat) : Part :=
  let tested : Bool := match p.sys.prm.test with | some t => t.slice && decide (t.target = k) | none => false
  (List.range 4).foldl (fun (r : Part) (g : Nat) =>
    if old.testBit g = new.testBit g then r
    else if tested then
      r.modPrm (fun s => { s with test := s.test.map (fun t =>
        { t with grpOff := setBit t.grpOff g (!new.testBit g), grpOn := setBit t.grpOn g (new.testBit g) }) })
    else r.wayGroupSet k g (new.testBit g)) p

/-- WAY_GROUP_CLEANED: the lines of a group being cleaned leave it, and it is switched off (R238). -/
def Part.wayGroupCleaned (k g : Nat) (p : Part) : Part :=
  if ¬ (p.rg F.LLC_WAYSTAT_CLEANING k).testBit g then p
  else
    let q := p.sweepLines k (fun w => w / 4 = g) true
    q.setRg F.LLC_WAYSTAT_CLEANING (setBit (q.rg F.LLC_WAYSTAT_CLEANING k) g false) k

/-- WAY_GROUP_WOKEN: a waking group becomes allocatable; if ON was cleared meanwhile, cleaning starts
(R239, R240). -/
def Part.wayGroupWoken (k g : Nat) (p : Part) : Part :=
  if ¬ (p.rg F.LLC_WAYSTAT_WAKING k).testBit g then p
  else
    let q := p.setRg F.LLC_WAYSTAT_WAKING (setBit (p.rg F.LLC_WAYSTAT_WAKING k) g false) k
    let q := q.setRg F.LLC_WAYSTAT_POWERED (setBit (q.rg F.LLC_WAYSTAT_POWERED k) g true) k
    if (q.rg F.LLC_WAYPWR_ON k).testBit g then q else q.wayGroupSet k g false

/-- LLC_MAINT.GO (R242), OP and GROUPS as the register now holds them. -/
def Part.llcMaint (p : Part) (k : Nat) : Part :=
  let op := p.rg F.LLC_MAINT_OP k
  if p.rgOn F.LLC_MSTAT_BUSY k ∨ op ≥ 2 then p.setRg F.LLC_MSTAT_REJ 1 k
  else (p.setRg F.LLC_MSTAT_BUSY 1 k).modSlice k (fun s => { s with sweep := some ⟨op = 1, p.rg F.LLC_MAINT_GROUPS k⟩ })

/-- LLC_SWEEP_DONE: every line of the named groups has been handled (R242). -/
def Part.llcSweepDone (k : Nat) (p : Part) : Part :=
  match (p.sliceOf k).sweep with
  | none => p
  | some w =>
    let q := ((p.homeGrant k 3).sweepLines k (fun y => w.groups.testBit (y / 4)) w.flush).modSlice k (fun s => { s with sweep := none })
    (q.setRg F.LLC_MSTAT_BUSY 0 k).setRg F.LLC_MSTAT_DONE 1 k

/-- The lines of a failing way leave the slice (R241): modified ones go to memory, the chunks whose data cannot be corrected
poisoned; which those are is open (notes/assumptions/64.md). -/
def Part.salvageWay (p : Part) (k w : Nat) : Part :=
  (p.sliceOf k).llc.foldl (fun (r : Part) (e : Nat × SlLine) =>
    if e.2.way ≠ w then r
    else if e.2.dirty then
      (r.used.memWrite k e.1 e.2.line.data (BitVec.allOnes 64) (e.2.line.pois ||| BitVec.ofNat 4 r.freshNat)).sliceDrop k e.1
    else r.sliceDrop k e.1) p

/-- A way of a slice is retired (R241): its lines leave it; a fifth takes the slice out of service, which is
the caller's. The record is Primer's. -/
def Part.retireWay (p : Part) (k w : Nat) : Part :=
  let q := p.salvageWay k w
  let q := q.setRg F.LLC_WAYSTAT_RETIRED (setBit (q.rg F.LLC_WAYSTAT_RETIRED k) w true) k
  let i := 80 + k / 2
  let old := q.sys.prm.record.get 0 i
  q.modPrm (fun s => { s with record := s.record.put i (setBit old (16 * (k % 2) + w) true) })

/-- Slice way retirements so far. -/
def Part.retiredWays (p : Part) (k : Nat) : Nat := onesBelow 16 (p.rg F.LLC_WAYSTAT_RETIRED k)

/-- A way of an L2 is retired (R241): its lines leave it for their homes. -/
def Part.retireL2Way (p : Part) (c w : Nat) : Part :=
  let q := (p.coreOf c).l2.foldl (fun (r : Part) (e : Nat × L2Line) => if e.2.way = w then r.l2Evict c e.1 (2 * c) else r) p
  let q := q.modCore c (fun s => { s with l2ret := if s.l2ret.contains w then s.l2ret else w :: s.l2ret })
  let i := 14 + c / 4
  let old := q.sys.prm.record.get 0 i
  q.modPrm (fun s => { s with record := s.record.put i (setBit old (8 * (c % 4) + w) true) })

/-- LLC_PFCTL enables a prefetcher of core `c`: the L1 stride or the L2 stream prefetcher (R243, R245). -/
def Part.pfOn (p : Part) (c : Nat) (l2 : Bool) : Bool :=
  let k := c / 2
  if c % 2 = 0 then (if l2 then p.rgOn F.LLC_PFCTL_L2PF0 k else p.rgOn F.LLC_PFCTL_L1PF0 k)
  else (if l2 then p.rgOn F.LLC_PFCTL_L2PF1 k else p.rgOn F.LLC_PFCTL_L1PF1 k)

/-- The physical address that a translation already in the TLBs gives a read of cacheable memory, without a walk and without
an effect (R201, R203): of the data TLB's entry that permits it, else the L2 TLB's; or the address itself where no translation
applies. -/
def Part.tlbPeek (p : Part) (t : Nat) (va : Nat) : Option Nat :=
  let th := p.thread t
  let root := if th.vm then th.sys 0x890 else th.sys 0x410
  let cacheable (ty : MemType) (pa : Nat) : Option Nat := if ty = .cacheable then some pa else none
  if th.level = .h ∨ th.level = .f ∨ (¬ th.vm ∧ rootMode root ≠ 5) then
    (if va < 2 ^ 52 then cacheable (regionType va) va else none)
  else
    let ok (pl : TlbPlace) (e : TlbEnt) : Bool :=
      decide (e.place = pl) && e.hits th.vm th.vmid (rootAsid root) va && e.permits .load (decide (th.level = .u)) va
    match (p.coreOf (t / 2)).tlb.find? (ok .data) <|> (p.coreOf (t / 2)).tlb.find? (ok .second) with
    | some e => let pa := e.pa + va % e.size; cacheable ((mtOfCode e.mt).max (regionType pa)) pa
    | none => none

/-- The distance of the L2 stream prefetcher (R245): 0 is applied as 1. -/
def Part.l2Dist (p : Part) (c : Nat) : Nat := max 1 (p.rg F.LLC_PFCTL_L2DIST (c / 2))

/-- A stream of the thread's prefetcher leads to the address, within the 4 KB that it is in (R201, R243): at a step of the L1
prefetcher's, at most 64 ahead (DESIGN CHOICE, notes/assumptions/33.md), or at most L2DIST lines ahead in the L2
prefetcher's direction. -/
def Part.pfReaches (p : Part) (t va : Nat) (l2 : Bool) : Bool :=
  let s := p.coreOf (t / 2)
  if l2 then
    s.pf2.any (fun x => decide (x.last / 64 = va / 4096)
      && (List.range (p.l2Dist (t / 2))).any (fun i => decide ((va / 64 : Nat) = (x.last : Int) + x.step * (i + 1))))
  else
    s.pf1.any (fun x => decide (x.thread = t % 2) && decide (x.last / 4096 = va / 4096) && decide (x.step ≠ 0)
      && (List.range 64).any (fun i => decide ((va : Int) = (x.last : Int) + x.step * (i + 1))))

/-- HW_PREFETCH: a prefetcher of thread `t`'s core brings the line that one of its streams leads to, through a translation
already in the TLBs (R201, R243); otherwise it does nothing. -/
def Part.hwPrefetch (t : Nat) (va : Dword) (l2 : Bool) (p : Part) : Part :=
  let c := t / 2
  if ¬ p.pfOn c l2 ∨ p.plumb c ∨ (p.thread t).run = .inReset ∨ ¬ p.pfReaches t va.toNat l2 then p
  else
    match p.tlbPeek t va.toNat with
    | none => p
    | some pa =>
      match p.heard (p.threadAgent t) (pa / 64) (p.coreAsks c (pa / 64) false false) (p.cohRead c (pa / 64) t) with
      | .done q _ => if l2 ∨ (q.l2Get c (pa / 64)).isNone then q else q.modCore c (fun s => s.l1dUse (pa / 64))
      | _ => p

/-- MERGE_DRAIN: entry `i` of core `c`'s merging buffer drains (R223), and the store queue goes on into the place that it
leaves (R222). Device entries of one thread leave in program order (R51). -/
def Part.mergeDrain (c i : Nat) (p : Part) : Part :=
  match (p.coreOf c).mb[i]? with
  | none => p
  | some e => ((p.drainEntry c e).2).sqPump c

end Sys2Proof.Machine
end

