-- ==== Sys2Proof/Machine/Crc.lean ====
section
/-!
DEFINITION. The cyclic redundancy checks of the specification: CRC-32 of IEEE 802.3 (R323, R345).
-/
namespace Sys2Proof.Machine

/-- One bit of a reflected CRC of 32 bits with the reflected polynomial `poly`. -/
def crcBit (poly : BitVec 32) (c : BitVec 32) : BitVec 32 :=
  if c.getLsbD 0 then (c >>> 1) ^^^ poly else c >>> 1

/-- One byte of a reflected CRC. -/
def crcByte (poly : BitVec 32) (c : BitVec 32) (b : Byte) : BitVec 32 :=
  let x := c ^^^ b.setWidth 32
  crcBit poly (crcBit poly (crcBit poly (crcBit poly (crcBit poly (crcBit poly (crcBit poly (crcBit poly x)))))))

/-- CRC-32 of IEEE 802.3: polynomial 0x04C11DB7, reflected, initial value and final XOR all ones. -/
def crc32 (l : List Byte) : BitVec 32 := ~~~ l.foldl (crcByte 0xEDB88320) 0xFFFFFFFF

/-- CRC-32C: polynomial 0x1EDC6F41, reflected, initial value and final XOR all ones. -/
def crc32c (l : List Byte) : BitVec 32 := ~~~ l.foldl (crcByte 0x82F63B78) 0xFFFFFFFF

/-- One bit of a CRC of 32 bits, the most significant bit first. -/
def crcUp (poly c : BitVec 32) : BitVec 32 := if c.getLsbD 31 then (c <<< 1) ^^^ poly else c <<< 1

/-- CRC-32 of a Dovetail flit (R351): polynomial 0x04C11DB7 and initial value all ones. The specification names no reflection
and no final XOR: none is applied (DESIGN CHOICE, notes/assumptions/88.md). -/
def crcFlit (l : List Byte) : BitVec 32 :=
  l.foldl (fun (c : BitVec 32) (b : Byte) => (List.range 8).foldl (fun x _ => crcUp 0x04C11DB7 x) (c ^^^ (b.setWidth 32 <<< 24))) 0xFFFFFFFF

end Sys2Proof.Machine
end

