-- ==== Sys2Proof/Machine/Sys.lean ====
section
/-!
DEFINITION. System registers and the views of the interrupt controller (R57 to R62, R150 to R155, R189),
and the system instructions (R53, R55, R88 to R96, R149).
-/
namespace Sys2Proof.Machine

/-! ### Views of the interrupt controller -/

/-- The view that a register number reaches (R151, R154): its level, and whether it is the guest view. -/
structure IcView where
  lv : Level
  guest : Bool
  deriving DecidableEq, Repr

/-- Does a view reach a vector (R152)? -/
def IcView.reaches (w : IcView) (vmid : Nat) (x : IcVec) : Bool :=
  match w.lv with
  | .f => true
  | .h => decide (x.lv = .s) || decide (x.lv = .h)
  | _ => decide (x.lv = .s) && (if w.guest then x.g && decide (x.vmid = vmid) else !x.g)

/-- Base number of a view's registers. -/
def IcView.base (w : IcView) : Nat := match w.lv with | .f => 0xC20 | .h => 0x820 | _ => 0x420

/-- The number that holds register `off` of a view: the guest view shares ICIPI and ICSTAT (R154). -/
def IcView.num (w : IcView) (off : Nat) : Nat :=
  if w.guest then
    match off with
    | 1 => 0x829 | 2 => 0x82A | 6 => 0x82B | 7 => 0x82C | _ => 0x420 + off
  else w.base + off

def Ic.get (ic : Ic) (n : Nat) : Dword := ic.reg.get 0 n
def Ic.put (ic : Ic) (n : Nat) (v : Dword) : Ic := { ic with reg := ic.reg.put n v }

/-- The vector that ICCLAIM returns (R155). -/
def Ic.claimable (ic : Ic) (w : IcView) (vmid : Nat) : Option Nat :=
  let thr := (ic.get (w.num 1)).toNat
  (ic.vec.filter (fun e => w.reaches vmid e.2 && decide (e.2.lv = w.lv) && e.2.en && e.2.pend && decide (e.1 ≥ thr))).foldl
    (fun b e => match b with | none => some e.1 | some v => some (max v e.1)) none

/-- ICCFG of a vector as a value (R151). -/
def IcVec.word (x : IcVec) : Dword :=
  dw (x.vmid * 2 ^ 16 + (if x.d then 32 else 0) + (if x.g then 16 else 0) + x.lv.code * 4
      + (if x.pend then 2 else 0) + (if x.en then 1 else 0))

/-- A write of ICCFG by a view that reaches the vector (R151, R152). -/
def IcVec.write (x : IcVec) (w : IcView) (v : Dword) : IcVec :=
  let y : IcVec := { x with pend := v.getLsbD 1, en := v.getLsbD 0 }
  if w.lv = .s then y
  else
    let l := v.toNat / 4 % 4
    let nl := if l = 0 ∨ (l = 3 ∧ w.lv ≠ .f) then x.lv else Level.ofCode l
    { y with d := v.getLsbD 5, g := v.getLsbD 4, vmid := v.toNat / 2 ^ 16 % 2 ^ 12, lv := nl }

/-- Read register `off` of a view. Reading ICCLAIM claims (R155). -/
def Part.icRead (p : Part) (t : Nat) (w : IcView) (off : Nat) : Part × Dword :=
  let ic := p.icOf t
  let vmid := (p.thread t).vmid
  match off with
  | 0 =>
    match ic.claimable w vmid with
    | some v => (p.modIc t (fun ic => ic.modVec v (fun x => { x with pend := false })), dw (2 ^ 63 + v))
    | none => (p, 0)
  | 3 =>
    let x := ic.vecOf ((ic.get (w.num 2)).toNat)
    (p, if w.reaches vmid x then x.word else 0)
  | 7 => (p, if w.guest then ic.get (w.num 7) &&& ~~~ (dw (0xFFF * 2 ^ 16)) else ic.get (w.num 7))
  | _ =>
    if off = 1 ∨ off = 2 ∨ off = 4 ∨ off = 5 ∨ off = 6 ∨ (w.lv = .h ∧ 8 ≤ off ∧ off ≤ 12) then (p, ic.get (w.num off))
    else (p, 0)

/-- An IPI is sent (R158): it waits in flight until the sender's stores up to now are performed. The
message names the sender and the ICSTAT of the view that sent it. -/
def Part.sendIpi (p : Part) (t : Nat) (w : IcView) (v : Dword) : Part :=
  let th := p.thread t
  let n := v.toNat
  let m := ipiMsg ⟨p.sktId, tileOfThread t, initOfThread t⟩ (n / 2 ^ 20 % 16) (n / 2 ^ 10 % 1024) (n % 1024)
    false th.level.code th.vm th.vmid p.seq
  p.send { m with addr := t, status := w.num 5 }

/-- Write register `off` of a view (R151, R154). -/
def Part.icWrite (p : Part) (t : Nat) (w : IcView) (off : Nat) (v : Dword) : Part :=
  let ic := p.icOf t
  let vmid := (p.thread t).vmid
  let keep (n : Nat) (m : Nat) : Part := p.modIc t (fun ic => ic.put n (v &&& dw m))
  match off with
  | 1 => keep (w.num 1) 0x7FF
  | 2 => keep (w.num 2) 0x3FF
  | 3 =>
    let k := (ic.get (w.num 2)).toNat
    if w.reaches vmid (ic.vecOf k) then p.modIc t (fun ic => ic.modVec k (fun x => x.write w v)) else p
  | 4 => (p.modIc t (fun ic => ic.put (w.num 4) (v &&& dw 0xFFFFFF))).sendIpi t w v
  | 5 => p.modIc t (fun ic => ic.put (w.num 5) (ic.get (w.num 5) &&& ~~~ (v &&& 1)))
  | 6 => keep (w.num 6) (2 ^ 64 - 1)
  | 7 =>
    if w.guest then
      p.modIc t (fun ic => ic.put 0x82C ((ic.get 0x82C &&& dw (0xFFF * 2 ^ 16)) ||| (v &&& dw (2 ^ 63 + 0x3FF))))
    else keep (w.num 7) (2 ^ 63 + 0x3FF)
  | _ =>
    if w.lv = .h ∧ 8 ≤ off ∧ off ≤ 12 then
      keep (0x820 + off) (match off with
        | 8 => 2 ^ 63 + 0x3FF | 9 => 0x7FF | 10 => 0x3FF | 11 => 2 ^ 64 - 1 | _ => 2 ^ 63 + 0xFFF * 2 ^ 16 + 0x3FF)
    else p

/-! ### System registers -/

/-- Lowest level of a register number (R57). -/
def srLevel (n : Nat) : Nat := n / 0x400

/-- The number is in a view of the controller. -/
def icNumber (n : Nat) : Bool := n / 0x20 = 0x21 || n / 0x20 = 0x41 || n / 0x20 = 0x61

/-- Implemented register numbers (R59). -/
def srExists (n : Nat) : Bool :=
  n = 0x000 || n = 0x001 || n = 0x002 || n = 0x008 || n = 0x009 || n = 0x010 || n = 0x011
    || (decide (0x020 ≤ n) && decide (n ≤ 0x022)) || (decide (0x024 ≤ n) && decide (n ≤ 0x026)) || n = 0x028
    || (decide (0x400 ≤ n) && decide (n ≤ 0x407)) || n = 0x410 || n = 0x411
    || (decide (0x800 ≤ n) && decide (n ≤ 0x808)) || n = 0x810
    || (decide (0x880 ≤ n) && decide (n ≤ 0x887)) || n = 0x890
    || (decide (0xC00 ≤ n) && decide (n ≤ 0xC08)) || icNumber n

/-- Read-only registers: counters, TID, CURLV, and ICCLAIM of each view. -/
def srRO (n : Nat) : Bool :=
  n = 0x000 || n = 0x001 || n = 0x002 || n = 0x008 || n = 0x009 || (icNumber n && n % 0x20 = 0)

/-- Mode column "yes" (R59). -/
def srMode (n : Nat) : Bool := n = 0x400 || n = 0x410 || n = 0x800 || n = 0x810 || n = 0xC00

/-- The number a thread reaches: the guest copies while V = 1 (R58). -/
def Thr.srNum (th : Thr) (n : Nat) : Nat :=
  if th.vm then (if 0x400 ≤ n ∧ n ≤ 0x407 then n + 0x480 else if n = 0x410 then 0x890 else n) else n

/-- What an access of a register number raises: the cause and whether it goes to H or F whatever HDELEG
says (R57, R61). -/
def Thr.srDenied (th : Thr) (n : Nat) (write : Bool) : Option (Nat × Bool) :=
  if th.vm ∧ srLevel n = 2 then some (cPriv, true)
  else if srLevel n > th.level.code then some (cPriv, false)
  else if ¬ srExists n then some (cIllegal, false)
  else if write ∧ srRO n then some (cIllegal, false)
  else if ¬ write ∧ th.level = .u ∧ n ≤ 2 ∧ ¬ (th.sys 0x411).getLsbD n then some (cPriv, false)
  else none

/-- The view that a number names for a thread. -/
def Thr.viewOf (th : Thr) (n : Nat) : IcView :=
  match srLevel n with
  | 3 => ⟨.f, false⟩
  | 2 => ⟨.h, false⟩
  | _ => ⟨.s, th.vm⟩

/-- XPC of a bank, by the number that holds it (R59). -/
def srXpc (n : Nat) : Bool := n = 0x401 || n = 0x801 || n = 0xC01 || n = 0x881

/-- Read a system register (R59, R60). Bits [1:0] of an XPC read zero, whatever it holds
(notes/assumptions/74.md). -/
def Part.srRead (p : Part) (t n : Nat) : Part × Dword :=
  let th := p.thread t
  if icNumber n then p.icRead t (th.viewOf n) (n % 0x20)
  else
    (p, match n with
      | 0x000 => dw (p.coreOf (t / 2)).cycle
      | 0x001 => dw p.time
      | 0x002 => dw th.instret
      | 0x008 => dw (p.sktId * 2 ^ 10 + t / 2 * 2 + t % 2)
      | 0x009 => dw ((if th.vm then 4 else 0) + th.level.code)
      | 0x010 => th.c.setWidth 64 ||| 1
      | _ => let k := th.srNum n
             if srXpc k then th.sys k &&& ~~~ 3 else th.sys k)

/-- The bits of a register that a write stores (R60, R106, R138, R143, R189). An XPC holds all that software
writes: RETX uses it as written (R149, notes/assumptions/74.md). -/
def srStored (n : Nat) (level : Nat) (v : Dword) : Dword :=
  let x := v.toNat
  if n = 0x011 then v &&& 0x1FF
  else if n = 0x021 ∨ n = 0x025 then v &&& ~~~ 3
  else if n = 0x022 ∨ n = 0x026 then (v &&& ~~~ 3) ||| dw (min (x % 4) level)
  else if n = 0x028 then v &&& 3
  else if n = 0x400 ∨ n = 0x800 ∨ n = 0xC00 ∨ n = 0x880 then v &&& 3
  else if n = 0x403 ∨ n = 0x803 ∨ n = 0xC03 ∨ n = 0x883 then v &&& 0x7F
  else if n = 0x404 ∨ n = 0x804 ∨ n = 0xC04 ∨ n = 0x884 then v &&& dw (2 ^ 63 + 0x3FF)
  else if n = 0x407 ∨ n = 0x807 ∨ n = 0xC07 ∨ n = 0x887 then v &&& ~~~ 0xFFF
  else if n = 0x808 then v &&& 0xFFFE
  else if n = 0xC08 then v &&& 0x1FFFE
  else if n = 0x411 then v &&& 7
  else if n = 0x410 ∨ n = 0x890 then
    (v &&& ~~~ (dw (0xF * 2 ^ 44))) &&& ~~~ (if x % 16 = 5 then 0 else 0xF)
  else if n = 0x810 then
    (v &&& ~~~ (dw (0xFF * 2 ^ 56))) &&& ~~~ (if x % 16 = 5 then 0 else 0xF)
  else v

/-- A write to a loop register ends the capture of the body it governs (R173). -/
def Part.capLoopWrite (p : Part) (t n : Nat) (old new : Dword) : Part :=
  match (p.coreOf (t / 2)).cap (t % 2) with
  | none => p
  | some b =>
    let hit := decide (n = srLS b.loop) || decide (n = srLE b.loop)
      || (decide (n = srLACT) && decide (old.getLsbD b.loop ≠ new.getLsbD b.loop))
    if hit then p.modCore (t / 2) (fun s => s.setCap (t % 2) none) else p

/-- Write a system register that may be written. -/
def Part.srWrite (p : Part) (t n : Nat) (v : Dword) : Part :=
  let th := p.thread t
  if icNumber n then p.icWrite t (th.viewOf n) (n % 0x20) v
  else if n = 0x010 then p.modThread t (fun x => { x with c := (v.setWidth 8) ||| 1 })
  else
    let k := th.srNum n
    let new := srStored k th.level.code v
    let p := p.capLoopWrite t k (th.sys k) new
    let p := p.modThread t (fun x => x.setSys k new)
    if k = 0x410 ∨ k = 0x890 ∨ k = 0x810 then p.btbDropUS t else p

/-- SRD (R88): `z` marks ra = 0. -/
def Part.iSrd (t : Nat) (rd ra : BitVec 5) (sr : BitVec 12) (p : Part) : Part :=
  p.runInstr t { legal := ra = 0, cost := 2 } (fun q =>
    match (q.thread t).srDenied sr.toNat false with
    | some (c, h) => .exc q c 0 none h
    | none =>
      let (r, v) := q.srRead t sr.toNat
      .retire (r.modThread t (fun th => th.setG rd v)))

/-- SWR, SRSET and SRCLR: `f` gives the value written from the old value and g[ra]; `ret` returns the old
one (R88, R89, R136). -/
def Part.swrInstr (p : Part) (t : Nat) (legal ret : Bool) (rd ra : BitVec 5) (sr : BitVec 12)
    (f : Dword → Dword → Dword) : Part :=
  let n := sr.toNat
  p.runInstr t { legal := legal, slotOk := !srMode n, cost := if srMode n then 4 else 2 } (fun q =>
    match (q.thread t).srDenied n true with
    | some (c, h) => .exc q c 0 none h
    | none =>
      let (_, old) := q.srRead t n
      let q := q.srWrite t n (f old ((q.thread t).gr ra))
      let q := if ret then q.modThread t (fun th => th.setG rd old) else q
      .retire (if srMode n then q.ctxSync t else q))

def Part.iSwr (t : Nat) (rd ra : BitVec 5) (sr : BitVec 12) (p : Part) : Part :=
  p.swrInstr t (rd = 0) false rd ra sr (fun _ b => b)
def Part.iSrset (t : Nat) (rd ra : BitVec 5) (sr : BitVec 12) (p : Part) : Part :=
  p.swrInstr t true true rd ra sr (fun a b => a ||| b)
def Part.iSrclr (t : Nat) (rd ra : BitVec 5) (sr : BitVec 12) (p : Part) : Part :=
  p.swrInstr t true true rd ra sr (fun a b => a &&& ~~~ b)

/-- The first register of a view (R155). -/
def View.base : View → BitVec 12
  | .s => 0x420 | .h => 0x820 | .f => 0xC20

/-- SRD of ICCLAIM (R155). -/
def Part.icclaimRead (t : Nat) (w : View) (rd : BitVec 5) (p : Part) : Part := p.iSrd t rd 0 w.base
/-- SWR of ICCFG and of ICIPI (R152, R158). -/
def Part.iccfgWrite (t : Nat) (w : View) (ra : BitVec 5) (p : Part) : Part := p.iSwr t 0 ra (w.base + 3)
def Part.icipiWrite (t : Nat) (w : View) (ra : BitVec 5) (p : Part) : Part := p.iSwr t 0 ra (w.base + 4)

/-! ### System instructions -/

/-- TRAP (R90): `sr` is its code. -/
def Part.iTrap (t : Nat) (rd ra : BitVec 5) (_code : BitVec 12) (p : Part) : Part :=
  p.runInstr t { legal := rd = 0 && ra = 0, slotOk := false, cost := 4 } (fun q => .trap (q.ctxSync t))

/-- BREAK (R91). -/
def Part.iBreak (t : Nat) (rd ra : BitVec 5) (_code : BitVec 12) (p : Part) : Part :=
  p.runInstr t { legal := rd = 0 && ra = 0 } (fun q => .exc q cBreak (q.thread t).pc none false)

/-- RETX (R92, R149). -/
def Part.iRetx (t : Nat) (rd ra : BitVec 5) (sr : BitVec 12) (p : Part) : Part :=
  p.runInstr t { legal := rd = 0 && ra = 0 && sr = 0, slotOk := false, loopEnd := false, cost := 4 } (fun q =>
    let th := q.thread t
    if th.retxDenied then .exc q cPriv 0 none false
    else
      let th2 := th.ret
      let q := q.modThread t (fun _ => th2)
      let q := if th2.level ≠ th.level ∨ th2.vm ≠ th.vm then q.btbDropUS t else q
      .final (q.ctxSync t))

/-- An event that ends a WAIT is pending (R93). -/
def Part.wakeDue (p : Part) (t : Nat) : Bool :=
  let th := p.thread t
  let ic := p.icOf t
  th.wake || !th.mce.isEmpty || ic.vec.any (fun e => ic.unmasked th e.1)

/-- WAIT (R93): a no-op in a slot; suspends the thread when nothing is pending. -/
def Part.iWait (t : Nat) (rd ra : BitVec 5) (sr : BitVec 12) (p : Part) : Part :=
  p.runInstr t { legal := rd = 0 && ra = 0 && sr = 0 } (fun q =>
    let th := q.thread t
    if th.level = .u then .exc q cPriv 0 none false
    else if th.slot.isSome ∨ q.wakeDue t then .retire (q.modThread t (fun x => { x with wake := false }))
    else .wait (q.modThread t (fun x => { x with run := .waiting })))

/-- A waiting thread retires its WAIT (R93). -/
def Part.waitWake (t : Nat) (p : Part) : Part :=
  if (p.thread t).run = .waiting ∧ p.wakeDue t then
    let p := p.modThread t (fun x => { x with run := .running, wake := false })
    p.retireNext t (1 + p.freshNat) ((p.thread t).pc + 4)
  else p

/-- FENCE (R53, R94): bits 5 to 2 of the sr field are P.r, P.w, S.r, S.w, bit 0 is IO. -/
def Part.iFence (t : Nat) (rd ra : BitVec 5) (sr : BitVec 12) (p : Part) : Part :=
  p.runInstr t { legal := rd = 0 && ra = 0 && decide (sr.toNat / 64 = 0) && !sr.getLsbD 1 } (fun q =>
    if sr.getLsbD 4 ∧ (sr.getLsbD 3 ∨ sr.getLsbD 2) then
      match q.performStores t (sr.getLsbD 0) with
      | (r, true) => .retire r
      | (r, false) => .wait r
    else .retire q)

/-- DFENCE (R55, R316): every cacheable store, and every store to a persistent region of any type, with
every PACK. -/
def Part.iDfence (t : Nat) (rd ra : BitVec 5) (sr : BitVec 12) (p : Part) : Part :=
  p.runInstr t { legal := rd = 0 && ra = 0 && sr = 0 } (fun q =>
    match q.drainThread t (fun e => decide (e.ty = .cacheable) || q.isPers e.line) with
    | (r, true) => if (r.coreOf (t / 2)).pwt.isEmpty then .retire r else .wait r
    | (r, false) => .wait r)

/-- ISYNC (R95). -/
def Part.iIsync (t : Nat) (rd ra : BitVec 5) (sr : BitVec 12) (p : Part) : Part :=
  p.runInstr t { legal := rd = 0 && ra = 0 && sr = 0 } (fun q => .retire (q.ctxSync t))

/-- TSYNC (R96, R208). -/
def Part.iTsync (t : Nat) (rd ra : BitVec 5) (sr : BitVec 12) (p : Part) : Part :=
  p.runInstr t { legal := rd = 0 && ra = 0 && sr = 0 } (fun q =>
    if (q.thread t).tlbm.isEmpty then .retire (q.charge (t / 2) 1) else .wait q)

/-! ### Events taken at a boundary -/

/-- The state to save for an event before the thread's next instruction (R131, R137, R148). -/
def Thr.savedNow (th : Thr) : Saved := ⟨th.pc, th.slot.map (·.dest), 0, true⟩

/-- A deliverable interrupt is taken, unless a MACHINE_CHECK goes first (R145, R153). -/
def Part.interruptTaken (t : Nat) (p : Part) : Part :=
  let th := p.thread t
  if th.run = .running ∧ th.boundary ∧ th.mce.isEmpty ∧ ¬ (t % 2 = 0 ∧ p.plumbEntering (t / 2)) then
    match (p.icOf t).best th with
    | some v => (p.takeInterrupt t v th.savedNow (Part.plumbFlush (t / 2))).tick t 6
    | none => p
  else p

/-- A pending MACHINE_CHECK is taken (R145). -/
def Part.machineCheckTaken (t : Nat) (p : Part) : Part :=
  let th := p.thread t
  if th.run = .running ∧ th.boundary ∧ ¬ (t % 2 = 0 ∧ p.plumbEntering (t / 2)) then
    match th.mce with
    | [] => p
    | _ :: r =>
      ((p.modThread t (fun x => { x with mce := r })).takeCause t 16 false th.savedNow
        (Part.plumbFlush (t / 2))).tick t 6
  else p

end Sys2Proof.Machine
end

