-- ==== Sys2Proof/Machine/Irq.lean ====
section
/-!
DEFINITION. Doorbells, IPIs of threads and of units, and timers (R156 to R161).
-/
namespace Sys2Proof.Machine

/-! ### Agents -/

/-- The code of an agent's tile as a sharer. -/
def Agent.tcode (a : Agent) : Nat := a.skt * 2 ^ 8 + a.tile
/-- The owner code of the L2 of an agent that is a core's thread. -/
def Agent.ocode (a : Agent) : Nat := a.skt * 2 ^ 9 + a.tile * 2 + a.init / 2 % 2
/-- The core of an agent of a core tile. -/
def Agent.coreNo (a : Agent) : Nat := 2 * (coreOrd a.tile).getD 0 + a.init / 2 % 2
/-- The thread of an agent of a core tile. -/
def Agent.threadNo (a : Agent) : Nat := 4 * (coreOrd a.tile).getD 0 + a.init % 4
/-- The agent is a thread of a core of this socket. -/
def Agent.isThread (a : Agent) (skt : Nat) : Bool := decide (a.skt = skt) && (coreOrd a.tile).isSome && decide (a.init < 4)

/-- A core of this socket is absent, switched off or in reset: its tile's stand-in answers for it (R276). -/
def Part.coreAway (p : Part) (c : Nat) : Bool :=
  !p.coreInSvc c || (decide ((p.thread (2 * c)).run = .inReset) && decide ((p.thread (2 * c + 1)).run = .inReset))

/-- The stand-in's record of a message (R276), with the source tile. -/
def Part.standInLog (p : Part) (tile : Nat) (q : Msg) : Part :=
  p.rasLog tile 0xFF 8 0 q.src.init q.addr (.named [0, q.src.tile])

/-! ### Doorbells and IPIs -/

/-- The interrupt controller of a thread takes doorbells, IPIs and timer events: its core is in service
and not in reset (R29, R158, R161). -/
def Part.icPresent (p : Part) (t : Nat) : Bool :=
  p.coreInSvc (t / 2) && decide ((p.thread t).run ≠ .inReset)

/-- A doorbell write of `size` bytes to thread `t` (R156, R161): sets PEND, or is discarded and logged in
the core's tile. The page of a core out of service ignores it (R29). -/
def Part.doorbell (p : Part) (t data size init : Nat) : Part :=
  if ¬ p.coreInSvc (t / 2) then p
  else
    let v := data % 1024
    let ok := decide (size = 4) && decide (data < 1024) && ((p.icOf t).vecOf v).d && p.icPresent t
    if ok then p.setPend t v true
    else p.rasLog (tileOfThread t) 0xFF 9 0 init 0 .unstated

/-- DOORBELL_WRITE. -/
def Part.doorbellWrite (t : Nat) (data : BitVec 32) (size init : Nat) (p : Part) : Part :=
  p.doorbell t data.toNat size init

/-- Does the target controller accept an IPI of a thread (R158)? -/
def ipiAccepts (x : IcVec) (level : Nat) (vm : Bool) (vmid : Nat) : Bool :=
  decide (x.lv.code ≤ level) && (!vm || (decide (x.lv = .s) && x.g && decide (x.vmid = vmid)))

/-- An IPI leaves for another socket, which answers it with CMP, STATUS 2 when it is discarded (R158). DESIGN CHOICE
(notes/assumptions/24.md): R287 names no answer to an IPI; the CMP says for a thread which ICSTAT sent it, for a unit which
target and vector were named. -/
def Part.ipiSent (p : Part) (m : Msg) : Part :=
  if p.ipiOwn m then p.modThread m.addr (fun th => { th with ipis := th.ipis + 1 }) else p

/-- A unit's IPI that is discarded leaves a BLOCK entry in the sender's tile (R159). -/
def Part.unitRejected (p : Part) (src : Agent) (skt target vec : Nat) : Part :=
  p.rasLog src.tile 0xFF 13 0 src.init 0 (.named [14, src.tile, src.init, skt, target, vec])

/-- The answer to an IPI of another socket. -/
def Msg.ipiAnswer (m : Msg) (status : Nat) : Msg :=
  { Msg.blank with opc := .cmp, src := m.dst, dst := m.src, txid := m.txid, plb := true, status := status,
                   aux := if m.bc then m.aux * 2 ^ 10 + m.op else m.status }

/-- An IPI is discarded (R158, R159): its thread's ICSTAT.REJ is set, its unit's tile has a BLOCK entry, or the socket that
it came from is told. -/
def Part.ipiReject (p : Part) (m : Msg) : Part :=
  if m.src.skt ≠ p.sktId then p.send (m.ipiAnswer 2)
  else if m.bc then p.unitRejected m.src m.dst.skt m.aux m.op
  else p.modIc m.addr (fun ic => ic.put m.status (ic.get m.status ||| 1))

/-- The answer to an IPI that went to another socket. -/
def Part.ipiAnswered (p : Part) (q : Msg) : Part :=
  if q.dst.isThread p.sktId then
    let t := q.dst.threadNo
    let r := p.modThread t (fun th => { th with ipis := th.ipis - 1 })
    if q.status = 0 then r else r.modIc t (fun ic => ic.put q.aux (ic.get q.aux ||| 1))
  else if q.status = 0 then p
  else p.unitRejected q.dst q.src.skt (q.aux / 2 ^ 10) (q.aux % 2 ^ 10)

/-- An IPI that has reached tile D leaves for another socket; one to a socket that is not enumerated is discarded once its turn
comes. -/
def Part.ipiLeave (p : Part) (skt : Nat) : Part :=
  match p.net.find? (fun m => decide (m.opc = .ipi) && decide (m.dst.skt = skt) && decide (skt ≠ p.sktId)) with
  | some m =>
    if skt < p.sktCnt then
      let r := p.fabTo m
      if r.landed m then (r.takeOut m).ipiSent m else r
    else if p.ipiReady m then (p.takeOut m).ipiReject m
    else p
  | none => p

/-- IPIs of this socket's threads and units to a core number that no core has are discarded once their turn comes (R158,
R159). -/
def Part.ipiNowhere (p : Part) : Part :=
  match p.net.find? (fun m => decide (m.opc = .ipi) && decide (m.dst.skt = p.sktId) && decide (m.aux ≥ 2 * nCores) && p.ipiReady m) with
  | some m => (p.takeOut m).ipiReject m
  | none => p

/-- An IPI reaches its controller: `ok` says that the vector takes it. One that finds the thread in reset is recorded in the
tile (R161). -/
def Part.ipiTake (p : Part) (m : Msg) (t vec : Nat) (ok : Bool) : Part :=
  if p.icPresent t && ok then
    let q := p.setPend t vec true
    if m.src.skt ≠ q.sktId then q.send (m.ipiAnswer 0) else q
  else
    (if p.coreInSvc (t / 2) ∧ (p.thread t).run = .inReset then
      p.rasLog (tileOfThread t) 0xFF 13 0 (initOfThread t) 0 (.named [15]) else p).ipiReject m

/-- An IPI of a thread arrives at thread `t` for vector `vec` (R158): the oldest one in flight, else one from a socket
outside the part's state, whose sender has the level, V and VMID given and sees the answer there. -/
def Part.ipiArrive (skt t vec : Nat) (level : Level) (vm : Bool) (vmid : BitVec 12) (p : Part) : Part :=
  if skt ≠ p.sktId then p.ipiLeave skt
  else
  let sel (m : Msg) : Bool := decide (m.opc = .ipi) && !m.bc && decide (m.aux = t) && decide (m.op = vec)
    && decide (m.dst.skt = skt)
  let x := (p.icOf t).vecOf vec
  match p.net.find? sel with
  | some m =>
    let r := p.fabTo m
    if r.landed m then (r.takeOut m).ipiTake m t vec (ipiAccepts x m.sz m.plb m.vmid) else r
  | none =>
    if p.icPresent t && ipiAccepts x level.code vm vmid.toNat then p.setPend t vec true
    else if p.coreInSvc (t / 2) ∧ (p.thread t).run = .inReset then
      p.rasLog (tileOfThread t) 0xFF 13 0 (initOfThread t) 0 (.named [15])
    else p

/-- A unit's IPI arrives (R159): accepted whatever the vector's LV, G and VMID. -/
def Part.unitIpi (skt t vec : Nat) (p : Part) : Part :=
  if skt ≠ p.sktId then p.ipiLeave skt
  else
    match p.net.find? (fun m => decide (m.opc = .ipi) && m.bc && decide (m.aux = t) && decide (m.op = vec)
        && decide (m.dst.skt = skt)) with
    | none => p
    | some m =>
      let r := p.fabTo m
      if r.landed m then (r.takeOut m).ipiTake m t vec true else r

/-- The compare register of a timer (R160). -/
def Timer.cmpNum : Timer → Nat
  | .s => 0x426 | .h => 0x826 | .f => 0xC26 | .guest => 0x82B
def Timer.vecNum : Timer → Nat
  | .s => 0x427 | .h => 0x827 | .f => 0xC27 | .guest => 0x82C
def Timer.view : Timer → IcView
  | .s => ⟨.s, false⟩ | .h => ⟨.h, false⟩ | .f => ⟨.f, false⟩ | .guest => ⟨.s, true⟩

/-- An armed timer fires when TIME reaches its compare value (R160): this command moves TIME there. EN is
cleared; the vector becomes pending if the view reaches it, else REJ is set. -/
def Part.timerFire (t : Nat) (k : Timer) (p : Part) : Part :=
  let ic := p.icOf t
  let r := ic.get k.vecNum
  if ¬ r.getLsbD 63 ∨ ¬ p.icPresent t then p
  else
    let p := { p with time := max p.time (ic.get k.cmpNum).toNat }
    let v := r.toNat % 1024
    let p := p.modIc t (fun ic => ic.put k.vecNum (r &&& ~~~ dw (2 ^ 63)))
    if k.view.reaches (r.toNat / 2 ^ 16 % 2 ^ 12) (ic.vecOf v) then p.setPend t v true
    else p.modIc t (fun ic => ic.put (k.view.num 5) (ic.get (k.view.num 5) ||| 1))

end Sys2Proof.Machine
end

