-- ==== Sys2Proof/Machine/Protocol.lean ====
section
/-!
DEFINITION. The coherence messages of R287 one by one: requests at the home with its trackers (R282,
R289 to R291), snoops at core tiles (R286, R292), answers and grants (R289, R294, R297), the home timeout
(R306 to R308), and the deferral of snoops (R303, R304). A message that matches one in flight is that
message; any other has been sent by an agent outside the part's state (notes/assumptions/24.md).
-/
namespace Sys2Proof.Machine

def Msg.line (m : Msg) : Nat := m.addr / 64

/-- Take a message out of flight: the one with the same code, sender, number and line. -/
def Part.arrive (p : Part) (m : Msg) : Msg × Part :=
  match takeMsg m.same p.net with
  | some (x, rest) => (x, ({ p with net := rest } : Part).fabTake x)
  | none => (m, p)

/-- A slice event of the home (R555). -/
def Part.homeEvent (p : Part) (k evt : Nat) (vmid : Nat) : Part :=
  p.perfEvent (coreTile k) 16 4 evt 1 (some vmid) none

/-- What an SNPI leaves in the tile (DESIGN CHOICE, notes/assumptions/82.md: the header has no field for it): nothing; the
owner's copy, which has a snoop of its own; or the copy that the request upgrades. -/
inductive Spare where | none | owner | requester
  deriving DecidableEq, Repr

def Spare.code : Spare → Nat | .none => 0 | .owner => 1 | .requester => 2

/-- What the SNPIs of a request leave (R289). -/
def spareOf : Opc → Spare
  | .rdo => .owner | .wrnap => .owner | .pwt => .owner | .amof => .owner | .cmof => .owner
  | .upg => .requester
  | _ => .none

/-- Send a snoop for a transaction. -/
def Part.snoop (p : Part) (k : Nat) (opc : Opc) (q : Msg) (tile : Nat) (bc : Bool) : Part :=
  (p.send { Msg.blank with opc := opc, src := p.homeAgent k, dst := ⟨tile / 256, tile % 256, 0⟩, txid := q.txid,
                           op := if opc = .snpi then (spareOf q.opc).code else 0,
                           addr := q.line * 64, vmid := q.vmid, bc := bc, aux := q.src.code, part := q.part }).homeEvent k 4 q.vmid

/-- An answer of the home to the requester of `q`. -/
def Part.answerMsg (p : Part) (k : Nat) (opc : Opc) (q : Msg) (l : Line) (status : Nat) : Msg :=
  Msg.withStat { Msg.blank with opc := opc, src := p.homeAgent k, dst := q.src, txid := q.txid, addr := q.line * 64,
                                vmid := q.vmid, data := l.data, pois := l.pois, sz := q.sz, op := q.op, part := q.part } status

/-- Answer a requester from the home. -/
def Part.answer (p : Part) (k : Nat) (opc : Opc) (q : Msg) (l : Line) (status : Nat) : Part := p.send (p.answerMsg k opc q l status)

/-! ### Trackers -/

def Part.trkFind (p : Part) (k line : Nat) : Option Trk :=
  (p.sliceOf k).trk.find? (fun t => t.active && decide (t.req.line = line))
def Part.trkPut (p : Part) (k : Nat) (t : Trk) : Part :=
  p.modSlice k (fun s => { s with trk := s.trk.map (fun x => if x.active ∧ x.req.line = t.req.line then t else x) })
def Part.trkDel (p : Part) (k line : Nat) : Part :=
  p.modSlice k (fun s => { s with trk := s.trk.filter (fun x => !(x.active && decide (x.req.line = line))) })

/-- The sender is a core's thread. -/
def Msg.fromThread (m : Msg) : Bool := (coreOrd m.src.tile).isSome && decide (m.src.init < 4)
/-- The partition of a request: that of the thread that made it, 7 of any other agent (R236). -/
def Msg.partNo (m : Msg) : Nat := if m.fromThread then m.part else 7

def DirEnt.ownerTile (d : DirEnt) : Nat := d.owner / 512 * 256 + d.owner / 2 % 256

/-- Whether a request wants the line's data from a grant, and which grant it is (R288). -/
def grantCode (o : Opc) (eg : Bool) (shared : Bool) : Nat :=
  match o with
  | .rds => if eg && !shared then 1 else 0
  | .rdna => 3
  | _ => 2
def grantOpc : Nat → Opc
  | 0 => .ds | 1 => .de | 2 => .dm | _ => .dna

/-- Ask a target for the line of `q` (R288, R324): grant `g` goes to agent `d`, and with `copy` the line to the home too. -/
def Part.sendMrd (p : Part) (k : Nat) (q : Msg) (t : Target) (g : Nat) (d : Agent) (others copy : Bool) : Part :=
  (p.send { Msg.blank with opc := .mrd, src := p.homeAgent k, dst := t.agent, tgt := some t, txid := q.txid,
                           addr := q.line * 64, vmid := q.vmid, op := g, aux := d.code, pers := t.pers, bc := others,
                           part := q.part, chunk := q.chunk, hint := copy }).homeEvent k 3 q.vmid

/-- How the home's own data goes to a requester. -/
inductive Sent where
  /-- the line is on its way; `mem`: from memory; `fill`: a copy of it comes to the home -/
  | line (mem fill : Bool)
  /-- the answer brings an error, and no L2 takes the line -/
  | error
  deriving DecidableEq, Repr

/-- Send the line to the requester (R289): from the slice or the atomic unit, or by an MRD to memory. `others` goes with the
grant (R299). -/
def Part.sendData (p : Part) (k : Nat) (q : Msg) (g : Nat) (others : Bool) : Part × Sent :=
  let (p, a, fromMem) := p.homeData k q.line
  let fill := decide (g ≠ 3) && p.rgOn F.LLC_CFG_MEMFILL k
  let here (l : Line) : Part := p.send { p.answerMsg k (grantOpc g) q l 0 with bc := others }
  match a with
  | .line l =>
    if fromMem then
      match p.decode (q.line * 64) with
      | some t => (p.sendMrd k q t g q.src others fill, .line true fill)
      | none => (here l, .line false false)
    else ((here l).homeEvent k 2 q.vmid, .line false false)
  | .standIn => (p.answer k .dna q ⟨0, 0xF⟩ 2, .error)
  | .unassigned => (p.answer k .dna q ⟨0, 0xF⟩ 3, .error)
  | .remote t => (p.sendMrd k q t g q.src others fill, .line true fill)

/-- The directory after a grant of ownership to a requester. -/
def ownedBy (a : Agent) : DirEnt := ⟨.m, a.ocode, .loc, []⟩

/-- The core that an AMO is for, as the atomic unit knows it (R299): its number in this socket, another number abroad. -/
def Part.amoWho (p : Part) (a : Agent) : Nat := if a.isThread p.sktId then a.coreNo else 2 ^ 16 + a.ocode

/-- Execute a far atomic at the home with its line free of L2 copies (R297): the unit's buffer takes the line, and AMOR
returns the old value, with HOT (R299). A line that memory must send first is asked for, and comes to the home; the Bool says that
the AMO has been answered. -/
def Part.amofRun (p : Part) (k : Nat) (q : Msg) (own : Option Line) (others : Bool) : Part × Bool :=
  let n := 2 ^ q.sz
  match p.abufTake k q.line own with
  | .done r l =>
    let (r, old, hot) := r.amoExec k q.line (r.amoWho q.src) (q.addr % 64) n q.op (q.data.toNat % 2 ^ (8 * n)) (q.aux % 2 ^ (8 * n)) l others
    ((r.homeEvent k 7 q.vmid).send
      { r.answerMsg k .amor q ⟨BitVec.ofNat 512 old, if l.poisoned (q.addr % 64) n then 1 else 0⟩ 0 with hint := hot }, true)
  | .unassigned r => (r.answer k .amor q ⟨0, 1⟩ 3, true)
  | .wait r =>
    match r.decode (q.line * 64) with
    | some t => (r.sendMrd k q t 3 (r.homeAgent k) false false, false)
    | none => (r.answer k .amor q ⟨0, 1⟩ 3, true)

/-- The copy of a line that memory does not hold: an owner's, or the slice's. -/
def Part.newestOf (p : Part) (k line : Nat) (own : Option Line) : Option Line :=
  match own with
  | some l => some l
  | none => match (p.sliceOf k).llc.find? line with
    | some y => if y.dirty then some y.line else none
    | none => none

/-- CMOC or CMOF has its line in memory (R289): the slice's copy is clean or gone, and CMP ends the transaction. -/
def Part.cmoDone (p : Part) (k : Nat) (t : Trk) (newest : Option Line) (status : Nat) : Part :=
  let p := if t.req.opc = .cmof then p.sliceDrop k t.req.line
    else match (p.sliceOf k).llc.find? t.req.line with
      | some y =>
        let y2 : SlLine := { y with dirty := false, line := newest.getD y.line }
        p.modSlice k (fun s => { s with llc := s.llc.put t.req.line y2 })
      | none => p
  (p.answer k .cmp t.req Line.zero status).trkDel k t.req.line

/-- A write whose acceptance by the persistent write buffer is awaited: by MPWT (R290, R335). -/
def Part.mpwtSend (p : Part) (k : Nat) (q : Msg) (d : Vec) (m : Dword) (pois : BitVec 4) : Part :=
  match p.decode (q.line * 64) with
  | none => p
  | some t =>
    p.send { Msg.blank with opc := .mpwt, src := p.homeAgent k,
                            dst := ⟨t.skt, if t.cxl then tileOfGroup t.chan else tileOfChan t.chan, if t.cxl then t.chan % 4 else 2⟩, tgt := some t,
                            txid := q.txid, addr := q.line * 64, data := d, mask := m, pois := pois,
                            pers := true, aux := q.src.code, hint := decide (q.opc = .pwt), part := q.part, vmid := q.vmid }

/-- The bytes of a PWT at its home (R290): the slice copy, if there is one, and the persistent write buffer; PACK once that
has accepted them. The Bool says that it has. -/
def Part.pwtServe (p : Part) (k : Nat) (q : Msg) (d : Vec) (m : Dword) (pois : BitVec 4) : Part × Bool :=
  match p.persist k q.line d m pois with
  | (some s, _) => (s.answer k .pack q Line.zero 0, true)
  | (none, s) => ((s.sliceMerge k q.line d m pois).mpwtSend k q d m pois, false)

/-- A write that VIS has made visible, `d` under `m` (R294, R296): a Plumb core's to a persistent region ends with CMP once
the persistent write buffer has accepted it; any other is written under R232 and done. -/
def Part.visWrite (p : Part) (k : Nat) (t : Trk) : Part :=
  let q := t.req
  let (d, m, ps) := withOwner t.data q.data q.mask q.pois
  if q.pers ∧ q.plb then
    match p.persist k q.line d m ps with
    | (some s, _) => (s.answer k .cmp q Line.zero 0).trkDel k q.line
    | (none, s) => ((s.sliceMerge k q.line d m ps).mpwtSend k q d m ps).trkPut k { t with vis := false, memw := true }
  else (p.naPut k q.line d m ps (!q.fromThread)).trkDel k q.line

/-- The grant is out and every answer is in: the transaction ends with CACK (R291), which may have come already, and with the copy of
memory's line if one was asked for (R302). -/
def Part.awaitCack (p : Part) (k : Nat) (t : Trk) : Part :=
  if t.cacked ∧ ¬ t.fill then p.trkDel k t.req.line else p.trkPut k { t with step := 2, cack := !t.cacked }

/-- An AMOF at its home: answered, or waiting for memory's line (R297, R300). -/
def Part.amofServe (p : Part) (k : Nat) (t : Trk) (own : Option Line) : Part :=
  match p.amofRun k t.req own t.others with
  | (r, true) => r.trkDel k t.req.line
  | (r, false) => r.trkPut k { t with step := 2, memw := true }

/-- Everything the transaction waited for has come: send the final grant, or finish (R289). -/
def Part.homeFinal (p : Part) (k : Nat) (t : Trk) : Part :=
  let q := t.req
  let line := q.line
  -- the line goes to the requester as grant `g`, with the directory entry `e` if an L2 gets it
  let give (g : Nat) (e : DirEnt) : Part :=
    match p.sendData k q g t.others with
    | (r, .line mem fill) => (r.dirPut k line e).awaitCack k { t with memw := mem, fill := fill }
    | (r, .error) => r.awaitCack k t
  -- ownership without data
  let own (r : Part) : Part := ((r.dirPut k line (ownedBy q.src)).send { r.answerMsg k .gnt q Line.zero 0 with bc := t.others }).awaitCack k t
  let prepared (r : Part) : Part := (r.send { r.answerMsg k .gnt q Line.zero 0 with hint := true }).trkPut k { t with step := 2, vis := true }
  match q.opc with
  | .rds =>
    match p.dirGet k line with
    | none => if p.rgOn F.COH_CFG_EGRANT k then give 1 ⟨.e, q.src.ocode, .loc, []⟩ else give 0 ⟨.s, 0, .loc, [q.src.tcode]⟩
    | some e => if t.step = 0 then give 0 (p.addSharer e q.src.tcode) else p.awaitCack k t
  | .rdo => if t.step = 1 then (p.dirPut k line (ownedBy q.src)).awaitCack k t else give 2 (ownedBy q.src)
  | .upg => own p
  | .own => own ((p.abufOut k line).sliceDrop k line)
  | .rdna => (if t.step = 0 then (p.sendData k q 3 false).1 else p).trkDel k line
  | .wrna => prepared (p.dirDel k line)
  | .wrnap => prepared (p.dirDel k line)
  | .pwt =>
    let (d, m, ps) := withOwner t.data q.data q.mask q.pois
    match (p.dirDel k line).pwtServe k q d m ps with
    | (r, true) => r.trkDel k line
    | (r, false) => r.trkPut k { t with step := 2, memw := true }
  | .amof => (p.dirDel k line).amofServe k t t.data
  | .cmoii => (p.answer k .cmp q Line.zero 0).trkDel k line
  | .snpbi =>
    -- a back-invalidation ends: modified data is written as an eviction's is, and the entry is free (R286)
    ((match t.data with | some l => p.homeWriteBack k line 7 l | none => p).dirDel k line).trkDel k line
  | .cmoi => ((((p.abufOut k line).sliceDrop k line).dirDel k line).answer k .cmp q Line.zero 0).trkDel k line
  | _ =>
    -- CMOC and CMOF: the newest modified copy goes to memory
    let p := p.abufOut k line
    let p := if q.opc = .cmof then p.dirDel k line else p
    let newest := p.newestOf k line t.data
    match (match newest with | some l => p.writeHome k line l | none => (some p, p)) with
    | (some r, _) => r.cmoDone k t newest 0
    | (none, r) =>
      -- the persistent write buffer, or the device of a CXL range, answers later
      let l := newest.getD Line.zero
      (r.mpwtSend k q l.data (BitVec.allOnes 64) l.pois).trkPut k { t with step := 2, memw := true, data := newest }

/-- Go on with a transaction once nothing is awaited: an owner that is asked after the sharers (R289 O
column), else the end. -/
def Part.homeNext (p : Part) (k : Nat) (t : Trk) : Part :=
  if ¬ t.ans.isEmpty ∨ t.step = 2 then p.trkPut k t
  else
    match t.req.opc, p.dirGet k t.req.line with
    | .rdo, some d =>
      if t.step = 0 ∧ d.st = .o then
        (p.snoop k .snpo t.req d.ownerTile false).trkPut k { t with step := 1, ans := [d.ownerTile] }
      else p.homeFinal k t
    | _, _ => p.homeFinal k t

/-- The snoops with which a transaction begins (R289): code and tile of each. `me` is the home's socket. -/
def startSnoops (me : Nat) (q : Msg) (d : DirEnt) : List (Opc × Nat) :=
  let all := (d.snoopTiles me).map (fun t => (Opc.snpi, t))
  let owner (o : Opc) : List (Opc × Nat) := if d.st = .s then [] else [(o, d.ownerTile)]
  -- sharers apart from the owner's tile, which has a snoop of its own; a broadcast reaches every tile
  let sharers : List (Opc × Nat) :=
    if d.fmt = .bcast ∨ d.st = .s then all else (d.sharers.filter (· ≠ d.ownerTile)).map (fun t => (Opc.snpi, t))
  match q.opc with
  | .rds => owner .snps
  | .rdo => if d.st = .s then all else if d.st = .o then d.sharers.map (fun t => (Opc.snpi, t)) else owner .snpo
  | .upg => all
  | .own => all
  | .rdna => owner .snpna
  | .wrna => all
  | .cmoi => all
  | .cmoc => owner .snpc
  | .cmoii => []
  | _ => owner .snpf ++ sharers

/-- Every core tile that an instruction invalidate reaches: of this socket, and tile D of each other
enumerated one (R285, R289). -/
def Part.allTiles (p : Part) : List Nat :=
  (List.range nSlices).map (fun o => p.sktId * 256 + coreTile o)
    ++ ((List.range p.sktCnt).filter (· ≠ p.sktId)).map (fun s => s * 256 + tileD)

/-- An L2 other than the requester's holds the line (R299). -/
def Part.heldElsewhere (p : Part) (q : Msg) (d : DirEnt) : Bool :=
  d.tiles.any (· ≠ q.src.tcode) || (decide (d.st ≠ .s) && decide (d.owner ≠ q.src.ocode))
    || (q.src.isThread p.sktId && (p.copyGet (q.src.coreNo ^^^ 1) q.line).isSome)

/-- A message that no transaction awaits is sunk and counted (R308). -/
def Part.homeLate (p : Part) (k : Nat) : Part :=
  (p.count F.COH_LATE_COUNT F.COH_STAT_OVF k).setRg F.COH_STAT_LATE 1 k

/-- The entry lists the agent's L2 as a holder. -/
def DirEnt.lists (d : DirEnt) (a : Agent) : Bool := d.sharers.contains a.tcode || (decide (d.st ≠ .s) && decide (d.owner = a.ocode))

/-- Remove a holder by its owner code from an entry; its tile stays a sharer while the tile's other L2 holds the line. -/
def Part.dirLeave (p : Part) (k line : Nat) (a : Agent) : Part :=
  match p.dirGet k line with
  | none => p
  | some d =>
    let still := decide (a.skt = p.sktId) && ((p.l2Get a.coreNo line).isSome || (p.copyGet (a.coreNo ^^^ 1) line).isSome)
    let sh := if still then d.sharers else d.sharers.filter (· ≠ a.tcode)
    if d.st ≠ .s ∧ d.owner = a.ocode then
      (if d.st = .o ∧ ¬ sh.isEmpty then p.dirPut k line { d with st := .s, owner := 0, sharers := sh } else p.dirDel k line)
    else if d.st = .s ∧ sh.isEmpty then p.dirDel k line
    else p.dirPut k line { d with sharers := sh }

/-- The home has taken a write-back or a notice of a core of this socket: its buffer is free (R292). -/
def Part.wbTaken (p : Part) (a : Agent) (line : Nat) : Part :=
  if a.isThread p.sktId then p.modCore a.coreNo (fun s => { s with wbuf := s.wbuf.del line, wbout := s.wbout.erase line }) else p

/-- WBM is served (R290): the listed owner's line is written, any other's is discarded and counted; CMP. -/
def Part.wbmServe (p : Part) (k : Nat) (q : Msg) : Part :=
  let owner : Bool := match p.dirGet k q.line with | some d => decide (d.st ≠ .s) && decide (d.owner = q.src.ocode) | none => false
  let p := if owner then (p.homeWriteBack k q.line q.partNo ⟨q.data, q.pois⟩).dirLeave k q.line q.src else p.homeLate k
  p.send { p.answerMsg k .cmp q Line.zero 0 with hint := true }

/-- WBC is served (R229, R290). -/
def Part.wbcServe (p : Part) (k : Nat) (q : Msg) : Part :=
  let listed : Bool := match p.dirGet k q.line with | some d => d.lists q.src | none => false
  let p := p.wbTaken q.src q.line
  if ¬ listed then p
  else
    let p := p.dirLeave k q.line q.src
    if q.mask ≠ 0 ∧ p.rgOn F.LLC_CFG_CLEANVICT k ∧ ((p.sliceOf k).llc.find? q.line).isNone then
      p.sliceAlloc k q.line q.partNo ⟨q.data, q.pois⟩ false
    else p

/-- Begin a transaction accepted at `time` under HOME_TMO `tmo` (R289 to R291, R306). -/
def Part.homeBegin (p : Part) (k : Nat) (q0 : Msg) (time tmo : Nat) : Part :=
  if q0.opc = .wbm then p.wbmServe k q0
  else if q0.opc = .wbc then p.wbcServe k q0
  else
  -- an UPG from an L2 that the entry no longer lists, or that has lost its copy, is served as an RDO (R291)
  let listed : Bool := match p.dirGet k q0.line with
    | some d => d.lists q0.src && !(q0.src.isThread p.sktId && (p.copyGet q0.src.coreNo q0.line).isNone)
    | none => false
  let q := if q0.opc = .upg ∧ ¬ listed then { q0 with opc := .rdo } else q0
  let (p, room) := if (p.dirGet k q.line).isNone ∧ (q.opc = .rds ∨ q.opc = .rdo ∨ q.opc = .own) then p.dirRoom k q.line
    else (p, true)
  let ent := p.dirGet k q.line
  let t : Trk := { req := q, active := room, ans := [], cack := false, cacked := false,
                   others := (match ent with | some d => p.heldElsewhere q d | none => false),
                   vis := false, memw := false, fill := false, data := none, step := 0, time := time, tmo := tmo }
  if ¬ room then
    -- it waits as though its own line were busy (R286)
    p.modSlice k (fun s => { s with trk := t :: s.trk })
  else
  let sn := if q.opc = .cmoii then p.allTiles.map (fun t => (Opc.snpii, t))
    else match ent with
      | some d => startSnoops p.sktId q d
      | none => []
  let bc := match ent with | some d => decide (d.fmt = .bcast) | none => false
  let t : Trk := { t with ans := sn.map (·.2),
                          step := if sn.any (fun x => x.1 = .snps ∨ x.1 = .snpo ∨ x.1 = .snpna) then 1 else 0 }
  let p := p.modSlice k (fun s => { s with trk := s.trk ++ [t] })
  let p := sn.foldl (fun r x => r.snoop k x.1 q x.2 ((bc && decide (x.1 = .snpi)) || decide (q.opc = .cmoii))) p
  p.homeNext k t

/-- The home of a line here, if it is in this socket. -/
def Part.homeHere (p : Part) (line : Nat) : Option Nat :=
  if p.homeSkt line = some p.sktId then some (p.homeOf line) else none

/-- A message that cannot be taken yet stays with the agents of its tile (R256, R282): one that was in flight keeps its
place. -/
def Part.stays (p : Part) (q : Msg) (r : Part) : Part := if p.net.length = r.net.length then r.sendHere q else p

/-- A coherent request arrives at its home (R282): it begins, joins the wait list of a busy line, or stays
in flight while every tracker is used. -/
def Part.homeRequest (m : Msg) (p : Part) : Part :=
  let (q, r) := p.arrive m
  match r.homeHere q.line with
  | none =>
    -- another socket's home: the request leaves; an unassigned line is answered with poison (R19)
    if (r.homeSkt q.line).isNone then
      r.send (Msg.withStat { Msg.blank with opc := .dna, src := ⟨r.sktId, q.dst.tile, 4⟩, dst := q.src, txid := q.txid,
                                            addr := q.line * 64, pois := 0xF } 3)
    else r
  | some k =>
    match if r.trkUsed k ≥ 64 then none else r.homeTurn k 0 with
    | none => p.stays q r
    | some r =>
      let r := r.homeEvent k 1 q.vmid
      if (r.sliceOf k).trk.any (fun t => t.req.line = q.line) then
        let w : Trk := { req := q, active := false, ans := [], cack := false, cacked := false, others := false, vis := false,
                         memw := false, fill := false, data := none, step := 0, time := r.time, tmo := r.homeTmo k }
        (r.modSlice k (fun s => { s with trk := s.trk ++ [w] })).homeEvent k 6 q.vmid
      else r.homeBegin k q r.time (r.homeTmo k)

/-- The oldest waiting request of a line that is not busy starts (R282). -/
def Part.waitListStart (k line : Nat) (p : Part) : Part :=
  if p.lineBusy k line then p
  else
    match (p.sliceOf k).trk.find? (fun t => decide (t.req.line = line)) with
    | none => p
    | some t =>
      match p.homeTurn k 2 with
      | none => p
      | some r => (r.modSlice k (fun s => { s with trk := s.trk.erase t })).homeBegin k t.req t.time t.tmo

/-! ### Evictions and write-throughs (R290) -/

/-- WBM arrives: it waits for a busy line as every request does (R282). -/
def Part.wbm (m : Msg) (p : Part) : Part := p.homeRequest m
/-- WBC arrives. -/
def Part.wbc (m : Msg) (p : Part) : Part := p.homeRequest m

/-- PWT arrives (R225, R290). One of a cacheable line is served at once, whatever the line is busy with: a snoop of that
line may wait for its PACK (R292; DEDUCED, notes/assumptions/83.md). One of write-combining or device stores first removes
the cached copies, as a WRNAP does. -/
def Part.pwtArrive (m : Msg) (p : Part) : Part :=
  let (q, r) := p.arrive m
  match r.homeHere q.line with
  | none => r
  | some k =>
    if q.bc then p.homeRequest m
    else match r.homeTurn k 0 with
      | none => p.stays q r
      | some r => (r.pwtServe k q q.data q.mask q.pois).1

/-! ### Snoops at a core tile -/

/-- The line held by an L2 of a tile or its write-back buffers, strongest first: core and copy (R285, R292). -/
def Part.tileCopy (p : Part) (tile line : Nat) : Option (Nat × L2Line) :=
  match coreOrd tile with
  | none => none
  | some o =>
    match p.copyGet (2 * o) line, p.copyGet (2 * o + 1) line with
    | some a, some b => if b.st = .m ∨ b.st = .o ∨ b.st = .e then some (2 * o + 1, b) else some (2 * o, a)
    | some a, none => some (2 * o, a)
    | none, some b => some (2 * o + 1, b)
    | none, none => none

/-- The cores that a snoop to a tile reaches: those of the tile, and of every tile of the socket for tile D (R285). -/
def snoopCores (tile : Nat) : List Nat :=
  if tile = tileD then List.range nCores else match coreOrd tile with | some o => [2 * o, 2 * o + 1] | none => []

/-- Answer a snoop to its home. -/
def Part.snoopAns (p : Part) (q : Msg) (opc : Opc) (l : Line) (status : Nat := 0) : Part :=
  p.send { Msg.blank with opc := opc, src := q.dst, dst := q.src, txid := q.txid, addr := q.line * 64, vmid := q.vmid,
                          data := l.data, pois := l.pois, status := status, part := q.part }

/-- Forward the line to the requester that a snoop names; one forwarded with ownership had another holder (R299). -/
def Part.forwardTo (p : Part) (q : Msg) (opc : Opc) (l : Line) : Part :=
  p.send { Msg.blank with opc := opc, src := q.dst, dst := agentOf q.aux, txid := q.txid, addr := q.line * 64, vmid := q.vmid,
                          data := l.data, pois := l.pois, aux := q.src.code, bc := decide (opc = .dm), part := q.part }

/-- A snoop arrives at a core tile (R292): `removes` marks those that take or weaken a copy, which a core may hold back. One
that finds no copy in a tile with an absent core is answered by the stand-in (R276). -/
def Part.snoopAt (m : Msg) (removes : Bool) (act : Part → Msg → Nat → L2Line → Part) (p : Part) : Part :=
  let (q, r) := p.arrive m
  if q.dst.skt ≠ r.sktId then r
  else
    let cores := snoopCores q.dst.tile
    if removes && cores.any (fun c => r.coreKeeps c q.line) then p.stays q r
    else
      match r.tileCopy q.dst.tile q.line with
      | some (c, l) => act r q c l
      | none =>
        if q.dst.tile ≠ tileD ∧ cores.any r.coreAway then (r.standInLog q.dst.tile q).snoopAns q .acki Line.zero 2
        else r.snoopAns q .acki Line.zero

/-- Copies of the tiles that a snoop reaches go, but those that `keep` admits. -/
def Part.dropCopies (p : Part) (tile line : Nat) (keep : Nat → L2Line → Bool) : Part :=
  (snoopCores tile).foldl (fun (r : Part) (c : Nat) =>
    match r.copyGet c line with
    | some x => if keep c x then r else r.l2Drop c line
    | none => r) p

def Part.dropTile (p : Part) (tile line : Nat) : Part := p.dropCopies tile line (fun _ _ => false)

def Part.snps (m : Msg) (p : Part) : Part :=
  p.snoopAt m true (fun r q c l =>
    if l.modified then ((r.l2SetState c q.line .o).forwardTo q .ds l.line).snoopAns q .acko Line.zero
    else ((r.l2SetState c q.line .s).forwardTo q .ds l.line).snoopAns q .acks Line.zero)
def Part.snpo (m : Msg) (p : Part) : Part :=
  p.snoopAt m true (fun r q _ l => ((r.dropTile q.dst.tile q.line).forwardTo q .dm l.line).snoopAns q .acki Line.zero)

/-- The copy that an SNPI leaves alone (R289). -/
def Msg.snpiKeeps (q : Msg) (skt c : Nat) (x : L2Line) : Bool :=
  match q.op with
  | 1 => decide (x.st ≠ .s)
  | 2 => (agentOf q.aux).isThread skt && decide ((agentOf q.aux).coreNo = c)
  | _ => false

/-- SNPI (R287): every copy goes but the one it leaves alone; tile D delivers it to every core tile and answers once
(R285). -/
def Part.snpi (m : Msg) (p : Part) : Part :=
  let (q, r) := p.arrive m
  if q.dst.skt ≠ r.sktId then r
  else
    let cores := snoopCores q.dst.tile
    let goes (c : Nat) : Bool := match r.copyGet c q.line with | some x => !q.snpiKeeps r.sktId c x | none => false
    if cores.any (fun c => goes c && r.coreKeeps c q.line) then p.stays q r
    else if q.dst.tile ≠ tileD ∧ cores.all (fun c => (r.copyGet c q.line).isNone) ∧ cores.any r.coreAway then
      (r.standInLog q.dst.tile q).snoopAns q .acki Line.zero 2
    else (r.dropCopies q.dst.tile q.line (q.snpiKeeps r.sktId)).snoopAns q .acki Line.zero

/-- The modified copy among those that a snoop reaches. -/
def Part.modifiedIn (p : Part) (tile line : Nat) : Option L2Line :=
  ((snoopCores tile).findSome? (fun c => (p.copyGet c line).filter L2Line.modified))

/-- SNPBI (R286): every copy goes, a modified line is returned. -/
def Part.snpbi (m : Msg) (p : Part) : Part :=
  let (q, r) := p.arrive m
  if q.dst.skt ≠ r.sktId then r
  else if (snoopCores q.dst.tile).any (fun c => r.coreKeeps c q.line) then p.stays q r
  else
    let r2 := r.dropTile q.dst.tile q.line
    match r.modifiedIn q.dst.tile q.line with
    | some l => r2.snoopAns q .sdat l.line
    | none => r2.snoopAns q .acki Line.zero

def Part.snpna (m : Msg) (p : Part) : Part :=
  p.snoopAt m false (fun r q _ l => (r.forwardTo q .dna l.line).snoopAns q (if l.st = .o then .acko else .acke) Line.zero)
/-- SNPC: the data goes to the home; an owner in O keeps S, another keeps E (R289). -/
def Part.snpc (m : Msg) (p : Part) : Part :=
  p.snoopAt m true (fun r q c l =>
    (r.l2SetState c q.line (if l.st = .o then .s else .e)).snoopAns q (if l.modified then .sdat else .acke) l.line)
/-- SNPF: the data goes to the home, and every copy of the tile goes. -/
def Part.snpf (m : Msg) (p : Part) : Part :=
  p.snoopAt m true (fun r q _ l =>
    (r.dropTile q.dst.tile q.line).snoopAns q (if l.modified then .sdat else .acki) (if l.modified then l.line else Line.zero))
/-- SNPII: the L1 instruction caches and loop buffers of the tile's cores lose the line (R97). -/
def Part.snpii (m : Msg) (p : Part) : Part :=
  let (q, r) := p.arrive m
  if q.dst.skt ≠ r.sktId then r else (r.iinvAll q.line).snoopAns q .acki Line.zero

/-! ### Answers at the home -/

/-- The tile of the memory agent of a line, with its socket above it. -/
def Part.memTileOf (p : Part) (line : Nat) : Nat :=
  match p.decode (line * 64) with
  | some t => t.skt * 256 + (if t.cxl then tileOfGroup t.chan else tileOfChan t.chan)
  | none => p.sktId * 256 + tileD

/-- What a transaction waits for, and on which tile (COH_TMOHOLD, R318): snoop answers, CACK, VIS, PACK of a persistent
write or memory's completion; or, before it has begun, a directory way or a transaction ahead of it. -/
def Part.waitsFor (p : Part) (k : Nat) (t : Trk) : Nat × Nat :=
  let o := t.req.opc
  if ¬ t.active then
    ((if (p.dirGet k t.req.line).isNone ∧ (o = .rds ∨ o = .rdo ∨ o = .own ∨ o = .upg) then 6 else 7), p.sktId * 256 + coreTile k)
  else if ¬ t.ans.isEmpty then (1, t.ans.headD 0)
  else if t.memw then
    ((if (o = .pwt ∨ o = .wrnap ∨ o = .cmoc ∨ o = .cmof) ∧ (p.decode (t.req.line * 64)).any Target.pers then 5 else 4), p.memTileOf t.req.line)
  else if t.cack then (2, t.req.src.tcode)
  else (3, t.req.src.tcode)

/-- Easel resets core `c` (R308): its entry starts, and a reset overtakes any other aim. -/
def Part.easelResets (p : Part) (c : Nat) : Part :=
  if p.coreAway c then p else p.modPwr (fun s => { s with entering := s.entering.put c { aim := .reset, since := p.time, held := none } })

/-- R307: every transaction of the line ends with a poison completion, the copies go, and the line is
poisoned in memory. -/
def Part.poisonLine (p : Part) (k line : Nat) : Part :=
  let l := (p.sliceOf k).trk.filter (fun t => t.req.line = line)
  let p := p.modSlice k (fun s => { s with trk := s.trk.filter (fun t => t.req.line ≠ line) })
  let p := l.foldl (fun r t =>
    match t.req.opc with
    | .rds => r.answer k .dna t.req ⟨0, 0xF⟩ 1
    | .rdo => r.answer k .dna t.req ⟨0, 0xF⟩ 1
    | .rdna => r.answer k .dna t.req ⟨0, 0xF⟩ 1
    | .amof => r.answer k .amor t.req ⟨0, 1⟩ 1
    | .upg => r.answer k .dna t.req ⟨0, 0xF⟩ 1
    | .own => r.answer k .dna t.req ⟨0, 0xF⟩ 1
    | .snpbi => r
    | .wbc => r.wbTaken t.req.src line
    | o => r.send { r.answerMsg k .cmp t.req Line.zero 1 with hint := decide (o = .wbm) }) p
  let p := match p.dirGet k line with
    | some d => ((d.snoopTiles p.sktId).foldl (fun (r : Part) (t : Nat) =>
        r.snoop k .snpi { Msg.blank with addr := line * 64 } t (d.fmt = DirFmt.bcast)) p).dirDel k line
    | none => p
  let p := (p.sliceDrop k line).modSlice k (fun s => { s with abuf := s.abuf.filter (fun e => e.line ≠ line) })
  p.memWrite k line 0 (BitVec.allOnes 64) 0xF

/-- A line's oldest transaction `t` times out, or an owner's data is lost (R307, R308): the record, the poison completions,
and the core of this socket that was waited on is reported to Easel, which resets it. -/
def Part.lineFails (p : Part) (k line : Nat) (t : Trk) : Part :=
  let (what, tile) := p.waitsFor k t
  let p := p.homeGrant k 4
  let p := ((p.setRg F.COH_TMOADDR_LO_ADDR (line % 2 ^ 26) k).setRg F.COH_TMOADDR_HI_ADDR (line / 2 ^ 26) k)
  let p := ((p.setRg F.COH_TMOHOLD_VALID 1 k).setRg F.COH_TMOHOLD_SOCKET (tile / 256) k).setRg F.COH_TMOHOLD_TILE (tile % 256) k
  let core := if what = 2 then t.req.src.init / 2 % 2
    else match p.tileCopy (tile % 256) line with | some (c, _) => c % 2 | none => 0
  let p := (p.setRg F.COH_TMOHOLD_CORE core k).setRg F.COH_TMOHOLD_WHAT what k
  let p := (p.count F.COH_TMOCNT_COUNT F.COH_STAT_OVF k).setRg F.COH_STAT_TMO 1 k
  let p := p.rasCount (coreTile k) 12 11 2 4 (line * 64) (.named [18, what, tile, core]) k line
  let p := (p.poisonLine k line).perfEvent (coreTile k) 16 4 8 1 (some t.req.vmid) none
  if (what = 1 ∨ what = 2) ∧ tile / 256 = p.sktId ∧ (coreOrd (tile % 256)).isSome then
    p.easelResets (2 * (coreOrd (tile % 256)).getD 0 + core)
  else if tile / 256 ≠ p.sktId then
    -- an agent of another socket: tile D sends that socket a timeout report (R368)
    p.modDvt (fun s => { s with mail := s.mail ++ [(tile / 256, .report p.sktId (tile / 256) line (tile % 256) (2 * core))] })
  else p

/-- A tile has no copy left; tile D speaks for every tile of its socket (R285). With `owner` the owner's copy is gone too. -/
def Part.dirGone (p : Part) (k line tc : Nat) (owner : Bool) : Part :=
  match p.dirGet k line with
  | none => p
  | some d =>
    let gone (t : Nat) : Bool := decide (t = tc) || (decide (tc % 256 = tileD) && decide (t / 256 = tc / 256))
    let sh := d.sharers.filter (fun t => !gone t)
    if d.st ≠ .s ∧ gone d.ownerTile ∧ owner then
      (if sh.isEmpty then p.dirDel k line else p.dirPut k line { d with st := .s, owner := 0, sharers := sh })
    else if d.st = .s ∧ sh.isEmpty then p.dirDel k line
    else p.dirPut k line { d with sharers := sh }

/-- A snoop answer reaches the transaction of its line; `upd` gives its effect on the directory. An owner that a stand-in
answers for has lost its data: the line fails as at a timeout; a sharer is only removed (R308). -/
def Part.homeAnswer (m : Msg) (data : Bool) (upd : Part → Nat → Msg → Trk → Part) (p : Part) : Part :=
  let (q, r) := p.arrive m
  match r.homeHere q.line with
  | none => r
  | some k =>
    match r.homeTurn k 1 with
    | none => p.stays q r
    | some r =>
    match r.trkFind k q.line with
    | none => r.homeLate k
    | some t =>
      if ¬ t.ans.contains q.src.tcode then r.homeLate k
      else
        let t2 : Trk := { t with ans := t.ans.erase q.src.tcode, data := if data then some ⟨q.data, q.pois⟩ else t.data }
        let lost : Bool := match r.dirGet k q.line with
          | some d => decide (q.status = 2) && decide (d.st ≠ .s) && decide (t.req.opc ≠ .cmoii)
              && (decide (d.ownerTile = q.src.tcode) || (decide (q.src.tile = tileD) && decide (d.owner / 512 = q.src.skt)))
          | none => false
        if lost then r.lineFails k q.line t else ((upd r k q t).trkPut k t2).homeNext k t2

/-- ACKI: the tile's copies are gone, but those that an SNPI left alone. -/
def Part.acki (m : Msg) (p : Part) : Part :=
  p.homeAnswer m false (fun r k q t =>
    if t.req.opc = .cmoii ∨ (t.req.opc = .upg ∧ q.src.tcode = t.req.src.tcode) then r
    else r.dirGone k q.line q.src.tcode (!(decide (spareOf t.req.opc = .owner) && decide (t.step = 0))))
/-- The entry with the requester of an RDS among the sharers. -/
def Part.withReader (p : Part) (t : Trk) (e : DirEnt) : DirEnt := if t.req.opc = .rds then p.addSharer e t.req.src.tcode else e
/-- ACKS: the owner of a clean line is now a sharer, and the requester too (R289). -/
def Part.acks (m : Msg) (p : Part) : Part :=
  p.homeAnswer m false (fun r k q t => r.dirPut k q.line (r.withReader t (r.addSharer ⟨.s, 0, .loc, []⟩ q.src.tcode)))
def Part.acko (m : Msg) (p : Part) : Part :=
  p.homeAnswer m false (fun r k q t =>
    match r.dirGet k q.line with
    | some d => if t.req.opc = .rdna then r else r.dirPut k q.line (r.withReader t { d with st := .o })
    | none => r)
def Part.acke (m : Msg) (p : Part) : Part := p.homeAnswer m false (fun r _ _ _ => r)
/-- SDAT: the line from its owner (kept as E or S under SNPC, gone otherwise), or the copy of an MRD's
line for the slice (R289, R324), which its transaction waits for (R302); one whose transaction is over is sunk (R308). -/
def Part.sdat (m : Msg) (p : Part) : Part :=
  let (q, r) := p.arrive m
  if q.hint then
    match r.homeHere q.line with
    | some k =>
      match r.homeTurn k 1 with
      | none => p.stays q r
      | some r =>
        match r.trkFind k q.line with
        | some t =>
          if ¬ t.fill then r.homeLate k
          else
            let r := if r.rgOn F.LLC_CFG_MEMFILL k ∧ q.stat = 0 then
                r.sliceAlloc k q.line { q with src := agentOf q.aux }.partNo ⟨q.data, q.pois⟩ false
              else r
            if t.cacked then r.trkDel k q.line else r.trkPut k { t with memw := false, fill := false }
        | none => r.homeLate k
    | none => r
  else
    p.homeAnswer m true (fun r k q t =>
      if t.req.opc = .cmoc then
        match r.dirGet k q.line with
        | some d =>
          if d.st = .o then r.dirPut k q.line (r.addSharer { d with st := .s, owner := 0 } q.src.tcode)
          else r.dirPut k q.line { d with st := .e }
        | none => r
      else r.dirGone k q.line q.src.tcode true)

/-- CACK ends the busy state (R291); one that comes before the last snoop answer is noted. With a STATUS other than 0 no L2
took the line: the requester is no holder (R283). -/
def Part.cack (m : Msg) (p : Part) : Part :=
  let (q, r) := p.arrive m
  match r.homeHere q.line with
  | none => r
  | some k =>
    match r.homeTurn k 1 with
    | none => p.stays q r
    | some r =>
    match r.trkFind k q.line with
    | some t =>
      let grants := decide (t.req.opc = .rds) || decide (t.req.opc = .rdo) || decide (t.req.opc = .upg) || decide (t.req.opc = .own)
      if ¬ grants ∨ t.req.src ≠ q.src then r.homeLate k
      else
        let r := if q.stat = 0 then r else r.dirLeave k q.line q.src
        if t.cack ∧ ¬ t.fill then r.trkDel k q.line else r.trkPut k { t with cack := false, cacked := true }
    | none => r.homeLate k

/-- The store of a core whose write has become visible is performed (R294). -/
def Part.storeSeen (p : Part) (a : Agent) (line : Nat) : Part :=
  if ¬ a.isThread p.sktId then p
  else
    let sent := (p.coreOf a.coreNo).mb.find? (fun e => e.sent && decide (e.line = line) && decide (e.thread = a.threadNo % 2))
    let p := match sent with | some e => p.mbDel a.coreNo e | none => p
    p.devFill a.threadNo (line * 64) 65 (0, 0, 0)

/-- VIS makes a prepared write visible (R294): the line is written under R232, and the store is performed. -/
def Part.vis (m : Msg) (p : Part) : Part :=
  let (q, r) := p.arrive m
  match r.homeHere q.line with
  | none => r
  | some k =>
    match r.homeTurn k 1 with
    | none => p.stays q r
    | some r =>
    match r.trkFind k q.line with
    | some t =>
      if t.vis ∧ t.req.src = q.src then
        let r := r.visWrite k t
        if t.req.pers ∧ t.req.plb then r else r.storeSeen q.src q.line
      else r.homeLate k
    | none => r.homeLate k

/-! ### Grants and completions at a requester -/

/-- The oldest prepared write of an agent for a line is granted. -/
def markGranted : List IoWr → Agent → Nat → Agent → List IoWr
  | [], _, _, _ => []
  | w :: r, a, line, home => if w.agent = a ∧ w.line = line ∧ ¬ w.granted then { w with granted := true, home := home } :: r
                             else w :: markGranted r a line home

/-- The writes of an agent that may become visible: the granted ones before the first that is not, in
posted order (R294, R382). -/
def visReady (l : List IoWr) (a : Agent) : List IoWr :=
  (l.filter (fun w => w.agent = a)).takeWhile (fun w => w.granted)

/-- Send VIS for an I/O agent's granted writes, in order, each to the home that granted it. -/
def Part.visPump (p : Part) (a : Agent) : Part :=
  let ready := visReady p.pci.iow a
  let p := ready.foldl (fun (r : Part) (w : IoWr) =>
    r.send { Msg.blank with opc := .vis, src := a, dst := w.home, addr := w.line * 64 }) p
  p.modPci (fun s => { s with iow := s.iow.filter (fun w => !ready.contains w) })

/-- A line, or a poison completion, for an I/O agent's read. -/
def fillRead : List IoRd → Agent → Nat → (Vec × BitVec 4 × Nat) → List IoRd
  | [], _, _, _ => []
  | w :: r, a, line, ans => if w.agent = a ∧ w.line = line ∧ w.ans = none then { w with ans := some ans } :: r
                            else w :: fillRead r a line ans

/-- The requester acknowledges its data or grant (R291), with the STATUS of an answer that brought no line. -/
def Part.sendCack (p : Part) (q : Msg) (home : Agent) (status : Nat) : Part :=
  p.send (Msg.withStat { Msg.blank with opc := .cack, src := q.dst, dst := home, txid := q.txid, addr := q.line * 64 } status)

/-- The home that a data message answers for: its sender, or the home named when an owner or memory sent it. -/
def Part.homeOfData (p : Part) (q : Msg) : Agent :=
  if q.src.init = 4 then q.src else if q.aux ≠ 0 then agentOf q.aux
  else ⟨(p.homeSkt q.line).getD p.sktId, coreTile (p.homeOf q.line), 4⟩

/-- A response reaches a core: one whose core is absent, off or in reset is sunk and recorded by the stand-in (R276); one
for an agent that is no thread of this socket goes to `other`. -/
def Part.atCore (m : Msg) (other act : Part → Msg → Part) (p : Part) : Part :=
  let (q, r) := p.arrive m
  if ¬ q.dst.isThread r.sktId then other r q
  else if r.coreAway q.dst.coreNo then r.standInLog q.dst.tile q
  else act r q

/-- An outstanding request of a core ends. -/
def Part.missEnd (p : Part) (c line : Nat) : Part := p.modCore c (fun s => { s with miss := s.miss.filter (fun x => x.1 ≠ line) })

/-- A line that the L2 of core `c` has won is kept for its access, and under COH_CFG.PROG for HOLD core cycles (R303, R304, R318);
`others` says that another L2 held it (R299). -/
def Part.wonLine (p : Part) (c line : Nat) (others : Bool) : Part :=
  let hold := if p.rgOn F.COH_CFG_PROG (c / 2) then min 1024 (max 16 (p.rg F.COH_CFG_HOLD (c / 2))) else 0
  match p.l2Get c line with
  | some x => p.modCore c (fun s => { s with l2 := s.l2.put line { x with held := true, won := s.cycle, hold := hold, foreign := others } })
  | none => p

/-- A line arrives for an L2 in state `st` (R289): it is installed, won, and acknowledged. -/
def Part.dataAt (st : L2St) (m : Msg) (p : Part) : Part :=
  p.atCore m (fun r _ => r) (fun r q =>
    let c := q.dst.coreNo
    (((r.missEnd c q.line).l2Install c q.line q.dst.threadNo st ⟨q.data, q.pois⟩).wonLine c q.line q.bc).sendCack q
      (r.homeOfData q) 0)

/-- Memory's line reaches the home for the far atomic that asked for it (R297, R300, R324). -/
def Part.amoFill (p : Part) (q : Msg) (r : Part) : Part :=
  match r.homeHere q.line with
  | none => r
  | some k =>
    match r.homeTurn k 1 with
    | none => p.stays q r
    | some r =>
    match r.trkFind k q.line with
    | none => r.homeLate k
    | some t =>
      if ¬ t.memw ∨ t.req.opc ≠ .amof then r.homeLate k
      else if q.stat ≥ 2 then (r.answer k .amor t.req ⟨0, 1⟩ q.stat).trkDel k q.line
      else r.amofServe k t (some ⟨q.data, q.pois⟩)

/-- A poison completion or a non-allocated line reaches a reader (R293, R307): an access that waits takes it; a
merging-buffer entry that waits for the line is discarded and recorded. -/
def Part.dna (m : Msg) (p : Part) : Part :=
  p.atCore m (fun r q => if q.dst.init = 4 ∧ (coreOrd q.dst.tile).isSome then p.amoFill q r else r.modPci (fun s => { s with ior := fillRead s.ior q.dst q.line (q.data, q.pois, q.stat) })) (fun r q =>
    let t := q.dst.threadNo
    let c := q.dst.coreNo
    let r := match (r.coreOf c).miss.find? (fun x => decide (x.1 = q.line)) with
      | none => r
      | some (_, own) =>
        let waits (e : MbEnt) : Bool := decide (e.line = q.line) && decide (e.ty = MemType.cacheable)
        let lost := own && (r.coreOf c).mb.any waits
        let r := r.missEnd c q.line
        -- the home waits for CACK where the answer is memory's; a timed-out transaction is over
        let r := if q.stat ≥ 2 then r.sendCack q (r.homeOfData q) q.stat else r
        if lost then (r.modCore c (fun s => { s with mb := s.mb.filter (fun e => !waits e) })).lostStore t q.line
        else r.devNote t (q.line * 64) 64
    r.devFill t (q.line * 64) 64 (q.data, q.pois, q.stat))

/-- A write of a whole line that waits for ownership is performed as soon as the L2 has it (R228). -/
def Part.drainWhole (p : Part) (c line : Nat) : Part :=
  match (p.coreOf c).mb.find? (fun e => !e.sent && decide (e.line = line) && decide (e.ty = .cacheable) && decide (e.mask = BitVec.allOnes 64)) with
  | some e =>
    let q := (p.mbDel c e).l2Write c line e.data e.mask
    if q.isPers line then q.persistOrSend (2 * c + e.thread) line e.data e.mask 0 else q
  | none => p

/-- GNT (R225, R289, R294, R296): a prepared write, whose VIS goes out at once from a core and in posted order from an I/O
agent; or ownership for an L2, which held the line or writes all of it. -/
def Part.gnt (m : Msg) (p : Part) : Part :=
  p.atCore m (fun r q => (r.modPci (fun s => { s with iow := markGranted s.iow q.dst q.line q.src })).visPump q.dst) (fun r q =>
    let c := q.dst.coreNo
    if q.hint then r.send { Msg.blank with opc := .vis, src := q.dst, dst := q.src, txid := q.txid, addr := q.line * 64 }
    else
      let r := r.missEnd c q.line
      let r := match r.l2Get c q.line with
        | some _ => r.l2SetState c q.line .m
        | none => r.l2Install c q.line q.dst.threadNo .m Line.zero
      ((r.wonLine c q.line q.bc).drainWhole c q.line).sendCack q q.src 0)

/-- CMP from a memory tile at the home: a persistent write was accepted, and PACK follows (R290) or the CMP of a Plumb store
(R296); or the write-back of a CMO is done, and the CMO completes. -/
def Part.cmpHome (p : Part) (q : Msg) : Part :=
  let k := (coreOrd q.dst.tile).getD 0
  let p := if q.hint then
      p.answer k .pack { Msg.blank with src := agentOf q.aux, txid := q.txid, addr := q.addr } Line.zero q.stat
    else p
  match p.trkFind k q.line with
  | some t =>
    if ¬ t.memw ∨ t.req.txid ≠ q.txid then p
    else
      match t.req.opc with
      | .pwt => p.trkDel k q.line
      | .wrnap => (p.answer k .cmp t.req Line.zero q.stat).trkDel k q.line
      | .cmoc => p.cmoDone k t t.data q.stat
      | .cmof => p.cmoDone k t t.data q.stat
      | _ => p
  | none => p

/-- CMP (R287): a write-back, a CMO or a Plumb write to a persistent region is complete; the answer to a TINV (R208) or to an
IPI of another socket (R158); or a home's refusal of a write (R307), which is lost. -/
def Part.cmpAt (m : Msg) (p : Part) : Part :=
  let (q, _) := p.arrive m
  if q.dst.skt = p.sktId ∧ q.plb then (p.arrive m).2.ipiAnswered q
  else if q.dst.skt = p.sktId ∧ (coreOrd q.dst.tile).isSome ∧ q.dst.init = 4 then
    (match (p.arrive m).2.homeTurn ((coreOrd q.dst.tile).getD 0) 1 with
     | none => p.stays q (p.arrive m).2
     | some r => r.cmpHome q)
  else p.atCore m
    -- a prepared write of an I/O agent that ended with a poison completion
    (fun r q =>
      let r := if q.stat = 3 then r.logUnmapped q.dst.tile q.dst.init 6 (q.line * 64) else r
      r.modPci (fun s => { s with iow := s.iow.filter (fun w => !(decide (w.agent = q.dst) && decide (w.line = q.line))) }))
    (fun r q =>
      let t := q.dst.threadNo
      let c := q.dst.coreNo
      if q.bc then
        let due := (r.thread t).tlbm.contains (q.txid, 1000 + q.src.skt)
        let r := r.tinvAt t q.txid (1000 + q.src.skt)
        -- the socket has become unreachable (R208)
        if due ∧ q.stat ≠ 0 then r.machineCheck (tileOfThread t) t (initOfThread t) (.named [3, 2 ^ q.src.skt]) else r
      else if q.hint then r.wbTaken q.dst q.line
      else
        let r := r.devFill t (q.line * 64) 66 (0, 0, q.stat)
        if q.stat = 0 then r.storeSeen q.dst q.line
        else
          let mine (e : MbEnt) : Bool := e.sent && decide (e.line = q.line) && decide (e.thread = t % 2)
          let lost := (r.coreOf c).mb.any mine
          let r := (r.modCore c (fun s => { s with pwt := s.pwt.erase q.line })).storeSeen q.dst q.line
          if lost then r.lostStore t q.line else r)

/-- TINV: a TLB invalidation arrives at target core `core` and is acknowledged once in effect (R206, R208). One that comes
from another socket takes effect on every core of this one and is answered by one CMP. -/
def Part.tinvRow (m : Msg) (core : Nat) (p : Part) : Part :=
  if m.src.skt = p.sktId then p.tinvAt (m.aux / 2 ^ 16) m.txid core
  else Part.onArrival { m with opc := .tinv } (fun p =>
    let (q, r) := p.arrive { m with opc := .tinv }
    let r := (r.tlbTargets nCores).foldl (fun (s : Part) (c : Nat) => s.tlbInval c q.tlbReq) r
    r.send { Msg.blank with opc := .cmp, src := ⟨r.sktId, tileD, 0⟩, dst := q.src, txid := q.txid, bc := true }) p

/-- AMOR: the old value reaches the core (R297), HOT with it. -/
def Part.amor (m : Msg) (p : Part) : Part :=
  p.atCore m (fun r _ => r) (fun r q =>
    r.modThread q.dst.threadNo (fun th => { th with dev := th.dev.map (fun d =>
      if d.addr / 64 = q.line ∧ d.size ≤ 16 ∧ d.ans = none then
        { d with ans := some (q.data, q.pois, q.stat + (if q.hint then 8 else 0)) } else d) }))

/-- PACK: a persistent write has been accepted (R290, R316). -/
def Part.pack (m : Msg) (p : Part) : Part :=
  p.atCore m (fun r _ => r) (fun r q =>
    (r.modCore q.dst.coreNo (fun s => { s with pwt := s.pwt.erase q.line })).storeSeen q.dst q.line)

/-- DRDR: device read data reaches its reader (R287). -/
def Part.drdr (m : Msg) (p : Part) : Part :=
  p.atCore m (fun r q => r.modPci (fun s => { s with ior := fillRead s.ior q.dst q.line (q.data, q.pois, q.stat) })) (fun r q =>
    r.modThread q.dst.threadNo (fun th => { th with dev := th.dev.map (fun d =>
      if d.addr = q.addr ∧ d.ans = none then { d with ans := some (q.data, q.pois, q.stat) } else d) }))

/-! ### Timeout and deferral -/

/-- The oldest transaction of a line: the one that has begun, or the head of the wait list. -/
def Part.oldestOf (p : Part) (k line : Nat) : Option Trk :=
  (p.trkFind k line) <|> ((p.sliceOf k).trk.find? (fun t => t.req.line = line))

/-- The home timeout of a line (R306, R307): this command moves TIME to the deadline of its oldest transaction. The agent
waited on in this socket's cores is reported to Easel (R308). -/
def Part.homeTimeout (k line : Nat) (p : Part) : Part :=
  match p.oldestOf k line with
  | none => p
  | some t => ({ p with time := max p.time (t.time + t.tmo * 1000) } : Part).lineFails k line t

/-- The use-once deferral and the timed hold of a won line end (R303, R304). -/
def Part.deferralEnd (core line : Nat) (p : Part) : Part :=
  match p.l2Get core line with
  | some x => p.modCore core (fun s => { s with l2 := s.l2.put line { x with held := false, hold := 0 } })
  | none => p

end Sys2Proof.Machine
end

