-- ==== Sys2Proof/Machine/Io.lean ====
section
/-!
DEFINITION. Reads and writes of memory by I/O agents: the P tiles, tile N and Easel (R293 to R295, R382).
A line whose home can serve it at once takes effect in one step; any other is asked for by message.
-/
namespace Sys2Proof.Machine

/-- The result of an I/O agent's read of a line. -/
inductive IoR where
  | got (p : Part) (l : Line) (status : Nat)
  | wait (p : Part)
  | unassigned (p : Part)

/-- The agent that represents an initiator of a tile. -/
def Part.ioAgent (p : Part) (tile init : Nat) : Agent := ⟨p.sktId, tile, init⟩

/-- The home that a message about a line goes to. -/
def Part.homeDst (p : Part) (line : Nat) : Agent :=
  match p.homeSkt line with
  | some sk => ⟨sk, coreTile (if sk = p.sktId then p.homeOf line else homeSlot line), 4⟩
  | none => ⟨p.sktId, 0, 4⟩

/-- A device access of an I/O agent to a PCIe window: peer-to-peer traffic, or host memory (R383, R394). `aux` names the source
port, numbered from 1. -/
def Part.ioDevice (p : Part) (opc : Opc) (a : Agent) (port line : Nat) (d : Vec) (m : Dword) (ps : BitVec 4) : Part :=
  let (sk, g) := aperture (line * 64)
  let q := p.send { Msg.blank with opc := opc, src := a, dst := ⟨sk, tileOfGroup g, g % 4⟩, txid := p.seq, addr := line * 64,
                                   sz := 6, aux := port + 1, data := d, mask := m, pois := ps }
  { q with seq := q.seq + 1 }

/-- What is left of the state when a command must be retried: the messages that it has sent, and the reads that have been
answered and not yet used. -/
def Part.retried (p q : Part) : Part :=
  { p with net := q.net, fab := q.fab, seq := q.seq, pci := { q.pci with
      ior := q.pci.ior ++ p.pci.ior.filter (fun r => r.ans.isSome && !q.pci.ior.contains r) } }

/-- A read of a line by RDNA (R293), or by DRD in a PCIe window. -/
def Part.ioRead (p : Part) (a : Agent) (port line : Nat) : IoR :=
  match p.pci.ior.find? (fun r => decide (r.agent = a) && decide (r.line = line)) with
  | some r =>
    match r.ans with
    | none => .wait p
    | some (d, ps, st) => .got (p.modPci (fun s => { s with ior := s.ior.erase r })) ⟨d, ps⟩ st
  | none =>
    if regionOf (line * 64) = .pcieWin then
      .wait ((p.ioDevice .drd a port line 0 0 0).modPci (fun s =>
        { s with ior := s.ior ++ [({ agent := a, port := port, line := line, ans := none } : IoRd)] }))
    else
    match p.heard a line (some .rdna) (p.naRead line) with
    | .done q l => .got q l 0
    | .unassigned q => .unassigned q
    | .wait q =>
      if p.homeSkt line = some p.sktId ∧ p.lineBusy (p.homeOf line) line then .wait q
      else
        let q := q.send { Msg.blank with opc := .rdna, src := a, dst := q.homeDst line, txid := q.seq, addr := line * 64, part := 7 }
        let q : Part := { q with seq := q.seq + 1 }
        .wait (q.modPci (fun s => { s with ior := s.ior ++ [({ agent := a, port := port, line := line, ans := none } : IoRd)] }))

/-- A prepared write of a line (R294), made visible in the agent's order. `none`: the line is busy; the
write has not been made. An unassigned address discards it, with a record of type DMA (R19). -/
def Part.ioWrite (p : Part) (a : Agent) (port line : Nat) (d : Vec) (m : Dword) (ps : BitVec 4) : Option Part :=
  let earlier := p.pci.iow.any (fun w => w.agent = a)
  let viaMsg (q : Part) : Part :=
    let q := q.send { Msg.blank with opc := (if m = BitVec.allOnes 64 then .wrna else .wrnap), src := a, dst := q.homeDst line,
                                     txid := q.seq, addr := line * 64, data := d, mask := m, pois := ps, pers := q.isPers line, part := 7 }
    let q : Part := { q with seq := q.seq + 1 }
    q.modPci (fun s => { s with iow := s.iow ++ [({ agent := a, port := port, line := line, granted := false, home := q.homeDst line } : IoWr)] })
  if regionOf (line * 64) = .pcieWin then some (p.ioDevice .dwr a port line d m ps)
  else if p.homeSkt line = none then some (p.logUnmapped a.tile a.init 6 (line * 64))
  else if earlier then some (viaMsg p)
  else
    match p.heard a line (some (if m = BitVec.allOnes 64 then .wrna else .wrnap)) (p.naWrite line d m ps true false) with
    | .done q _ => some q
    | .unassigned q => some (q.logUnmapped a.tile a.init 6 (line * 64))
    | .wait q =>
      if p.homeSkt line = some p.sktId ∧ p.lineBusy (p.homeOf line) line then none else some (viaMsg q)

/-- Bytes read from memory. -/
inductive IoB where
  /-- the bytes as a number, byte 0 least significant, and whether one of their chunks was poisoned -/
  | got (p : Part) (v : Nat) (pois : Bool)
  | wait (p : Part)

/-- Read `n` bytes at a physical address, line by line; `fuel` bounds the lines. An unassigned line is poisoned, and recorded in
the initiator's tile with type DMA (R19). -/
def Part.ioBytes (p : Part) (a : Agent) (port addr n : Nat) : Nat → IoB
  | 0 => .got p 0 false
  | fuel + 1 =>
    if n = 0 then .got p 0 false
    else
      let off := addr % 64
      let k := min n (64 - off)
      let rest (q : Part) (l : Line) : IoB :=
        match q.ioBytes a port (addr + k) (n - k) fuel with
        | .got r v b => .got r (l.bytes off k + v * 2 ^ (8 * k)) (b || l.poisoned off k)
        | .wait r => .wait (p.retried r)
      match p.ioRead a port (addr / 64) with
      | .wait q => .wait q
      | .unassigned q => rest (q.logUnmapped a.tile a.init 6 addr) ⟨0, 0xF⟩
      | .got q l st => if st = 3 then rest (q.logUnmapped a.tile a.init 6 addr) ⟨0, 0xF⟩ else rest q l

/-- Write `n` bytes of the number `v` at a physical address. -/
def Part.ioPut (p : Part) (a : Agent) (port addr n v : Nat) (pois : Bool) : Nat → Option Part
  | 0 => some p
  | fuel + 1 =>
    if n = 0 then some p
    else
      let off := addr % 64
      let k := min n (64 - off)
      let d : Vec := BitVec.ofNat 512 (v % 2 ^ (8 * k) * 2 ^ (8 * off))
      match p.ioWrite a port (addr / 64) d (byteMask off k) (if pois then 0xF else 0) with
      | none => none
      | some q => q.ioPut a port (addr + k) (n - k) (v / 2 ^ (8 * k)) pois fuel

/-- The number of lines that `n` bytes at an address can touch, as fuel. -/
def lineFuel (n : Nat) : Nat := n / 64 + 2

/-- A list of bytes as a number, first byte least significant. -/
def bytesNat : List Byte → Nat
  | [] => 0
  | b :: r => b.toNat + 256 * bytesNat r

/-- The low `n` bytes of a number. -/
def natBytes : Nat → Nat → List Byte
  | 0, _ => []
  | n + 1, v => BitVec.ofNat 8 v :: natBytes n (v / 256)

/-- Bytes `a` to `a + n - 1` of a section of the boot image as a number (R501). -/
def Section.num (s : Section) (a n : Nat) : Nat := bytesNat ((s.data.drop a).take n)

end Sys2Proof.Machine
end

