-- ==== Sys2Proof/Machine/Mc.lean ====
section
/-!
DEFINITION. The memory channels and the persistent write buffers as agents (R319 to R336): training, the
interleave table, messages at a memory tile, queues, scrub, retraining and sparing; and the CXL.mem
messages at a P tile (R334, R391).
-/
namespace Sys2Proof.Machine

/-! ### Training and the interleave table -/

/-- MC_CAP follows from the ranks and the spare (R333). -/
def Part.capUpdate (p : Part) (c : Nat) : Part :=
  let gb := (p.chanOf c).gb
  let ranks := p.rg F.MC_STAT_RANKS c
  p.setRg F.MC_CAP_GB (if p.rgOn F.MC_SPARE_EN c then gb - gb / max 1 ranks else gb) c

/-- The rate in units of 100 MT/s at which a channel runs (R319, R320): the lowest of the rate of its population,
the rate its DIMMs permit, and the image's limit. -/
def Part.trainRate (p : Part) (dpc spd : Nat) : Nat :=
  let r := min (if dpc ≥ 2 then 64 else 88) spd
  match p.sys.image with
  | some i => if i.memrate = 0 then r else min r i.memrate
  | none => r

/-- The training of a channel that is present and on begins (R320): at cold boot, or when its domain is switched on again. -/
def Part.trains (p : Part) (c : Nat) : Part :=
  if p.memTilePresent (c / 2) ∧ ¬ p.rgOn F.MC_STAT_TRAINED c ∧ ¬ (p.rg F.PWR_BOFF_OFF).testBit c then p.setRg F.MC_STAT_TRAINING 1 c else p

/-- CHANNEL_TRAINED: channel `c` ends its training (R320), with the rate, the ranks and the capacity in GB that
its DIMMs gave. A failure leaves it off. Offline ranks come from the Primer record (R530). -/
def Part.channelTrained (c : Nat) (ok : Bool) (speed ranks dpc gb : Nat) (p : Part) : Part :=
  if c ≥ 16 ∨ ¬ p.memTilePresent (c / 2) ∨ p.rgOn F.MC_STAT_TRAINED c ∨
      (p.sys.boot ≠ .configured ∧ p.sys.boot ≠ .released) ∨ (p.rg F.PWR_BOFF_OFF).testBit c then p
  else
    let p := p.setRg F.MC_STAT_TRAINING 0 c
    if ¬ ok then p.modChan c (fun s => { s with off := true })
    else
      let p := p.modChan c (fun s => { s with off := false, gb := min 512 gb })
      let p := ((p.setRg F.MC_STAT_SPEED (p.trainRate dpc speed) c).setRg F.MC_STAT_RANKS ranks c).setRg F.MC_STAT_DPC dpc c
      let p := ((p.setRg F.MC_STAT_SELFREF 0 c).setRg F.MC_STAT_TRAINED 1 c).capUpdate c
      p.setRg F.MC_RANKOFF_OFF (p.sys.prm.record.get 0 (146 + c / 4) / 2 ^ (8 * (c % 4)) % 256) c

/-- The four words of range `r` of the effective table, as MC_ILVSUM reads them (R323). -/
def Part.ilvWords (p : Part) (r : Nat) : List Nat :=
  [p.rg F.MC_ILV_BASE_V 0 r * 2 ^ 31 + p.rg F.MC_ILV_BASE_BASE 0 r,
   p.rg F.MC_ILV_LIMIT_LIMIT 0 r,
   p.rg F.MC_ILV_TGT_KIND 0 r * 2 ^ 31 + p.rg F.MC_ILV_TGT_PERS 0 r * 2 ^ 30 + p.rg F.MC_ILV_TGT_GRAN 0 r * 2 ^ 28
     + p.rg F.MC_ILV_TGT_HASH 0 r * 2 ^ 27 + p.rg F.MC_ILV_TGT_SKTWAYS 0 r * 2 ^ 24 + p.rg F.MC_ILV_TGT_SKTBASE 0 r * 2 ^ 20
     + p.rg F.MC_ILV_TGT_CHMASK 0 r,
   p.rg F.MC_ILV_CHOFF_CHOFF 0 r]

/-- MC_ILVSUM (R323). -/
def Part.ilvSum (p : Part) : Nat :=
  (crc32 (((List.range 16).map (fun r => ((p.ilvWords r).map (natBytes 4)).flatten)).flatten)).toNat

/-- The page of a channel. -/
def mcPage (c : Nat) : Pg := Blk.place .mc c
/-- A key is one of the interleave range registers. -/
def ilvKey (k : Nat) : Bool := inPage (mcPage 0) k && decide (k / 32 % 256 ≥ 0x84)
/-- A key is the MC_CFG register of channel `c`. -/
def mcCfgKey (c k : Nat) : Bool := inPage (mcPage c) k && decide (k / 32 % 256 = 1)

/-- REFRESH_BOUNDARY: a refresh interval of channel `c` begins: held MC_CFG writes apply (R551), and at
channel 0 the interleave writes that a COMMIT asked for (R323). -/
def Part.refreshBoundary (c : Nat) (p : Part) : Part :=
  if c ≥ 16 ∨ ¬ p.memTilePresent (c / 2) then p
  else
    let p := p.applyHeld (mcCfgKey c)
    let p := if p.rgOn F.MC_STAT_TRAINED c ∧ ¬ p.rgOn F.MC_STAT_SELFREF c then
        p.perfEvent (tileOfChan c) (8 * (c % 2)) 8 5 1 none none else p
    if c = 0 ∧ p.rgOn F.MC_ILVCTL_COMMIT then (p.applyHeld ilvKey).setRg F.MC_ILVCTL_COMMIT 0 else p

/-- ILV_APPLY: the refresh interval of channel 0 at which a committed table applies (R323). -/
def Part.ilvApply (p : Part) : Part := if p.rgOn F.MC_ILVCTL_COMMIT then p.refreshBoundary 0 else p

/-! ### Errors -/

/-- Record an error of a chunk (R329, R331): MC_ERRADDR and MC_ERRINFO, the count, the log entry and the
window counter. `src` is the SRC of MC_ERRINFO. -/
def Part.dramError (p : Part) (c ca src rank device chunk : Nat) (ue : Bool) : Part :=
  let p := (p.setRg F.MC_ERRADDR_LO_ADDR (ca / 64) c).setRg F.MC_ERRADDR_HI_ADDR (ca / 2 ^ 32) c
  let p := ((p.setRg F.MC_ERRINFO_VALID 1 c).setRg F.MC_ERRINFO_UE (if ue then 1 else 0) c).setRg F.MC_ERRINFO_SRC src c
  let p := ((p.setRg F.MC_ERRINFO_RANK rank c).setRg F.MC_ERRINFO_DEVICE (if ue then 0 else device) c).setRg F.MC_ERRINFO_CHUNK chunk c
  let tile := tileOfChan c
  if ue then (p.count F.MC_UECNT_COUNT F.MC_STAT_OVF c).rasCount tile (2 + c % 2) 2 2 0xFF ca .unstated c rank
  else ((p.count F.MC_CECNT_COUNT F.MC_STAT_OVF c).rasCount tile (c % 2) 1 1 0xFF ca .unstated c rank).perfEvent
    tile (8 * (c % 2)) 8 6 1 none none

/-- The chunks of a line in which what DRAM returns can be in error: stored poison counts as none (R330), nor does a chunk whose
bytes all wait in the tile's queues (R325). -/
def Part.checked (p : Part) (c ca : Nat) : BitVec 4 := ~~~ ((p.dramLine c ca).pois ||| fullChunks (p.queuedMask c ca))

/-- The chunks `m` of a line get the poison pattern in DRAM (R331, R333). -/
def Part.dramPoison (p : Part) (c ca : Nat) (m : BitVec 4) : Part :=
  { p with pois := (List.range 4).foldl (fun t j => if m.getLsbD j then Tab.put t (dramKey c ca / 16 + j) 1 else t) p.pois }

/-- The chunks of a line in which a read found errors: corrected (`ce`) and uncorrectable (`ue`). -/
def Part.dramErrors (p : Part) (c ca src : Nat) (ce ue : BitVec 4) (rank device : Nat) : Part :=
  (List.range 4).foldl (fun (r : Part) (j : Nat) =>
    if ue.getLsbD j then r.dramError c ca src rank device j true
    else if ce.getLsbD j then r.dramError c ca src rank device j false
    else r) p

/-! ### Messages at a memory tile (R324, R325) and CXL.mem (R334) -/

/-- The answer to an MRD: the line to the requester that it names, and a copy to the home when asked. -/
def Part.mrdAnswer (p : Part) (src : Agent) (q : Msg) (l : Line) (status : Nat) : Part :=
  let d : Msg := { Msg.blank with
    opc := (if status ≥ 2 then .dna else grantOpc q.op), src := src, dst := agentOf q.aux, txid := q.txid, addr := q.line * 64,
    vmid := q.vmid, data := l.data, pois := l.pois, aux := q.src.code, bc := q.bc, part := q.part }
  let d := d.withStat status
  let p := p.send d
  if q.hint then p.send { d with opc := .sdat, dst := q.src, aux := q.aux, hint := true } else p

/-- The completion of an MWR or MPWT to its home. -/
def Part.memCmp (p : Part) (src : Agent) (q : Msg) (status : Nat) : Part :=
  let d : Msg := { Msg.blank with
    opc := .cmp, src := src, dst := q.src, txid := q.txid, addr := q.line * 64, vmid := q.vmid, aux := q.aux, hint := q.hint }
  p.send (d.withStat status)

/-- The agent of a channel, and that of a lane group (R277). -/
def Part.grpAgent (p : Part) (g : Nat) : Agent := ⟨p.sktId, tileOfGroup g, g % 4⟩

/-- The device of a CXL group answers: its port is neither down nor contained (R391). -/
def Part.cxlUp (p : Part) (g : Nat) : Bool :=
  decide (p.rg F.PCI_GRP_EFF_MODE g = 1) && !p.rgOn F.PCI_GRP_STAT_INRESET g && !p.pci.closing.any (fun e => decide (e.1 = g))
    && (let s := p.rg F.PCI_PORT_STAT_STATE (8 * g); decide (s = 3) || decide (s = 4) || decide (s = 5))

/-- A CXL.mem message reaches its P tile: it goes to the device, or is answered at once (R391, R397). A write that a group in
reset, or on its way there, loses raises the machine check of R391. DEDUCED (notes/assumptions/36.md): a write lost after a link down
raises none of its own, since R391 raises it on the link down. -/
def Part.cxlArrive (p : Part) (g : Nat) (q : Msg) : Part :=
  let rd := decide (q.opc = .mrd)
  let resets := p.rgOn F.PCI_GRP_STAT_INRESET g || p.pci.closing.any (fun e => decide (e.1 = g))
  if p.cxlUp g then p.modPci (fun s => { s with cxl := s.cxl.upd [] g (fun l => l ++ [q]) })
  else
    let st := if p.rgOn F.PCI_GRP_STAT_INRESET g then 2 else if rd then 1 else 2
    let p := if p.rgOn F.PCI_GRP_STAT_INRESET g then p.standInLog (tileOfGroup g) q else p
    if rd then p.mrdAnswer (p.grpAgent g) q ⟨0, 0xF⟩ st
    else
      let p := p.memCmp (p.grpAgent g) q st
      if resets ∧ p.rg F.PCI_GRP_EFF_MODE g = 1 then p.socketCheck (tileOfGroup g) [4, g, 1] else p

/-- MRD arrives (R324): into the read queue with its channel address, which a change of the table no longer moves (R323), or answered at once by the stand-in or as unassigned. It waits
in the fabric while the queue is full (R327). -/
def Part.mrd (m : Msg) (p : Part) : Part :=
  let (q, r) := p.arrive m
  match r.target q with
  | none => r.mrdAnswer q.dst q ⟨0, 0xF⟩ 3
  | some t =>
    if t.cxl then r.cxlArrive t.chan q
    else if r.overCap t.chan t.ca then (r.setRg F.MC_STAT_OVERCAP 1 t.chan).mrdAnswer (r.chanAgent t.chan) q ⟨0, 0xF⟩ 3
    else if (r.chanOf t.chan).off then (r.standInLog (tileOfChan t.chan) q).mrdAnswer (r.chanAgent t.chan) q ⟨0, 0xF⟩ 2
    else if (r.chanOf t.chan).rq.length ≥ 64 then p.stays q r
    else r.modChan t.chan (fun s => { s with rq := s.rq ++ [{ q with data := BitVec.ofNat 512 t.ca }] })

/-- The drain marks as applied (R342). -/
def Part.whwm (p : Part) (c : Nat) : Nat := min 64 (p.rg F.MC_CFG_WHWM c)
def Part.wlwm (p : Part) (c : Nat) : Nat := if p.rg F.MC_CFG_WLWM c ≥ p.whwm c then p.whwm c - 1 else p.rg F.MC_CFG_WLWM c

/-- Requester 1 of a channel requests (R327). -/
def Part.wqWants (p : Part) (c : Nat) : Bool :=
  let s := p.chanOf c
  let reads := s.rq.map (fun q => q.data.toNat)
  !s.wq.isEmpty && !p.flushOn
    && (s.high || decide (s.wq.length ≥ p.whwm c) || s.rq.isEmpty || s.wq.any (fun e => reads.contains e.ca))

/-- Requesters of a channel's arbiter with work (R327); a patrol scrub and a sparing copy request when they act. -/
def Part.chanWants (p : Part) (c : Nat) : List Nat :=
  (if ¬ (p.chanOf c).rq.isEmpty ∧ ¬ p.flushOn then [0] else []) ++ (if p.wqWants c then [1] else [])
    ++ (if (p.mtOf (c / 2)).pwb.any (fun x => x.1 = c) then [2] else [])

/-- Requester `r` of channel `c` has its turn, unless another wins the round. -/
def Part.chanTurn (p : Part) (c r : Nat) : Option Part := p.chanRound c r (p.chanWants c)

/-- CHANNEL_READ_DONE: the oldest queued read of channel `c` completes (R324, R329): stored poison with STATUS
0, a chunk found uncorrectable with STATUS 1. `ce` and `ue` are the chunks in error, in rank `rank`. -/
def Part.channelReadDone (c : Nat) (ce ue : BitVec 4) (rank device : Nat) (p : Part) : Part :=
  match (p.chanOf c).rq with
  | [] => p
  | q :: rest =>
    match if p.flushOn then none else p.chanTurn c 0 with
    | none => p
    | some p =>
      let ca := q.data.toNat
      let l := p.chanRead c ca
      let bad := ue &&& p.checked c ca
      let p := (p.modChan c (fun s => { s with rq := rest })).dramErrors c ca 0 (ce &&& p.checked c ca) bad rank device
      let p := p.chanServed c false (some q.vmid)
      p.mrdAnswer (p.chanAgent c) q ⟨l.data, l.pois ||| bad⟩ (if bad = 0 then 0 else 1)

/-- What a channel has accepted is completed before it leaves service (R341, R493): queued reads are answered, queued writes
reach DRAM. -/
def Part.chanFinish (p : Part) (c : Nat) : Part :=
  let s := p.chanOf c
  let p := s.rq.foldl (fun (r : Part) (q : Msg) => r.mrdAnswer (r.chanAgent c) q (r.chanRead c q.data.toNat) 0)
    (p.modChan c (fun x => { x with rq := [] }))
  s.wq.foldl (fun (r : Part) (_ : WqEnt) => r.wqDrain c) p

/-- MWR arrives (R324, R325). -/
def Part.mwr (m : Msg) (p : Part) : Part :=
  let (q, r) := p.arrive m
  match r.target q with
  | none => r.memCmp q.dst q 3
  | some t =>
    if t.cxl then r.cxlArrive t.chan q
    else if r.overCap t.chan t.ca then (r.setRg F.MC_STAT_OVERCAP 1 t.chan).memCmp (r.chanAgent t.chan) q 3
    else if (r.chanOf t.chan).off then (r.standInLog (tileOfChan t.chan) q).memCmp (r.chanAgent t.chan) q 2
    else
      let merges := (r.mtOf (t.chan / 2)).pwb.any (fun x => x.1 = t.chan ∧ x.2.ca = t.ca)
      if ¬ merges ∧ (r.chanOf t.chan).wq.length ≥ 64 then p.stays q r
      else ((r.chanWrite t.chan ⟨t.ca, q.data, q.mask, q.pois⟩).chanServed t.chan true (some q.vmid)).memCmp (r.chanAgent t.chan) q 0

/-- MPWT arrives (R324, R335): it waits while no entry is free or a flush has stopped allocation. -/
def Part.mpwt (m : Msg) (p : Part) : Part :=
  let (q, r) := p.arrive m
  match r.target q with
  | none => r.memCmp q.dst q 3
  | some t =>
    if t.cxl then r.cxlArrive t.chan q
    else if r.overCap t.chan t.ca then (r.setRg F.MC_STAT_OVERCAP 1 t.chan).memCmp (r.chanAgent t.chan) q 3
    else if (r.chanOf t.chan).off then (r.standInLog (tileOfChan t.chan) q).memCmp (r.chanAgent t.chan) q 2
    else
      match r.pwbAccept t.chan ⟨t.ca, q.data, q.mask, q.pois⟩ with
      | (none, s) => ({ p with ctl := s.ctl } : Part).stays q s
      | (some s, _) =>
        (s.perfEvent (tileOfChan t.chan) 16 4 1 1 none none).memCmp ⟨s.sktId, tileOfChan t.chan, 2⟩ q 0

/-- CXL_MEM_RESPONSE: the oldest request outstanding at the device of lane group `g` completes (R334). Poison
of the device marks all four chunks. -/
def Part.cxlMemResponse (g : Nat) (data : Vec) (pois : Bool) (p : Part) : Part :=
  match p.pci.cxl.get [] g with
  | [] => p
  | q :: rest =>
    if ¬ p.cxlUp g then p
    else
      let p := p.modPci (fun s => { s with cxl := s.cxl.put g rest })
      if q.opc = .mrd then p.mrdAnswer (p.grpAgent g) q ⟨data, if pois then 0xF else 0⟩ 0
      else p.memCmp (p.grpAgent g) q 0

/-- The CXL.mem traffic of a group on link down, containment or reset (R391, R397). -/
def Part.cxlLost (p : Part) (g status : Nat) : Part :=
  if p.rg F.PCI_GRP_EFF_MODE g ≠ 1 then p
  else
    let l := p.pci.cxl.get [] g
    let writes := (l.filter (fun q => q.opc ≠ .mrd)).length
    let p := p.modPci (fun s => { s with cxl := s.cxl.del g })
    let p := l.foldl (fun (r : Part) (q : Msg) =>
      if q.opc = .mrd then r.mrdAnswer (r.grpAgent g) q ⟨0, 0xF⟩ status else r.memCmp (r.grpAgent g) q 2) p
    if status = 2 ∧ writes = 0 then p else p.socketCheck (tileOfGroup g) [4, g, writes]

/-! ### Queues, buffers, scrub and sparing -/

/-- WRITE_QUEUE_DRAIN: the oldest write of channel `c`'s queue goes to DRAM (R327). -/
def Part.writeQueueDrain (c : Nat) (p : Part) : Part :=
  match if p.wqWants c then p.chanTurn c 1 else none with
  | none => p
  | some p =>
    let high := (p.chanOf c).high || decide ((p.chanOf c).wq.length ≥ p.whwm c)
    let p := p.wqDrain c
    p.modChan c (fun s => { s with high := high && decide (s.wq.length > p.wlwm c) })

/-- The chunks that a partial entry reads before it drains (R335). -/
def WqEnt.rmw (e : WqEnt) : BitVec 4 := someChunks e.mask &&& ~~~ fullChunks e.mask

/-- What the read-modify-write of a partial entry finds: its chunks' errors are recorded, and one that is uncorrectable is written
poisoned (R310, R335). Stored poison counts as none (R330). -/
def Part.pwbRead (p : Part) (i c : Nat) (e : WqEnt) (x : DramErr) : Part :=
  let m := e.rmw &&& ~~~ (p.dramLine c e.ca).pois
  (p.dramErrors c e.ca 2 (x.ce &&& m) (x.ue &&& m) x.rank.val x.device.val).modMt i (fun s =>
    { s with pwb := s.pwb.map (fun y => if y = (c, e) then (c, { e with pois := e.pois ||| (x.ue &&& m) }) else y) })

/-- PWB_DRAIN: an entry of tile Mi's persistent write buffer drains to DRAM (R335). -/
def Part.pwbDrainStep (i : Nat) (x : DramErr) (p : Part) : Part :=
  match (p.mtOf i).pwb.find? (fun x => !(p.chanOf x.1).off) with
  | none => p
  | some (c, e) =>
    match p.chanTurn c 2 with
    | none => p
    | some p => (((p.pwbRead i c e x).pwbDrain i).perfEvent (memTile i) 16 4 2 1 none none).chanServed c true none

/-- The first line from `n` on that no queue holds (R331); `fuel` bounds the search. -/
def skipQueued (queued : List Nat) (n : Nat) : Nat → Nat
  | 0 => n
  | f + 1 => if queued.contains n then skipQueued queued (n + 1) f else n

/-- SCRUB_STEP: the patrol scrub of channel `c` reads the next line that is not queued for writing (R331):
corrected chunks are written back, an uncorrectable one gets the poison pattern. -/
def Part.scrubStep (c : Nat) (ce ue : BitVec 4) (rank device : Nat) (p : Part) : Part :=
  let cap := p.rg F.MC_CAP_GB c
  if ¬ p.rgOn F.MC_SCRUB_EN c ∨ ¬ p.rgOn F.MC_STAT_TRAINED c ∨ (p.chanOf c).off ∨ p.rgOn F.MC_STAT_SELFREF c ∨ p.flushOn ∨ cap = 0
  then p
  else
    match p.chanTurn c 3 with
    | none => p
    | some p =>
    let queued := ((p.chanOf c).wq.map (fun e => e.ca / 64)) ++ ((p.mtOf (c / 2)).pwb.filterMap (fun x => if x.1 = c then some (x.2.ca / 64) else none))
    let n := skipQueued queued (p.chanOf c).scrub (queued.length + 1)
    let (n, wrapped) := if n / 2 ^ 24 ≥ cap then (0, true) else (n, false)
    let p := if wrapped then p.count F.MC_SCRUBPOS_PASSES F.MC_STAT_OVF c else p
    let bad := ue &&& p.checked c (n * 64)
    let p := (p.dramErrors c (n * 64) 1 (ce &&& p.checked c (n * 64)) bad rank device).dramPoison c (n * 64) bad
    (p.modChan c (fun s => { s with scrub := n + 1 })).setRg F.MC_SCRUBPOS_GB ((n + 1) / 2 ^ 24) c

/-- RETRAIN_DONE: a transfer of channel `c` failed its check and was retried (R332). When `ok`, with fewer than three `retries` the
last of them succeeded; else the retrain that a fourth failure starts has ended. A failed retrain takes the channel out of
service, after what it had accepted (R341). -/
def Part.retrainDone (c retries : Nat) (ok : Bool) (p : Part) : Part :=
  if c ≥ 16 ∨ ¬ p.rgOn F.MC_STAT_TRAINED c ∨ ¬ p.rgOn F.MC_CFG_WRCRC c then p
  else
    let n := if ok then min 3 retries else 3
    let p := (List.range n).foldl (fun (r : Part) (_ : Nat) =>
      (r.count F.MC_LINKERR_COUNT F.MC_STAT_OVF c).rasCount (tileOfChan c) (4 + c % 2) 1 1 0xFF 0 .unstated c 0) p
    if n < 3 then p
    else
      let p := (p.setRg F.MC_STAT_RETRAIN 1 c).setRg F.MC_STAT_TRAINING 0 c
      if ok then p else ((p.chanFinish c).setRg F.MC_STAT_TRAINED 0 c).modChan c (fun s => { s with off := true })

/-- Offline a rank (R333): the copy to an idle spare starts; the Bool says that one was idle. -/
def Part.offlineRank (p : Part) (c rank : Nat) : Part × Bool :=
  if p.rgOn F.MC_SPARE_EN c ∧ p.rg F.MC_SPARE_STATE c = 0 ∧ p.rgOn F.MC_STAT_TRAINED c ∧ rank ≠ p.rg F.MC_SPARE_RANK c then
    (((p.setRg F.MC_SPARE_STATE 1 c).setRg F.MC_SPARE_FROM rank c).setRg F.MC_SPARE_PCT 0 c, true)
  else (p.setRg F.MC_STAT_NOSPARE 1 c, false)

/-- The copy of rank `r` met errors in a line (R333). -/
def Part.spareCopied (p : Part) (c r ca : Nat) (x : DramErr) : Part :=
  let m := ~~~ (p.dramLine c ca).pois
  if p.overCap c ca then p
  else (p.dramErrors c ca 3 (x.ce &&& m) (x.ue &&& m) r x.device.val).dramPoison c ca (x.ue &&& m)

/-- SPARING_COPY_DONE: the copy of a rank completes; its addresses map to the spare (R333), and the Primer
record keeps it (R530). An uncorrectable chunk of `errs` was copied with the poison pattern. The action that asked for the copy
completes (R518). -/
def Part.sparingCopyDone (c : Nat) (errs : List (Nat × DramErr)) (p : Part) : Part :=
  if p.rg F.MC_SPARE_STATE c ≠ 1 then p
  else
    let r := p.rg F.MC_SPARE_FROM c
    let p := errs.foldl (fun (p : Part) (x : Nat × DramErr) => p.spareCopied c r x.1 x.2) p
    let p := (((p.chanGrant c 4).setRg F.MC_SPARE_STATE 2 c).setRg F.MC_SPARE_PCT 100 c).setRg F.MC_RANKOFF_OFF (setBit (p.rg F.MC_RANKOFF_OFF c) r true) c
    let i := 146 + c / 4
    let p := p.modPrm (fun s => { s with record := s.record.put i (setBit (s.record.get 0 i) (8 * (c % 4) + r) true) })
    p.rasPut (tileOfChan c) 0xFF 5 0 0xFF 0 .unstated

/-- A write of VAR_CTL.ARM at tile Mi (R336): a clear is ignored while a valid persistent range names it. -/
def Part.varCtl (p : Part) (i : Nat) (arm : Bool) : Part :=
  let named := (List.range 16).any (fun r =>
    let t := p.ilv r
    t.v && !p.ilvBad t && t.pers && (if t.cxl then decide (i = 0) else (t.chmask.testBit (2 * i) || t.chmask.testBit (2 * i + 1))))
  if ¬ arm ∧ p.rgOn F.VAR_CTL_ARM i ∧ named then p.rasLog (memTile i) 0xFF 13 0 0xFF 0 (.fixed 0)
  else p.setRg F.VAR_CTL_ARM (if arm then 1 else 0) i

/-- VAR_SEQ.GPFGRP: lane groups that hold a valid persistent CXL range (R343). -/
def Part.gpfGroups (p : Part) : Nat :=
  (List.range 8).foldl (fun a g => if (List.range 16).any (fun r =>
      let t := p.ilv r
      t.v && !p.ilvBad t && t.pers && t.cxl && t.chmask.testBit g) then a + 2 ^ g else a) 0

/-- Channels that a valid persistent DDR-5 range names (R337). -/
def Part.persChannels (p : Part) : List Nat :=
  (List.range 16).filter (fun c => (List.range 16).any (fun r =>
    let t := p.ilv r
    t.v && !p.ilvBad t && t.pers && !t.cxl && t.chmask.testBit c))

end Sys2Proof.Machine
end

