-- ==== Sys2Proof/Machine/Counters.lean ====
section
/-!
DEFINITION. The epoch tick and what takes effect at it (R263 to R271, R560, R561), link errors of the
torus (R253), the tile counters' control, snapshots, bandwidth monitors and the voting scrub (R548 to R562).
-/
namespace Sys2Proof.Machine

/-- FAB_STATSTAT.CLR: clear every counter and statistic of the tile's FAB_ page (R280). -/
def Part.fabStatClear (p : Part) (tile : Nat) : Part :=
  let fields := [F.FAB_SLIPCNT_COUNT, F.FAB_SLIPRX_COUNT, F.FAB_UNUSED_COUNT, F.FAB_LINKERR_REPLAYS,
    F.FAB_ARB_GRANTS_COUNT, F.FAB_ARB_WAITS_COUNT, F.FAB_ARB_MAXWAIT_MAX, F.FAB_STAT_VALUE]
  fields.foldl (fun (r : Part) (f : Fld) =>
    (List.range f.cnt).foldl (fun (q : Part) (i : Nat) => q.setRg f 0 tile i) r) p

/-- TORUS_CRC_ERROR: input `port` of a tile discards a flit and asks for a replay (R253); `times` is how
often in a row this flit has failed. At the eighth the link has failed. The flit is the oldest on the link's way to that input;
where none is, it was one outside the model's traffic. -/
def Part.torusCrcError (tile port times : Nat) (p : Part) : Part :=
  if tile ≥ nTiles ∨ port ≥ 4 ∨ times = 0 then p
  else
    let first (plane : Nat) : Option (Nat × Wire) :=
      match (p.linkEnd tile port plane).cross with
      | (w, _) :: _ => some (plane, w)
      | [] => ((p.tileFab tile).wire.find? (fun w => decide (w.inp = port) && decide (w.flit.cls / 2 = plane))).map (fun w => (plane, w))
    match (match first 0 with | some x => some x | none => first 1) with
    | some (plane, w) =>
      -- the receiver finds another CRC than the one that came
      (p.modLinkEnd tile port plane (fun e => { e with fails := times - 1 })).linkTake tile port plane
        { w with crc := ~~~ p.linkCrc w.flit w.up w.seq } (p.wireParity w)
    | none => p.linkError tile port times

/-- TICK_LOST: a router has seen no tick for 512 of its cycles and counts on by itself (R270). -/
def Part.tickLost (tile : Nat) (p : Part) : Part :=
  if tile ≥ nTiles ∨ p.sys.epoch = none then p
  else
    let p := p.fabRun (p.fab.frame + 512 * 96 / max 1 (p.rg F.CLK_UNC_FEFF tile) - p.fab.now)
    (p.setRg F.FAB_STNSTAT_TICKLOST 1 tile).rasLog tile 0xFF 13 0 0xFF 0 (.named [10])

/-- A key lies in a FAB_ or STN_ page of a tile. -/
def stencilKey (tile key : Nat) : Bool :=
  let pg := key / 8192
  decide (pg / 4096 = tile) && (decide (pg % 4096 = 0) || (decide (8 ≤ pg % 4096) && decide (pg % 4096 ≤ 12)))

/-- Apply a tile's held Stencil writes at the start of frame `n` when R269 permits. -/
def Part.stencilFrame (p : Part) (tile n : Nat) : Part :=
  if ¬ p.held.any (fun e => stencilKey tile e.1) then p
  else
    let hold := p.rgOn F.FAB_STNCTL_HOLD tile
    let at_ := p.rg F.FAB_STNAT_FRAME tile
    let ago := (n + 2 ^ 32 - at_) % 2 ^ 32
    if hold ∧ ago ≥ 2 ^ 31 then p
    else
      let p := (p.applyHeld (stencilKey tile)).setRg F.FAB_STNLAST_FRAME n tile
      if hold ∧ ago ≠ 0 then p.setRg F.FAB_STNSTAT_PASTAT 1 tile else p

/-- PERF_CTL.CLR: clear the 24 counters of a tile and PERF_OVF (R559). -/
def Part.perfClear (p : Part) (tile : Nat) : Part :=
  ((List.range 24).foldl (fun (r : Part) (c : Nat) => r.perfSet tile c 0) p).setRg F.PERF_OVF_OVF 0 tile

/-- The collector's page. -/
def gperfPage : Pg := ⟨tileD, 0x034⟩

/-- The period of snapshots in ns, none for 0 (R563). -/
def Part.snapPeriod (p : Part) : Option Nat :=
  let us := p.rg F.PERF_SNAPPER_US
  if us = 0 then none else some (max 100 us * 1000)

/-- A snapshot falls due: every tile's counters go to their shadows, or it is skipped (R561). -/
def Part.snapDue (p : Part) : Part :=
  if p.sys.gperf.snap.isSome then
    let (q, _) := p.incWrap F.PERF_SNAPSKIP_COUNT 1
    q.setRg F.PERF_GSTAT_SKIP 1
  else
    let shadow := (List.range nTiles).map (fun t => (t, (List.range 24).map (p.perfVal t)))
    let ovf := (List.range nTiles).map (fun t => (t, p.rg F.PERF_OVF_OVF t))
    (p.modGperf (fun s => { s with snap := some ⟨(p.rg F.PERF_SNAPSEQ_SEQ + 1) % 2 ^ 32, p.time, shadow, ovf⟩ })).setRg
      F.PERF_GSTAT_SNAPBUSY 1

/-- SNAPSHOT_DUE: TIME reaches the next periodic snapshot and the tick after it (R561). -/
def Part.snapshotDue (p : Part) : Part :=
  match p.snapPeriod with
  | none => p
  | some n =>
    let due := p.sys.gperf.nextSnap
    (({ p with time := max p.time due }).modGperf (fun s => { s with nextSnap := max p.time due + n })).snapDue

/-- EPOCH_TICK: a frame starts in every router (R263, R264), held Stencil writes apply (R269), a held
PERF_GCTL write takes effect (R560), and the count toward the next time message advances (R369). Without
REFCLK there is no tick (R487). The tick period is 320/3 ns. -/
def Part.epochTick (p : Part) : Part :=
  if p.sys.pwr.refLoss ∨ p.sys.boot = .off then p
  else
    let n := match p.sys.epoch with | none => 0 | some k => (k + 1) % 2 ^ 32
    let p := p.fabFrame
    let p := p.advance (if n % 3 = 0 then 106 else 107)
    let p := p.modSys (fun s => { s with epoch := some n })
    -- a router below 2.4 GHz skips the slots that it has not reached (R270)
    let p := (List.range nTiles).foldl (fun (r : Part) (t : Nat) =>
      let r := if r.rgOn F.FAB_STNCTL_EN t ∧ r.rg F.CLK_UNC_FEFF t < 96 then r.setRg F.FAB_STNSTAT_SHORT 1 t else r
      r.stencilFrame t n) p
    let p := p.applyHeld (inPage gperfPage)
    let p := match p.sys.gperf.hold with
      | none => p
      | some (_, clr, snap) =>
        let p := p.modGperf (fun s => { s with hold := none })
        let p := if clr then (List.range nTiles).foldl (fun (r : Part) (t : Nat) => r.perfClear t) p else p
        if snap then p.snapDue else p
    p.modDvt (fun s => { s with ticks := s.ticks + 1 })

/-- PERF_GCTL written with CLRALL and SNAP: held until the tick (R560). The RUN field is in `held`. -/
def Part.gctlHold (p : Part) (clr snap : Bool) : Part :=
  p.modGperf (fun s => match s.hold with
    | some (_, c, n) => { s with hold := some (true, c || clr, n || snap) }
    | none => { s with hold := some (true, clr, snap) })

/-- The bytes of a snapshot record by dword (R561). -/
def Snap.dword (s : Snap) (skt j : Nat) : Nat :=
  if j = 0 then s.time % 2 ^ 64
  else if j = 1 then s.seq + skt % 16 * 2 ^ 32
  else if 4 ≤ j ∧ j < 4 + 24 * nTiles then
    let t := (j - 4) / 24
    let c := (j - 4) % 24
    ((s.ctr.get [] t).getD c 0) % 2 ^ 48 + (if (s.ovf.get 0 t).testBit c then 2 ^ 63 else 0)
  else 0

/-- Line `l` of a snapshot record. -/
def Snap.line (s : Snap) (skt l : Nat) : Vec :=
  BitVec.ofNat 512 ((List.range 8).foldl (fun a i => a + s.dword skt (8 * l + i) * 2 ^ (64 * i)) 0)

/-- Write the lines of a snapshot from line number `l` on, whole lines by WRNA (R561). The Bool says that
none of them must wait. -/
def Part.snapLines (p : Part) (s : Snap) (base : Nat) : List Nat → Part × Bool
  | [] => (p, true)
  | l :: r =>
    match p.heard ⟨p.sktId, tileD, 4⟩ (base / 64 + l) (some .wrna) (p.naWrite (base / 64 + l) (s.line p.sktId l) (BitVec.allOnes 64) 0 true false) with
    | .done q _ => q.snapLines s base r
    | .unassigned q => ((q.logUnmapped tileD 4 6 (base + 64 * l)).setRg F.PERF_GSTAT_SNAPERR 1).snapLines s base r
    | .wait q => (q, false)

/-- SNAPSHOT_DONE: the record has been written to its slot and PERF_SNAPSEQ advances (R561). While a line
must wait, nothing has happened yet. -/
def Part.snapshotDone (p : Part) : Part :=
  match p.sys.gperf.snap with
  | none => p
  | some s =>
    let size := 2 ^ min 10 (p.rg F.PERF_SNAPB_LO_SIZE)
    let base := p.addrOf F.PERF_SNAPB_LO_PA F.PERF_SNAPB_HI_PA + s.seq % size * 0x8000
    match p.snapLines s base (List.range 433) with
    | (_, false) => p
    | (q, true) =>
      let q := ((q.modGperf (fun g => { g with snap := none })).setRg F.PERF_GSTAT_SNAPBUSY 0).setRg F.PERF_SNAPSEQ_SEQ s.seq
      q.signalReg tileD 4 F.PERF_SNAPIRQ_EN F.PERF_SNAPIRQ_SOCKET F.PERF_SNAPIRQ_CORE F.PERF_SNAPIRQ_THREAD F.PERF_SNAPIRQ_VEC

/-- The length in ns of monitor `b`'s windows (R562). -/
def Part.bwLen (p : Part) (b : Nat) : Nat := 2 ^ min 20 (p.rg F.PERF_BWSEL_WEXP 0 b) * 1000

/-- A write of PERF_BWSELb clears the four results and discards the window in progress (R562). -/
def Part.bwSelect (p : Part) (b : Nat) : Part :=
  let p := ((p.setRg F.PERF_BWRATE_MBS 0 0 b).setRg F.PERF_BWBYTES_LO_BYTES 0 0 b).setRg F.PERF_BWBYTES_HI_BYTES 0 0 b
  let p := (p.setRg F.PERF_BWPEAK_MBS 0 0 b).setRg F.PERF_BWWIN_COUNT 0 0 b
  p.modGperf (fun s => { s with bw := s.bw.put b (p.time / p.bwLen b, 0, decide (p.time % p.bwLen b ≠ 0)) })

/-- The windows of monitor `b` that TIME has passed end (R562): the first with the bytes counted, unless the selection was written
in it, further ones with none. -/
def Part.bwRoll (p : Part) (b : Nat) : Part :=
  let w := p.time / p.bwLen b
  match p.sys.gperf.bw.find? b with
  | none => p
  | some (w0, n, written) =>
    if ¬ p.rgOn F.PERF_BWSEL_EN 0 b ∨ w ≤ w0 then p
    else
      let p := p.modGperf (fun s => { s with bw := s.bw.put b (w, 0, false) })
      let n := if written then 0 else n
      let k := w - w0 - (if written then 1 else 0)
      if k = 0 then p
      else
        let wexp := min 20 (p.rg F.PERF_BWSEL_WEXP 0 b)
        let last := if w = w0 + 1 then n else 0
        let p := ((p.setRg F.PERF_BWBYTES_LO_BYTES last 0 b).setRg F.PERF_BWBYTES_HI_BYTES (last / 2 ^ 32) 0 b).setRg F.PERF_BWRATE_MBS (last / 2 ^ wexp) 0 b
        let p := if n / 2 ^ wexp > p.rg F.PERF_BWPEAK_MBS 0 b then p.setRg F.PERF_BWPEAK_MBS (n / 2 ^ wexp) 0 b else p
        (p.incWrap F.PERF_BWWIN_COUNT k 0 b).1

/-- All monitors. -/
def Part.bwRolls (p : Part) : Part := p.sys.gperf.bw.foldl (fun (r : Part) (e : Nat × (Nat × Nat × Bool)) => r.bwRoll e.1) p

/-- BW_WINDOW_END: TIME moves to the end of monitor `b`'s window, or of the one `n` windows later, and the windows end. -/
def Part.bwWindowEnd (b n : Nat) (p : Part) : Part :=
  if b ≥ 16 ∨ ¬ p.rgOn F.PERF_BWSEL_EN 0 b then p
  else ({ p with time := (p.time / p.bwLen b + 1 + n) * p.bwLen b } : Part).bwRoll b

/-- The voted fields of a register word of a page (R547). -/
def votedAt (pg : Pg) (word : Nat) : List Fld :=
  ((pageBlocks pg).map (fun b => b.1.flds.filter (fun f => f.voted && (List.range (max 1 f.cnt)).any (fun i => f.word i = word)))).flatten

/-- VOTE_SCRUB: a pass finds that copy `copy` of the voted fields in a register differs from the other
two in the bits of `diff`, and rewrites it with the majority (R548, R549). The value read is the majority
throughout. `diff = 0`: the pass finds nothing. -/
def Part.voteScrub (tile page word copy : Nat) (diff : BitVec 32) (p : Part) : Part :=
  let hit := (votedAt ⟨tile, page⟩ word).any (fun f => diff.toNat / 2 ^ f.lo % 2 ^ f.width ≠ 0)
  if ¬ hit ∨ copy ≥ 3 then p
  else
    let bit := ((List.range 32).find? (fun i => diff.getLsbD i)).getD 0
    let p := (p.incWrap F.PERF_VOTECNT_COUNT 1 tile).1
    let p := ((p.setRg F.PERF_VOTELAST_VALID 1 tile).setRg F.PERF_VOTELAST_COPY copy tile).setRg F.PERF_VOTELAST_PAGE page tile
    let p := (p.setRg F.PERF_VOTELAST_WORD word tile).setRg F.PERF_VOTELAST_BIT bit tile
    p.rasLog tile 0xFF 1 1 0xFF 0 .unstated

end Sys2Proof.Machine
end

