-- ==== Sys2Proof/Machine/Dovetail.lean ====
section
/-!
DEFINITION. Enumeration, the Dovetail links and what sockets tell each other (R344 to R372).
-/
namespace Sys2Proof.Machine

/-! ### Enumeration (R344 to R348) -/

/-- A frame of the enumeration chain, without its START, PAR and STOP bits. -/
structure EnumFrame where
  commit : Bool
  val : Nat
  maxl : Nat
  tag : Nat
  deriving DecidableEq, Repr

/-- The bits of a frame (R344): START 0, even parity over bits 1 to 25, STOP 1. -/
def EnumFrame.bits (f : EnumFrame) : Nat :=
  let body := (if f.commit then 2 else 0) + f.val % 32 * 2 ^ 2 + f.maxl % 8 * 2 ^ 7 + f.tag % 2 ^ 16 * 2 ^ 10
  let par := ((List.range 25).filter (fun i => body.testBit (i + 1))).length % 2
  body + par * 2 ^ 26 + 2 ^ 27

/-- Read a frame: none when its parity is wrong. -/
def EnumFrame.read (w : Nat) : Option EnumFrame :=
  let ones := ((List.range 26).filter (fun i => w.testBit (i + 1))).length
  if ones % 2 ≠ 0 then none
  else some ⟨w.testBit 1, w / 2 ^ 2 % 32, w / 2 ^ 7 % 8, w / 2 ^ 10 % 2 ^ 16⟩

/-- log2 of the largest socket count of a variant (R27). -/
def Variant.maxl : Variant → Nat
  | .h256 => 4 | .h256n => 4 | .h192 => 2 | .h96s => 0
/-- Dovetail links of a variant. -/
def Variant.links : Variant → Nat
  | .h256 => 4 | .h256n => 4 | .h192 => 2 | .h96s => 0

/-- Drive a frame on ENUM_OUT. -/
def Part.enumSend (p : Part) (f : EnumFrame) : Part := p.modPins (fun s => { s with enumOut := f.bits })

/-- Enumeration fails (R346): a master sends a failure commit and goes on as a one-socket machine; another
part holds its cores in reset, reports to the platform, and forwards the failure when it received one. -/
def Part.enumFail (p : Part) (forward : Bool) : Part :=
  let master := p.sys.pins.master
  let p := (p.modDvt (fun s => { s with phase := .failed })).easelLog 4 0 0 256
  let p := if master ∨ forward then p.enumSend ⟨true, 0, 0, 0⟩ else p
  let p := p.setRg F.DVT_ENUM_FAIL 1
  if master then (((p.setRg F.PAL_SKT_SKTID 0).setRg F.PAL_SKT_SKTCNT 1).setRg F.DVT_ENUM_SKTID 0).setRg F.DVT_ENUM_SKTCNT 1
  else (p.modSys (fun s => { s with boot := .stopped })).modDvt (fun s => { s with reports := .enumFailed :: s.reports })

/-- A frame that comes too late is ignored and logged (R346). -/
def Part.enumLate (p : Part) : Part := p.easelLog 4 0 0 0

/-- log2 of the socket count. -/
def Part.sktBits (p : Part) : Nat := p.sktCnt.log2

/-- Enumeration is done (R345): the identity is set everywhere and the links start to train. -/
def Part.enumDone (p : Part) : Part :=
  let d := p.sys.dvt
  let p := ((p.setRg F.DVT_ENUM_DONE 1).setRg F.DVT_ENUM_SKTCNT d.count).setRg F.DVT_ENUM_SKTID d.id
  let p := ((p.setRg F.DVT_ENUM_TAG d.tag).setRg F.PAL_SKT_SKTID d.id).setRg F.PAL_SKT_SKTCNT d.count
  (List.range p.sys.fuses.variant.links).foldl (fun (r : Part) (l : Nat) =>
    if l < r.sktBits ∧ r.rgOn F.DVT_CTL_EN l then
      (r.setRg F.DVT_STAT_STATE 1 l).modLink l (fun s => { s with time := r.time }) else r) p

/-- ENUM_START: 100 µs after RSTIN_N rises the master takes ID 0 and sends the first assign frame (R345). -/
def Part.enumStart (p : Part) : Part :=
  if ¬ p.sys.pins.master ∨ p.sys.dvt.phase ≠ .wait then p
  else
    let p := { p with time := max p.time 100000 } -- TIME counts from the rise (R369)
    (p.modDvt (fun s => { s with phase := .assigned, id := 0 })).enumSend ⟨false, 1, p.sys.fuses.variant.maxl, 0⟩

/-- ENUM_ASSIGN: an assign frame arrives (R345, R346). The master draws its TAG as an open value. -/
def Part.enumAssign (frame : BitVec 28) (p : Part) : Part :=
  match p.sys.dvt.phase with
  | .idle => p
  | .done => p.enumLate
  | .failed => p.enumLate
  | ph =>
    match EnumFrame.read frame.toNat with
    | none => p.enumFail false
    | some f =>
      if f.commit then p
      else if p.sys.pins.master then
        if ph ≠ .assigned then p
        else if (f.val = 1 ∨ f.val = 2 ∨ f.val = 4 ∨ f.val = 8 ∨ f.val = 16) ∧ f.val ≤ 2 ^ f.maxl then
          let tag := p.freshNat % 2 ^ 16
          (p.used.modDvt (fun s => { s with phase := .committed, count := f.val, tag := tag })).enumSend ⟨true, f.val, 0, tag⟩
        else p.enumFail false
      else if ph = .committed then p.enumLate
      else if ph ≠ .wait then p
      else if f.val > 15 then p.enumFail false
      else (p.modDvt (fun s => { s with phase := .assigned, id := f.val })).enumSend
        ⟨false, f.val + 1, min f.maxl p.sys.fuses.variant.maxl, 0⟩

/-- ENUM_COMMIT: a commit frame arrives (R345, R346). -/
def Part.enumCommit (frame : BitVec 28) (p : Part) : Part :=
  match p.sys.dvt.phase with
  | .idle => p
  | .done => p.enumLate
  | .failed => p.enumLate
  | ph =>
    match EnumFrame.read frame.toNat with
    | none => p.enumFail false
    | some f =>
      if ¬ f.commit then p
      else if p.sys.pins.master then
        if f.val = 0 then p.enumFail false
        else if ph ≠ .committed then p
        else if f.val = p.sys.dvt.count ∧ f.tag = p.sys.dvt.tag then (p.modDvt (fun s => { s with phase := .done })).enumDone
        else p.enumFail false
      else if f.val = 0 then p.enumFail true
      else
        match ph with
        | .assigned =>
          (((p.modDvt (fun s => { s with phase := .committed, count := f.val, tag := f.tag })).enumSend f).enumDone)
        | .committed => p.enumFail false
        | _ => p

/-- ENUM_TIMEOUT: no frame within 10 ms of RSTIN_N rising, from which TIME counts (R346, R369). DEDUCED (notes/assumptions/84.md): a
part that has had its assign frame but no commit by then fails too. -/
def Part.enumTimeout (p : Part) : Part :=
  let fails := match p.sys.dvt.phase with
    | .wait | .assigned => true
    | .committed => p.sys.pins.master
    | _ => false
  if fails then ({ p with time := max p.time 10000000 } : Part).enumFail false else p

/-! ### Routing (R360, R361, R366) -/

def Part.linkState (p : Part) (d : Nat) : Nat := p.rg F.DVT_STAT_STATE d
/-- A link is up: ACTIVE or in RETRAIN (R360). DEDUCED (notes/assumptions/84.md): the CHECK that ends a retrain is part of it, since
messages keep their order across retrains (R362). -/
def Part.linkUp (p : Part) (d : Nat) : Bool :=
  decide (d < 4) && (decide (p.linkState d = 4) || decide (p.linkState d = 5) || (decide (p.linkState d = 3) && (p.linkOf d).was))

/-- Link `d` of socket `s` is up as this socket knows it: its own state, or the link map (R361). -/
def Part.mapUp (p : Part) (s d : Nat) : Bool :=
  if s = p.sktId then p.linkUp d
  else if s < 8 then (p.rg F.DVT_MAP_LO_UP).testBit (4 * s + d) else (p.rg F.DVT_MAP_HI_UP).testBit (4 * (s - 8) + d)

/-- The route of R360 at socket `own`: the link, and DETOUR as the message then carries it. -/
def routeAt (up : Nat → Nat → Bool) (own skt bits : Nat) (detour : Bool) : Option (Nat × Bool) :=
  let x := own ^^^ skt
  match (List.range 4).find? (fun d => x.testBit d && up own d) with
  | some d => some (d, detour)
  | none =>
    if detour then none
    else match (List.range bits).find? (fun e => !x.testBit e && up own e) with
      | some e => some (e, true)
      | none => none

/-- Follow the routes from socket `s`; `fuel` bounds the hops. -/
def reaches (up : Nat → Nat → Bool) (bits skt : Nat) : Nat → Nat → Bool → Bool
  | 0, s, _ => decide (s = skt)
  | fuel + 1, s, dt =>
    if s = skt then true
    else match routeAt up s skt bits dt with
      | none => false
      | some (d, dt2) => reaches up bits skt fuel (s ^^^ 2 ^ d) dt2

/-- The route of a message here. -/
def Part.route (p : Part) (skt : Nat) (detour : Bool) : Option (Nat × Bool) := routeAt p.mapUp p.sktId skt p.sktBits detour

/-- The sockets that this one reaches (DVT_REACH). -/
def Part.reachSet (p : Part) : Nat :=
  (List.range p.sktCnt).foldl (fun a s => if reaches p.mapUp p.sktBits s 6 p.sktId false then a + 2 ^ s else a) 0

/-- A message is gone from its sender's hands: a write-back without an answer leaves its buffer free (R292), a VIS performs its
store (R294), and an IPI awaits its answer (R158). -/
def Part.departed (p : Part) (m : Msg) : Part :=
  match m.opc with
  | .wbc => p.wbTaken m.src m.line
  | .vis => p.storeSeen m.src m.line
  | .ipi => p.ipiSent m
  | _ => p

/-- The answer for a message whose socket is lost (R313, R366): a poison completion, a snoop answer with
STATUS = 2, a rejected IPI. Responses are sunk and logged. -/
def Part.lostAnswer (p : Part) (m : Msg) : Part :=
  let away := decide (m.src.skt ≠ p.sktId)
  let log (q : Part) : Part := q.rasLog tileD 0xFF 13 0 m.src.init m.addr (.named [11])
  let back : Msg := { Msg.blank with opc := .cmp, src := m.dst, dst := m.src, txid := m.txid, addr := m.addr, aux := m.aux }
  match m.opc with
  | .ipi => p.ipiReject m
  | .wbm => p.send { back with hint := true, status := 1 }
  | .wbc => if away then p else p.departed m
  | .vis => if away then log p else log (p.departed m)
  | .tinv => p.send { back with bc := true, status := 2 }
  | .drd => p.send { back with opc := .drdr, pois := 0xF, status := 1 }
  | .dwr => p.send { back with status := 1 }
  | .amof => p.send { back with opc := .amor, pois := 1, status := 1 }
  | .rds => p.send { back with opc := .dna, pois := 0xF, status := 1 }
  | .rdo => p.send { back with opc := .dna, pois := 0xF, status := 1 }
  | .upg => p.send { back with opc := .dna, pois := 0xF, status := 1 }
  | .own => p.send { back with opc := .dna, pois := 0xF, status := 1 }
  | .rdna => p.send { back with opc := .dna, pois := 0xF, status := 1 }
  | o =>
    if o.cls = 0 then p.send { back with status := 1 }
    else if o.cls = 1 then p.send { back with opc := .acki, status := 2 }
    else log p

/-- The message is at tile D, or in it all the way. -/
def Part.atD (p : Part) (m : Msg) : Bool := decide (m.src.skt ≠ p.sktId) || p.landed m

/-- The torus brings what is on its way to other sockets to tile D. -/
def Part.gatherD (p : Part) : Part :=
  p.fabUntil (fun r => !r.net.any (fun m => decide (m.dst.skt ≠ r.sktId) && !r.atD m)) 4096

/-- Messages that no route carries are answered (R366). -/
def Part.sweepLost (p : Part) : Part :=
  let p := p.gatherD
  let lost := p.net.filter (fun m => p.atD m && decide (m.dst.skt ≠ p.sktId) && decide (m.dst.skt < p.sktCnt) && (p.route m.dst.skt m.detour).isNone)
  let p := lost.foldl (fun (r : Part) (m : Msg) => (r.takeOut m).lostAnswer m) p
  -- what should be sent again and has no way left is answered too
  let stuck (a : Again) : Bool := (p.route a.dst true).isNone && decide (a.dst ≠ p.sktId)
  let gone := p.sys.dvt.again.filter stuck
  gone.foldl (fun (r : Part) (a : Again) => match a.item with | .msg _ m => r.lostAnswer m | .stop _ => r)
    (p.modDvt (fun s => { s with again := s.again.filter (fun a => !stuck a) }))

/-- The sockets of a mask were lost (R366, R367, R208). -/
def Part.socketsLost (p : Part) (mask : Nat) : Part :=
  let p := (p.setRg F.DVT_GSTAT_LOST 1).socketCheck tileD [2, mask]
  -- a TSYNC whose scope included a lost socket completes with a machine check
  let gone (c : Nat) : Bool := decide (c ≥ 1000) && mask.testBit (c - 1000)
  let hit := (p.thr.filter (fun e => e.2.tlbm.any (fun x => gone x.2))).map (·.1)
  let p := hit.foldl (fun (r : Part) (t : Nat) =>
    (r.modThread t (fun th => { th with tlbm := th.tlbm.filter (fun x => !gone x.2) })).machineCheck (tileOfCore (t / 2)) t (initOfThread t) (.named [3, mask])) p
  let p := p.sweepLost
  if mask.testBit 0 ∧ p.sktId ≠ 0 then
    (p.setRg F.DVT_GSTAT_ISOL 1).modDvt (fun s => { s with isolAt := some p.time })
  else p

/-- Re-evaluate DVT_REACH after a link or the map has changed. -/
def Part.reachUpdate (p : Part) : Part :=
  let old := p.rg F.DVT_REACH_SKT
  let new := p.reachSet
  let p := p.setRg F.DVT_REACH_SKT new
  let lost := (List.range 16).foldl (fun a s => if old.testBit s ∧ ¬ new.testBit s then a + 2 ^ s else a) 0
  if lost = 0 then p else p.socketsLost lost

/-- Queue a management message on link `d`. -/
def Part.mgmt (p : Part) (d : Nat) (m : DMsg) : Part := p.modLink d (fun s => { s with out := s.out ++ [m] })

/-- This socket's link-state message, on every ACTIVE link (R361, R371, R372). -/
def Part.tellState (p : Part) : Part :=
  let up := (List.range 4).foldl (fun a d => if p.linkState d = 4 then a + 2 ^ d else a) 0
  let m := DMsg.linkState p.sktId up (max 1 (p.rg F.DVT_PWRWT_WEIGHT)) p.ilvSum
  (List.range 4).foldl (fun (r : Part) (d : Nat) => if r.linkState d = 4 then r.mgmt d m else r) p

/-- Put a socket's four link bits into the map. -/
def Part.mapPut (p : Part) (s up : Nat) : Part :=
  let f := if s < 8 then F.DVT_MAP_LO_UP else F.DVT_MAP_HI_UP
  let i := 4 * (s % 8)
  let v := p.rg f
  p.setRg f (v - v / 2 ^ i % 16 * 2 ^ i + up % 16 * 2 ^ i)

/-- A link of this socket changed to or from ACTIVE (R361). -/
def Part.linkChanged (p : Part) : Part :=
  let up := (List.range 4).foldl (fun a d => if p.linkState d = 4 then a + 2 ^ d else a) 0
  ((p.mapPut p.sktId up).tellState).reachUpdate

/-! ### Link states (R349, R350, R356 to R359, R363) -/

/-- An event of a link (R555). -/
def Part.linkEvent (p : Part) (d evt n : Nat) : Part := p.perfEvent tileD (4 * d) 4 evt n none none
def Part.fwdEvent (p : Part) (evt : Nat) (vmid : Option Nat) : Part := p.perfEvent tileD 16 4 evt 1 vmid none

/-- Put a link into a state. -/
def Part.setLink (p : Part) (d st : Nat) : Part :=
  (p.setRg F.DVT_STAT_STATE st d).modLink d (fun s =>
    { s with time := p.time, was := decide (st = 4) || (s.was && (decide (st = 5) || decide (st = 3))) })

/-- The width and group of R358 from the lanes that are good at both ends: width code and group. -/
def widthOf (good maxw : Nat) : Option (Nat × Nat) :=
  if maxw = 0 ∧ good % 2 ^ 12 = 2 ^ 12 - 1 then some (0, 0)
  else if maxw ≤ 1 ∧ good % 2 ^ 6 = 2 ^ 6 - 1 then some (1, 0)
  else if maxw ≤ 1 ∧ good / 2 ^ 6 % 2 ^ 6 = 2 ^ 6 - 1 then some (1, 1)
  else ((List.range 4).find? (fun g => good / 2 ^ (3 * g) % 8 = 7)).map (fun g => (2, g))

/-- The lanes of a width and group (R358). -/
def laneMask (w g : Nat) : Nat :=
  match w with
  | 0 => 2 ^ 12 - 1
  | 1 => (2 ^ 6 - 1) * 2 ^ (6 * g)
  | _ => 7 * 2 ^ (3 * g)

/-- The widest width that this end allows: by DVT_CTL.MAXW and its downshifts (R358). -/
def Part.maxWidth (p : Part) (d : Nat) : Nat := max (p.linkOf d).limit (min 2 (p.rg F.DVT_CTL_MAXW d))

/-- The width that a link trains to, from its own and its partner's locked lanes (R358): no wider than the proposal that is carried
out, and in its lane group where those lanes are good (R359). -/
def Part.linkWidth (p : Part) (d own partner : Nat) : Option (Nat × Nat) :=
  let s := p.linkOf d
  let good := own &&& partner
  let good := good - (good &&& s.excl)
  let prop := s.prop.getD (0, 0)
  (widthOf good (max (p.maxWidth d) prop.1)).map (fun x =>
    if x.1 = prop.1 ∧ laneMask prop.1 prop.2 &&& good = laneMask prop.1 prop.2 then prop else x)

/-- Lanes have locked: the link enters CHECK. -/
def Part.linkLocked (p : Part) (d own partner : Nat) : Part :=
  match p.linkWidth d own partner with
  | none => p
  | some (w, g) =>
    (((p.setRg F.DVT_LANES_GOOD own d).setRg F.DVT_STAT_WIDTH w d).setRg F.DVT_STAT_GROUP g d).setLink d 3

/-- RECEIVER_DETECT. -/
def Part.receiverDetect (d : Nat) (p : Part) : Part := if d < 4 ∧ p.linkState d = 1 then p.setLink d 2 else p
/-- LINK_TRAINED: lanes locked and deskewed, here and at the partner. -/
def Part.linkTrained (d : Nat) (own partner : BitVec 12) (p : Part) : Part :=
  if d < 4 ∧ p.linkState d = 2 then p.linkLocked d own.toNat partner.toNat else p
/-- RETRAIN_LOCK. -/
def Part.retrainLock (d : Nat) (own partner : BitVec 12) (p : Part) : Part :=
  if d < 4 ∧ p.linkState d = 5 then p.linkLocked d own.toNat partner.toNat else p

/-- Drop from the replay buffer every flit that `ack` covers, modulo 4,096 (R354). -/
def ackTx (l : List DFlit) (ack : Nat) : List DFlit := l.filter (fun f => (f.seq + 4096 - ack - 1) % 4096 < 2048)

/-- Start the drains that a change of the routes needs (R362): `before` are the routes until now. -/
def Part.startDrains (p : Part) (before : List (Option (Nat × Bool))) : Part :=
  (List.range p.sktCnt).foldl (fun (r : Part) (s : Nat) =>
    match before.getD s none with
    | none => r
    | some (d, dt) =>
      if s = r.sktId ∨ r.route s false = some (d, dt) ∨ ¬ r.linkUp d then r
      else
        let r := r.modDvt (fun v => { v with drain := ⟨s, d, [0, 1, 2]⟩ :: v.drain.filter (fun x => x.dst ≠ s) })
        (List.range 3).foldl (fun (q : Part) (c : Nat) => q.mgmt d (.drain q.sktId s c (c + if dt then 4 else 0))) r) p

/-- The credit registers by VC. -/
def creditFld : Nat → Fld
  | 0 => F.DVT_LDG0_VC0 | 1 => F.DVT_LDG0_VC1 | 2 => F.DVT_LDG0_VC2 | 3 => F.DVT_LDG0_VC3
  | 4 => F.DVT_LDG1_VC4 | 5 => F.DVT_LDG1_VC5 | _ => F.DVT_LDG1_VC6
/-- Depths of the receive buffers, in slots (R352). -/
def vcDepth : Nat → Nat
  | 0 => 64 | 1 => 64 | 2 => 160 | 3 => 16 | 4 => 64 | 5 => 64 | _ => 160

/-- Set every credit of a link to its depth (R353). -/
def Part.creditReset (p : Part) (d : Nat) : Part :=
  (List.range 7).foldl (fun (r : Part) (v : Nat) => r.setRg (creditFld v) (vcDepth v) d) p

/-- The link fails (R363, R364): the messages of flits that the last ACK did not cover are to be sent again, in SEQ order and
class by class, each class ending with REINJEND; the partner's REINJENDs are awaited. A drain of its old path is over. -/
def Part.linkFail (p : Part) (d : Nat) : Part :=
  let s := p.linkOf d
  let sent := (s.tx.map (fun f => f.msgs.map (fun m => (f.seq, m.2)))).flatten
  let item (i : AgainItem) : Again := ⟨p.sktId, p.sktId ^^^ 2 ^ d, d, i⟩
  let again := ((List.range 3).map (fun c =>
    (sent.filter (fun x => x.2.opc.cls = c)).map (fun x => item (.msg x.1 { x.2 with detour := true })) ++ [item (.stop c)])).flatten
  let p := p.setLink d 7
  let p := (p.setRg F.DVT_STAT_FAILSEEN 1 d).setRg F.DVT_STAT_WIDTH 3 d
  let p := ((p.setRg F.DVT_REINJ_ALAST s.rxSeq d).setRg F.DVT_REINJ_ACTIVE 1 d).setRg F.DVT_REINJ_DONE 0 d
  let p := p.modLink d (fun x => { x with tx := [], txSeq := 0, nak := false, nakDue := false, resends := 0, prop := none, ends := [0, 1, 2],
                                          owed := [], out := [], wire := [] })
  let p := p.modDvt (fun v => { v with again := v.again ++ again, drain := v.drain.filter (fun x => x.link ≠ d) })
  (p.rasLog tileD 0xFF 13 0 d 0 (.named [12, d])).linkChanged

/-! ### The flits on the wire (R351, R352) -/

/-- The 128 bytes of a flit: the header, SMAP, the slots and the CRC. -/
def flitBytes (seq ack : Nat) (nak : Bool) (ty : Nat) (crd : List (Nat × Nat)) (slots : List FlitSlot) : BitVec 1024 :=
  let c (k : Nat) : BitVec 12 := match crd[k]? with | some (v, n) => BitVec.ofNat 3 v ++ BitVec.ofNat 9 n | none => 0
  let hdr : BitVec 64 := BitVec.ofNat 12 seq ++ BitVec.ofNat 12 ack ++ (1 : BitVec 1) ++ BitVec.ofBool nak ++ BitVec.ofNat 2 ty ++ c 2 ++ c 1 ++ c 0
  let smap : Nat := (List.range 7).foldl (fun a k =>
    a + (match slots[k]? with | some x => (if x.start then 8 else 0) + x.vc | none => 7) * 2 ^ (4 * k)) 0
  let body : Nat := (List.range 7).foldl (fun a k => a + (match slots[k]? with | some x => x.bits.toNat | none => 0) * 2 ^ (128 * k)) 0
  let front : BitVec 992 := BitVec.ofNat 896 body ++ BitVec.ofNat 32 smap ++ hdr
  crcFlit ((List.range 124).map (fun i => front.extractLsb' (8 * i) 8)) ++ front

/-- The CRC of an arrived flit is right. -/
def RxFlit.crcOk (f : RxFlit) : Bool :=
  decide (crcFlit ((List.range 124).map (fun i => f.bits.extractLsb' (8 * i) 8)) = f.bits.extractLsb' 992 32)

/-- The slots of a message (R352): its torus flits, with the request plane's poison in DPOIS and a line's four bits above its
header. -/
def Part.msgSlots (p : Part) (m : Msg) (vc : Nat) : List FlitSlot :=
  let l : List (BitVec 128) :=
    if m.opc.cls < 2 then (p.hdrReq m ||| (if m.pois = 0 then (0 : BitVec 128) else (1 : BitVec 128) <<< 55)) :: m.payload
    else (BitVec.ofNat 64 (if m.carries then m.pois.toNat else 0) ++ p.hdrData m { p.flit m 0 with cls := 2, gfid := 0 })
      :: (if m.carries then lineFlits m.data else [])
  (l.take m.slots).zipIdx.map (fun x => ⟨decide (x.2 = 0), vc, x.1⟩)

/-- Drive a flit with its credit returns: every one carries ACK (R351, R354). -/
def Part.drive (p : Part) (d ty seq : Nat) (crd : List (Nat × Nat)) (slots : List FlitSlot) : Part :=
  p.modLink d (fun x => { x with wire := x.wire ++ [flitBytes seq x.rxSeq x.nakDue ty crd slots], nakDue := false })

/-- Drive a flit of the replay buffer again, as it was (R354). -/
def Part.driveAgain (p : Part) (d : Nat) (f : DFlit) : Part := p.drive d 0 f.seq f.crd f.slots

/-- Up to three of the credits owed, for a new flit (R351). -/
def Part.takeOwed (p : Part) (d : Nat) : Part × List (Nat × Nat) :=
  (p.modLink d (fun x => { x with owed := x.owed.drop 3 }), (p.linkOf d).owed.take 3)

/-- A slot whose layout the specification does not give: a message of tile D, a tag or a marker (notes/assumptions/37.md). -/
def Part.openSlot (p : Part) (start : Bool) (vc : Nat) : FlitSlot := ⟨start, vc, BitVec.ofNat 128 p.freshNat⟩

/-- LINK_CHECK: the partner's identity, the last SEQ that it accepted, from which replay resumes, and the round trip (R349, R350,
R369). -/
def Part.linkCheck (d id link cnt tag last rtt : Nat) (p : Part) : Part :=
  if d ≥ 4 ∨ p.linkState d ≠ 3 then p
  else
    let p := ((p.setRg F.DVT_PEER_TAG tag d).setRg F.DVT_PEER_ID id d).setRg F.DVT_PEER_LINK link d
    let p := p.setRg F.DVT_PEER_SKTCNT cnt d
    let reason := if id ≠ (p.sktId ^^^ 2 ^ d) then 1 else if link ≠ d then 2 else if cnt ≠ p.sktCnt then 3
      else if tag ≠ p.rg F.DVT_ENUM_TAG then 4 else 0
    let p := p.setRg F.DVT_STAT_REASON reason d
    if reason ≠ 0 then (p.setRg F.DVT_STAT_WIDTH 3 d).setLink d 6
    else
      let before := (List.range p.sktCnt).map (fun s => p.route s false)
      let p := (p.setLink d 4).modLink d (fun s => { s with tx := ackTx s.tx last, nak := false, nakDue := false, resends := 0, prop := none,
                                                            rtt := rtt, wire := [] })
      let p := (p.linkOf d).tx.foldl (fun (r : Part) (f : DFlit) => r.driveAgain d f) p
      (p.startDrains before).linkChanged

/-- Own PROPOSE outstanding, and its link-control flit (R359). -/
def Part.proposeSend (p : Part) (d w g : Nat) : Part :=
  (p.used.drive d 2 (p.linkOf d).txSeq [] [p.openSlot true 3]).modLink d (fun s => { s with prop := some (w, g) })

/-- An ACTIVE link enters RETRAIN (R350, R356), and its window counter counts (R517). -/
def Part.linkRetrain (p : Part) (d : Nat) : Part :=
  if p.linkState d ≠ 4 then p
  else
    let p := ((p.setLink d 5).setRg F.DVT_STAT_RETRAINED 1 d).count F.DVT_RETRAINS_COUNT F.DVT_STAT_OVF d
    ((p.rasCount tileD (4 + d) 1 1 d 0 .unstated d 0).linkEvent d 3 1).linkChanged

/-- This end starts a retrain (R356): with a PROPOSE of the widest width that it allows, in the group of the lanes that locked last
(R358, R359). -/
def Part.retrainStart (p : Part) (d : Nat) : Part :=
  if p.linkState d ≠ 4 then p
  else
    let good := p.rg F.DVT_LANES_GOOD d
    let w := p.maxWidth d
    (p.proposeSend d w ((widthOf (good - (good &&& (p.linkOf d).excl)) w).elim 0 (·.2))).linkRetrain d

/-- RETRAIN_FAIL: the second attempt, 8 µs each, ends without lock: the link fails (R350). -/
def Part.retrainFail (d : Nat) (p : Part) : Part :=
  if d < 4 ∧ p.linkState d = 5 then
    let p := { p with time := max p.time ((p.linkOf d).time + 16000) }
    p.linkFail d
  else p

/-- LINK_TRAIN_TIMEOUT: 2 ms in DETECT or TRAIN without progress (R350). -/
def Part.linkTrainTimeout (d : Nat) (p : Part) : Part :=
  if d < 4 ∧ (p.linkState d = 1 ∨ p.linkState d = 2) then
    let p := { p with time := max p.time ((p.linkOf d).time + 2000000) }
    (p.setRg F.DVT_STAT_WIDTH 3 d).setLink d 0
  else p

/-- DVT_LANE_LOCK_LOSS: a lane of an ACTIVE link loses lock (R356). -/
def Part.laneLockLoss (d : Nat) (p : Part) : Part := if d < 4 then p.retrainStart d else p

/-- A write of DVT_CTL.RETRAIN (R356, R349, R350): on an ACTIVE link a proposal, and the retrain. -/
def Part.dvtRetrain (p : Part) (d : Nat) : Part :=
  if p.linkState d = 4 then p.retrainStart d
  else if p.linkState d = 6 ∨ p.linkState d = 7 then (p.setRg F.DVT_STAT_REASON 0 d).setLink d 1
  else p

/-- A write of DVT_CTL.EN that changes it (R350). -/
def Part.dvtEnable (p : Part) (d : Nat) (old new : Bool) : Part :=
  if old = new then p
  else if new then
    (if p.linkState d = 0 ∧ p.rgOn F.DVT_ENUM_DONE ∧ d < p.sktBits then p.setLink d 1 else p)
  else if p.linkUp d then p.linkFail d
  else if p.linkState d = 0 then p
  else (p.setRg F.DVT_STAT_WIDTH 3 d).setLink d 0

/-- PROPOSE: a retrain or width proposal of the partner, socket `id` (R359). With a proposal of its own
outstanding, the end with the higher ID yields. Its own cause does not outlast the retrain: the width that the link then locks at is
no wider than either end allows (R358). -/
def Part.propose (d id width group : Nat) (p : Part) : Part :=
  if d ≥ 4 ∨ ¬ p.linkUp d then p
  else
    match (p.linkOf d).prop with
    | none => (p.modLink d (fun s => { s with prop := some (width, group) })).linkRetrain d
    | some _ =>
      if id < p.sktId then
        ((p.setRg F.DVT_STAT_YIELD 1 d).modLink d (fun s => { s with prop := some (width, group) })).linkRetrain d
      else p

/-- The escalation action "downshift a link" (R358): one step narrower, without the lane of most errors; at ×3
another good group, else the link fails. The Bool says that it did not fail. -/
def Part.downshift (p : Part) (d lane : Nat) : Part × Bool :=
  let s := p.linkOf d
  let w := p.rg F.DVT_STAT_WIDTH d
  let excl := s.excl ||| 2 ^ lane
  let good := p.rg F.DVT_LANES_GOOD d
  let left := good - (good &&& excl)
  let p := p.modLink d (fun x => { x with excl := excl, limit := min 2 (max x.limit (w + 1)) })
  match widthOf left (min 2 (w + 1)) with
  | none => (if p.linkUp d then p.linkFail d else p, false)
  | some (nw, ng) => ((p.proposeSend d nw ng).linkRetrain d, true)

/-! ### Flits (R351 to R354) -/

/-- The VC of a message: its class, or after a detour hop 4 to 6. -/
def Msg.vc (m : Msg) : Nat := m.opc.cls + (if m.detour then 4 else 0)

/-- Credits that a flit returns. -/
def Part.creditAdd (p : Part) (d : Nat) : List (Nat × Nat) → Part
  | [] => p
  | (v, n) :: r =>
    if v < 7 then (p.setRg (creditFld v) (min (vcDepth v) (p.rg (creditFld v) d + n)) d).creditAdd d r else p.creditAdd d r

/-- A new message waits while its route used a failed link whose messages are still being sent again (R364). -/
def Part.heldBack (p : Part) (m : Msg) : Bool :=
  (List.range 4).any (fun f => p.sys.dvt.again.any (fun a => decide (a.src = p.sktId) && decide (a.link = f))
    && decide ((routeAt (fun s e => (decide (s = p.sktId) && decide (e = f)) || p.mapUp s e) p.sktId m.dst.skt p.sktBits m.detour).map (·.1) = some f))

/-- What the next flit of link `d` takes (R351, R360): messages of this link's route in order, while slots and
credits last. `room` counts free slots; a message that does not fit holds back its class. -/
def Part.pick (p : Part) (d : Nat) : List Msg → Nat → List Nat → List Msg
  | [], _, _ => []
  | m :: r, room, stopped =>
    let dest := m.dst.skt
    if dest = p.sktId ∨ dest ≥ p.sktCnt ∨ ¬ p.atD m then p.pick d r room stopped
    else if p.sys.dvt.drain.any (fun x => x.dst = dest) ∨ p.heldBack m then p.pick d r room stopped
    else
      match p.route dest m.detour with
      | none => p.pick d r room stopped
      | some (l, dt) =>
        if l ≠ d then p.pick d r room stopped
        else
          let m2 : Msg := { m with detour := dt }
          if stopped.contains m2.vc ∨ m2.slots > room ∨ m2.slots > p.rg (creditFld m2.vc) d then p.pick d r room (m2.vc :: stopped)
          else m :: p.pick d r (room - m2.slots) stopped

/-- Spend the credits of a message, and count it (R555). -/
def Part.spend (p : Part) (d : Nat) (m : Msg) : Part :=
  let p := p.setRg (creditFld m.vc) (p.rg (creditFld m.vc) d - m.slots) d
  let p := p.fwdEvent 1 (if m.opc.cls = 0 then some m.vmid else none)
  -- the link takes what its own socket sends from tile D's local output (R277, R278), a guaranteed message as a
  -- response (R352)
  let p := if m.src.skt = p.sktId ∧ (p.flowOf m).isSome then p.count F.FAB_SLIPCNT_COUNT F.FAB_STATSTAT_OVF tileD else p
  let p := if m.src.skt = p.sktId then
    p.statBytes tileD d 10 (if m.opc.cls < 2 then 16 * (m.slots - 1) else if m.carries then 64 else 0) else p
  if m.detour then p.fwdEvent 3 (if m.opc.cls = 0 then some m.vmid else none) else p

/-- The oldest item to be sent again whose route is link `d` (R364), with its place. -/
def Part.againFor (p : Part) (d : Nat) : Option Again :=
  p.sys.dvt.again.find? (fun a => decide ((p.route a.dst true).map (·.1) = some d))

/-- Re-injection of link `f` is over in both roles here (R353, R364): no slot is in flight on it. -/
def Part.reinjOver (p : Part) (f : Nat) : Part :=
  if (p.linkOf f).ends.isEmpty ∧ ¬ p.sys.dvt.again.any (fun a => decide (a.src = p.sktId) && decide (a.link = f)) then
    (p.setRg F.DVT_REINJ_ACTIVE 0 f).creditReset f
  else p

/-- A message has come by link `d`: it goes on over the torus from tile D, charged to the link (R277). -/
def Part.received (p : Part) (d : Nat) (m : Msg) : Part :=
  (p.send m).modFab (fun s => { s with link := s.link.put p.fab.next d })

/-- A drain marker that passes through waits behind the messages of its class that came before it (R362). -/
def Part.markerWaits (p : Part) : DMsg → Bool
  | .drain s t c _ => decide (s ≠ p.sktId) && p.net.any (fun m => decide (m.src.skt = s) && decide (m.dst.skt = t) && decide (m.opc.cls = c))
  | _ => false

/-- Messages of tile D itself for the next flit of link `d`, one slot and one credit each, in order: the slots. -/
def Part.ctlSend (p : Part) (d : Nat) : Nat → Part × List FlitSlot
  | 0 => (p, [])
  | n + 1 =>
    match (p.linkOf d).out with
    | [] => (p, [])
    | m :: r =>
      if p.rg (creditFld m.vc) d = 0 ∨ p.markerWaits m then (p, [])
      else
        let q := ((p.setRg (creditFld m.vc) (p.rg (creditFld m.vc) d - 1) d).modLink d (fun x => { x with out := r })).used
        let (q, l) := q.ctlSend d n
        (q, p.openSlot true m.vc :: l)

/-- The next message flit of link `d` (R351, R354): it is driven and enters the replay buffer. -/
def Part.flitOut (p : Part) (d : Nat) (slots : List FlitSlot) (msgs : List (Nat × Msg)) : Part :=
  let n := (p.linkOf d).txSeq
  let (p, crd) := p.takeOwed d
  (((p.drive d 0 n crd slots).modLink d (fun x => { x with tx := x.tx ++ [⟨n, crd, slots, msgs⟩], txSeq := (n + 1) % 4096 })).linkEvent d 1 1).bwCount 4 1 d 0 (16 * slots.length)

/-- One item that is sent again: its slots (a tag and the message, or the marker), the messages, and the state after it; none
while it does not fit or has no credits. -/
def Part.againSend (p : Part) (d : Nat) (a : Again) (room : Nat) : Option (Part × List FlitSlot × List (Nat × Msg)) :=
  let (n, vc) : Nat × Nat := match a.item with | .msg _ m => (m.slots + 1, m.opc.cls + 4) | .stop c => (1, c + 4)
  if n > room ∨ n > p.rg (creditFld vc) d then none
  else
    let tag := p.openSlot true vc
    let p := p.used.modDvt (fun v => { v with again := v.again.erase a })
    let own := decide (a.src = p.sktId)
    let (p, l, ms) : Part × List FlitSlot × List (Nat × Msg) := match a.item with
      | .msg _ m =>
        let p := if own then (p.count F.DVT_REINJ_SENT F.DVT_STAT_OVF a.link).linkEvent a.link 4 1 else p
        (p.spend d m, (p.msgSlots m vc).map (fun x => { x with start := false }), [(vc, m)])
      | .stop _ => (p, [], [])
    let p := p.setRg (creditFld vc) (p.rg (creditFld vc) d - 1) d
    some (if own then p.reinjOver a.link else p, tag :: l, ms)

/-- One flit time of link `d`'s transmitter: messages of tile D, then what is sent again, then new messages; an idle flit when
there is none, or while the replay buffer is full (R351, R354). -/
def Part.transmit (p : Part) (d : Nat) : Part :=
  if p.linkState d ≠ 4 then p
  else
    let idle (p : Part) : Part := let (q, crd) := p.takeOwed d; q.drive d 1 (p.linkOf d).txSeq crd []
    if (p.linkOf d).tx.length ≥ 1024 then idle p
    else
      let (p, ctl) := p.ctlSend d 7
      let room := 7 - ctl.length
      match p.againFor d with
      | some a =>
        match p.againSend d a room with
        | some (q, l, ms) => q.flitOut d (ctl ++ l) ms
        | none => if ctl.isEmpty then idle p else p.flitOut d ctl []
      | none =>
        let p := p.gatherD
        let l := p.pick d p.net room []
        if l.isEmpty ∧ ctl.isEmpty then idle p
        else
          let sent := l.map (fun m => ({ m with detour := match p.route m.dst.skt m.detour with | some (_, dt) => dt | none => m.detour } : Msg))
          let slots := (sent.map (fun m => p.msgSlots m m.vc)).flatten
          let p := l.foldl (fun (r : Part) (m : Msg) => r.takeOut m) p
          let p := sent.foldl (fun (r : Part) (m : Msg) => (r.spend d m).departed m) p
          p.flitOut d (ctl ++ slots) (sent.map (fun m => (m.vc, m)))

/-- The partner asks for every flit after `ack`: they are driven again, in order (R354). The eighth resend in a row of one flit
retrains the link (R356). -/
def Part.resend (p : Part) (d ack : Nat) : Part :=
  let s := p.linkOf d
  let l := ackTx s.tx ack
  let n := if l.length < s.tx.length then 1 else s.resends + 1
  let p := p.modLink d (fun x => { x with tx := l, resends := n })
  let p := (p.count F.DVT_REPLAYS_COUNT F.DVT_STAT_OVF d).linkEvent d 2 1
  let p := p.rasCount tileD d 1 1 d 0 .unstated d 0
  if n ≥ 8 then p.retrainStart d else l.foldl (fun (r : Part) (f : DFlit) => r.driveAgain d f) p

/-- A flit is accepted (R353, R354): its credits and ACK, and, unless it is idle or link control, its messages; the slots it
filled are owed as credits. -/
def Part.flitIn (p : Part) (d : Nat) (f : RxFlit) : Part :=
  let p := match f.ack with
    | some a => p.modLink d (fun x => { x with tx := ackTx x.tx a, resends := if (ackTx x.tx a).length < x.tx.length then 0 else x.resends })
    | none => p
  let p := p.creditAdd d f.credits
  let p := if f.ty ≠ 0 then p
    else
      let owe (o : List (Nat × Nat)) (v : Nat) : List (Nat × Nat) := Tab.upd 0 o v (fun n => min 511 (n + 1))
      let p := (p.bwCount 4 0 d 0 (16 * f.slotVcs.length)).modLink d (fun x => { x with rxSeq := f.seq, nak := false, owed := f.slotVcs.foldl owe x.owed })
      f.msgs.foldl (fun (r : Part) (m : Nat × Msg) =>
        (r.received d { m.2 with detour := decide (m.1 ≥ 4) }).fwdEvent 2 (if m.2.opc.cls = 0 then some m.2.vmid else none)) p
  if f.nak then p.resend d (f.ack.getD 0) else p

/-- DVT_FLIT: a flit arrives on link `d` (R354), its messages are delivered or forwarded, and in the same flit
time the transmitter sends (notes/assumptions/37.md). Idle and link-control flits carry the SEQ of the next message flit (R351), so
they too show that one was lost. The first of the flits to be discarded has a NAK sent. -/
def Part.dvtFlit (d : Nat) (f : RxFlit) (p : Part) : Part :=
  if d ≥ 4 ∨ p.linkState d ≠ 4 then p
  else
    let p := p.modLink d (fun x => { x with wire := [] })
    let s := p.linkOf d
    let p := if ¬ f.crcOk ∨ f.seq ≠ (s.rxSeq + 1) % 4096 then
        p.modLink d (fun x => { x with nak := true, nakDue := !x.nak })
      else p.flitIn d f
    (p.transmit d).sweepLost

/-- NAK: the partner asks for every flit after `ack` (R354). -/
def Part.dvtNak (d ack : Nat) (p : Part) : Part :=
  if d ≥ 4 ∨ p.linkState d ≠ 4 then p else (p.modLink d (fun x => { x with wire := [] })).resend d ack

/-! ### Management messages (R361, R362, R364, R366 to R372) -/

/-- LINK_STATE_MESSAGE: socket `skt` tells its links, weight and MC_ILVSUM (R361, R371, R372). One that brings anything new is
forwarded, so that weights and sums reach the master too (DESIGN CHOICE, notes/assumptions/37.md). -/
def Part.linkStateMessage (d skt up weight sum : Nat) (p : Part) : Part :=
  if d ≥ 4 ∨ p.linkState d ≠ 4 ∨ skt ≥ 16 ∨ skt = p.sktId then p
  else
    let f := if skt < 8 then F.DVT_MAP_LO_UP else F.DVT_MAP_HI_UP
    let changed := decide (p.rg f / 2 ^ (4 * (skt % 8)) % 16 ≠ up % 16)
    let news := changed || decide (p.sys.dvt.weight.get 1 skt ≠ max 1 weight) || decide (p.sys.dvt.sum.find? skt ≠ some sum)
    let p := p.modDvt (fun s =>
      { s with weight := s.weight.put skt (max 1 weight), sum := s.sum.put skt sum,
               differ := (if sum = p.ilvSum then s.differ.del skt
                          else if (s.differ.find? skt).isSome then s.differ else s.differ.put skt p.time) })
    let p := if sum = p.ilvSum then p.setRg F.DVT_ILVMIS_SKT (setBit (p.rg F.DVT_ILVMIS_SKT) skt false) else p
    if ¬ news then p
    else
      let p := if changed then p.mapPut skt up else p
      let p := (List.range 4).foldl (fun (r : Part) (e : Nat) =>
        if e ≠ d ∧ r.linkState e = 4 then r.mgmt e (.linkState skt up weight sum) else r) p
      p.reachUpdate

/-- A message of tile D for the tile D of socket `dst` takes its route; none is sent to a socket out of reach. -/
def Part.mailTo (p : Part) (dst : Nat) (m : DMsg) : Part :=
  match p.route dst false with
  | some (d, _) => if dst = p.sktId then p else p.mgmt d m
  | none => p

/-- What waits to be told to other sockets goes out (R368). -/
def Part.mailPump (p : Part) : Part :=
  p.sys.dvt.mail.foldl (fun (r : Part) (x : Nat × DMsg) => r.mailTo x.1 x.2) (p.modDvt (fun s => { s with mail := [] }))

/-- The VC of a marker of class `c` on its way to socket `dst`. -/
def Part.markerVc (p : Part) (dst c : Nat) : Nat := match p.route dst false with | some (_, true) => c + 4 | _ => c

/-- DRAIN: a marker of class `cls` from socket `src` to socket `dst` has arrived behind every message of its class: it goes on,
or the answer is DRAINACK in the response class (R362). -/
def Part.drainMarker (src dst cls : Nat) (p : Part) : Part :=
  if dst = p.sktId then p.mailTo src (.drainAck dst src cls (p.markerVc src 2))
  else p.mailTo dst (.drain src dst cls (p.markerVc dst cls))

/-- DRAINACK of socket `src`: once every class is drained the new route is used (R362). -/
def Part.drainAck (src dst cls : Nat) (p : Part) : Part :=
  if dst ≠ p.sktId then p.mailTo dst (.drainAck src dst cls (p.markerVc dst 2))
  else
    p.modDvt (fun s =>
      let l := s.drain.map (fun x => if x.dst = src then { x with left := x.left.filter (· ≠ cls) } else x)
      { s with drain := l.filter (fun x => !x.left.isEmpty) })

/-- REINJECTED_MESSAGE: from socket `src`, an end of failed link `d`, to the partner `dst`, tagged with SEQ `seq` (R364). It
goes on towards the partner; there it is a duplicate, or as though it had arrived on the link. -/
def Part.reinjected (src dst d seq : Nat) (m : Msg) (p : Part) : Part :=
  if dst ≠ p.sktId then p.modDvt (fun v => { v with again := v.again ++ [⟨src, dst, d, .msg (seq % 4096) { m with detour := true }⟩] })
  else if d ≥ 4 ∨ ¬ p.rgOn F.DVT_REINJ_ACTIVE d then p
  else
    let a := p.rg F.DVT_REINJ_ALAST d
    if (a + 4096 - seq % 4096) % 4096 < 1024 then (p.count F.DVT_DUPS_COUNT F.DVT_STAT_OVF d).fwdEvent 4 none
    else (p.received d { m with detour := true }).fwdEvent 2 (if m.opc.cls = 0 then some m.vmid else none)

/-- REINJEND of a class (R364). -/
def Part.reinjEnd (src dst d cls : Nat) (p : Part) : Part :=
  if dst ≠ p.sktId then p.modDvt (fun v => { v with again := v.again ++ [⟨src, dst, d, .stop cls⟩] })
  else if d ≥ 4 ∨ ¬ p.rgOn F.DVT_REINJ_ACTIVE d then p
  else
    let p := p.modLink d (fun s => { s with ends := s.ends.filter (· ≠ cls) })
    if (p.linkOf d).ends.isEmpty then
      ((p.setRg F.DVT_REINJ_DONE 1 d).modLink d (fun s => { s with rxSeq := 4095 })).reinjOver d
    else p

/-- A socket's package power share (R371): the value, and whether it was raised to 480 W. -/
def Part.shareOf (p : Part) (s : Nat) : Nat × Bool :=
  let cap := p.rg F.DVT_GPWR_CAP
  let w (i : Nat) : Nat := if i = p.sktId then max 1 (p.rg F.DVT_PWRWT_WEIGHT) else p.sys.dvt.weight.get 1 i
  let total := (List.range p.sktCnt).foldl (fun a i => a + w i) 0
  let x := if p.rgOn F.DVT_GPWR_MODE then cap * w s / max 1 total else cap / p.sktCnt
  (min 720 (max 480 x), decide (x < 480))

/-- The parent of a socket for TIME (R369): its ID with the lowest set bit cleared, over the link of that bit, or
when that link is down the neighbour with the fewest set bits, the lower ID on a tie. -/
def Part.timeParent (p : Part) : Option Nat :=
  if p.sktId = 0 then none
  else
    let low := ((List.range 4).find? (fun d => p.sktId.testBit d)).getD 0
    if p.linkUp low then some low
    else
      let bits (x : Nat) : Nat := ((List.range 4).filter (fun i => x.testBit i)).length
      ((List.range 4).filter p.linkUp).foldl (fun (a : Option Nat) (d : Nat) =>
        match a with
        | none => some d
        | some e =>
          let x := p.sktId ^^^ 2 ^ d
          let y := p.sktId ^^^ 2 ^ e
          if bits x < bits y ∨ (bits x = bits y ∧ x < y) then some d else some e) none

/-- TIME_BROADCAST: after 1,024 epoch ticks the master sends time messages with shares (R369, R371). -/
def Part.timeBroadcast (p : Part) : Part :=
  if p.sktId ≠ 0 ∨ ¬ p.rgOn F.DVT_ENUM_DONE ∨ p.sys.dvt.ticks < 1024 then p
  else
    let p := p.modDvt (fun s => { s with ticks := 0 })
    let en := p.rgOn F.DVT_GPWR_EN
    let p := (if en then p.setRg F.DVT_PWRSHARE_W (p.shareOf 0).1 else p).modDvt (fun s => { s with capOn := en })
    let shares := if en then (List.range p.sktCnt).map (fun s => (p.shareOf s).1) else []
    let p := if en ∧ (List.range p.sktCnt).any (fun s => (p.shareOf s).2) then p.setRg F.DVT_GSTAT_CAPLOW 1 else p
    ((List.range 4).foldl (fun (r : Part) (d : Nat) => if r.linkState d = 4 then r.mgmt d (.time r.time shares) else r) p).tellState

/-- TIME_MESSAGE: the reference TIME arrives on link `d`; the hop corrects it for half the round trip; with every socket's share, none
without a cap (R369, R371). The first steps TIME, later ones slew it by at most 109 ns, 1 part in 1,000 of a period;
an offset above 1 µs holds TIME still. The message goes on to this socket's children, and MC_ILVSUM is told again (R372). -/
def Part.timeMessage (d ref : Nat) (shares : List Nat) (p : Part) : Part :=
  let ref := ref + (p.linkOf d).rtt / 2
  if d ≥ 4 ∨ p.linkState d ≠ 4 ∨ p.timeParent ≠ some d then p
  else
    let ahead := decide (p.time > ref)
    let off := if ahead then p.time - ref else ref - p.time
    let mag := min off 32767
    let p := p.setRg F.DVT_TSYNC_OFFSET (if ahead then 2 ^ 16 - (if off > 32768 then 32768 else off) else mag)
    let p :=
      if ¬ p.rgOn F.DVT_TSYNC_LOCKED then ({ p with time := ref } : Part).setRg F.DVT_TSYNC_LOCKED 1
      else if ahead then p.modDvt (fun s => { s with still := if off > 1000 then off else min off 109 })
      else { p with time := p.time + min off 109 }
    let p := (match shares[p.sktId]? with
      | some w => p.setRg F.DVT_PWRSHARE_W (min 720 (max 480 w))
      | none => p).modDvt (fun s => { s with capOn := !shares.isEmpty })
    ((List.range 4).foldl (fun (r : Part) (e : Nat) =>
      if e ≠ d ∧ r.linkState e = 4 then r.mgmt e (.time r.time shares) else r) p).tellState

/-- ISOLATION_HOLD: 1 ms after isolation every core is held in reset, and the platform hears of it (R367). -/
def Part.isolationDue (p : Part) : Option Part :=
  match p.sys.dvt.isolAt with
  | none => none
  | some t => some (({ p with time := max p.time (t + 1000000) } : Part).modDvt (fun s => { s with isolAt := none, reports := .isolated :: s.reports }))

/-- TIMEOUT_REPORT: another socket's home timed out on an agent of socket `dst`; the report goes on, or Easel acts here as for its
own homes (R368, R308). -/
def Part.timeoutReport (skt dst line tile init : Nat) (p : Part) : Part :=
  if dst ≠ p.sktId then p.mailTo dst (.report skt dst line tile init) else
  let p := p.easelLog 14 2 (line * 64) (skt % 16 * 2 ^ 8 + tile % 256 * 2 ^ 12)
  match coreOrd tile with
  | some k => if init < 4 then p.easelResets (2 * k + init / 2) else p
  | none => p

/-- ILV_MISMATCH: socket `skt`'s MC_ILVSUM has differed from the master's for 1 ms (R372). -/
def Part.ilvMismatch (skt : Nat) (p : Part) : Part :=
  if p.sktId ≠ 0 ∨ p.sktCnt = 1 then p
  else
    match p.sys.dvt.differ.find? skt with
    | none => p
    | some t =>
      if p.sys.dvt.sum.get 0 skt = p.ilvSum then p
      else
        let p := { p with time := max p.time (t + 1000000) }
        ((p.setRg F.DVT_ILVMIS_SKT (setBit (p.rg F.DVT_ILVMIS_SKT) skt true)).setRg F.DVT_GSTAT_ILVMIS 1).easEvent F.EAS_EVT_LOG

end Sys2Proof.Machine
end

