-- ==== Sys2Proof/Machine/Aes.lean ====
section
/-!
DEFINITION. AES-GCM with 128-bit and 256-bit keys (R443), on lists of bytes as numbers: the cipher of FIPS 197
and the mode of SP 800-38D, which the specification names and does not restate (PRESUMED,
notes/assumptions/38.md).
-/
namespace Sys2Proof.Machine

/-- The AES S-box. -/
def sboxTable : List Nat :=
  [0x63, 0x7c, 0x77, 0x7b, 0xf2, 0x6b, 0x6f, 0xc5, 0x30, 0x01, 0x67, 0x2b, 0xfe, 0xd7, 0xab, 0x76] ++
  [0xca, 0x82, 0xc9, 0x7d, 0xfa, 0x59, 0x47, 0xf0, 0xad, 0xd4, 0xa2, 0xaf, 0x9c, 0xa4, 0x72, 0xc0] ++
  [0xb7, 0xfd, 0x93, 0x26, 0x36, 0x3f, 0xf7, 0xcc, 0x34, 0xa5, 0xe5, 0xf1, 0x71, 0xd8, 0x31, 0x15] ++
  [0x04, 0xc7, 0x23, 0xc3, 0x18, 0x96, 0x05, 0x9a, 0x07, 0x12, 0x80, 0xe2, 0xeb, 0x27, 0xb2, 0x75] ++
  [0x09, 0x83, 0x2c, 0x1a, 0x1b, 0x6e, 0x5a, 0xa0, 0x52, 0x3b, 0xd6, 0xb3, 0x29, 0xe3, 0x2f, 0x84] ++
  [0x53, 0xd1, 0x00, 0xed, 0x20, 0xfc, 0xb1, 0x5b, 0x6a, 0xcb, 0xbe, 0x39, 0x4a, 0x4c, 0x58, 0xcf] ++
  [0xd0, 0xef, 0xaa, 0xfb, 0x43, 0x4d, 0x33, 0x85, 0x45, 0xf9, 0x02, 0x7f, 0x50, 0x3c, 0x9f, 0xa8] ++
  [0x51, 0xa3, 0x40, 0x8f, 0x92, 0x9d, 0x38, 0xf5, 0xbc, 0xb6, 0xda, 0x21, 0x10, 0xff, 0xf3, 0xd2] ++
  [0xcd, 0x0c, 0x13, 0xec, 0x5f, 0x97, 0x44, 0x17, 0xc4, 0xa7, 0x7e, 0x3d, 0x64, 0x5d, 0x19, 0x73] ++
  [0x60, 0x81, 0x4f, 0xdc, 0x22, 0x2a, 0x90, 0x88, 0x46, 0xee, 0xb8, 0x14, 0xde, 0x5e, 0x0b, 0xdb] ++
  [0xe0, 0x32, 0x3a, 0x0a, 0x49, 0x06, 0x24, 0x5c, 0xc2, 0xd3, 0xac, 0x62, 0x91, 0x95, 0xe4, 0x79] ++
  [0xe7, 0xc8, 0x37, 0x6d, 0x8d, 0xd5, 0x4e, 0xa9, 0x6c, 0x56, 0xf4, 0xea, 0x65, 0x7a, 0xae, 0x08] ++
  [0xba, 0x78, 0x25, 0x2e, 0x1c, 0xa6, 0xb4, 0xc6, 0xe8, 0xdd, 0x74, 0x1f, 0x4b, 0xbd, 0x8b, 0x8a] ++
  [0x70, 0x3e, 0xb5, 0x66, 0x48, 0x03, 0xf6, 0x0e, 0x61, 0x35, 0x57, 0xb9, 0x86, 0xc1, 0x1d, 0x9e] ++
  [0xe1, 0xf8, 0x98, 0x11, 0x69, 0xd9, 0x8e, 0x94, 0x9b, 0x1e, 0x87, 0xe9, 0xce, 0x55, 0x28, 0xdf] ++
  [0x8c, 0xa1, 0x89, 0x0d, 0xbf, 0xe6, 0x42, 0x68, 0x41, 0x99, 0x2d, 0x0f, 0xb0, 0x54, 0xbb, 0x16]

def sbox (b : Nat) : Nat := sboxTable.getD b 0

/-- Multiply by x in the field of AES. -/
def xtime (b : Nat) : Nat := if b ≥ 128 then (2 * b) ^^^ 0x11B else 2 * b

def xorBytes (a b : List Nat) : List Nat := List.zipWith (fun x y => x ^^^ y) a b

/-- Round key words after the key's own: `ws` holds the words so far, newest first. -/
def aesExpand (nk : Nat) : Nat → Nat → Nat → List (List Nat) → List (List Nat)
  | 0, _, _, ws => ws
  | fuel + 1, i, rcon, ws =>
    let prev := ws.getD 0 []
    let back := ws.getD (nk - 1) []
    let rot := prev.drop 1 ++ prev.take 1
    if i % nk = 0 then
      aesExpand nk fuel (i + 1) (xtime rcon) (xorBytes back (xorBytes (rot.map sbox) [rcon, 0, 0, 0]) :: ws)
    else if nk > 6 ∧ i % nk = 4 then aesExpand nk fuel (i + 1) rcon (xorBytes back (prev.map sbox) :: ws)
    else aesExpand nk fuel (i + 1) rcon (xorBytes back prev :: ws)

def chunks (n : Nat) (l : List Nat) : Nat → List (List Nat)
  | 0 => []
  | fuel + 1 => if l.isEmpty then [] else l.take n :: chunks n (l.drop n) fuel

/-- The round keys of a key of 16 or 32 bytes, 16 bytes each, first to last. -/
def aesKeys (key : List Nat) : List (List Nat) :=
  let nk := key.length / 4
  let ws := (aesExpand nk (4 * (nk + 7) - nk) nk 1 (chunks 4 key nk).reverse).reverse
  chunks 16 ws.flatten (nk + 7)

def shiftRows (s : List Nat) : List Nat :=
  (List.range 16).map (fun j => s.getD (4 * ((j / 4 + j % 4) % 4) + j % 4) 0)

def mixColumn (c : List Nat) : List Nat :=
  (List.range 4).map (fun r =>
    let b (k : Nat) := c.getD ((r + k) % 4) 0
    xtime (b 0) ^^^ (xtime (b 1) ^^^ b 1) ^^^ b 2 ^^^ b 3)

def aesRounds (last : List Nat) : List (List Nat) → List Nat → List Nat
  | [], s => xorBytes (shiftRows (s.map sbox)) last
  | k :: ks, s => aesRounds last ks (xorBytes ((chunks 4 (shiftRows (s.map sbox)) 4).map mixColumn).flatten k)

/-- Encrypt one block under round keys. -/
def aesBlock (ks : List (List Nat)) (b : List Nat) : List Nat :=
  aesRounds (ks.getLastD []) (ks.drop 1).dropLast (xorBytes b (ks.getD 0 []))

/-- Big-endian number of bytes. -/
def beNat (l : List Nat) : Nat := l.foldl (fun a b => a * 256 + b) 0
def natBe (n : Nat) (v : Nat) : List Nat := (List.range n).map (fun i => v / 2 ^ (8 * (n - 1 - i)) % 256)

/-- Multiplication in the field of GHASH. -/
def ghMul (x y : Nat) : Nat :=
  ((List.range 128).foldl (fun (zv : Nat × Nat) (i : Nat) =>
    let z := if x.testBit (127 - i) then zv.1 ^^^ zv.2 else zv.1
    let v := if zv.2 % 2 = 1 then (zv.2 / 2) ^^^ (0xE1 * 2 ^ 120) else zv.2 / 2
    (z, v)) (0, y)).1

def padBlock (l : List Nat) : List Nat := l ++ List.replicate ((16 - l.length % 16) % 16) 0

def ghash (h : Nat) (l : List Nat) : Nat :=
  (chunks 16 l (l.length / 16 + 1)).foldl (fun a b => ghMul (a ^^^ beNat b) h) 0

/-- The key stream's exclusive or with `l`, from counter value `c`. -/
def gctr (ks : List (List Nat)) (nonce : List Nat) (c : Nat) (l : List Nat) : List Nat :=
  ((chunks 16 l (l.length / 16 + 1)).zipIdx.map (fun x => xorBytes x.1 (aesBlock ks (nonce ++ natBe 4 (c + x.2))))).flatten

def gcmTag (ks : List (List Nat)) (nonce aad ct : List Nat) : List Nat :=
  let h := beNat (aesBlock ks (List.replicate 16 0))
  let s := ghash h (padBlock aad ++ padBlock ct ++ natBe 8 (8 * aad.length) ++ natBe 8 (8 * ct.length))
  xorBytes (natBe 16 s) (aesBlock ks (nonce ++ natBe 4 1))

/-- Encrypt: cipher text and tag. -/
def gcmSeal (key nonce aad pt : List Nat) : List Nat × List Nat :=
  let ks := aesKeys key
  let ct := gctr ks nonce 2 pt
  (ct, gcmTag ks nonce aad ct)

/-- Decrypt: the plain text, if the tag is right. -/
def gcmOpen (key nonce aad ct tag : List Nat) : Option (List Nat) :=
  let ks := aesKeys key
  if gcmTag ks nonce aad ct = tag then some (gctr ks nonce 2 ct) else none

end Sys2Proof.Machine
end

