-- ==== Sys2Proof/Machine/Frame.lean ====
section
/-!
DEFINITION. Ethernet frames as lists of bytes: the parse graph (R410 to R412), checksums (R413), the flow key
(R414), and edits of a frame. A frame here runs from its destination address to its last byte before the FCS.
-/
namespace Sys2Proof.Machine

/-- Byte `i` of a frame, 0 beyond its end. -/
def fb (f : List Byte) (i : Nat) : Nat := (f.getD i 0).toNat
/-- `n` bytes at `i` in network byte order. -/
def fbe (f : List Byte) (i n : Nat) : Nat := (List.range n).foldl (fun a k => a * 256 + fb f (i + k)) 0
/-- A number as `n` bytes in network byte order. -/
def beBytes (n v : Nat) : List Byte := (List.range n).map (fun i => BitVec.ofNat 8 (v / 2 ^ (8 * (n - 1 - i))))
/-- Replace bytes of a frame. -/
def fset (f : List Byte) (i : Nat) (b : List Byte) : List Byte := f.take i ++ b ++ f.drop (i + b.length)
/-- Cut `n` bytes out of a frame. -/
def fcut (f : List Byte) (i n : Nat) : List Byte := f.take i ++ f.drop (i + n)

/-- Ones' complement sum of 16-bit words, a last odd byte padded with zero. -/
def sum16 : List Byte → Nat
  | [] => 0
  | [a] => a.toNat * 256
  | a :: b :: r => a.toNat * 256 + b.toNat + sum16 r

/-- Fold a sum into 16 bits. -/
def fold16 (n : Nat) : Nat :=
  let a := n / 65536 + n % 65536
  let b := a / 65536 + a % 65536
  b / 65536 + b % 65536

/-- The Internet checksum of bytes and an extra sum. -/
def inetSum (l : List Byte) (extra : Nat) : Nat := 65535 - fold16 (sum16 l + extra)

/-- Nodes of the parse graph with a header of their own (R410). -/
inductive PNode where
  | eth | stag | ctag | ipv4 | ipv6 | ext | frag | udp | tcp | vxlan | geneve
  deriving DecidableEq, Repr

def Parse.zero : Parse :=
  { status := 0, vlans := 0, l3 := 0, l4 := 0, tun := 0, l3cs := 0, l4cs := 0, l3off := 0, l4off := 0, hdrn := 0, vid := 0,
    osrc := 0, odst := 0, osport := 0, odport := 0, oproto := 0, isrc := 0, idst := 0, isport := 0, idport := 0, iproto := 0,
    vni := 0, ip1 := 0, ipn := 0, ipv := 0, ipend := 0 }

/-- The parser's position. -/
structure PsSt where
  node : Option PNode
  off : Nat
  inner : Bool
  /-- the header before was the outer Ethernet header -/
  first : Bool
  /-- a CTAG has been entered in this Ethernet header -/
  ctag : Bool
  p : Parse
  deriving DecidableEq, Repr

/-- What follows an EtherType at offset `o` (R410). Anything else is terminal, as "other". -/
def PsSt.byType (s : PsSt) (f : List Byte) (o : Nat) (eth : Bool) : PsSt :=
  let t := fbe f o 2
  let s : PsSt := { s with off := o + 2, first := false }
  if t = 0x88A8 ∧ eth ∧ ¬ s.inner then { s with node := some .stag, first := true }
  else if t = 0x8100 ∧ ¬ s.ctag then { s with node := some .ctag, ctag := true }
  else if t = 0x0800 then { s with node := some .ipv4 }
  else if t = 0x86DD then { s with node := some .ipv6 }
  else { s with node := none, p := { s.p with l3 := 3, l3off := o + 2 } }

/-- What follows an IP protocol or next-header value at offset `o`; `six` after an IPv6 header. -/
def PsSt.byProto (s : PsSt) (o t : Nat) (six : Bool) : PsSt :=
  let p := if s.inner then { s.p with iproto := t } else { s.p with oproto := t }
  let s : PsSt := { s with off := o, p := p }
  if six ∧ (t = 0 ∨ t = 43 ∨ t = 60) then { s with node := some .ext }
  else if six ∧ t = 44 then { s with node := some .frag }
  else if t = 17 then { s with node := some .udp }
  else if t = 6 then { s with node := some .tcp }
  else { s with node := none, p := { s.p with l4 := 3, l4off := o } }

/-- Length of a node's header (R410). -/
def PNode.len (nd : PNode) (f : List Byte) (o : Nat) : Nat :=
  match nd with
  | .eth => 14
  | .stag => 4
  | .ctag => 4
  | .ipv4 => fb f o % 16 * 4
  | .ipv6 => 40
  | .ext => (fb f (o + 1) + 1) * 8
  | .frag => 8
  | .udp => 8
  | .tcp => fb f (o + 12) / 16 * 4
  | .vxlan => 8
  | .geneve => 8 + fb f o % 64 * 4

/-- Bytes of an address as a number, first byte least significant (R414). -/
def addrNum (f : List Byte) (o n : Nat) : Nat :=
  (List.range n).foldl (fun a k => a + fb f (o + k) * 2 ^ (8 * k)) 0

/-- Addresses of an IP header at `o`, `w` bytes each. -/
def Parse.addrs (p : Parse) (inner : Bool) (f : List Byte) (src dst w : Nat) : Parse :=
  if inner then { p with isrc := addrNum f src w, idst := addrNum f dst w }
  else { p with osrc := addrNum f src w, odst := addrNum f dst w }

def Parse.ports (p : Parse) (inner : Bool) (s d : Nat) : Parse :=
  if inner then { p with isport := s, idport := d } else { p with osport := s, odport := d }

/-- Inside a tunnel the innermost headers are the inner ones. -/
def Parse.enterTunnel (p : Parse) (tun vni : Nat) : Parse :=
  { p with tun := tun, vni := vni, l3 := 0, l4 := 0, l3off := 0, l4off := 0 }

/-- A contradiction of R412: the parser stops. -/
def PsSt.bad (s : PsSt) : PsSt := { s with node := none, p := { s.p with status := 7 } }

/-- Take one node of a frame of `n` bytes (R410 to R412). -/
def PsSt.take (s : PsSt) (nd : PNode) (f : List Byte) (n : Nat) : PsSt :=
  let o := s.off
  let l := nd.len f o
  if s.p.hdrn = 8 ∨ o + l > 192 then { s with node := none, p := { s.p with status := 6 } }
  else
    let s : PsSt := { s with p := { s.p with hdrn := s.p.hdrn + 1 } }
    let short := decide (o + l > n)
    match nd with
    | .eth => if short then s.bad else { s with ctag := false }.byType f (o + 12) true
    | .stag =>
      let s : PsSt := { s with p := { s.p with vlans := 1, vid := fbe f o 2 % 4096 } }
      if short then s.bad else s.byType f (o + 2) false
    | .ctag =>
      let vid := if s.p.vlans = 0 then fbe f o 2 % 4096 else s.p.vid
      let s : PsSt := if s.inner then s else { s with p := { s.p with vlans := s.p.vlans + 1, vid := vid } }
      if short then s.bad else s.byType f (o + 2) false
    | .ipv4 =>
      let total := fbe f (o + 2) 2
      let pr := fb f (o + 9)
      let p := { s.p with l3 := 1, l3off := o, l4 := 0, l4off := 0, ip1 := (if s.p.ip1 = 0 then o else s.p.ip1), ipn := o, ipv := 4,
                          ipend := o + total }
      let p := p.addrs s.inner f (o + 12) (o + 16) 4
      let s : PsSt := { s with p := p }
      let t : PsSt := s.byProto (o + l) pr false
      if fb f o % 16 < 5 ∨ short ∨ total < l ∨ o + total > n then
        { s with p := (if s.inner then { s.p with iproto := pr } else { s.p with oproto := pr }) }.bad
      else
        let p := { t.p with l3cs := (if fold16 (sum16 ((f.drop o).take l)) = 65535 then max 1 s.p.l3cs else 2) }
        if fbe f (o + 6) 2 % 8192 ≠ 0 then { t with node := none, p := { p with l4 := 0, l4off := 0 } }
        else { t with p := p }
    | .ipv6 =>
      let plen := fbe f (o + 4) 2
      let p := { s.p with l3 := 2, l3off := o, l4 := 0, l4off := 0, ip1 := (if s.p.ip1 = 0 then o else s.p.ip1), ipn := o, ipv := 6,
                          ipend := o + 40 + plen }
      let s : PsSt := { s with p := p.addrs s.inner f (o + 8) (o + 24) 16 }
      let t : PsSt := s.byProto (o + l) (fb f (o + 6)) true
      if short ∨ o + 40 + plen > n then
        { s with p := (if s.inner then { s.p with iproto := fb f (o + 6) } else { s.p with oproto := fb f (o + 6) }) }.bad
      else t
    | .ext => if short then s.bad else s.byProto (o + l) (fb f o) true
    | .frag =>
      if short then s.bad
      else
        let t := s.byProto (o + l) (fb f o) true
        if fbe f (o + 2) 2 / 8 ≠ 0 then { t with node := none, p := { t.p with l4 := 0, l4off := 0 } } else t
    | .udp =>
      let ul := fbe f (o + 4) 2
      let d := fbe f (o + 2) 2
      let s : PsSt := { s with p := { s.p.ports s.inner (fbe f o 2) d with l4 := 1, l4off := o } }
      if short ∨ ul < 8 ∨ o + ul > n then s.bad
      else if s.inner then { s with node := none }
      else if d = 4789 then { s with node := some .vxlan, off := o + 8 }
      else if d = 6081 then { s with node := some .geneve, off := o + 8 }
      else { s with node := none }
    | .tcp =>
      let s : PsSt := { s with p := { s.p.ports s.inner (fbe f o 2) (fbe f (o + 2) 2) with l4 := 2, l4off := o } }
      if l < 20 ∨ short then s.bad else { s with node := none }
    | .vxlan =>
      let s : PsSt := { s with inner := true, p := s.p.enterTunnel 1 (fbe f (o + 4) 3) }
      if short then s.bad else { s with node := some .eth, off := o + l }
    | .geneve =>
      let s : PsSt := { s with inner := true, p := s.p.enterTunnel 2 (fbe f (o + 4) 3) }
      let t := fbe f (o + 2) 2
      if short then s.bad
      else if t = 0x6558 then { s with node := some .eth, off := o + l }
      else if t = 0x0800 then { s with node := some .ipv4, off := o + l }
      else if t = 0x86DD then { s with node := some .ipv6, off := o + l }
      else { s with node := none }

def PsSt.run (f : List Byte) (n : Nat) : Nat → PsSt → PsSt
  | 0, s => s
  | fuel + 1, s =>
    match s.node with
    | none => s
    | some nd => PsSt.run f n fuel (s.take nd f n)

/-- The sum of an IP pseudo-header for an upper-layer packet of `len` bytes. -/
def pseudoSum (f : List Byte) (p : Parse) (proto len : Nat) : Nat :=
  (if p.ipv = 4 then sum16 ((f.drop (p.ipn + 12)).take 8) else sum16 ((f.drop (p.ipn + 8)).take 32)) + proto + len

/-- Bytes of the innermost TCP or UDP packet, its length field or its IP packet's end deciding. -/
def l4Len (f : List Byte) (p : Parse) : Nat :=
  if p.l4 = 1 then fbe f (p.l4off + 4) 2 else p.ipend - p.l4off

/-- The check of the innermost TCP or UDP checksum: 0 not checked, 1 good, 2 bad (R413). -/
def l4Check (f : List Byte) (p : Parse) : Nat :=
  if p.l4 ≠ 1 ∧ p.l4 ≠ 2 then 0
  else if p.l4 = 1 ∧ p.ipv = 4 ∧ fbe f (p.l4off + 6) 2 = 0 then 0
  else
    let n := l4Len f p
    if fold16 (sum16 ((f.drop p.l4off).take n) + pseudoSum f p (if p.l4 = 1 then 17 else 6) n) = 65535 then 1 else 2

/-- Parse a frame (R410 to R413). -/
def parseFrame (f : List Byte) : Parse :=
  let s := PsSt.run f f.length 12 { node := some .eth, off := 0, inner := false, first := false, ctag := false, p := Parse.zero }
  if s.p.status = 7 then s.p else { s.p with l4cs := l4Check f s.p }

/-- A runt or oversize frame is not parsed beyond its Ethernet header (R407). -/
def parseEth (f : List Byte) : Parse :=
  let s := (PsSt.take { node := some .eth, off := 0, inner := false, first := false, ctag := false, p := Parse.zero } .eth f f.length)
  { s.p with l3 := 0, l3off := 0, status := 0 }

/-- Source and destination, or the destination address of an L2 key, as the 48 bytes of a flow key (R414). -/
def flowKey (f : List Byte) (p : Parse) (lp kind : Nat) : List Byte :=
  let inr := decide (kind = 2) && decide (p.tun ≠ 0)
  let pick (a b : Nat) : Nat := if kind = 0 ∨ kind = 3 then 0 else if inr then b else a
  let le (n v : Nat) : List Byte := (List.range n).map (fun i => BitVec.ofNat 8 (v / 2 ^ (8 * i)))
  let src := if kind = 0 then addrNum f 0 6 else pick p.osrc p.isrc
  le 16 src ++ le 16 (pick p.odst p.idst) ++ beBytes 2 (pick p.osport p.isport) ++ beBytes 2 (pick p.odport p.idport) ++
    beBytes 1 (pick p.oproto p.iproto) ++ beBytes 3 (if kind = 2 then p.vni else 0) ++
    beBytes 2 (if kind = 0 then p.vid else 0) ++ beBytes 1 lp ++ beBytes 1 kind ++ beBytes 4 0

/-- Recompute the checksum of the IPv4 header at `o`. -/
def fixIp4 (f : List Byte) (o : Nat) : List Byte :=
  let g := fset f (o + 10) [0, 0]
  fset g (o + 10) (beBytes 2 (inetSum ((g.drop o).take (fb f o % 16 * 4)) 0))

/-- Insert the innermost IPv4 header checksum, and the innermost TCP or UDP checksum (R413). -/
def insertChecksums (f : List Byte) (p : Parse) (l3 l4 : Bool) : List Byte :=
  let f := if l3 ∧ p.ipv = 4 then fixIp4 f p.ipn else f
  if l4 ∧ (p.l4 = 1 ∨ p.l4 = 2) then
    let at_ := if p.l4 = 1 then p.l4off + 6 else p.l4off + 16
    let n := l4Len f p
    let g := fset f at_ [0, 0]
    let c := inetSum ((g.drop p.l4off).take n) (pseudoSum g p (if p.l4 = 1 then 17 else 6) n)
    fset g at_ (beBytes 2 (if p.l4 = 1 ∧ c = 0 then 65535 else c))
  else f

/-- Set ECN to CE in the innermost IP header parsed, when it carries ECT(0) or ECT(1), with an IPv4 checksum
corrected for the change (R433). -/
def markCe (f : List Byte) (p : Parse) : List Byte :=
  if p.ipv = 4 then
    let e := fb f (p.ipn + 1) % 4
    if e = 1 ∨ e = 2 then
      let old := fbe f p.ipn 2
      let new := old - e + 3
      let c := fbe f (p.ipn + 10) 2
      let c2 := 65535 - fold16 ((65535 - c) + (65535 - old) + new)
      fset (fset f (p.ipn + 1) (beBytes 1 (new % 256))) (p.ipn + 10) (beBytes 2 c2)
    else f
  else if p.ipv = 6 then
    let e := fb f (p.ipn + 1) / 16 % 4
    if e = 1 ∨ e = 2 then fset f (p.ipn + 1) (beBytes 1 (fb f (p.ipn + 1) + 16 * (3 - e))) else f
  else f

/-- The 4 FCS bytes of a frame, in the order of the wire. -/
def fcsBytes (f : List Byte) : List Byte :=
  let c := (crc32 f).toNat
  [BitVec.ofNat 8 c, BitVec.ofNat 8 (c / 256), BitVec.ofNat 8 (c / 65536), BitVec.ofNat 8 (c / 16777216)]

/-- The outer VID of the outermost tag of a frame, if it has one (R405). -/
def outerVid (f : List Byte) : Option Nat :=
  let t := fbe f 12 2
  if t = 0x88A8 ∨ t = 0x8100 then some (fbe f 14 2 % 4096) else none

end Sys2Proof.Machine
end

