-- ==== Sys2Proof/Machine/Iot.lean ====
section
/-!
DEFINITION. The I/O translation units (R209 to R216): contexts, the walk, fault records, ATS and
invalidation, and the DMA of tile N through them.
-/
namespace Sys2Proof.Machine

/-- Kinds of an inbound request (R211, R214). -/
inductive IoKind where | read | write | exec | ats
  deriving DecidableEq, Repr

def IoKind.code : IoKind → Nat
  | .read => 0 | .write => 1 | .exec => 2 | .ats => 3

/-- A request as the unit sees it: from a PCIe requester ID, or (none) from tile N with its domain. -/
structure IoReq where
  rid : Option Nat
  /-- the domain of a request from tile N -/
  dom : Nat
  psid : Option Nat
  priv : Bool
  addr : Nat
  kind : IoKind
  /-- bytes, for the doorbell exception of R211 -/
  len : Nat
  /-- the address is already translated (ATS) -/
  translated : Bool
  deriving DecidableEq, Repr

/-- How a translation ends. `ok` carries the leaf's permissions, `refused` whether a record is to be written, the domain and
the cause. -/
inductive IoTr where
  | ok (p : Part) (pa domain size : Nat) (perm : BitVec 8)
  | refused (p : Part) (record : Bool) (domain cause : Nat)
  | wait (p : Part)

/-- A table read. -/
inductive IoEn where
  | got (p : Part) (v : Nat)
  /-- poisoned, or unassigned: the cause -/
  | bad (p : Part) (cause : Nat)
  | wait (p : Part)

/-- The tile of unit `u`, and the agent of its table reads and records. -/
def iotTile (u : Nat) : Nat := if u = 0 then tileP0 else tileP1
/-- The agent of the unit's table reads and records. DESIGN CHOICE (notes/assumptions/85.md): R277 gives the unit no initiator
of its own; it sends as lane group 0 of its tile. -/
def Part.iotAgent (p : Part) (u : Nat) : Agent := ⟨p.sktId, iotTile u, 0⟩

/-- A coherent read of an 8-byte table entry (R204, R213). -/
def Part.iotRead (p : Part) (u pa : Nat) : IoEn :=
  if regionOf pa ≠ .mem then .bad (p.logUnmapped (iotTile u) 0 3 pa) 5
  else
    match p.ioRead (p.iotAgent u) 255 (pa / 64) with
    | .wait q => .wait q
    | .unassigned q => .bad (q.logUnmapped (iotTile u) 0 3 pa) 5
    | .got q l st =>
      if st = 3 then .bad (q.logUnmapped (iotTile u) 0 3 pa) 5
      else if l.poisoned (pa % 64) 8 then
        .bad (q.rasCount (iotTile u) 8 2 2 0xFF pa .unstated u 0) 11
      else .got q (l.bytes (pa % 64) 8)

/-- Bits `hi` to `lo` of a number. -/
def bitsOf (x hi lo : Nat) : Nat := x / 2 ^ lo % 2 ^ (hi - lo + 1)

/-- The context cache's entry for a key, unless a fresh read is wanted (R213). -/
def IotSt.ctxFind (s : IotSt) (k : CtxKey) (fresh : Bool) : Option CtxEnt :=
  if fresh then none else s.ctx.find? (fun e => decide (e.key = k))

/-- The context cache takes an entry: 512 in all (R213). DESIGN CHOICE (notes/assumptions/85.md): a full cache gives up its
oldest entry. -/
def IotSt.ctxPut (s : IotSt) (e : CtxEnt) : IotSt :=
  { s with ctx := (e :: s.ctx.filter (fun x => decide (x.key ≠ e.key))).take 512 }

/-- The context cache gives up a key's entry: a fresh read replaces it (R211). -/
def IotSt.ctxDrop (s : IotSt) (k : CtxKey) : IotSt := { s with ctx := s.ctx.filter (fun x => decide (x.key ≠ k)) }

/-- The set of the IOTLB, one of 256 of 8 ways, that an entry lies in (R213). -/
def IoEnt.set (e : IoEnt) : Nat :=
  Config.iotlbHash e.domain (match e.psid with | some n => n + 1 | none => 0) (e.va / 4096) e.size % 256

/-- Keep at most `n` of the entries of a set, the newest. -/
def keepSet (set : Nat) : Nat → List IoEnt → List IoEnt
  | _, [] => []
  | n, e :: r =>
    if e.set ≠ set then e :: keepSet set n r
    else match n with
      | 0 => keepSet set 0 r
      | k + 1 => e :: keepSet set k r

/-- The IOTLB takes an entry (R213). DESIGN CHOICE (notes/assumptions/85.md): a full set gives up its oldest entry. -/
def IotSt.tlbPut (s : IotSt) (e : IoEnt) : IotSt :=
  { s with tlb := keepSet e.set 8 (e :: s.tlb.filter (fun x =>
      !(decide (x.domain = e.domain) && decide (x.psid = e.psid) && decide (x.va = e.va)))) }

/-- The device entry of a requester (R210): cached, or read afresh. -/
def Part.devEntry (p : Part) (u rid : Nat) (fresh : Bool) : IoEn :=
  match (p.iotOf u).ctxFind (.dev rid) fresh with
  | some e => .got p e.d0.toNat
  | none => (p.modIot u (fun s => s.ctxDrop (.dev rid))).iotRead u (p.addrOf F.IOT_DTB_LO_PA F.IOT_DTB_HI_PA u + 8 * rid)

/-- A device entry is unusable (R210): V = 0 or a reserved bit set. -/
def devBad (d : Nat) : Bool := !d.testBit 0 || decide (bitsOf d 63 28 ≠ 0) || decide (bitsOf d 15 5 ≠ 0)
def devMode (d : Nat) : Nat := bitsOf d 2 1
def domBad (d : Nat) : Bool :=
  !d.testBit 0 || decide (bitsOf d 63 52 ≠ 0) || decide (bitsOf d 11 6 ≠ 0) || decide (bitsOf d 5 1 > 20)

/-- The walk of an I/O page table (R190, R192, R211): the leaf entry and its page size, or a cause. -/
inductive IoLeaf where
  | leaf (p : Part) (e size : Nat)
  | bad (p : Part) (cause : Nat)
  | wait (p : Part)

def Part.iotWalk (p : Part) (u va table lvl : Nat) : Nat → IoLeaf
  | 0 => .bad p 5
  | fuel + 1 =>
    match p.iotRead u (table + 8 * walkIndex va lvl) with
    | .wait q => .wait q
    | .bad q c => .bad q c
    | .got q e =>
      if entInvalid e lvl false then .bad q 5
      else if entKind e = 1 then .leaf q e (leafSize lvl)
      else q.iotWalk u va (entPa e) (if entKind e = 2 then 5 else lvl - 1) fuel

/-- The cause that a leaf's permissions give a request, if any (R211). -/
def ioLeafCause (perm : BitVec 8) (k : IoKind) (priv : Bool) : Option Nat :=
  let o := if priv then 3 else 0
  let r := perm.getLsbD o
  let w := perm.getLsbD (o + 1)
  let x := perm.getLsbD (o + 2)
  let permBad : Option Nat := match k with
    | .read => if r then none else some 6
    | .write => if w then none else some 7
    | .exec => if ¬ x then some 8 else if ¬ r then some 6 else none
    | .ats => none
  match permBad with
  | some c => some c
  | none => if ¬ perm.getLsbD 6 then some 9
            else if k = .write ∧ ¬ perm.getLsbD 7 then some 10 else none

/-- A doorbell address of R156: the thread it rings. -/
def doorbellAt (skt pa : Nat) : Option Nat :=
  let off : Option Nat := match regionOf pa with
    | .ctl s o => if s = skt then some o else none
    | .loc o => some o
    | _ => none
  match off with
  | none => none
  | some o =>
    let tile := o / 2 ^ 24
    let page := o / 2 ^ 12 % 2 ^ 12
    let w := o % 0x400
    match coreOrd tile with
    | none => none
    | some k =>
      if (page = 0x010 ∨ page = 0x018) ∧ (w = 0x300 ∨ w = 0x304) then
        some (4 * k + (if page = 0x018 then 2 else 0) + (w - 0x300) / 4)
      else none

/-- A doorbell address of any socket: the control windows' doorbell registers (R156, R211). -/
def isDoorbell (pa : Nat) : Bool :=
  match regionOf pa with
  | .ctl s _ => (doorbellAt s pa).isSome
  | .loc _ => (doorbellAt 0 pa).isSome
  | _ => false

/-- The check of a translated address (R211): control windows and reserved regions are refused, but for a
naturally aligned 4-byte write to a doorbell. -/
def ioRegionOk (pa : Nat) (k : IoKind) (len : Nat) : Bool :=
  match regionOf pa with
  | .mem => true
  | .pcieWin => true
  | .reserved => false
  | _ => decide (k = .write) && decide (len = 4) && decide (pa % 4 = 0) && isDoorbell pa

/-- The end of a translation: the region check. -/
def ioFinish (p : Part) (r : IoReq) (pa dom size : Nat) (perm : BitVec 8 := BitVec.allOnes 8) : IoTr :=
  if ioRegionOk pa r.kind r.len then .ok p pa dom size perm else .refused p true dom 12

/-- An event of the unit (R555). -/
def Part.iotEvent (p : Part) (u evt : Nat) : Part := p.perfEvent (iotTile u) 16 4 evt 1 none none

/-- Translate within a domain once its root is known; `fresh` passes the IOTLB by. DESIGN CHOICE (notes/assumptions/85.md): an
address whose bits [63:57] differ from bit 56 is refused with CAUSE 5: R190 gives its format to a 57-bit address, and R211
names no check of the bits above. -/
def Part.ioRoot (p : Part) (u : Nat) (r : IoReq) (dom root : Nat) (fresh : Bool) : IoTr :=
  if bitsOf root 63 60 ≠ 5 ∨ (r.priv ∧ ¬ root.testBit 1) then .refused p true dom 4
  else if bitsOf r.addr 63 57 ≠ (if r.addr.testBit 56 then 127 else 0) then .refused p true dom 5
  else
    let mine (e : IoEnt) : Bool := decide (e.domain = dom) && decide (e.psid = r.psid)
      && decide (e.va ≤ r.addr) && decide (r.addr < e.va + e.size)
    match (if fresh then none else (p.iotOf u).tlb.find? (fun e => mine e && (ioLeafCause e.perm r.kind r.priv).isNone)) with
    | some e => ioFinish p r (e.pa + (r.addr - e.va)) dom e.size e.perm
    | none =>
      let p := p.modIot u (fun s => { s with tlb := s.tlb.filter (fun e => !mine e) })
      match (p.iotEvent u 2).iotWalk u r.addr (bitsOf root 51 12 * 2 ^ 12) 4 8 with
      | .wait q => .wait q
      | .bad q c => .refused q true dom c
      | .leaf q e size =>
        match ioLeafCause (entPerm e) r.kind r.priv with
        | some c => .refused q true dom c
        | none =>
          let va := r.addr / size * size
          let n : IoEnt := { domain := dom, psid := r.psid, va := va, size := size, pa := entPa e, perm := entPerm e }
          ioFinish (q.modIot u (fun s => s.tlbPut n)) r (entPa e + (r.addr - va)) dom size (entPerm e)

/-- What the unit has found of a request's context so far. -/
inductive IoCtx where
  | found (p : Part) (d0 d1 : Nat)
  | over (t : IoTr)

/-- A domain entry (R210, R213), cached or read afresh: an invalid one refuses the request and is not cached. -/
def Part.domEntry (p : Part) (u dom : Nat) (fresh : Bool) : IoCtx :=
  match (p.iotOf u).ctxFind (.dom dom) fresh with
  | some e => .found p e.d0.toNat e.d1.toNat
  | none =>
    let p := p.modIot u (fun s => s.ctxDrop (.dom dom))
    let base := p.addrOf F.IOT_DMB_LO_PA F.IOT_DMB_HI_PA u + 16 * dom
    match p.iotRead u base with
    | .wait q => .over (.wait q)
    | .bad q c => .over (.refused q true dom c)
    | .got q a =>
      if domBad a then .over (.refused q true dom 3)
      else
        match q.iotRead u (base + 8) with
        | .wait s => .over (.wait s)
        | .bad s c => .over (.refused s true dom c)
        | .got s b => .found (s.modIot u (fun t => t.ctxPut ⟨.dom dom, dw a, dw b⟩)) a b

/-- The domain's root for a request (R210): ROOT, or the PSID table's entry. -/
def Part.ioDomain (p : Part) (u : Nat) (r : IoReq) (dom : Nat) (fresh : Bool) : IoTr :=
  match p.domEntry u dom fresh with
  | .over t => t
  | .found p a b =>
    match r.psid with
    | none => p.ioRoot u r dom b fresh
    | some n =>
      if n ≥ 2 ^ bitsOf a 5 1 then .refused p true dom 4
      else
        match (p.iotOf u).ctxFind (.psid dom n) fresh with
        | some e => p.ioRoot u r dom e.d0.toNat fresh
        | none =>
          match (p.modIot u (fun t => t.ctxDrop (.psid dom n))).iotRead u (bitsOf a 51 12 * 2 ^ 12 + 8 * n) with
          | .wait q => .wait q
          | .bad q c => .refused q true dom c
          | .got q e =>
            let q := if bitsOf e 63 60 = 5 then q.modIot u (fun t => t.ctxPut ⟨.psid dom n, dw e, 0⟩) else q
            q.ioRoot u r dom e fresh

/-- A refusal for which R214 names no cause (a requester without ATS, or IOT_CTL.ATSEN = 0): the CAUSE of its
record is an open value (notes/assumptions/2.md). -/
def Part.ioOpen (p : Part) (dom : Nat) : IoTr := .refused p.used true dom (p.freshNat % 16)

/-- One pass over a request's context and walk: from the unit's caches, or with fresh reads alone. -/
def Part.ioPass (p : Part) (u : Nat) (r : IoReq) (fresh : Bool) : IoTr :=
  match r.rid with
  | none => p.ioDomain u r r.dom fresh
  | some rid =>
    match p.devEntry u rid fresh with
    | .wait q => .wait q
    | .bad q c => .refused q true 0 c
    | .got q d =>
      if devBad d then .refused q true 0 1
      else if devMode d = 0 ∨ devMode d = 3 then .refused q true 0 2
      else
        let q := q.modIot u (fun s => s.ctxPut ⟨.dev rid, dw d, 0⟩)
        let dom := bitsOf d 27 16
        if r.psid.isSome ∧ ¬ d.testBit 3 then .refused q true dom 4
        else if r.translated then
          if (q.iotOf u).revoked.contains rid then .refused q true dom 13
          else if ¬ d.testBit 4 then q.ioOpen dom
          else ioFinish q r r.addr dom 0
        else if r.kind = .ats ∧ (¬ d.testBit 4 ∨ ¬ q.rgOn F.IOT_CTL_ATSEN u) then q.ioOpen dom
        else if devMode d = 2 then ioFinish q r r.addr dom 0
        else q.ioDomain u r dom fresh

/-- Translate an inbound request in unit `u` (R210 to R213, R216). A fault comes from a fresh read alone (R211): what the
caches would refuse is read again. -/
def Part.ioTranslate (p : Part) (u : Nat) (r : IoReq) : IoTr :=
  if ¬ p.rgOn F.IOT_CTL_EN u then
    .refused ((p.setRg F.IOT_STAT_OFFSEEN 1 u).rasLog (iotTile u) 0xFF 13 0 0xFF r.addr (.named [13])) false 0 0
  else
    let p := p.iotEvent u 1
    match p.ioPass u r false with
    | .refused _ _ _ _ => p.ioPass u r true
    | t => t

/-! ### Fault records (R214) -/

/-- The records that the queue holds. -/
def Part.fqSize (p : Part) (u : Nat) : Nat := 128 * 2 ^ min 9 (p.rg F.IOT_FQB_LO_SIZE u)

/-- The 32 bytes of a record, as a number. -/
def faultRecord (r : IoReq) (dom cause time seq : Nat) : Nat :=
  r.addr % 2 ^ 64
    + (r.psid.getD 0 * 2 ^ 12 + (if cause = 1 ∨ cause = 2 then 0 else dom)) * 2 ^ 64
    + (r.rid.getD 0 * 2 ^ 16 + (if r.psid.isSome then 2 ^ 15 else 0) + (if r.priv then 2 ^ 14 else 0)
        + r.kind.code * 2 ^ 12 + (if r.rid.isNone then 2 ^ 11 else 0) + cause) * 2 ^ 96
    + time % 2 ^ 64 * 2 ^ 128 + seq % 2 ^ 32 * 2 ^ 192

/-- SEQ of a refused request: it increments for every one (R214). -/
def Part.ioSeq (p : Part) (u : Nat) : Part := p.modIot u (fun s => { s with seq := s.seq + 1 })

/-- Write the record of a refused request and signal it, the IPI going once the record has been performed; none while its line
must wait (R214). -/
def Part.ioFault (p : Part) (u : Nat) (r : IoReq) (dom cause : Nat) : Option Part :=
  let p := (p.iotEvent u 3).ioSeq u
  let seq := (p.iotOf u).seq
  let n := p.fqSize u
  let tail := p.rg F.IOT_FQTAIL_IDX u
  let head := p.rg F.IOT_FQHEAD_IDX u
  if ¬ p.rgOn F.IOT_CTL_FQEN u ∨ (tail + 1) % n = head then
    some ((p.countSat F.IOT_FQOVF_COUNT u).setRg F.IOT_STAT_FQFULL 1 u)
  else
    match p.ioPut (p.iotAgent u) 255 (p.addrOf F.IOT_FQB_LO_PA F.IOT_FQB_HI_PA u + 32 * tail) 32
        (faultRecord r dom cause p.time seq) false (lineFuel 32) with
    | none => none
    | some q =>
      let q := q.setRg F.IOT_FQTAIL_IDX ((tail + 1) % n) u
      some (if tail = head then
          q.signalReg (iotTile u) 0 F.IOT_FQIRQ_EN F.IOT_FQIRQ_SOCKET F.IOT_FQIRQ_CORE F.IOT_FQIRQ_THREAD F.IOT_FQIRQ_VEC u
        else q)

/-- A request is refused: with its record, or waiting for it. The Bool says that it is over. -/
def Part.ioRefuse (p : Part) (u : Nat) (r : IoReq) (record : Bool) (dom cause : Nat) : Part × Bool :=
  if ¬ record then ((p.iotEvent u 3).ioSeq u, true)
  else match p.ioFault u r dom cause with
    | some q => (q, true)
    | none => (p, false)

/-- The unit completes an ATS translation request. -/
def Part.atsComplete (p : Part) (u : Nat) (c : AtsCpl) : Part := p.modIot u (fun s => { s with atsOut := c :: s.atsOut })

/-- A completion that grants neither read nor write: the outcome of a refused request (R212). -/
def AtsCpl.refusal (rid : Nat) : AtsCpl := { rid := rid, pa := 0, size := 0, read := false, write := false }

/-- What a leaf grants an ATS requester: what its accesses could do (R211). -/
def atsGrants (perm : BitVec 8) (priv : Bool) (k : IoKind) : Bool := (ioLeafCause perm k priv).isNone

/-- ATS_TRANSLATION_REQUEST: a device asks unit `u` for a translation (R212, R215). -/
def Part.atsRequest (u rid : Nat) (psid : Option Nat) (priv : Bool) (addr : Nat) (p : Part) : Part :=
  if u ≥ 2 ∨ (u = 1 ∧ ¬ p.rgOn F.PAL_UNITS_P1) then p
  else
    let r : IoReq := { rid := some rid, dom := 0, psid := psid, priv := priv, addr := addr, kind := .ats, len := 0, translated := false }
    match p.ioTranslate u r with
    | .wait q => p.retried q
    | .refused q rec dom cause =>
      match q.ioRefuse u r rec dom cause with
      | (s, true) => s.atsComplete u (.refusal rid)
      | (s, false) => p.retried s
    | .ok q pa dom size perm =>
      let g : AtsGrant := { rid := rid, domain := dom, psid := psid, va := addr / max 1 size * max 1 size, size := size }
      (q.modIot u (fun s => { s with ats := if s.ats.contains g then s.ats else s.ats ++ [g] })).atsComplete u
        { rid := rid, pa := pa, size := size, read := atsGrants perm priv .read, write := atsGrants perm priv .write }

/-! ### Invalidation (R215) -/

/-- Requesters below a port: the bus numbers that it holds. -/
def Part.belowPort (p : Part) (n rid : Nat) : Bool :=
  decide (p.rg F.PCI_PORT_BUS_SEC n ≤ rid / 256) && decide (rid / 256 ≤ p.rg F.PCI_PORT_BUS_SUB n)

/-- Requester `rid` of unit `u` is below a contained port: an invalidation directed at it completes at once (R388 step 5). -/
def Part.ridContained (p : Part) (u rid : Nat) : Bool :=
  (List.range 32).any (fun j => p.rgOn F.PCI_PORT_STAT_CONTAINED (32 * u + j) && p.belowPort (32 * u + j) rid)

/-- An ATS grant lies in the scope of an invalidation. -/
def IoInv.covers (i : IoInv) (g : AtsGrant) : Bool :=
  let addrIn := decide (g.va ≤ i.addr) && decide (i.addr < g.va + g.size)
  match i.scope with
  | 0 => true
  | 1 => decide (g.rid = i.rid)
  | 2 => decide (g.domain = i.domain)
  | 3 => decide (g.domain = i.domain) && decide (g.psid = some i.psid)
  | 4 => decide (g.domain = i.domain) && decide (g.psid = some i.psid) && addrIn
  | _ => decide (g.domain = i.domain) && decide (g.psid = none) && addrIn

/-- Remove every cached entry in a scope. -/
def IotSt.purge (s : IotSt) (i : IoInv) : IotSt :=
  let tlbIn (e : IoEnt) : Bool :=
    let addrIn := decide (e.va ≤ i.addr) && decide (i.addr < e.va + e.size)
    match i.scope with
    | 0 => true
    | 1 => false
    | 2 => decide (e.domain = i.domain)
    | 3 => decide (e.domain = i.domain) && decide (e.psid = some i.psid)
    | 4 => decide (e.domain = i.domain) && decide (e.psid = some i.psid) && addrIn
    | _ => decide (e.domain = i.domain) && decide (e.psid = none) && addrIn
  let ctxIn (e : CtxEnt) : Bool := match i.scope, e.key with
    | 0, _ => true
    | 1, .dev r => decide (r = i.rid)
    | 2, .dom d => decide (d = i.domain)
    | 2, .psid d _ => decide (d = i.domain)
    | 3, .psid d n => decide (d = i.domain) && decide (n = i.psid)
    | _, _ => false
  { s with tlb := s.tlb.filter (fun e => !tlbIn e), ctx := s.ctx.filter (fun e => !ctxIn e) }

/-- A revocation lasts until an invalidation of scope 1 names the requester (R215). -/
def IotSt.pardon (s : IotSt) (i : IoInv) : IotSt :=
  if i.scope = 1 then { s with revoked := s.revoked.filter (· ≠ i.rid) } else s

/-- IOT_INV_CMD.GO (R215), with the command registers as they now read. -/
def Part.iotInvGo (p : Part) (u : Nat) : Part :=
  let sc := p.rg F.IOT_INV_CMD_SCOPE u
  if p.rgOn F.IOT_INV_STAT_BUSY u ∨ sc ≥ 6 then p.setRg F.IOT_INV_STAT_REJ 1 u
  else
    let i : IoInv := { scope := sc, domain := p.rg F.IOT_INV_CMD_DOMAIN u, rid := p.rg F.IOT_INV_CMD_RID u,
                       psid := p.rg F.IOT_INV_PSID_PSID u,
                       addr := p.rg F.IOT_INV_ADDR_LO_ADDR u * 2 ^ 12 + p.rg F.IOT_INV_ADDR_HI_ADDR u * 2 ^ 32,
                       wait := [], time := p.time }
    let w := (((p.iotOf u).ats.filter (fun g => i.covers g && !p.ridContained u g.rid)).map (fun g => g.rid)).eraseDups
    (p.setRg F.IOT_INV_STAT_BUSY 1 u).modIot u (fun s => 
      let t := (s.purge i).pardon i
      let j : IoInv := { i with wait := w }
      { t with inv := some j, ats := t.ats.filter (fun g => !i.covers g) })

/-- A request that unit `u` has translated is unfinished: a write that is not performed, or a read without its data. Unit 0
serves tile N too (R209). -/
def Part.iotUnfinished (p : Part) (u : Nat) : Bool :=
  let mine (a : Agent) : Bool := decide (a.tile = iotTile u) || (decide (u = 0) && decide (a.tile = tileN))
  p.pci.iow.any (fun w => mine w.agent) || p.pci.ior.any (fun r => mine r.agent)

/-- IOT_INV_COMPLETE: no cached entry in the scope remains, the requests translated so far have been performed or have their
data, and every ATS completion is in: BUSY clears and DONE is set (R215). -/
def Part.iotInvComplete (u : Nat) (p : Part) : Part :=
  match (p.iotOf u).inv with
  | none => p
  | some i =>
    if ¬ i.wait.isEmpty ∨ p.iotUnfinished u then p
    else (((p.modIot u (fun s =>
      let t := s.purge i
      { t with inv := none })).setRg F.IOT_INV_STAT_BUSY 0 u).setRg F.IOT_INV_STAT_DONE 1 u)

/-- ATS_INVALIDATION_COMPLETION: a requester has dropped its translations (R215). -/
def Part.atsCompletion (u rid : Nat) (p : Part) : Part :=
  p.modIot u (fun s => { s with inv := s.inv.map (fun i => { i with wait := i.wait.filter (· ≠ rid) }) })

/-- ATS_TIMEOUT: IOT_ATSTMO expires for a requester: its ATS use is revoked (R215). This command moves TIME
to the deadline. -/
def Part.atsTimeout (u rid : Nat) (p : Part) : Part :=
  match (p.iotOf u).inv with
  | none => p
  | some i =>
    if ¬ i.wait.contains rid then p
    else
      let p := { p with time := max p.time (i.time + max 1 (p.rg F.IOT_ATSTMO_MS u) * 1000000) }
      let p := p.modIot u (fun s => { s with revoked := if s.revoked.contains rid then s.revoked else rid :: s.revoked })
      (p.setRg F.IOT_INV_STAT_ATSTMO 1 u).atsCompletion u rid

/-- Everything of a unit on a reset of its tile (R216): registers, caches and an invalidation. DESIGN CHOICE
(notes/assumptions/85.md): the devices below the tile are reset with it, so ATS grants and revocations end and SEQ starts again;
R216 names none of the three. -/
def Part.iotReset (p : Part) (u : Nat) : Part :=
  (p.resetPage (Blk.place .iot u)).modPci (fun s => { s with iot := s.iot.del u })

/-- A write whose address has been translated: to memory, to a PCIe window, or to a doorbell (R384). A doorbell
waits until the agent's earlier writes have been performed (R157); none while something must wait. -/
def Part.ioStore (p : Part) (a : Agent) (port pa n v : Nat) (pois : Bool) : Option Part :=
  let ring (skt off : Nat) : Option Part :=
    if p.pci.iow.any (fun w => w.agent = a) then none
    else if skt = p.sktId then
      some (match doorbellAt p.sktId pa with | some t => p.doorbell t v n a.init | none => p)
    else
      some (p.send { Msg.blank with opc := .dwr, src := a, dst := ⟨skt, off / 2 ^ 24, 0⟩, addr := pa, sz := 2, data := BitVec.ofNat 512 v,
                                    mask := byteMask 0 4 })
  match regionOf pa with
  | .ctl s o => ring s o
  | .loc o => ring p.sktId o
  | _ => p.ioPut a port pa n v pois (lineFuel n)

/-! ### DMA of tile N (R209, R210) -/

/-- How a DMA access of tile N ends. -/
inductive Dma where
  | ok (p : Part) (v : Nat) (pois : Bool)
  /-- refused: read data is poisoned, a write is discarded (R212) -/
  | refused (p : Part)
  | wait (p : Part)

/-- The pages of a DMA of tile N, translated in order: physical address and bytes of each, up to a page that is refused. -/
inductive NetPages where
  | pages (p : Part) (l : List (Nat × Nat)) (refused : Bool)
  | wait (p : Part)

/-- Translate a DMA of tile N page by page: `inst` the Veneer instance, `psid` its queue's PSID if it has one, `n` bytes at `addr`;
`fuel` bounds the pages. -/
def Part.netPages (p : Part) (inst : Nat) (psid : Option Nat) (kind : IoKind) (addr n : Nat) : Nat → NetPages
  | 0 => .pages p [] false
  | fuel + 1 =>
    if n = 0 then .pages p [] false
    else
      let k := min n (4096 - addr % 4096)
      let r : IoReq := { rid := none, dom := inst, psid := psid, priv := false, addr := addr, kind := kind, len := k, translated := false }
      match p.ioTranslate 0 r with
      | .wait q => .wait (p.retried q)
      | .refused q rec dom cause =>
        (match q.ioRefuse 0 r rec dom cause with
         | (s, true) => .pages s [] true
         | (s, false) => .wait (p.retried s))
      | .ok q pa _ _ _ =>
        match q.netPages inst psid kind (addr + k) (n - k) fuel with
        | .pages s l b => .pages s ((pa, k) :: l) b
        | .wait s => .wait (p.retried s)

/-- Read pages one after the other. -/
def Part.pagesRead (p : Part) (a : Agent) : List (Nat × Nat) → IoB
  | [] => .got p 0 false
  | (pa, k) :: l =>
    match p.ioBytes a 255 pa k (lineFuel k) with
    | .wait q => .wait (p.retried q)
    | .got q v b =>
      match q.pagesRead a l with
      | .wait r => .wait (p.retried r)
      | .got r v2 b2 => .got r (v + v2 * 2 ^ (8 * k)) (b || b2)

/-- Write pages one after the other; none while a line of one must wait. -/
def Part.pagesWrite (p : Part) (a : Agent) (v : Nat) (pois : Bool) : List (Nat × Nat) → Option Part
  | [] => some p
  | (pa, k) :: l =>
    match p.ioStore a 255 pa k (v % 2 ^ (8 * k)) pois with
    | none => none
    | some q => q.pagesWrite a (v / 2 ^ (8 * k)) pois l

/-- Read `n` bytes by DMA of tile N in the name of its initiator `init`. -/
def Part.netRead (p : Part) (inst : Nat) (psid : Option Nat) (init addr n : Nat) : Dma :=
  match p.netPages inst psid .read addr n (n / 4096 + 2) with
  | .wait q => .wait q
  | .pages q l refused =>
    match q.pagesRead (p.ioAgent tileN init) l with
    | .wait r => .wait (p.retried r)
    | .got r v b => if refused then .refused r else .ok r v b

/-- Write `n` bytes by DMA of tile N. -/
def Part.netWrite (p : Part) (inst : Nat) (psid : Option Nat) (init addr n v : Nat) (pois : Bool) : Dma :=
  match p.netPages inst psid .write addr n (n / 4096 + 2) with
  | .wait q => .wait q
  | .pages q l refused =>
    match q.pagesWrite (p.ioAgent tileN init) v pois l with
    | none => .wait p
    | some r => if refused then .refused r else .ok r 0 false

end Sys2Proof.Machine
end

