-- ==== Sys2Proof/Machine/Pcie.lean ====
section
/-!
DEFINITION. PCIe and CXL ports (R374 to R400): groups and ports, outbound accesses and their completions,
link states, removal and containment, and the endpoint function.
-/
namespace Sys2Proof.Machine

/-! ### Groups and ports -/

/-- The lanes of port `j` under a SPLIT value (R375): from pair j to the pair before the next set bit. -/
def splitLanes (split j : Nat) : Nat :=
  let next := ((List.range 8).find? (fun i => decide (i > j) && split.testBit i)).getD 8
  2 * (next - j)

/-- A SPLIT value is valid (R375). -/
def splitValid (split : Nat) : Bool :=
  split.testBit 0 && (List.range 8).all (fun j =>
    if split.testBit j then
      let w := splitLanes split j
      (decide (w = 2) || decide (w = 4) || decide (w = 8) || decide (w = 16)) && decide (2 * j % w = 0)
    else true)

/-- A MODE of group `g` is valid with a SPLIT (R376). -/
def Part.modeValid (p : Part) (g mode split : Nat) : Bool :=
  match mode with
  | 0 => true
  | 1 => decide (split = 1)
      && decide (((List.range g).filter (fun i => p.rg F.PCI_GRP_CFG_MODE i = 1)).length < p.rg F.PAL_MEM_CXLPORTS)
  | 2 => decide (g = 0) && p.rgOn F.PAL_UNITS_EP && decide (split = 1)
  | _ => false

/-- Lane group `g`'s tile is present (R6). -/
def Part.grpPresent (p : Part) (g : Nat) : Bool :=
  decide (g < 8) && (if g < 4 then p.rgOn F.PAL_UNITS_P0 else p.rgOn F.PAL_UNITS_P1)

/-- Port `n` exists: its group is out of reset and the effective SPLIT creates it (R376). -/
def Part.portExists (p : Part) (n : Nat) : Bool :=
  decide (n < 64) && p.grpPresent (n / 8) && !p.rgOn F.PCI_GRP_STAT_INRESET (n / 8)
    && splitValid (p.rg F.PCI_GRP_EFF_SPLIT (n / 8)) && (p.rg F.PCI_GRP_EFF_SPLIT (n / 8)).testBit (n % 8)

/-- The state of a port (R398). -/
def Part.portState (p : Part) (n : Nat) : Nat := p.rg F.PCI_PORT_STAT_STATE n
def Part.setPortState (p : Part) (n s : Nat) : Part := p.setRg F.PCI_PORT_STAT_STATE s n

/-- The group is on its way into reset: its ports accept nothing more (R397 step 1). -/
def Part.grpClosing (p : Part) (g : Nat) : Bool := p.pci.closing.any (fun e => decide (e.1 = g))

/-- The link carries traffic, now or after Recovery or L1. -/
def Part.portUp (p : Part) (n : Nat) : Bool :=
  p.portExists n && !p.grpClosing (n / 8) && (decide (p.portState n = 3) || decide (p.portState n = 4) || decide (p.portState n = 5))

/-- The group is the endpoint (R376). -/
def Part.epMode (p : Part) : Bool :=
  decide (p.rg F.PCI_GRP_EFF_MODE 0 = 2) && !p.rgOn F.PCI_GRP_STAT_INRESET 0 && !p.rgOn F.PCI_GRP_STAT_BAD 0

/-- Set bits of PCI_PORT_ERR and signal a change through PCI_PORT_IRQ (R389). -/
def Part.portErr (p : Part) (n : Nat) (l : List Fld) : Part :=
  let new := l.any (fun f => !p.rgOn f n)
  let p := l.foldl (fun (r : Part) (f : Fld) => r.setRg f 1 n) p
  if new then
    p.signalReg (tileOfGroup (n / 8)) (n / 8 % 4) F.PCI_PORT_IRQ_EN F.PCI_PORT_IRQ_SOCKET F.PCI_PORT_IRQ_CORE F.PCI_PORT_IRQ_THREAD
      F.PCI_PORT_IRQ_VEC n
  else p

/-- An event of a lane group (R555). -/
def Part.grpEvent (p : Part) (g evt : Nat) (vmid : Option Nat) : Part :=
  p.perfEvent (tileOfGroup g) (4 * (g % 4)) 4 evt 1 vmid none

/-! ### Answers to device accesses -/

/-- Read data for the sender of a DRD. -/
def Part.devReply (p : Part) (src : Agent) (q : Msg) (v : Nat) (pois : Bool) (status : Nat) : Part :=
  p.send (Msg.withStat { Msg.blank with opc := .drdr, src := src, dst := q.src, txid := q.txid, addr := q.addr, sz := q.sz, aux := q.aux,
                                        data := BitVec.ofNat 512 v, pois := (if pois then 0xF else 0) } status)

/-- The completion of a DWR that was not performed normally. -/
def Part.devCmp (p : Part) (src : Agent) (q : Msg) (status : Nat) : Part :=
  p.send (Msg.withStat { Msg.blank with opc := .cmp, src := src, dst := q.src, txid := q.txid, addr := q.addr, aux := q.aux } status)

/-- All ones of the size of a read. -/
def allOnes (q : Msg) : Nat := 2 ^ (8 * 2 ^ q.sz) - 1

/-- A peer write that no port claims: recorded in the initiator's tile (R19), and at the source port `n` (R383). -/
def Part.peerUnclaimed (p : Part) (n tile init addr : Nat) : Part :=
  (p.logUnmapped tile init 6 addr).portErr n [F.PCI_PORT_ERR_UR]

/-- The source port that a peer message names. -/
def Msg.peerPort (q : Msg) (a : Agent) : Option Nat :=
  if tileKind a.tile = .pcie ∧ 1 ≤ q.aux ∧ q.aux ≤ 64 then some (q.aux - 1) else none

/-- An access that no unit claims (R19): a read is answered poisoned, with the mark of the error response; a
write of this socket's agents is recorded in the initiator's tile, a peer write at its source port too (R383). -/
def Part.devUnassigned (p : Part) (src : Agent) (q : Msg) : Part :=
  if q.opc = .drd then p.devReply src q 0 true 3
  else if q.src.skt = p.sktId then
    match q.peerPort q.src with
    | some n => p.peerUnclaimed n q.src.tile q.src.init q.addr
    | none => p.logUnmapped q.src.tile q.src.init (if q.src.isThread p.sktId then 1 else 6) q.addr
  else p.devCmp src q 3

/-- End an outstanding read of a port: all ones, or poison with a status. -/
def Part.endRead (p : Part) (n : Nat) (o : OutReq) (v : Nat) (pois : Bool) (status : Nat) : Part :=
  if o.cfgWrite then p else p.devReply (p.grpAgent (n / 8)) o.msg v pois status

/-- A write that a removed or contained port discards (R387, R388). -/
def Part.portDrop (p : Part) (n : Nat) : Part := p.count F.PCI_PORT_DROPS_COUNT F.PCI_PORT_STAT_OVF n

/-- Every request of a port ends at once: outstanding and waiting reads with `v`, `pois` and `status`, waiting
writes discarded and counted; reads by its devices are sunk. -/
def Part.portEmpty (p : Part) (n : Nat) (ones pois : Bool) (status : Nat) : Part :=
  let s := p.portOf n
  let p := p.modPort n (fun x => { x with out := [], held := [] })
  let p := s.out.foldl (fun (r : Part) (o : OutReq) => r.endRead n o (if ones then allOnes o.msg else 0) pois status) p
  let p := s.held.foldl (fun (r : Part) (q : Msg) =>
    if q.opc = .drd then r.devReply (r.grpAgent (n / 8)) q (if ones then allOnes q else 0) pois status else r.portDrop n) p
  p.modPci (fun x => { x with ior := x.ior.filter (fun w => w.port ≠ n) })

/-! ### Removal and containment (R386 to R388, R391) -/

/-- ATS invalidations directed at a port's devices complete (R388 step 5). -/
def Part.atsDrop (p : Part) (n : Nat) : Part :=
  p.modIot (if n < 32 then 0 else 1) (fun s =>
    { s with inv := s.inv.map (fun i => { i with wait := i.wait.filter (fun r => !p.belowPort n r) }) })

/-- A port without a link, in state `st`: it has no rate and no width (R400), and has not been ACTIVE since. -/
def Part.portIdle (p : Part) (n st : Nat) : Part :=
  (((p.setPortState n st).setRg F.PCI_PORT_STAT_SPEED 0 n).setRg F.PCI_PORT_STAT_WIDTH 0 n).modPort n (fun s => { s with active := false })

/-- A port enters containment (R388), with the error bits that its trigger sets. -/
def Part.contain (p : Part) (n : Nat) (errs : List Fld) : Part :=
  let p := ((p.portIdle n 6).setRg F.PCI_PORT_STAT_CONTAINED 1 n).portEmpty n false true 1
  let p := (p.atsDrop n).cxlLost (n / 8) 1
  let p := p.rasCount (tileOfGroup (n / 8)) (4 + n / 8 % 4) 13 2 (n / 8 % 4) 0 (.named [17, n]) n 0
  p.portErr n (F.PCI_PORT_ERR_CONTAIN :: errs)

/-- A port declares link down (R386). It was ACTIVE and enabled: a surprise removal. DEDUCED (notes/assumptions/36.md): a port in
RECOVERY or L1 has been ACTIVE and keeps its link. -/
def Part.linkDown (p : Part) (n : Nat) : Part :=
  let errs := [F.PCI_PORT_ERR_LDOWN, F.PCI_PORT_ERR_SURPRISE]
  let p := p.setRg F.PCI_PORT_STAT_PRESENT 0 n
  if p.rgOn F.PCI_PORT_STAT_CMODE n then p.contain n errs
  else
    let p := ((p.portIdle n 1).portEmpty n true false 0).cxlLost (n / 8) 1
    let p := p.rasCount (tileOfGroup (n / 8)) (4 + n / 8 % 4) 13 2 (n / 8 % 4) 0 (.named [17, n]) n 0
    p.portErr n errs

/-! ### Outbound requests (R378 to R381) -/

/-- The offset at which an aperture's ECAM region begins. -/
def ecamBase : Nat := 0x1FFF0000000

/-- The ports of a group that claim an offset of its aperture (R379). -/
def Part.claims (p : Part) (g off : Nat) : List Nat :=
  if off ≥ ecamBase then []
  else ((List.range 8).map (fun j => 8 * g + j)).filter (fun n =>
    p.portExists n && decide (p.rg F.PCI_PORT_WINBASE_MB n ≤ off / 2 ^ 20) && decide (off / 2 ^ 20 ≤ p.rg F.PCI_PORT_WINLIM_MB n))

/-- First selected byte and number of bytes of a DWR. -/
def dwrSpan (q : Msg) : Nat × Nat :=
  let l := (List.range 64).filter (fun i => q.mask.getLsbD i)
  (l.headD 0, l.length)

/-- A dword of a root port's own configuration space (R378): the bus numbers and windows are the port's
registers; what the specification leaves open is Config.rpHeader. -/
def Part.rpDword (p : Part) (n i : Nat) : Nat :=
  match i with
  | 1 => (p.portOf n).hdr.get 0 1
  | 6 => (p.portOf n).hdr.get 0 6 % 256 + p.rg F.PCI_PORT_BUS_SEC n * 2 ^ 8 + p.rg F.PCI_PORT_BUS_SUB n * 2 ^ 16
  | 3 => let v := (p.portOf n).hdr.get (Config.rpHeader i % 2 ^ 32) i; v - v / 2 ^ 16 % 2 ^ 7 * 2 ^ 16 + 2 ^ 16 -- a type-1 header
  | 8 => 0
  | 9 => 1 + p.rg F.PCI_PORT_WINBASE_MB n % 4096 * 2 ^ 4 + 2 ^ 16 + p.rg F.PCI_PORT_WINLIM_MB n % 4096 * 2 ^ 20
  | 10 => p.rg F.PCI_PORT_WINBASE_MB n / 4096
  | 11 => p.rg F.PCI_PORT_WINLIM_MB n / 4096
  | _ =>
    let v := (p.portOf n).hdr.get (Config.rpHeader i % 2 ^ 32) i
    -- DPC Trigger Status (R388)
    if i = Config.dpcStatusOff / 4 then setBit v (8 * (Config.dpcStatusOff % 4)) (p.rgOn F.PCI_PORT_STAT_CONTAINED n) else v

/-- Release a contained port: it trains from DETECT (R388). -/
def Part.portRelease (p : Part) (n : Nat) : Part :=
  if ¬ p.rgOn F.PCI_PORT_STAT_CONTAINED n then p
  else (p.setPortState n 1).setRg F.PCI_PORT_STAT_CONTAINED 0 n

/-- Write bytes of a dword of a root port's own configuration space. -/
def Part.rpWrite (p : Part) (n reg len v : Nat) : Part :=
  let i := reg / 4
  let sh := 8 * (reg % 4)
  let m := (2 ^ (8 * len) - 1) * 2 ^ sh
  let old := p.rpDword n i
  let new := (old - (old &&& m)) + (v * 2 ^ sh &&& m)
  match i with
  | 0 => p
  | 1 => p.modPort n (fun s => { s with hdr := s.hdr.put 1 (new % 2 ^ 16) })
  | 2 => p
  | 6 => ((p.setRg F.PCI_PORT_BUS_SEC (new / 2 ^ 8) n).setRg F.PCI_PORT_BUS_SUB (new / 2 ^ 16) n).modPort n
      (fun s => { s with hdr := s.hdr.put 6 (new % 256) })
  | 8 => p
  | 9 => (p.setRg F.PCI_PORT_WINBASE_MB (p.rg F.PCI_PORT_WINBASE_MB n / 4096 * 4096 + new / 2 ^ 4 % 4096) n).setRg
      F.PCI_PORT_WINLIM_MB (p.rg F.PCI_PORT_WINLIM_MB n / 4096 * 4096 + new / 2 ^ 20 % 4096) n
  | 10 => p.setRg F.PCI_PORT_WINBASE_MB (p.rg F.PCI_PORT_WINBASE_MB n % 4096 + new % 512 * 4096) n
  | 11 => p.setRg F.PCI_PORT_WINLIM_MB (p.rg F.PCI_PORT_WINLIM_MB n % 4096 + new % 512 * 4096) n
  | _ =>
    -- DPC Trigger Status is cleared by writing one to it
    if i = Config.dpcStatusOff / 4 then (if (v * 2 ^ sh).testBit (8 * (Config.dpcStatusOff % 4)) then p.portRelease n else p)
    else p.modPort n (fun s => { s with hdr := s.hdr.put i new })

/-- Bus Master Enable of a root port, or of the endpoint function (R385, R395). -/
def Part.rootBme (p : Part) (n : Nat) : Bool := (p.rpDword n 1).testBit 2
def Part.epBme (p : Part) : Bool := (p.pci.ep.hdr.get 0 1).testBit 2

/-- CRS software visibility is enabled in a root port (R381). -/
def Part.crsVisible (p : Part) (n : Nat) : Bool :=
  (p.rpDword n (Config.rootControlOff / 4)).testBit (8 * (Config.rootControlOff % 4) + 4)

/-- The lowest free non-posted tag of a port. -/
def Part.freeTag (p : Part) (n : Nat) : Option Nat :=
  (List.range 256).find? (fun t => !(p.portOf n).out.any (fun o => o.tag = t))

/-- What a request becomes at port `n` (R380), with the tag `t` of a non-posted one. DEDUCED (notes/assumptions/36.md): a
root port's bus addresses are offsets within the aperture, as its windows are (R378, R379); the endpoint's are host addresses
(R394). -/
def Part.tlpOf (p : Part) (n : Nat) (q : Msg) (cfg : Bool) (t : Nat) : OutTlp :=
  let off := q.addr % 0x20000000000
  let one := decide ((off - ecamBase) / 2 ^ 20 ≠ p.rg F.PCI_PORT_BUS_SEC n)
  let rd := decide (q.opc = .drd)
  { port := n
    kind := (match cfg, rd with
      | true, true => .cfgRead one | true, false => .cfgWrite one
      | false, true => .memRead | false, false => .memWrite)
    tag := (if rd ∨ cfg then some t else none)
    addr := (if cfg then off - ecamBase else if n = 0 ∧ p.epMode then p.rg F.EP_OUTBASE_BASE * 2 ^ 41 + off else off)
    len := (if rd then 2 ^ q.sz else (dwrSpan q).2)
    data := (if rd then 0 else q.data)
    mask := (if rd then 0 else q.mask)
    ep := !rd && decide (q.pois ≠ 0)
    ecrc := p.rgOn F.PCI_PORT_CTL_ECRC n }

/-- A port sends a request. -/
def Part.tlpOut (p : Part) (n : Nat) (q : Msg) (cfg : Bool) (t : Nat) : Part :=
  (p.modPci (fun s => { s with tlp := p.tlpOf n q cfg t :: s.tlp })).bwCount 2 1 n 0 (if q.opc = .dwr then (p.tlpOf n q cfg t).len else 0)

/-- Send one request to an ACTIVE port (R380): a read takes a tag, a posted write leaves at once, a
configuration write holds back what follows it. Without a free tag, or behind a configuration write, it waits. -/
def Part.portIssue (p : Part) (n : Nat) (q : Msg) (cfg : Bool) : Part :=
  let s := p.portOf n
  let nonPosted := decide (q.opc = .drd) || cfg
  if s.out.any (fun o => o.cfgWrite) ∨ ¬ s.held.isEmpty ∨ (nonPosted ∧ (p.freeTag n).isNone) then
    p.modPort n (fun x => { x with held := x.held ++ [{ q with hint := cfg }] })
  else
    let p := (p.grpEvent (n / 8) 2 (some q.vmid)).tlpOut n q cfg ((p.freeTag n).getD 0)
    if nonPosted then
      let o : OutReq := { tag := (p.freeTag n).getD 0, msg := q, cfgWrite := decide (q.opc = .dwr), cfg := cfg, time := p.time }
      p.modPort n (fun x => { x with out := x.out ++ [o] })
    else p

/-- Send what may now go of the requests that wait at a port; `fuel` bounds them. -/
def Part.portPump (p : Part) (n : Nat) : Nat → Part
  | 0 => p
  | fuel + 1 =>
    let s := p.portOf n
    match s.held with
    | [] => p
    | q :: rest =>
      let nonPosted := decide (q.opc = .drd) || q.hint
      if s.out.any (fun o => o.cfgWrite) ∨ (nonPosted ∧ (p.freeTag n).isNone) then p
      else
        let p := p.modPort n (fun x => { x with held := [] })
        let p := p.portIssue n { q with hint := false } q.hint
        (p.modPort n (fun x => { x with held := x.held ++ rest })).portPump n fuel

/-- A request reaches a port in the state that it is in (R380, R387, R388, R395); one that is on its way into reset ends it as
under containment (R397). -/
def Part.portRequest (p : Part) (n : Nat) (q : Msg) (cfg : Bool) : Part :=
  let rd := decide (q.opc = .drd)
  let src := p.grpAgent (n / 8)
  let ones (p : Part) : Part := if rd then p.devReply src q (allOnes q) false 0 else p.portDrop n
  if p.rgOn F.PCI_PORT_STAT_CONTAINED n ∨ p.grpClosing (n / 8) then (if rd then p.devReply src q 0 true 1 else p.portDrop n)
  else if ¬ p.portUp n then ones p
  else if p.epMode ∧ n = 0 ∧ (¬ p.epBme ∨ p.rgOn F.EP_STAT_FLR 0) then ones p
  else p.portIssue n q cfg

/-- A configuration access through ECAM (R378, R380). -/
def Part.ecamAccess (p : Part) (g off : Nat) (q : Msg) : Part :=
  let rd := decide (q.opc = .drd)
  let src := p.grpAgent g
  let (lo, cnt) := if rd then (q.addr % 64, 2 ^ q.sz) else dwrSpan q
  let off := if rd then off else off / 64 * 64 + lo
  let e := off - ecamBase
  let bus := e / 2 ^ 20
  let dev := e / 2 ^ 15 % 32
  let reg := e % 4096
  let sizeOk := decide (cnt = 1) || decide (cnt = 2) || decide (cnt = 4)
  if bus = 0 then
    let n := 8 * g + dev
    if dev > 7 then p.devUnassigned src q
    else if ¬ p.portExists n ∨ e / 2 ^ 12 % 8 ≠ 0 then (if rd then p.devReply src q (allOnes q) false 0 else p)
    else if ¬ sizeOk then (if rd then (p.portErr n [F.PCI_PORT_ERR_MALF]).devReply src q (allOnes q) false 0 else p.portErr n [F.PCI_PORT_ERR_MALF])
    else if rd then p.devReply src q (p.rpDword n (reg / 4) / 2 ^ (8 * (reg % 4)) % 2 ^ (8 * cnt)) false 0
    else p.rpWrite n reg cnt (q.data.toNat / 2 ^ (8 * lo) % 2 ^ (8 * cnt))
  else
    match ((List.range 8).map (fun j => 8 * g + j)).find? (fun n =>
        p.portExists n && decide (p.rg F.PCI_PORT_BUS_SEC n ≤ bus) && decide (bus ≤ p.rg F.PCI_PORT_BUS_SUB n)) with
    | none => p.devUnassigned src q
    | some n =>
      if ¬ sizeOk then
        (if rd then (p.portErr n [F.PCI_PORT_ERR_MALF]).devReply src q (allOnes q) false 0 else p.portErr n [F.PCI_PORT_ERR_MALF])
      else p.portRequest n q true

/-- A port of a group, or the endpoint, claims an offset of the aperture; or it lies in the ECAM region on
a bus and device that exist (R379). -/
def Part.pciClaimed (p : Part) (g off : Nat) : Bool :=
  let bus := (off - ecamBase) / 2 ^ 20
  (decide (g = 0) && p.epMode) ||
    (if off < ecamBase then !(p.claims g off).isEmpty
     else if bus = 0 then decide ((off - ecamBase) / 2 ^ 15 % 32 ≤ 7)
     else (List.range 8).any (fun j => p.portExists (8 * g + j) && decide (p.rg F.PCI_PORT_BUS_SEC (8 * g + j) ≤ bus)
            && decide (bus ≤ p.rg F.PCI_PORT_BUS_SUB (8 * g + j))))

/-- A DRD or DWR whose address lies in the PCIe window reaches its P tile (R378 to R380, R394, R397). DESIGN CHOICE
(notes/assumptions/86.md): an aperture of a P tile that the part has not is one that no port claims (R19, R379) and one whose
agent is absent (R276); the stand-in answers, with STATUS 2 and its record.-/
def Part.pcieAccess (p : Part) (q : Msg) : Part :=
  let g := (aperture q.addr).2
  let off := q.addr % 0x20000000000
  let rd := decide (q.opc = .drd)
  let src := p.grpAgent g
  if p.grpPresent g ∧ ¬ p.pciClaimed g off then p.devUnassigned src q
  else if ¬ p.grpPresent g ∨ p.rgOn F.PCI_GRP_STAT_INRESET g then
    let p := p.standInLog (tileOfGroup g) q
    if rd then p.devReply src q 0 true 2
    else
      let p := p.devCmp src q 2
      if p.rg F.PCI_GRP_EFF_MODE g = 1 then p.socketCheck (tileOfGroup g) [4, g, 1] else p
  else if g = 0 ∧ p.epMode then p.portRequest 0 q false
  else if off ≥ ecamBase then p.ecamAccess g off q
  else
    match p.claims g off with
    | [] => p.devUnassigned src q
    | n :: more =>
      let p := if more.isEmpty then p else p.setRg F.PCI_GRP_STAT_OVERLAP 1 g
      p.portRequest n q false

/-- PCIE_COMPLETION: a completion for tag `tag` of port `n` (R381). `pois` is its EP bit. -/
def Part.pcieCompletion (n tag : Nat) (st : CplStatus) (data : Vec) (pois : Bool) (p : Part) : Part :=
  if ¬ p.portUp n then p
  else
    match (p.portOf n).out.find? (fun o => o.tag = tag) with
    | none => p
    | some o =>
      let sz := 8 * 2 ^ o.msg.sz
      let fin (p : Part) : Part := (p.modPort n (fun s => { s with out := s.out.erase o })).portPump n 300
      let vendor := decide (o.cfg) && decide (o.msg.opc = .drd) && decide (o.msg.addr % 4096 < 2)
      match st with
      | .success =>
        let p := fin ((p.bwCount 2 0 n 0 (if o.cfgWrite then 0 else sz / 8)).endRead n o (data.toNat % 2 ^ sz) pois 0)
        if pois then p.portErr n [F.PCI_PORT_ERR_POISON] else p
      | .ur => (fin (p.endRead n o (allOnes o.msg) false 0)).portErr n [F.PCI_PORT_ERR_UR]
      | .ca => (fin (p.endRead n o (allOnes o.msg) false 0)).portErr n [F.PCI_PORT_ERR_CA]
      | .crs =>
        if ¬ vendor ∨ ¬ p.crsVisible n then p.tlpOut n o.msg o.cfg o.tag -- the request is tried again
        else
          -- 0x0001 in the Vendor ID bytes, all ones in the others
          let off := o.msg.addr % 4096
          let ones := allOnes o.msg
          let m := (2 ^ 16 - 1) / 2 ^ (8 * off) &&& ones
          fin (p.endRead n o (ones - m + (1 / 2 ^ (8 * off))) false 0)

/-- COMPLETION_TIMEOUT: no completion for tag `tag` of port `n` within PCI_PORT_CTO; this command moves TIME
there (R381, R388). -/
def Part.completionTimeout (n tag : Nat) (p : Part) : Part :=
  match (p.portOf n).out.find? (fun o => o.tag = tag) with
  | none => p
  | some o =>
    let p := { p with time := max p.time (o.time + max 1 (p.rg F.PCI_PORT_CTO_MS n) * 1000000) }
    let p := (p.modPort n (fun s => { s with out := s.out.erase o })).endRead n o (allOnes o.msg) false 0
    if p.rgOn F.PCI_PORT_STAT_CMODE n then p.contain n [F.PCI_PORT_ERR_CTO]
    else (p.portPump n 300).portErr n [F.PCI_PORT_ERR_CTO]

/-! ### The endpoint function (R392 to R396) -/

/-- The identifiers that the boot image's ENDPOINT_IDS section gives the function (R392, R501), `n` bytes from byte `o`; zero
without one. -/
def Part.epId (p : Part) (o n : Nat) : Nat :=
  ((p.sys.image.bind (fun i => i.sections.find? (fun s => decide (s.kind = 3)))).map (fun s => s.num o n)).getD 0

/-- The address bits of a BAR of 2 to the `k` bytes. -/
def barBits (k v : Nat) : Nat := v / 2 ^ k * 2 ^ k % 2 ^ 32

/-- Dword `i` of the endpoint function's configuration space (R392): a type-0 header with class code 0x0B4000, a 64-bit BAR0 of
64 KB, a 64-bit prefetchable BAR2 of 64 MB and an expansion ROM BAR of 1 MB. What the specification leaves open is
Config.epHeader. -/
def Part.epDword (p : Part) (i : Nat) : Nat :=
  let h := p.pci.ep.hdr
  match i with
  | 0 => p.epId 0 2 + p.epId 2 2 * 2 ^ 16
  | 1 => h.get 0 1
  | 2 => p.epId 8 1 + 0x0B4000 * 2 ^ 8
  | 3 => 0
  | 4 => barBits 16 (h.get 0 4) + 4
  | 5 => h.get 0 5
  | 6 => barBits 26 (h.get 0 6) + 12
  | 7 => h.get 0 7
  | 8 | 9 | 10 => 0
  | 11 => p.epId 4 2 + p.epId 6 2 * 2 ^ 16
  | 12 => barBits 20 (h.get 0 12) + h.get 0 12 % 2
  | _ => h.get (Config.epHeader i % 2 ^ 32) i

/-- A function-level reset begins (R396 steps 1 to 3). -/
def Part.flrStart (p : Part) : Part :=
  let new := !p.rgOn F.EP_EVT_FLR
  let p := ((p.setRg F.EP_STAT_FLR 1).setRg F.EP_EVT_FLR 1)
  let p := if new then p.signalReg tileP0 0 F.PCI_PORT_IRQ_EN F.PCI_PORT_IRQ_SOCKET F.PCI_PORT_IRQ_CORE F.PCI_PORT_IRQ_THREAD
    F.PCI_PORT_IRQ_VEC 0 else p
  (p.portEmpty 0 true false 0).modEp (fun e => { e with pba := [] })

/-- A lane group has a prepared write without its VIS: its reset waits (R295). -/
def Part.grpBusy (p : Part) (g : Nat) : Bool := p.pci.iow.any (fun w => decide (w.port / 8 = g))

/-- FLR_COMPLETE (R396 step 4), once DMA is silent (R295). While PE0_PERST0_N is low the function stays at step 1 (R575). -/
def Part.flrComplete (p : Part) : Part :=
  if ¬ p.rgOn F.EP_STAT_FLR ∨ p.pci.ep.perst ∨ p.grpBusy 0 then p
  else
    let p := p.modEp (fun e => { e with hdr := [], msix := [], pba := [] })
    let p := (p.setRg F.EP_ROMPAGE_TGT 0).setRg F.EP_ROMPAGE_PAGE 0
    ((p.setRg F.EP_HDBTGT_EN 0).setRg F.EP_STAT_READY 0).setRg F.EP_STAT_FLR 0

/-- FLR_INITIATE: the host sets Initiate Function Level Reset (R396). -/
def Part.flrInitiate (p : Part) : Part := if p.epMode ∧ ¬ p.rgOn F.EP_STAT_FLR then p.flrStart else p

/-- HOT_RESET: acts as a function-level reset and retrains the link (R396). -/
def Part.hotReset (p : Part) : Part := if p.epMode then p.flrStart.portIdle 0 1 else p

/-- PERST_CHANGE: PE0_PERST0_N falls or rises in endpoint mode (R575). -/
def Part.perstChange (low : Bool) (p : Part) : Part :=
  if ¬ p.epMode ∨ p.pci.ep.perst = low then p
  else
    let p := p.modEp (fun e => { e with perst := low })
    if low then p.flrStart.portIdle 0 0 else (p.setPortState 0 1).flrComplete

/-- BME_CLEAR and BME_SET: the host writes Bus Master Enable (R395). With it set, pending vectors that are not
masked are sent. -/
def Part.bmeClear (p : Part) : Part :=
  if ¬ p.epMode ∨ ¬ p.epBme then p
  else
    let v := p.pci.ep.hdr.get 0 1
    (p.modEp (fun e => { e with hdr := e.hdr.put 1 (setBit v 2 false) })).setRg F.EP_EVT_BME 1

/-- The MSI-X entry of a vector is masked. -/
def Part.msixMasked (p : Part) (v : Nat) : Bool := (p.pci.ep.msix.get 1 (4 * v + 3)).testBit 0

/-- Pending vectors that may be sent leave the pending bit array. -/
def Part.msixPump (p : Part) : Part :=
  if p.epBme then p.modEp (fun e => { e with pba := e.pba.filter (fun v => p.msixMasked v),
                                             msi := (e.pba.filter (fun v => !p.msixMasked v)).reverse ++ e.msi }) else p

def Part.bmeSet (p : Part) : Part :=
  if ¬ p.epMode ∨ p.epBme ∨ p.rgOn F.EP_STAT_FLR then p
  else
    let v := p.pci.ep.hdr.get 0 1
    (p.modEp (fun e => { e with hdr := e.hdr.put 1 (setBit v 2 true) })).msixPump

/-- A core's write to EP_HINT (R394): the vector is sent, or held while masked or while BME is 0. -/
def Part.epHint (p : Part) (v : Nat) : Part :=
  if ¬ p.epMode then p
  else if p.epBme ∧ ¬ p.msixMasked v ∧ ¬ p.rgOn F.EP_STAT_FLR then p.modEp (fun e => { e with msi := v :: e.msi })
  else p.modEp (fun e => { e with pba := if e.pba.contains v then e.pba else e.pba ++ [v] })

/-- EP_HDB_WRITE: the host's doorbell (R394). -/
def Part.epHdb (v : Nat) (p : Part) : Part :=
  if ¬ p.epMode ∨ p.rgOn F.EP_STAT_FLR then p
  else if p.rgOn F.EP_HDBTGT_EN then
    p.signal tileP0 0 p.sktId (p.rg F.EP_HDBTGT_CORE) (p.rg F.EP_HDBTGT_THREAD) (v % 1024)
  else p.portDrop 0

/-! ### Link states (R398) -/

/-- PORT_RECEIVER_DETECT. -/
def Part.portDetect (n : Nat) (p : Part) : Part :=
  if p.portExists n ∧ p.portState n = 1 then (p.setPortState n 2).setRg F.PCI_PORT_STAT_PRESENT 1 n else p

/-- A rate and a width that a port allows (R377, R398): a CXL port runs at 64 or 32 GT/s. -/
def Part.linkFits (p : Part) (n speed width : Nat) : Bool :=
  decide ((if p.rg F.PCI_GRP_EFF_MODE (n / 8) = 1 then 5 else 1) ≤ speed) && decide (speed ≤ 6 - p.rg F.PCI_PORT_CTL_MAXSPEED n) && decide (width ≤ p.rg F.PCI_PORT_ID_WIDTH n)
    && [1, 2, 4, 8, 16].contains width

/-- PORT_TRAINED: at a rate and width that the port allows; `flit` says that both ends support flit mode. -/
def Part.portTrained (n speed width : Nat) (flit : Bool) (p : Part) : Part :=
  if ¬ p.portExists n ∨ p.portState n ≠ 2 ∨ ¬ p.linkFits n speed width then p
  else
    let p := (p.setPortState n 3).modPort n (fun s => { s with active := true })
    let p := ((p.setRg F.PCI_PORT_STAT_SPEED speed n).setRg F.PCI_PORT_STAT_WIDTH width n).setRg F.PCI_PORT_STAT_FLIT
      (if flit ∨ speed = 6 then 1 else 0) n
    p.portErr n [F.PCI_PORT_ERR_LUP]

/-- PORT_RECOVERY, PORT_L1_ENTRY, PORT_L1_EXIT. -/
def Part.portRecovery (n : Nat) (p : Part) : Part :=
  if p.portExists n ∧ p.portState n = 3 then p.setPortState n 4 else p
def Part.portL1Entry (n : Nat) (p : Part) : Part :=
  if p.portExists n ∧ p.portState n = 3 then p.setPortState n 5 else p
def Part.portL1Exit (n : Nat) (p : Part) : Part :=
  if p.portExists n ∧ p.portState n = 5 then p.setPortState n 4 else p

/-- The endpoint port goes down: EP_EVT.LDOWN, and a function-level reset (R396). -/
def Part.epDown (p : Part) : Part := if p.epMode then (p.setRg F.EP_EVT_LDOWN 1).flrStart else p

/-- PORT_LINK_DOWN (R386). -/
def Part.portLinkDown (n : Nat) (p : Part) : Part :=
  if ¬ p.portUp n then p
  else
    let p := p.linkDown n
    if n = 0 then p.epDown else p

/-- RECOVERY_DONE: success at a rate and width, 64 GT/s in flit mode (R377), or failure, which is a link down. -/
def Part.recoveryDone (n : Nat) (ok : Bool) (speed width : Nat) (p : Part) : Part :=
  if ¬ p.portExists n ∨ p.portState n ≠ 4 then p
  else if ok ∧ ¬ p.linkFits n speed width then p
  else if ok then
    let p := ((p.setPortState n 3).setRg F.PCI_PORT_STAT_SPEED speed n).setRg F.PCI_PORT_STAT_WIDTH width n
    if speed = 6 then p.setRg F.PCI_PORT_STAT_FLIT 1 n else p
  else p.portLinkDown n

/-- CONTAINMENT_TRIGGER: an error that contains a containment port (R388); elsewhere it is recorded. -/
def Part.containmentTrigger (n : Nat) (c : ContainCause) (p : Part) : Part :=
  if ¬ p.portUp n ∨ (c = .ecrc ∧ ¬ p.rgOn F.PCI_PORT_CTL_ECRC n) then p
  else
    let errs := match c with
      | .malformed => [F.PCI_PORT_ERR_MALF] | .ecrc => [F.PCI_PORT_ERR_ECRC] | _ => []
    if p.rgOn F.PCI_PORT_STAT_CMODE n then p.contain n errs else p.portErr n errs

/-- A write of PCI_PORT_CTL.RETRAIN (R398). -/
def Part.portRetrain (p : Part) (n : Nat) : Part := p.portRecovery n

/-- A write of PCI_PORT_CTL.EN (R398), after the field has taken its value. -/
def Part.portEnable (p : Part) (n : Nat) (old new : Bool) : Part :=
  if ¬ p.portExists n ∨ old = new then p
  else if new then
    (if p.portState n = 0 ∧ ¬ p.rgOn F.PCI_GRP_STAT_BAD (n / 8) ∧ ¬ (n = 0 ∧ p.epMode ∧ p.pci.ep.perst) then p.setPortState n 1 else p)
  else
    let up := p.portUp n
    let p := ((p.portIdle n 0).setRg F.PCI_PORT_STAT_CONTAINED 0 n).portEmpty n true false 0
    if up then p.cxlLost (n / 8) 1 else p

/-! ### Group reset (R376, R397) -/

/-- A lane group leaves reset with its SPLIT and MODE; its enabled ports train from DETECT. -/
def Part.grpLeaveReset (p : Part) (g : Nat) : Part :=
  let split := p.rg F.PCI_GRP_CFG_SPLIT g
  let mode := p.rg F.PCI_GRP_CFG_MODE g
  let good := splitValid split && p.modeValid g mode split
  let p := ((p.setRg F.PCI_GRP_EFF_MODE mode g).setRg F.PCI_GRP_EFF_SPLIT split g).setRg F.PCI_GRP_STAT_INRESET 0 g
  let p := p.setRg F.PCI_GRP_STAT_BAD (if good then 0 else 1) g
  ((List.range 8).map (fun j => 8 * g + j)).foldl (fun (r : Part) (n : Nat) =>
    if ¬ r.portExists n then r
    else
      let w := splitLanes split (n % 8)
      let r := (r.setRg F.PCI_PORT_ID_WIDTH w n).setRg F.PCI_PORT_STAT_CMODE (if w ≥ 8 ∧ ¬ r.rgOn F.PAL_UNITS_EP ∧ mode ≠ 2 then 1 else 0) n
      if good ∧ ¬ (mode = 2 ∧ r.pci.ep.perst) then r.setPortState n 1 else r) p

/-- The ports of a lane group. -/
def grpPorts (g : Nat) : List Nat := (List.range 8).map (fun j => 8 * g + j)

/-- A lane group is in reset (R397 step 4): the registers of its ports are reset, and with `page` its own. -/
def Part.grpInReset (p : Part) (g : Nat) (page : Bool) : Part :=
  let p := (grpPorts g).foldl (fun (r : Part) (n : Nat) =>
    (r.resetPage (Blk.place .pcip n)).modPci (fun s => { s with port := s.port.del n })) p
  let p := p.cxlLost g 2
  let p := if g = 0 ∧ p.epMode then p.modEp (fun e => { EpSt.reset with perst := e.perst }) else p
  let p := p.modPci (fun s => { s with closing := s.closing.filter (fun e => e.1 ≠ g) })
  (if page then p.resetPage (Blk.pcig.place g) else p).setRg F.PCI_GRP_STAT_INRESET 1 g

/-- A lane group's reset completes once its prepared writes have their VIS (R295, R397 step 2); a group whose RST has been
cleared meanwhile leaves reset at once. -/
def Part.grpSettle (p : Part) (e : Nat × Bool) : Part :=
  if ¬ p.pci.closing.contains e ∨ p.grpBusy e.1 then p
  else
    let q := p.grpInReset e.1 e.2
    if q.rgOn F.PCI_GRP_CTL_RST e.1 then q else q.grpLeaveReset e.1

/-- A lane group is to be reset (R397 steps 1 to 3): its ports accept nothing more, and their requests end as under
containment. -/
def Part.grpEnterReset (p : Part) (g : Nat) (page : Bool := false) : Part :=
  if p.rgOn F.PCI_GRP_STAT_INRESET g then (if page then p.resetPage (Blk.pcig.place g) else p)
  else
    let p := (grpPorts g).foldl (fun (r : Part) (n : Nat) => r.portEmpty n false true 1) p
    (p.modPci (fun s => { s with closing := (g, page) :: s.closing.filter (fun e => e.1 ≠ g) })).grpSettle (g, page)

/-! ### Contacts (R574, R575) -/

/-- PEg_CLKOUT of a lane group runs: its island is on, and the group does not take its clock from a host (R574). -/
def Part.clkoutRuns (p : Part) (g : Nat) : Bool :=
  p.grpPresent g && (p.rg F.PWR_BSTAT_ON).testBit (16 + g) && !(decide (g = 0) && p.epMode)

/-- PEg_PERSTj_N is high (R575), 100 µs after PEg_CLKOUT started at the earliest; in endpoint mode the host drives that of
port 0. -/
def Part.perstHigh (p : Part) (g j : Nat) : Bool :=
  if g = 0 ∧ p.epMode then decide (j = 0) && !p.pci.ep.perst
  else p.clkoutRuns g && p.portExists (8 * g + j) && p.rgOn F.PCI_PORT_CTL_EN (8 * g + j)
    && decide (p.pci.clkSince.get 0 g + 100000 ≤ p.time)

/-- A write of PCI_GRP_CTL.RST (R397). A group that is still on its way into reset leaves it when that is complete. -/
def Part.grpRst (p : Part) (g : Nat) (old new : Bool) : Part :=
  if old = new then p
  else if new then p.grpEnterReset g
  else if p.grpClosing g then p
  else p.grpLeaveReset g

end Sys2Proof.Machine
end

