-- ==== Sys2Proof/Machine/VenUse.lean ====
section
/-!
DEFINITION. What a Veneer instance uses of its pools, its ledgers, its over-quota state and its events
(R460, R463, R473, R477), and the counters of tile N.
-/
namespace Sys2Proof.Machine

/-- Field [hi:lo] of dword `d` of a queue context (R418). -/
def ctxField (ctx d hi lo : Nat) : Nat := ctx / 2 ^ (64 * d + lo) % 2 ^ (hi - lo + 1)

def QueueSt.inst (q : QueueSt) : Nat := ctxField q.ctx 0 61 52
def QueueSt.isTx (q : QueueSt) : Bool := ctxField q.ctx 0 62 62 = 1
def QueueSt.psid (q : QueueSt) : Option Nat :=
  if ctxField q.ctx 0 31 31 = 1 then some (ctxField q.ctx 0 51 32) else none
def QueueSt.dsize (q : QueueSt) : Nat := 2 ^ ctxField q.ctx 0 30 27
def QueueSt.csize (q : QueueSt) : Nat := 2 ^ ctxField q.ctx 0 26 23
def QueueSt.lp (q : QueueSt) : Nat := ctxField q.ctx 0 20 16
def QueueSt.host (q : QueueSt) : Bool := ctxField q.ctx 4 62 62 = 1
def QueueSt.vmid (q : QueueSt) : Nat := ctxField q.ctx 3 63 52

/-- State of an instance (R460). -/
def Part.venState (p : Part) (i : Nat) : Nat := p.rg F.VEN_STAT_STATE i

/-- A field of key slot `s` (R459). -/
def Part.keyF (p : Part) (f : Fld) (s : Nat) : Nat := p.rg f (s / 32) (s % 32)
def Part.setKey (p : Part) (f : Fld) (s v : Nat) : Part := p.setRg f v (s / 32) (s % 32)
def Part.keyValid (p : Part) (s : Nat) : Bool := p.keyF F.KEY_CTL_V s = 1

/-- `x` lies in the range of `cnt` units from `base`. -/
def inRange (base cnt x : Nat) : Bool := decide (base ≤ x) && decide (x < base + cnt)

def Part.qRange (p : Part) (i q : Nat) : Bool := inRange (p.rg F.VEN_QRANGE_QBASE i) (p.rg F.VEN_QRANGE_QCNT i) q
def Part.kRange (p : Part) (i s : Nat) : Bool := inRange (p.rg F.VEN_KRANGE_KBASE i) (p.rg F.VEN_KRANGE_KCNT i) s
def Part.cRange (p : Part) (i c : Nat) : Bool := inRange (p.rg F.VEN_CRANGE_CBASE i) (p.rg F.VEN_CRANGE_CCNT i) c

/-- Queues that count toward QUSE, in rising order. -/
def Part.usedQueues (p : Part) (i : Nat) : List Nat :=
  (p.pkt.q.filter (fun x => decide (x.2.state ≠ .disabled) && decide (x.2.inst = i) && p.qRange i x.1)).map (·.1)
def Part.quse (p : Part) (i : Nat) : Nat := if p.venState i = 0 then 0 else (p.usedQueues i).length

/-- Valid key slots, in rising order. -/
def Part.validSlots (p : Part) : List Nat := (p.key.slot.filter (fun x => p.keyValid x.1)).map (·.1)
def Part.usedSlots (p : Part) (i : Nat) : List Nat := p.validSlots.filter (fun s => p.kRange i s)
def Part.kuse (p : Part) (i : Nat) : Nat := if p.venState i = 0 then 0 else (p.usedSlots i).length

/-- Flow contexts that the instance owns, in rising order. -/
def Part.ownedFlows (p : Part) (i : Nat) : List Nat := (p.pkt.owner.filter (fun x => decide (x.2 = i))).map (·.1)
def Part.fuse (p : Part) (i : Nat) : Nat := (p.ownedFlows i).length

def Part.cuse (p : Part) (i : Nat) : Nat :=
  if p.venState i = 0 then 0 else ((p.ven.bind.map (·.2)).eraseDups.filter (fun c => p.cRange i c)).length

/-- Fetched transmit descriptors of a queue; a frame refused by quota holds none (R471). -/
def QueueSt.txDesc (q : QueueSt) : Nat := (q.txq.map (fun f => if f.status = 3 then 0 else f.nbuf)).foldl (· + ·) 0
def Part.duse (p : Part) (i : Nat) : Nat :=
  (p.pkt.q.map (fun x => if x.2.inst = i then x.2.txDesc else 0)).foldl (· + ·) 0

/-- Quotas in force (R464, R471). -/
def Part.qmax (p : Part) (i : Nat) : Nat := min (p.rg F.VEN_QUOTA_QK_QMAX i) (p.rg F.VEN_QRANGE_QCNT i)
def Part.kmax (p : Part) (i : Nat) : Nat := min (p.rg F.VEN_QUOTA_QK_KMAX i) (p.rg F.VEN_KRANGE_KCNT i)
def Part.fmax (p : Part) (i : Nat) : Nat := p.rg F.VEN_QUOTA_F_FMAX i
def Part.dmax (p : Part) (i : Nat) : Nat := min (p.rg F.VEN_QUOTA_D_DMAX i) 4096

/-- Instances that are not FREE. -/
def Part.instances (p : Part) : List Nat := (p.ven.inst.map (·.1)).filter (fun i => decide (p.venState i ≠ 0))

/-- The ASG term of each pool (R463). -/
def Part.asgOf (p : Part) (f : Nat → Nat) : Nat := (p.instances.map f).foldl (· + ·) 0
def Part.asgQ (p : Part) : Nat := p.asgOf (fun i => p.rg F.VEN_QRANGE_QCNT i)
def Part.asgK (p : Part) : Nat := p.asgOf (fun i => p.rg F.VEN_KRANGE_KCNT i)
def Part.asgC (p : Part) : Nat := p.asgOf (fun i => p.rg F.VEN_CRANGE_CCNT i)
def Part.asgF (p : Part) : Nat := p.asgOf (fun i => p.fmax i)
def Part.asgBw (p : Part) : Nat := p.asgOf (fun i => if p.rgOn F.VEN_BW_EN i then p.rg F.VEN_BW_RATE i else 0)

/-- A vector of a thread that does not exist is discarded and logged (R477). -/
def Part.venThread (p : Part) (skt core thr vec : Nat) : Part :=
  if vec > 1023 then p.rasLog tileN 0xFF 13 0 3 0 (.named [19, vec]) else p.signal tileN 3 skt core thr vec

/-- Signal the tenant target of an instance (R477). -/
def Part.venSignalT (p : Part) (i : Nat) : Part :=
  if ¬ p.rgOn F.VEN_TTGT_EN i then p
  else if p.rgOn F.VEN_TTGT_HOST i then p.epHint (p.rg F.VEN_TTGT_VEC i)
  else p.venThread (p.rg F.VEN_TTGT_SOCKET i) (p.rg F.VEN_TTGT_CORE i) (p.rg F.VEN_TTGT_THREAD i) (p.rg F.VEN_TTGT_VEC i)

def Part.venSignalM (p : Part) (i : Nat) : Part :=
  if ¬ p.rgOn F.VEN_MTGT_EN i then p
  else p.venThread (p.rg F.VEN_MTGT_SOCKET i) (p.rg F.VEN_MTGT_CORE i) (p.rg F.VEN_MTGT_THREAD i) (p.rg F.VEN_MTGT_VEC i)

/-- Set a VEN_TEVT bit; a change from 0 to 1 is signalled. -/
def Part.venEvtT (p : Part) (i : Nat) (f : Fld) : Part := if p.rgOn f i then p else (p.setRg f 1 i).venSignalT i
def Part.venEvtM (p : Part) (i : Nat) (f : Fld) : Part := if p.rgOn f i then p else (p.setRg f 1 i).venSignalM i

/-- Evaluate the over-quota bits of an instance (R473). -/
def Part.venQuota (p : Part) (i : Nat) : Part :=
  let q := decide (p.quse i > p.qmax i)
  let f := decide (p.fuse i > p.fmax i)
  let k := decide (p.kuse i > p.kmax i)
  let d := decide (p.duse i > p.dmax i)
  let rise := (q && !p.rgOn F.VEN_STAT_OVQ i) || (f && !p.rgOn F.VEN_STAT_OVF i) || (k && !p.rgOn F.VEN_STAT_OVK i) ||
    (d && !p.rgOn F.VEN_STAT_OVD i)
  let p := (p.setRg F.VEN_STAT_OVQ q.toNat i).setRg F.VEN_STAT_OVF f.toNat i
  let p := (p.setRg F.VEN_STAT_OVK k.toNat i).setRg F.VEN_STAT_OVD d.toNat i
  if rise then (p.venEvtT i F.VEN_TEVT_OVERQ).venEvtM i F.VEN_MEVT_OVERQ else p

def Part.venQuotas (p : Part) : Part := p.instances.foldl (fun (r : Part) (i : Nat) => r.venQuota i) p

/-- VMID that an event of an instance carries: its OWNER (R555). -/
def Part.ownerOf (p : Part) (i : Nat) : Nat := p.rg F.VEN_OWNER_VMID i

/-- Events of the blocks of tile N (R554, R555). -/
def Part.parseEvent (p : Part) (e : Nat) (inst : Option Nat) : Part := p.perfEvent tileN 0 8 e 1 (inst.map p.ownerOf) none
def Part.macEvent (p : Part) (e : Nat) : Part := p.perfEvent tileN 8 4 e 1 none none
def Part.cryptoEvent (p : Part) (e inst : Nat) : Part := p.perfEvent tileN 12 4 e 1 (some (p.ownerOf inst)) none
def Part.queueEvent (p : Part) (e n inst : Nat) : Part := p.perfEvent tileN 16 4 e n (some (p.ownerOf inst)) none

/-- The packet engine, crypto engine and Veneer are present (R441). -/
def Part.hasPe (p : Part) : Bool := p.rgOn F.PAL_UNITS_PE
/-- The packet engine is out of reset. -/
def Part.netOn (p : Part) : Bool := p.hasPe && !p.rgOn F.NET_STAT_INRESET

end Sys2Proof.Machine
end

