-- ==== Sys2Proof/Machine/Crypto.lean ====
section
/-!
DEFINITION. The crypto engine (R443 to R459): key commands, MACsec and ESP, sequence numbers and replay. An
operation is one step: it starts and ends within the command that passes its frame (notes/assumptions/38.md).
-/
namespace Sys2Proof.Machine

/-- Bytes of a frame as numbers, and back. -/
def toNats (l : List Byte) : List Nat := l.map (·.toNat)
def ofNats (l : List Nat) : List Byte := l.map (BitVec.ofNat 8)
/-- The low `n` bytes of a number, least significant first. -/
def leNats (n v : Nat) : List Nat := (List.range n).map (fun i => v / 2 ^ (8 * i) % 256)

/-- Signal a KEY_EVT event (R458). -/
def Part.keySignal (p : Part) : Part :=
  p.signalReg tileN 2 F.KEY_IRQ_EN F.KEY_IRQ_SOCKET F.KEY_IRQ_CORE F.KEY_IRQ_THREAD F.KEY_IRQ_VEC

/-- A wrapping count of a slot; a wrap sets KEY_EVT.OVF. -/
def Part.keyBump (p : Part) (n : Nat) : Nat × Part :=
  if n + 1 ≥ 2 ^ 32 then (0, (p.setRg F.KEY_EVT_OVF 1).keySignal) else (n + 1, p)

def Part.keyOk (p : Part) (s : Nat) : Part :=
  let (n, q) := p.keyBump (p.slotOf s).ok
  q.modSlot s (fun x => { x with ok := n })
def Part.keyTagFail (p : Part) (s : Nat) : Part :=
  let (n, q) := p.keyBump (p.slotOf s).tagfail
  (q.modSlot s (fun x => { x with tagfail := n })).cryptoEvent 2 (p.keyF F.KEY_CTL_INST s)
def Part.keyReplay (p : Part) (s : Nat) : Part :=
  let (n, q) := p.keyBump (p.slotOf s).replay
  (q.modSlot s (fun x => { x with replay := n })).cryptoEvent 3 (p.keyF F.KEY_CTL_INST s)

def Part.keySeq (p : Part) (s : Nat) : Nat := p.keyF F.KEY_SEQ_LO_SEQ s + p.keyF F.KEY_SEQ_HI_SEQ s * 2 ^ 32
def Part.setKeySeq (p : Part) (s v : Nat) : Part := (p.setKey F.KEY_SEQ_LO_SEQ s v).setKey F.KEY_SEQ_HI_SEQ s (v / 2 ^ 32)
def Part.keyId (p : Part) (s : Nat) : Nat := p.keyF F.KEY_ID_LO_ID s + p.keyF F.KEY_ID_HI_ID s * 2 ^ 32
/-- The key of a slot as bytes: word Kn holds bytes 4n to 4n + 3 (R445). -/
def Part.keyBytes (p : Part) (s : Nat) : List Nat := leNats (if p.keyF F.KEY_CTL_KLEN s = 1 then 32 else 16) (p.slotOf s).key

/-- What becomes of a frame: no operation applies, the frame as processed, or the status of a failed check. -/
inductive CRes where
  | plain
  | ok (f : List Byte)
  | fail (status : Nat)
  deriving DecidableEq, Repr

/-! ### Sequence numbers and replay (R453, R454) -/

/-- A transmit operation takes its number, or `none` when the space is used up. The number after 2^64 − 1 reads
as 0, which no load leaves in a transmit slot. -/
def Part.takeSeq (p : Part) (s : Nat) : Option (Nat × Part) :=
  let esn := p.keyF F.KEY_CTL_ESN s = 1
  let n := p.keySeq s
  if n = 0 ∨ n > (if esn then 2 ^ 64 - 1 else 0xFFFFFFFF) then none
  else
    let q := p.setKeySeq s (n + 1)
    let mark := if esn then 0xC000000000000000 else 0xC0000000
    some (n, if n + 1 = mark then ((q.setRg F.KEY_EVT_SEQHI 1).setRg F.KEY_EVT_SLOT s).keySignal else q)

/-- Bits of an ESP window. -/
def espWindow (size : Nat) : Nat := 64 * max 1 ((size + 63) / 64)

/-- The replay check of a receive slot for number `n`. -/
def Part.replayOk (p : Part) (s n : Nat) : Bool :=
  if p.keyF F.KEY_WIN_WEN s = 0 then true
  else
    let top := p.keySeq s
    let size := p.keyF F.KEY_WIN_SIZE s
    if p.keyF F.KEY_CTL_MODE s = 0 then decide (n + size ≥ top + 1) && decide (n ≥ 1)
    else decide (n > top) || (decide (top - n < espWindow size) && !(p.slotOf s).win.testBit (top - n))

/-- Update of a receive slot after the tag has verified. -/
def Part.seqAccept (p : Part) (s n : Nat) : Part :=
  let top := p.keySeq s
  let w := espWindow (p.keyF F.KEY_WIN_SIZE s)
  if n > top then
    let sh := n - top
    (p.setKeySeq s n).modSlot s (fun x => { x with win := if sh ≥ w then 1 else (x.win * 2 ^ sh + 1) % 2 ^ w })
  else if top - n < w then p.modSlot s (fun x => { x with win := x.win ||| 2 ^ (top - n) })
  else p

/-- The high 32 bits of an extended number, as RFC 4303 Appendix A infers them from the low ones. -/
def esnHigh (top w lo : Nat) : Nat :=
  let tl := top % 2 ^ 32
  let th := top / 2 ^ 32
  let bl := (tl + 2 ^ 32 + 1 - w) % 2 ^ 32
  if tl + 1 ≥ w then (if lo ≥ bl then th else (th + 1) % 2 ^ 32)
  else if lo ≥ bl then (th + 2 ^ 32 - 1) % 2 ^ 32 else th

/-! ### MACsec (R448 to R450) -/

/-- The slot of a received SecTAG (R449). -/
def Part.msSlot (p : Part) (lp an sci : Nat) : Option Nat :=
  ((List.range (2 ^ p.rg F.KEY_MSRX_NSC 0 lp)).map (fun k => p.rg F.KEY_MSRX_BASE 0 lp + 4 * k + an)).find? (fun s =>
    decide (s < 8192) && p.keyValid s && decide (p.keyF F.KEY_CTL_DIR s = 0) && decide (p.keyF F.KEY_CTL_MODE s = 0) &&
      decide (p.keyId s = sci))

/-- Checks and decryption of a frame with a SecTAG by slot `s` (R449, R454, R455). -/
def Part.msOpen (p : Part) (s sci : Nat) (f : List Byte) : Part × CRes :=
  let inst := p.keyF F.KEY_CTL_INST s
  let p := p.cryptoEvent 1 inst
  let tci := fb f 14
  let sl := fb f 15
  let pn := fbe f 16 4
  let enc := p.keyF F.KEY_CTL_ENC s = 1
  let hdr := if tci.testBit 5 then 28 else 20
  let body := f.drop hdr
  let n := if sl = 0 then body.length - 16 else sl
  if tci.testBit 3 ≠ enc ∨ tci.testBit 2 ≠ enc then (p, .fail 19)
  else if tci.testBit 7 ∨ tci.testBit 4 ∨ (tci.testBit 3 ∧ ¬ tci.testBit 2) ∨ body.length < 16 ∨ sl ≥ 48 ∨ (sl = 0 ∧ n < 48) ∨
      n + 16 > body.length ∨ (n + 16 < body.length ∧ f.length > 60) ∨ pn = 0 then (p, .fail 20)
  else if ¬ p.replayOk s pn then (p.keyReplay s, .fail 17)
  else
    let nonce := natBe 8 sci ++ natBe 4 pn
    let data := body.take n
    let tag := toNats ((body.drop n).take 16)
    let out := if enc then gcmOpen (p.keyBytes s) nonce (toNats (f.take hdr)) (toNats data) tag
               else (gcmOpen (p.keyBytes s) nonce (toNats (f.take (hdr + n))) [] tag).map (fun _ => toNats data)
    match out with
    | none => (p.keyTagFail s, .fail 16)
    | some d => ((p.seqAccept s pn).keyOk s, .ok (f.take 12 ++ ofNats d))

/-- Receive MACsec on logical port `lp` (R449, R450). -/
def Part.macsecRx (p : Part) (lp : Nat) (f : List Byte) : Part × CRes :=
  let t := fbe f 12 2
  if ¬ p.rgOn F.KEY_MSRX_EN 0 lp then (p, .plain)
  else if t = 0x88E5 then
    let tci := fb f 14
    let sci := if tci.testBit 5 then fbe f 20 8 else fbe f 6 6 * 65536 + 1
    match p.msSlot lp (tci % 4) sci with
    | none => (p, .fail 19)
    | some s => p.msOpen s sci f
  else if t = 0x888E then (p, .plain)
  else if p.rgOn F.KEY_MSRX_STRICT 0 lp then (p, .fail 21)
  else (p, .plain)

/-- Protect a frame with MACsec (R448). -/
def Part.msSeal (p : Part) (s pn : Nat) (f : List Byte) : List Byte :=
  let enc := p.keyF F.KEY_CTL_ENC s = 1
  let sc := p.keyF F.KEY_CTL_SC s = 1
  let data := f.drop 12
  let tci := (if sc then 32 else 0) + (if enc then 12 else 0) + p.keyF F.KEY_CTL_AN s
  let sl := if data.length < 48 then data.length else 0
  let hdr := f.take 12 ++ beBytes 2 0x88E5 ++ beBytes 1 tci ++ beBytes 1 sl ++ beBytes 4 pn ++
    (if sc then beBytes 8 (p.keyId s) else [])
  let nonce := natBe 8 (p.keyId s) ++ natBe 4 pn
  if enc then
    let r := gcmSeal (p.keyBytes s) nonce (toNats hdr) (toNats data)
    hdr ++ ofNats r.1 ++ ofNats r.2
  else hdr ++ data ++ ofNats (gcmSeal (p.keyBytes s) nonce (toNats (hdr ++ data)) []).2

/-! ### ESP (R451, R452) -/

/-- After an IP header at `o`: the offset behind it and behind any extension headers of types 0, 43 and 60, the
offset of the byte that names what follows, and that value. -/
def ipTail (f : List Byte) (o : Nat) : Nat × Nat × Nat :=
  if fb f o / 16 = 4 then (o + fb f o % 16 * 4, o + 9, fb f (o + 9))
  else
    (List.range 8).foldl (fun (r : Nat × Nat × Nat) (_ : Nat) =>
      if r.2.2 = 0 ∨ r.2.2 = 43 ∨ r.2.2 = 60 then (r.1 + (fb f (r.1 + 1) + 1) * 8, r.1, fb f r.1) else r) (o + 40, o + 6, fb f (o + 6))

/-- Set the length of the IP packet at `o` that ends with the frame, and an IPv4 header checksum. -/
def fixIpLen (f : List Byte) (o : Nat) : List Byte :=
  if fb f o / 16 = 4 then fixIp4 (fset f (o + 2) (beBytes 2 (f.length - o))) o
  else fset f (o + 4) (beBytes 2 (f.length - o - 40))

/-- End of the IP packet at `o`. -/
def ipEnd (f : List Byte) (o : Nat) : Nat :=
  if fb f o / 16 = 4 then o + fbe f (o + 2) 2 else o + 40 + fbe f (o + 4) 2

/-- The additional authenticated data of ESP: SPI and sequence number (RFC 4106). -/
def espAad (spi seq : Nat) (esn : Bool) : List Nat := natBe 4 spi ++ (if esn then natBe 8 seq else natBe 4 seq)

def Part.espNonce (p : Part) (s : Nat) (iv : List Nat) : List Nat := leNats 4 (p.slotOf s).salt ++ iv

/-- Protect a frame whose first IP header is at `o` (R451). -/
def Part.espSeal (p : Part) (s seq o : Nat) (f : List Byte) : List Byte :=
  let t := ipTail f o
  let pay := f.drop t.1
  let pad := (4 - (pay.length + 2) % 4) % 4
  let pt := toNats pay ++ (List.range pad).map (· + 1) ++ [pad, t.2.2]
  let spi := p.keyF F.KEY_ID_LO_ID s
  let iv := natBe 8 seq
  let r := gcmSeal (p.keyBytes s) (p.espNonce s iv) (espAad spi seq (p.keyF F.KEY_CTL_ESN s = 1)) pt
  let g := fset (f.take t.1) t.2.1 (beBytes 1 50)
  fixIpLen (g ++ beBytes 4 spi ++ beBytes 4 seq ++ ofNats iv ++ ofNats r.1 ++ ofNats r.2) o

/-- Checks and decryption of an ESP frame by slot `s` for a queue of instance `inst` (R452, R455). -/
def Part.espRx (p : Part) (s inst o : Nat) (f : List Byte) : Part × CRes :=
  let t := ipTail f o
  let e := ipEnd f o
  let mode := p.keyF F.KEY_CTL_MODE s
  let kinst := p.keyF F.KEY_CTL_INST s
  if o = 0 ∨ t.2.2 ≠ 50 then (p, .fail 21)
  else
    let p := p.cryptoEvent 1 kinst
    if ¬ p.keyValid s then (p.cryptoEvent 4 kinst, .fail 4)
    else if mode = 0 ∨ p.keyF F.KEY_CTL_DIR s = 1 ∨ kinst ≠ inst ∨ fbe f t.1 4 ≠ p.keyF F.KEY_ID_LO_ID s then (p, .fail 19)
    else if e > f.length ∨ e < t.1 + 34 then (p, .fail 20)
    else
      let lo := fbe f (t.1 + 4) 4
      let esn := p.keyF F.KEY_CTL_ESN s = 1
      let w := espWindow (p.keyF F.KEY_WIN_SIZE s)
      let seq := if esn then esnHigh (p.keySeq s) w lo * 2 ^ 32 + lo else lo
      if ¬ p.replayOk s seq then (p.keyReplay s, .fail 17)
      else
        let iv := toNats ((f.drop (t.1 + 8)).take 8)
        let ct := toNats ((f.drop (t.1 + 16)).take (e - t.1 - 32))
        let tag := toNats ((f.drop (e - 16)).take 16)
        match gcmOpen (p.keyBytes s) (p.espNonce s iv) (espAad (fbe f t.1 4) seq esn) ct tag with
        | none => (p.keyTagFail s, .fail 16)
        | some pt =>
          let p := p.seqAccept s seq
          let n := pt.length
          let nh := pt.getD (n - 1) 0
          let pad := pt.getD (n - 2) 0
          let inIp := decide (nh = 4) || decide (nh = 41)
          if pad + 2 > n ∨ (pt.drop (n - 2 - pad)).take pad ≠ (List.range pad).map (· + 1) ∨ inIp ≠ decide (mode = 2) then (p, .fail 20)
          else
            let body := ofNats (pt.take (n - 2 - pad))
            if mode = 2 then (p.keyOk s, .ok (f.take (o - 2) ++ beBytes 2 (if nh = 4 then 0x0800 else 0x86DD) ++ body))
            else (p.keyOk s, .ok (fixIpLen (fset (f.take t.1) t.2.1 (beBytes 1 nh) ++ body) o))

/-- Protect a transmit frame by slot `s` for a queue of instance `inst`; `tail` is bytes 24 to 31 of its
descriptor (R448, R451, R455). -/
def Part.cryptoTx (p : Part) (s inst tail : Nat) (f : List Byte) : Part × CRes :=
  let kinst := p.keyF F.KEY_CTL_INST s
  let mode := p.keyF F.KEY_CTL_MODE s
  let p := p.cryptoEvent 1 kinst
  if ¬ p.keyValid s then (p.cryptoEvent 4 kinst, .fail 4)
  else if p.keyF F.KEY_CTL_DIR s = 0 ∨ kinst ≠ inst then (p, .fail 19)
  else
    let o := (parseFrame f).ip1
    let direct := decide (o = 14 + 4 * (parseFrame f).vlans)
    let nh := (ipTail f o).2.2
    let inIp := decide (nh = 4) || decide (nh = 41)
    if tail ≠ 0 ∨ (mode ≠ 0 ∧ (o = 0 ∨ ¬ direct ∨ inIp ≠ decide (mode = 2))) then (p, .fail 20)
    else match p.takeSeq s with
      | none => (p, .fail 18)
      | some (n, q) => (q.keyOk s, .ok (if mode = 0 then p.msSeal s n f else p.espSeal s n o f))

/-! ### Key commands (R445 to R447) -/

/-- What a load takes: KEY_CTL, KEY_WIN, KEY_ID, KEY_SEQ, salt and key words as one number. -/
structure KeyLoad where
  ctl : Nat
  win : Nat
  id : Nat
  seq : Nat
  salt : Nat
  key : Nat
  deriving DecidableEq, Repr

/-- ERRCODE 1 of R445. -/
def KeyLoad.badFormat (k : KeyLoad) : Bool :=
  let mode := k.ctl / 2 ^ 28 % 4
  decide (mode = 3) || (decide (mode ≠ 0) && !k.ctl.testBit 26) || (decide (mode = 0) && k.ctl.testBit 25) ||
    (decide (mode ≠ 0) && k.win.testBit 31 && (decide (k.win % 65536 = 0) || decide (k.win % 65536 > 1024)))

/-- Erase a slot: V = 0, the next generation, counts cleared (R445). -/
def Part.keyErase (p : Part) (s : Nat) : Part :=
  let g := p.keyF F.KEY_GEN_GEN s + 1
  let fs := [F.KEY_CTL_V, F.KEY_CTL_DIR, F.KEY_CTL_MODE, F.KEY_CTL_KLEN, F.KEY_CTL_ENC, F.KEY_CTL_ESN, F.KEY_CTL_AN, F.KEY_CTL_SC,
             F.KEY_CTL_INST, F.KEY_ID_LO_ID, F.KEY_ID_HI_ID, F.KEY_SEQ_LO_SEQ, F.KEY_SEQ_HI_SEQ, F.KEY_WIN_WEN, F.KEY_WIN_SIZE]
  let q := fs.foldl (fun (r : Part) (f : Fld) => r.setKey f s 0) p
  (q.setKey F.KEY_GEN_GEN s g).modSlot s (fun _ => SlotSt.reset)

/-- Load a slot (R445, R453). -/
def Part.keyLoad (p : Part) (s : Nat) (k : KeyLoad) : Part :=
  let p := p.keyErase s
  let b (hi lo : Nat) : Nat := k.ctl / 2 ^ lo % 2 ^ (hi - lo + 1)
  let seq := if b 30 30 = 1 ∧ k.seq = 0 then 1 else k.seq
  let p := (((p.setKey F.KEY_CTL_V s 1).setKey F.KEY_CTL_DIR s (b 30 30)).setKey F.KEY_CTL_MODE s (b 29 28)).setKey F.KEY_CTL_KLEN s (b 27 27)
  let p := (((p.setKey F.KEY_CTL_ENC s (b 26 26)).setKey F.KEY_CTL_ESN s (b 25 25)).setKey F.KEY_CTL_AN s (b 23 22)).setKey F.KEY_CTL_SC s (b 21 21)
  let p := ((p.setKey F.KEY_CTL_INST s (b 19 10)).setKey F.KEY_ID_LO_ID s k.id).setKey F.KEY_ID_HI_ID s (k.id / 2 ^ 32)
  let p := ((p.setKeySeq s seq).setKey F.KEY_WIN_WEN s (k.win / 2 ^ 31)).setKey F.KEY_WIN_SIZE s k.win
  p.modSlot s (fun x => { x with key := k.key, salt := k.salt })

/-- What is staged in the global page. -/
def Part.keyStaged (p : Part) : KeyLoad :=
  { ctl := p.rg F.KEY_STG_CTL_V, win := p.rg F.KEY_STG_WIN_V,
    id := p.rg F.KEY_STG_ID_LO_ID + p.rg F.KEY_STG_ID_HI_ID * 2 ^ 32,
    seq := p.rg F.KEY_STG_SEQ_LO_SEQ + p.rg F.KEY_STG_SEQ_HI_SEQ * 2 ^ 32, salt := p.rg F.KEY_STG_SALT_SALT,
    key := (List.range 8).foldl (fun a i => a + p.rg F.KEY_STG_K_KEY 0 i * 2 ^ (32 * i)) 0 }

/-- Every load zeroes the staged key words and the salt. -/
def Part.keyUnstage (p : Part) : Part :=
  (List.range 8).foldl (fun (r : Part) (i : Nat) => r.setRg F.KEY_STG_K_KEY 0 0 i) (p.setRg F.KEY_STG_SALT_SALT 0)

/-- ERRCODE of a load through the global page, 0 for none. -/
def Part.keyLoadError (p : Part) (s : Nat) (k : KeyLoad) : Nat :=
  let inst := k.ctl / 2 ^ 10 % 1024
  if k.badFormat then 1 else if p.venState inst = 0 then 2 else if ¬ p.kRange inst s then 3 else 0

/-- A key command starts: the slots whose earlier generation is to be zeroized (R447). -/
def Part.keyStart (p : Part) (w : Waiter) (l : List Nat) : Part :=
  p.venQuotas.modKey (fun k => { k with cmd := some (w, l) })

/-- A write of GO to KEY_CMD (R445). -/
def Part.keyCmd (p : Part) : Part :=
  let s := p.rg F.KEY_CMD_SLOT
  match p.rg F.KEY_CMD_OP with
  | 3 => p.setRg F.KEY_CMDSTAT_REJ 1
  | op =>
    if p.key.cmd.isSome then p.setRg F.KEY_CMDSTAT_REJ 1
    else
      let p := p.setRg F.KEY_CMDSTAT_ERRCODE 0
      if op = 0 then
        let k := p.keyStaged
        let e := p.keyLoadError s k
        let p := p.keyUnstage
        if e ≠ 0 then ((p.setRg F.KEY_CMDSTAT_ERR 1).setRg F.KEY_CMDSTAT_ERRCODE e).setRg F.KEY_CMDSTAT_DONE 1
        else ((p.keyLoad s k).setRg F.KEY_CMDSTAT_BUSY 1).keyStart .direct [s]
      else if op = 1 then ((p.keyErase s).setRg F.KEY_CMDSTAT_BUSY 1).keyStart .direct [s]
      else (((List.range 8192).foldl (fun (r : Part) (i : Nat) => r.keyErase i) p).setRg F.KEY_CMDSTAT_BUSY 1).keyStart .direct []

end Sys2Proof.Machine
end

