-- ==== Sys2Proof/Machine/Packet.lean ====
section
/-!
DEFINITION. The packet engine (R401 to R442): MACs, logical ports, classification, hardware queues, multicast,
admission and scheduling. A function that answers a Bool says with it whether what it had to write or read
could be done; `false` leaves only the messages that it has sent, and the command is to be given again
(notes/assumptions/39.md).
-/
namespace Sys2Proof.Machine

/-! ### Counters and boundaries -/

/-- Add to a wrapping counter of the NET_ pages; a wrap sets NET_STAT.OVF. -/
def Part.netCount (p : Part) (f : Fld) (u : Nat) (n : Nat := 1) : Part :=
  let r := p.incWrap f n u
  if r.2 then r.1.setRg F.NET_STAT_OVF 1 else r.1

/-- Add to a 48-bit counter held in two registers. -/
def Part.netCount48 (p : Part) (lo hi : Fld) (u n : Nat) : Part :=
  let v := p.rg lo u + p.rg hi u * 2 ^ 32 + n
  let q := (p.setRg lo v u).setRg hi (v / 2 ^ 32) u
  if v ≥ 2 ^ 48 then q.setRg F.NET_STAT_OVF 1 else q

/-- Cells that the reserves of R431 take. -/
def Part.reserves (p : Part) : Nat :=
  ((List.range 32).map (fun n => p.rg F.NET_LP_BUF_RXMIN n)).foldl (· + ·) 0 + p.rg F.NET_BUFCFG_TXRES

/-- A packet boundary: held writes of the NET_LP_ pages, of NET_BUFCFG and of KEY_MSRXn apply (R551). -/
def Part.netBoundary (p : Part) : Part :=
  let p := p.applyHeld (fun k => (List.range 32).any (fun n => inPage (Blk.lp.place n) k) || inPage (Blk.netg.place 0) k ||
    inPage (Blk.key.place 0) k)
  if p.reserves > 32768 then p.setRg F.NET_STAT_BUFCFG 1 else p

/-! ### MACs (R401 to R403) -/

def macLanes (m speed : Nat) : List Nat :=
  match speed with
  | 1 => [m]
  | 2 => [m, m + 1]
  | 3 => [m, m + 1, m + 2, m + 3]
  | _ => []

def macBad (m speed : Nat) : Bool := (decide (speed = 2) && decide (m % 2 = 1)) || (decide (speed = 3) && decide (m % 4 ≠ 0))

def Part.macConflict (p : Part) (m : Nat) : Bool :=
  (List.range m).any (fun k => (macLanes k (p.rg F.NET_MAC_CFG_SPEED k)).any (fun l =>
    (macLanes m (p.rg F.NET_MAC_CFG_SPEED m)).contains l))

def Part.macState (p : Part) (m : Nat) : Nat := p.rg F.NET_MAC_STAT_STATE m
def Part.macUp (p : Part) (m : Nat) : Bool := p.macState m = 4

/-- Leave UP, or any state, for `s`; LDOWN is set when the MAC was UP. -/
def Part.macTo (p : Part) (m s : Nat) : Part :=
  let q := if p.macUp m ∧ s ≠ 4 then (p.setRg F.NET_MAC_STAT_LDOWN 1 m).modPkt (fun k => { k with bad := k.bad.del m }) else p
  q.setRg F.NET_MAC_STAT_STATE s m

/-- The island of a MAC is on (R401, R439). -/
def Part.macPowered (p : Part) (m : Nat) : Bool := (p.rg F.PWR_BSTAT_ON).testBit (24 + m / 8)

/-- Evaluate BAD and CONFLICT of every MAC (R401, R403). -/
def Part.macEval (p : Part) : Part :=
  (List.range 16).foldl (fun (r : Part) (m : Nat) =>
    let sp := r.rg F.NET_MAC_CFG_SPEED m
    let bad := macBad m sp
    let con := decide (sp ≠ 0) && r.macConflict m
    let r := (r.setRg F.NET_MAC_STAT_BAD bad.toNat m).setRg F.NET_MAC_STAT_CONFLICT con.toNat m
    if sp = 0 ∨ bad ∨ con ∨ ¬ r.macPowered m then r.macTo m 0 else if r.macState m = 0 then r.macTo m 1 else r) p

/-- NET_MAC_CFG was written: `speed` and `an` are the values before (R403, R442). -/
def Part.macWritten (p : Part) (m speed an : Nat) : Part :=
  let changed := decide (p.rg F.NET_MAC_CFG_SPEED m ≠ speed) || decide (p.rg F.NET_MAC_CFG_AN m ≠ an)
  (if changed then p.macTo m 0 else p).macEval

/-- MAC_SIGNAL_DETECT. -/
def Part.macSignal (m : Nat) (p : Part) : Part :=
  if p.netOn ∧ m < 16 ∧ p.macState m = 1 then p.macTo m (if p.rgOn F.NET_MAC_CFG_AN m then 2 else 3) else p

/-- AN_RESOLVED: Clause 73 resolves to the rate `rate` of SPEED; another rate keeps the MAC in AN. -/
def Part.anResolved (m rate : Nat) (p : Part) : Part :=
  if p.netOn ∧ m < 16 ∧ p.macState m = 2 ∧ rate = p.rg F.NET_MAC_CFG_SPEED m then p.macTo m 3 else p

/-- MAC_TRAINED. -/
def Part.macTrained (m : Nat) (p : Part) : Part :=
  if p.netOn ∧ m < 16 ∧ p.macState m = 3 then (p.macTo m 4).setRg F.NET_MAC_STAT_LUP 1 m else p

/-- MAC_LOCK_LOST. -/
def Part.macLockLost (m : Nat) (p : Part) : Part :=
  if p.netOn ∧ m < 16 ∧ p.macUp m then p.macTo m 1 else p

/-- MAXLEN as applied (R406). -/
def Part.maxLen (p : Part) (m : Nat) : Nat := min 9728 (max 1518 (p.rg F.NET_MAC_CFG_MAXLEN m))

/-- PAUSE_RECEIVED: for `quanta` of 512 bit times (R402); zero ends a pause. -/
def Part.pauseReceived (m quanta : Nat) (p : Part) : Part :=
  if p.netOn ∧ m < 16 ∧ p.macUp m then
    let bits := 512 * quanta
    let ns := bits / (match p.rg F.NET_MAC_CFG_SPEED m with | 1 => 100 | 2 => 200 | _ => 400)
    let p := (p.netCount F.NET_MAC_PAUSERX_COUNT m).macEvent 4
    p.modPkt (fun s => { s with pause := if quanta = 0 then s.pause.del m else s.pause.put m (p.time + ns) })
  else p

/-- PAUSE_QUANTA_EXPIRY. -/
def Part.pauseExpiry (m : Nat) (p : Part) : Part :=
  match p.pkt.pause.find? m with
  | some t => (p.advance (t - p.time)).modPkt (fun s => { s with pause := s.pause.del m })
  | none => p

/-! ### Cells (R431, R432) -/

def cellsOf (n : Nat) : Nat := (n + 255) / 256
def sumNat (l : List Nat) : Nat := l.foldl (· + ·) 0

/-- Cells held for a queue. -/
def QueueSt.cells (q : QueueSt) : Nat := sumNat (q.rxq.map (·.cells)) + sumNat (q.txq.map (·.cells))
/-- Cells that a logical port holds. -/
def Part.lpCells (p : Part) (n : Nat) : Nat :=
  sumNat (p.pkt.q.map (fun x => sumNat (x.2.rxq.map (fun f => if f.lp = n ∧ f.job = none then f.cells else 0)))) +
  sumNat (p.pkt.jobs.map (fun j => if j.2.lp = some n then j.2.cells else 0))
def Part.txCells (p : Part) : Nat := sumNat (p.pkt.q.map (fun x => sumNat (x.2.txq.map (·.cells))))
/-- NET_LDG_CELL.USED. -/
def Part.cellsUsed (p : Part) : Nat := sumNat ((List.range 32).map p.lpCells) + p.txCells
/-- NET_LDG_DESC.USED: descriptors that the engine holds (R427). -/
def Part.descUsed (p : Part) : Nat := sumNat (p.pkt.q.map (fun x => x.2.rxd.length + x.2.txDesc))

/-- Logical port `n` may take `c` cells more (R431, R432). -/
def Part.cellsFor (p : Part) (n c : Nat) : Bool :=
  let after := p.lpCells n + c
  let mx := p.rg F.NET_LP_BUF_RXMAX n
  let cap := decide (mx = 0) || decide (after < mx)
  if p.reserves > 32768 then cap && decide (p.cellsUsed + c ≤ 32768)
  else
    let shared := sumNat ((List.range 32).map (fun k => (if k = n then after else p.lpCells k) - p.rg F.NET_LP_BUF_RXMIN k))
    cap && decide (shared ≤ 32768 - p.reserves)

/-- PAUSE toward the peer of a logical port (R432). How often the MAC repeats it is open. -/
def Part.pauseCheck (p : Part) (n : Nat) : Part :=
  let c := p.lpCells n
  let m := p.rg F.NET_LP_CFG_MAC n
  if p.rgOn F.NET_LP_CFG_PAUSE n ∧ c ≥ p.rg F.NET_LP_PAUSE_XOFF n then
    if p.pkt.xoff.contains n then p
    else (((p.netCount F.NET_MAC_PAUSETX_COUNT m (1 + p.freshNat)).used).macEvent 3).modPkt (fun s => { s with xoff := s.xoff ++ [n] })
  else if p.pkt.xoff.contains n ∧ (c ≤ p.rg F.NET_LP_PAUSE_XON n ∨ ¬ p.rgOn F.NET_LP_CFG_PAUSE n) then
    p.modPkt (fun s => { s with xoff := s.xoff.erase n })
  else p

/-! ### The queue manager's arbiter (R435) -/

/-- Its counters and base priorities: receive data writes, transmit frame reads, descriptor reads, completion record writes and
multicast replica writes. -/
def netArb : ArbRegs :=
  ⟨F.NET_ARB_GRANTS_COUNT, F.NET_ARB_WAITS_COUNT, F.NET_ARB_MAXWAIT_MAX, F.NET_STAT_OVF,
   [F.NET_ARBCFG_BRX, F.NET_ARBCFG_BTX, F.NET_ARBCFG_BDESC, F.NET_ARBCFG_BCMPL, F.NET_ARBCFG_BMC]⟩

/-- How far index `i` lies ahead of the next descriptor to fetch. -/
def QueueSt.ahead (s : QueueSt) (i : Nat) : Nat := (i + 65536 - s.dcidx) % 65536

/-- A producer doorbell of index `i` at `t` (R420): a transmit queue remembers when each descriptor was posted (R434). -/
def QueueSt.rung (s : QueueSt) (i t : Nat) : QueueSt :=
  { s with pidx := i,
           bells := (if s.isTx then s.bells.filter (fun b => decide (s.ahead b.1 < s.ahead i)) ++ (if s.ahead i = 0 then [] else [(i, t)]) else []) }

/-- The doorbell that posted the last of the next `n` descriptors: its TIME, or `t` where none is known. -/
def QueueSt.postedAt (s : QueueSt) (n t : Nat) : Nat :=
  match s.bells.find? (fun b => decide (n ≤ s.ahead b.1)) with | some b => b.2 | none => t

/-- `n` descriptors have been fetched: DCIDX moves, and doorbells that posted nothing beyond are forgotten. -/
def QueueSt.fetched (s : QueueSt) (n : Nat) : QueueSt :=
  { s with dcidx := (s.dcidx + n) % 65536, bells := s.bells.filter (fun b => decide (n < s.ahead b.1)) }

/-- Posted descriptors not yet fetched. -/
def QueueSt.posted (s : QueueSt) : Nat := (s.pidx + 65536 - s.dcidx) % 65536

/-- Requesters with work that waits: a frame at the head of a receive queue, a replica there, and descriptors that may be
fetched. -/
def Part.netWants (p : Part) : List Nat :=
  let on := (p.pkt.q.map (·.2)).filter (fun s => decide (s.state = .enabled))
  let frame (b : Bool) := on.any (fun s => s.rxq.head?.any (fun f => f.job.isSome == b))
  (if frame false then [0] else []) ++ (if on.any (fun s => decide (s.posted ≠ 0 ∧ s.rxd.length < 8)) then [2] else [])
    ++ (if frame true then [4] else [])

/-- Requester `r` moves data: rounds are played with the others until it wins one, within the bound of R259. DESIGN CHOICE
(notes/assumptions/42.md): a round that another wins moves a beat of what its own command completes. -/
def Part.netGrant (p : Part) (r : Nat) : Nat → Part
  | 0 => p
  | fuel + 1 =>
    let req := r :: p.netWants.erase r
    match p.pkt.qm.play (netArb.base.map (fun f => p.rg f)) req with
    | none => p
    | some (w, s) =>
      let q := (p.modPkt (fun x => { x with qm := s })).roundCount netArb 0 w req s
      if w = r then q else q.netGrant r fuel

/-- Rounds that a requester can take to win (R259, R435). -/
def netRounds : Nat := 20

/-! ### Completion records (R423 to R426) -/

/-- Rank of a status (R424). -/
def rankOf (st : Nat) : Nat :=
  match st with
  | 0 => 12 | 1 => 8 | 2 => 11 | 3 => 7 | 4 => 6 | 5 => 9 | 6 => 10 | 7 => 5 | 8 => 3 | 9 => 4 | 10 => 2 | 11 => 1 | 12 => 0
  | _ => 6

/-- The higher-ranked of two statuses. -/
def higher (a b : Nat) : Nat := if rankOf a ≤ rankOf b then a else b

/-- Fields of a completion record. `nbuf` counts descriptors, 0 for none; `moved` says that a frame was delivered
or sent (R470). -/
structure NetRec where
  ts : Nat
  cookie : Nat
  mark : Nat
  hash : Nat
  status : Nat
  lp : Nat
  nbuf : Nat
  fhit : Bool
  len : Nat
  flow : Nat
  parse : Parse
  dly : Bool
  mcrep : Bool
  moved : Bool
  deriving DecidableEq, Repr

/-- The 32 bytes of a record as a number. -/
def NetRec.bits (r : NetRec) (phase : Bool) : Nat :=
  let w5 := phase.toNat * 2 ^ 31 + r.status % 32 * 2 ^ 26 + r.lp % 32 * 2 ^ 21 + (r.nbuf - 1) % 16 * 2 ^ 17 + r.fhit.toNat * 2 ^ 16 +
    r.len % 65536
  let w6 := r.flow % 2 ^ 18 * 2 ^ 14 + r.parse.vlans % 4 * 2 ^ 12 + r.parse.l3 % 4 * 2 ^ 10 + r.parse.l4 % 4 * 2 ^ 8 +
    r.parse.tun % 4 * 2 ^ 6 + r.parse.l3cs % 4 * 2 ^ 4 + r.parse.l4cs % 4 * 2 ^ 2
  let w7 := r.parse.l3off % 256 * 2 ^ 24 + r.parse.l4off % 256 * 2 ^ 16 + r.parse.hdrn % 16 * 2 ^ 12 + r.dly.toNat * 2 ^ 11 +
    r.mcrep.toNat * 2 ^ 10
  r.ts % 2 ^ 64 + r.cookie % 2 ^ 32 * 2 ^ 64 + r.mark % 2 ^ 32 * 2 ^ 96 + r.hash % 2 ^ 32 * 2 ^ 128 + w5 * 2 ^ 160 + w6 * 2 ^ 192 +
    w7 * 2 ^ 224

/-- Records that software has not consumed. -/
def QueueSt.pending (q : QueueSt) : Nat := (q.cpidx + 65536 - q.ccidx) % 65536
/-- Record slots neither pending nor reserved for a fetched transmit frame (R421). -/
def QueueSt.slots (q : QueueSt) : Nat := q.csize - (q.pending + q.txq.length)

/-- Signal a queue's vector when it is due (R426). -/
def Part.netIrq (p : Part) (q : Nat) : Part :=
  let s := p.queueOf q
  let n := s.pending
  let due := decide (n ≥ max 1 (ctxField s.ctx 4 26 16)) ||
    (match s.times.head? with | some t => decide (p.time ≥ t + 1000 * ctxField s.ctx 4 36 27) | none => false)
  if ctxField s.ctx 4 63 63 = 1 ∧ s.armed ∧ n > 0 ∧ due then
    let p := p.modQueue q (fun x => { x with armed := false })
    let v := ctxField s.ctx 4 47 37
    if s.host then p.epHint v
    else p.venThread (ctxField s.ctx 4 61 58) (ctxField s.ctx 4 57 49) (ctxField s.ctx 4 48 48) v
  else p

/-- COALESCE_TIMER: CTIME has passed since the first pending record. -/
def Part.coalesceTimer (q : Nat) (p : Part) : Part :=
  let s := p.queueOf q
  match s.times.head? with
  | some t => if s.armed then (p.advance (t + 1000 * ctxField s.ctx 4 36 27 - p.time)).netIrq q else p
  | none => p

/-- A queue hits an error while ENABLED (R419). -/
def Part.netError (p : Part) (q : Nat) : Part :=
  if (p.queueOf q).state = .enabled then p.modQueue q (fun x => { x with state := .error }) else p

/-- The bound counter set counts a record (R470). -/
def Part.setCount (p : Part) (q : Nat) (r : NetRec) : Part :=
  match p.ven.bind.find? q with
  | none => p
  | some c =>
    let x := p.ven.ctr.get CtrSet.reset c
    let f := x.frames + r.moved.toNat
    let b := x.bytes + (if r.moved then r.len else 0)
    let d := x.drop + (if r.status = 1 ∨ r.status = 3 then 1 else 0)
    let p := p.modVen (fun v => { v with ctr := v.ctr.put c { frames := f % 2 ^ 48, bytes := b % 2 ^ 48, drop := d % 2 ^ 32 } })
    if f ≥ 2 ^ 48 ∨ b ≥ 2 ^ 48 ∨ d ≥ 2 ^ 32 then p.setRg F.VEN_STAT_CTROVF 1 (p.queueOf q).inst else p

/-- An address of a queue lies in the endpoint host's memory. -/
def Part.hostMem (p : Part) (s : QueueSt) (addr : Nat) : Bool :=
  match p.ioTranslate 0 { rid := none, dom := s.inst, psid := s.psid, priv := false, addr := addr, kind := .write, len := 1, translated := false } with
  | .ok _ pa _ _ _ => decide (regionOf pa = .pcieWin)
  | _ => false

/-- A host queue is stopped at this address while Bus Master Enable is 0 (R395, R440). -/
def Part.bmeHeld (p : Part) (s : QueueSt) (addr : Nat) : Bool := s.host && !p.epBme && p.hostMem s addr

/-- Write the next record of a queue. A refused ring address puts the queue into ERROR. -/
def Part.netRecord (p : Part) (q : Nat) (r : NetRec) : Part × Bool :=
  let s := p.queueOf q
  let addr := ctxField s.ctx 2 63 0 + 32 * (s.cpidx % s.csize)
  let phase := s.cpidx / s.csize % 2 = 0
  let fin (t : Part) : Part :=
    let t := t.modQueue q (fun x => { x with cpidx := (x.cpidx + 1) % 65536, times := x.times ++ [t.time] })
    ((t.queueEvent 2 1 s.inst).setCount q r).netIrq q
  if p.bmeHeld s addr then (p, false)
  else match p.netWrite s.inst s.psid 3 addr 32 (r.bits phase) false with
    | .ok t _ _ => (fin (t.netGrant 3 netRounds), true)
    | .refused t => ((fin (t.netGrant 3 netRounds)).netError q, true)
    | .wait t => (p.retried t, false)

/-- The record of a transmit frame. -/
def TxFrame.record (f : TxFrame) (lp status len mark ts : Nat) (pr : Parse) (dly : Bool) : NetRec :=
  { ts := ts, cookie := f.desc % 2 ^ 32, mark := mark, hash := 0, status := status, lp := lp, nbuf := f.nbuf, fhit := false,
    len := len, flow := 0, parse := pr, dly := dly, mcrep := false, moved := decide (len ≠ 0) }

/-- The first transmit frame of a queue ends with this record. -/
def Part.txEnd (p : Part) (q : Nat) (r : NetRec) : Part × Bool :=
  match (p.modQueue q (fun x => { x with txq := x.txq.drop 1 })).netRecord q r with
  | (t, true) => (t, true)
  | (t, false) => (p.retried t, false)

/-- Transmit frames at the head of a queue that are not to be sent complete with their status. -/
def Part.txFlush (q : Nat) : Nat → Part → Part
  | 0, p => p
  | fuel + 1, p =>
    match (p.queueOf q).txq with
    | [] => p
    | f :: _ =>
      if f.status = 0 ∨ f.job.isSome then p
      else match p.txEnd q (f.record (p.queueOf q).lp f.status 0 0 p.time Parse.zero false) with
        | (t, true) => Part.txFlush q fuel t
        | (t, false) => t

def Part.txFlushAll (p : Part) (q : Nat) : Part := Part.txFlush q (p.queueOf q).txq.length p

/-! ### Multicast (R428 to R430) -/

/-- A replication that has no replica left ends: group counters, and the record of a frame that a queue sent. -/
def Part.jobEnd (p : Part) (id : Nat) : Part :=
  match p.pkt.jobs.find? id with
  | none => p
  | some j =>
    if j.left ≠ 0 then p
    else
      let drop (t : Part) : Part :=
        let c := t.pkt.mcstat.get (0, 0, 0) j.group
        let n1 := c.2.1 + j.tried
        let n2 := c.2.2 + (j.tried - j.sent)
        let t := if n1 ≥ 2 ^ 32 ∨ n2 ≥ 2 ^ 32 then t.setRg F.NET_STAT_OVF 1 else t
        let t := t.modPkt (fun s => { s with jobs := s.jobs.del id, mcstat := s.mcstat.put j.group (c.1, n1 % 2 ^ 32, n2 % 2 ^ 32) })
        match j.lp with | some n => t.pauseCheck n | none => t
      match j.tx with
      | none => drop p
      | some q =>
        match (p.queueOf q).txq with
        | f :: _ =>
          if f.job = some id then
            let st := if j.tried = j.sent then 0 else if j.sent = 0 then 1 else 5
            let r := f.record (p.queueOf q).lp st (if j.sent = 0 then 0 else f.data.length + 4) (j.sent * 65536 + j.tried) p.time
              (parseFrame f.data) false
            match p.txEnd q r with
            | (t, true) => (drop t).txFlushAll q
            | (t, false) => t
          else drop p
        | [] => drop p

/-- A replica of a job has been delivered or dropped. -/
def Part.jobStep (p : Part) (job : Option Nat) (ok : Bool) : Part :=
  match job with
  | none => p
  | some id =>
    (p.modPkt (fun s => { s with jobs := s.jobs.map (fun x => if x.1 = id then
      (x.1, { x.2 with left := x.2.left - 1, sent := x.2.sent + ok.toNat }) else x) })).jobEnd id

/-- A received frame is dropped: its record, or a loss (R432, R433). -/
def Part.rxDrop (p : Part) (q : Nat) (f : RxFrame) (status : Nat) : Part × Bool :=
  let done (t : Part) : Part := t.jobStep f.job false
  if (p.queueOf q).slots = 0 then
    (done (p.modQueue q (fun x => { x with lost := min 65535 (x.lost + 1) })), true)
  else
    let r : NetRec := { ts := f.ts, cookie := 0, mark := f.mark, hash := f.hash, status := status, lp := f.lp, nbuf := 0, fhit := f.fhit,
                        len := f.len, flow := f.flow, parse := f.parse, dly := f.dly, mcrep := f.job.isSome, moved := false }
    match (p.modQueue q (fun x => { x with drops := min 65535 (x.drops + 1) })).netRecord q r with
    | (t, true) => (done t, true)
    | (t, false) => (p.retried t, false)

/-- The queue takes another frame of `c` cells (R432). -/
def QueueSt.fits (s : QueueSt) (c : Nat) : Bool :=
  let mx := ctxField s.ctx 3 51 36
  decide (mx = 0) || decide (s.cells + c ≤ mx)

/-- Put a frame into a queue, marked when the queue holds MARKTH cells (R433). -/
def Part.enqueue (p : Part) (q : Nat) (f : RxFrame) : Part :=
  let s := p.queueOf q
  let th := ctxField s.ctx 3 35 20
  let mark := decide (th ≠ 0) && decide (s.cells + f.cells ≥ th)
  let g : RxFrame := if ¬ mark then f
    else { f with dly := true, data := (if p.rgOn F.NET_LP_CFG_MARKECN f.lp then markCe f.data f.parse else f.data) }
  let p := if mark then p.parseEvent 7 (some s.inst) else p
  p.modQueue q (fun x => { x with rxq := x.rxq ++ [g] })

/-- A frame is sent on logical port `n`: on its MAC with a new FCS, if the port is enabled, its MAC is UP and the
length allowed. -/
def Part.sendOn (p : Part) (n : Nat) (f : List Byte) : Part × Bool :=
  let m := p.rg F.NET_LP_CFG_MAC n
  let g := f ++ List.replicate (60 - f.length) 0
  if p.rgOn F.NET_LP_CFG_EN n ∧ p.macUp m ∧ g.length + 4 ≤ p.maxLen m then
    let p := ((p.netCount F.NET_MAC_TXOK_COUNT m).netCount48 F.NET_MAC_TXBYTES_LO_COUNT F.NET_MAC_TXBYTES_HI_COUNT m
      (g.length + 4)).netCount F.NET_LP_TXOK_COUNT n
    ((p.modPkt (fun s => { s with wire := (m, g ++ fcsBytes g) :: s.wire })).bwCount 3 1 m 0 (g.length + 4), true)
  else (p, false)

/-- A multicast group as 512 bytes, from the cache or from memory; `none` while it must wait. -/
def Part.mcGroup (p : Part) (g : Nat) : Part × Option Nat :=
  match p.pkt.mc.find? g with
  | some v => (p, some v)
  | none =>
    match p.ioBytes (p.ioAgent tileN 0) 255 (p.addrOf F.NET_MCB_LO_PA F.NET_MCB_HI_PA + 512 * g) 512 (lineFuel 512) with
    | .got q v b => if b then (q, some 0) else (q.modPkt (fun s => { s with mc := s.mc.put g v }), some v)
    | .wait q => (p.retried q, none)

/-- Replicate a frame to group `g` (R429): `f` is what a queue member receives, `origin` the logical port that it
arrived on, `tx` the queue that sent it. -/
def Part.replicate (p : Part) (g : Nat) (f : RxFrame) (body : List Byte) (origin tx : Option Nat) : Part × Bool :=
  match p.mcGroup g with
  | (q, none) => (q, false)
  | (q, some v) =>
    let ent (k : Nat) : Nat := v / 2 ^ (64 * k) % 2 ^ 64
    let all := ((List.range 64).map ent).filter (fun e => e.testBit 31)
    let ms := all.filter (fun e => !(e.testBit 30 && decide (some (e % 32) = origin)))
    let c := q.pkt.mcstat.get (0, 0, 0) g
    let q := if c.1 + 1 ≥ 2 ^ 32 then q.setRg F.NET_STAT_OVF 1 else q
    let id := q.pkt.jobNum
    let job : McJob := { group := g, left := ms.length, tried := ms.length, sent := 0, cells := f.cells, lp := origin, tx := tx }
    let q := q.modPkt (fun s => { s with mcstat := s.mcstat.put g ((c.1 + 1) % 2 ^ 32, c.2), jobs := s.jobs.put id job, jobNum := id + 1 })
    let q := match tx with
      | some t => q.modQueue t (fun x => { x with txq := (match x.txq with | h :: r => { h with job := some id } :: r | [] => []) })
      | none => q
    let q := if ms.isEmpty then q.jobEnd id
      else ms.foldl (fun (r : Part) (e : Nat) =>
        if e.testBit 30 then
          let s := r.sendOn (e % 32) body
          s.1.jobStep (some id) s.2
        else
          let t := e % 16384
          let h : RxFrame := { f with job := some id }
          let s := r.queueOf t
          if s.state ≠ .enabled ∨ s.isTx then r.jobStep (some id) false
          else if s.fits f.cells then r.enqueue t h
          else (r.rxDrop t h 1).1) q
    (q, true)

/-! ### Classification (R414 to R416) -/

/-- A flow bucket as 256 bytes, from the cache of 4,096 or from memory; which bucket a full cache gives up is open. -/
def Part.bucket (p : Part) (b : Nat) : Part × Option Nat :=
  match p.pkt.flow.find? b with
  | some v => (p, some v)
  | none =>
    match p.ioBytes (p.ioAgent tileN 0) 255 (p.addrOf F.NET_FLOWB_LO_PA F.NET_FLOWB_HI_PA + 256 * b) 256 (lineFuel 256) with
    | .got q v bad =>
      let q := q.parseEvent 4 none
      if bad then (q, some 0)
      else if q.pkt.flow.length ≥ 4096 then
        let k := ((q.pkt.flow[q.freshNat % 4096]?).map (·.1)).getD 0
        (q.used.modPkt (fun s => { s with flow := (s.flow.del k).put b v }), some v)
      else (q.modPkt (fun s => { s with flow := s.flow.put b v }), some v)
    | .wait q => (p.retried q, none)

/-- Context `k` of a bucket: its key as a number, its action dword, its MARK. `none` when it is not valid. -/
def bucketCtx (v k : Nat) : Option (Nat × Nat × Nat) :=
  let c := v / 2 ^ (512 * k) % 2 ^ 512
  let act := c / 2 ^ 384 % 2 ^ 64
  let tail := c / 2 ^ 448
  if act.testBit 63 ∧ act % 2 ^ 18 = 0 ∧ tail % 2 ^ 32 = 0 then some (c % 2 ^ 384, act, tail / 2 ^ 32) else none

/-- What classification finds: the hash, and the context number, action and MARK of a hit. -/
structure FlowHit where
  hash : Nat
  hit : Option (Nat × Nat × Nat)
  deriving DecidableEq, Repr

def Part.classify (p : Part) (f : List Byte) (pr : Parse) (lp : Nat) : Part × Option FlowHit :=
  let kind := p.rg F.NET_LP_CFG_KEY lp
  let key := flowKey f pr lp kind
  let h := (crc32c key).toNat
  if kind = 3 then (p, some ⟨h, none⟩)
  else match p.bucket (h % 65536) with
    | (q, none) => (q, none)
    | (q, some v) =>
      let kn := bytesNat key
      let hit := (List.range 4).findSome? (fun k => match bucketCtx v k with
        | some (kk, a, m) => if kk = kn then some (4 * (h % 65536) + k, a, m) else none
        | none => none)
      (if hit.isSome then q.parseEvent 3 none else q, some ⟨h, hit⟩)

/-! ### Reception (R404 to R408, R432, R433) -/

/-- The logical port that takes a frame (R405). -/
def Part.lpFor (p : Part) (m : Nat) (f : List Byte) : Option Nat :=
  (List.range 32).find? (fun n => p.rgOn F.NET_LP_CFG_EN n && decide (p.rg F.NET_LP_CFG_MAC n = m) &&
    (!p.rgOn F.NET_LP_CFG_SEL n || (match outerVid f with
      | some v => decide (p.rg F.NET_LP_VSEL_VLO n ≤ v) && decide (v ≤ p.rg F.NET_LP_VSEL_VHI n)
      | none => false)))

/-- Admit a frame to queue `q` of its logical port, or drop it (R416, R432). -/
def Part.takeIn (p : Part) (q : Nat) (f : RxFrame) : Part × Bool :=
  let s := p.queueOf q
  if s.state ≠ .enabled ∨ s.isTx then (p.netCount F.NET_LP_RXNOQ_COUNT f.lp, true)
  else
    let p := (p.parseEvent 1 (some s.inst))
    let p := if f.parse.status = 6 then p.parseEvent 5 (some s.inst) else p
    if p.cellsFor f.lp f.cells ∧ s.fits f.cells then
      (((p.enqueue q f).netCount F.NET_LP_RXOK_COUNT f.lp).pauseCheck f.lp, true)
    else ((p.netCount F.NET_LP_RXDROP_COUNT f.lp).parseEvent 6 (some s.inst)).rxDrop q f 1

/-- A frame that a check failed: to the error queue of its logical port, or discarded (R407, R456). -/
def Part.toError (p : Part) (f : RxFrame) : Part × Bool :=
  if p.rgOn F.NET_LP_CFG_ERRDELIV f.lp then p.takeIn (p.rg F.NET_LP_ERRQ_QUEUE f.lp) f else (p, true)

/-- A received frame of logical port `n` (R409 to R416, R446): `wire` as it crossed the wire without its FCS, `fcs`
what is kept of the FCS. -/
def Part.rxFrame (p : Part) (n : Nat) (wire fcs : List Byte) (len ts : Nat) : Part × Bool :=
  let mk (body : List Byte) (st : Nat) (pr : Parse) : RxFrame :=
    { data := body ++ fcs, len := len, lp := n, ts := ts, status := st, hash := 0, mark := 0, flow := 0, fhit := false, dly := false,
      job := none, parse := pr, cells := cellsOf len, time := p.time }
  match p.macsecRx n wire with
  | (q, .fail st) => q.toError (mk wire st (parseEth wire))
  | (q, r) =>
    let body := match r with | .ok g => g | _ => wire
    let pr := parseFrame body
    match q.classify body pr n with
    | (s, none) => (p.retried s, false)
    | (s, some h) =>
      let f := mk body pr.status pr
      match h.hit with
      | none =>
        let f : RxFrame := { f with hash := h.hash }
        if s.rgOn F.NET_LP_DEFQ_DROP n then (s.netCount F.NET_LP_RXNOQ_COUNT n, true)
        else s.takeIn (s.rg F.NET_LP_DEFQ_QUEUE n) f
      | some (c, act, mark) =>
        let f : RxFrame := { f with hash := h.hash, mark := mark, flow := c, fhit := true }
        if act.testBit 62 then (s.netCount F.NET_LP_RXNOQ_COUNT n, true)
        else if act.testBit 61 then
          if s.cellsFor n f.cells then
            let r := (s.netCount F.NET_LP_RXOK_COUNT n).replicate (act / 2 ^ 31 % 4096) f body (some n) none
            (r.1.pauseCheck n, r.2)
          else ((s.netCount F.NET_LP_RXDROP_COUNT n).parseEvent 6 none, true)
        else
          let q := (act / 2 ^ 43 % 16384 + h.hash / 65536 % 2 ^ min 6 (act / 2 ^ 57 % 8)) % 16384
          if ¬ act.testBit 60 then s.takeIn q f
          else
            match s.espRx (act / 2 ^ 18 % 8192) (s.queueOf q).inst pr.ip1 body with
            | (t, .fail st) => t.toError (mk wire st pr)
            | (t, .ok g) =>
              let pg := parseFrame g
              let pr2 : Parse := { pr with l3 := pg.l3, l4 := pg.l4, l3off := pg.l3off, l4off := pg.l4off, l3cs := 0, l4cs := 0 }
              t.takeIn q { f with data := g ++ fcs, parse := pr2 }
            | (t, .plain) => t.takeIn q f

/-- Uncorrectable codewords: counts, window events, and the eighth in a row (R402, R403). -/
def Part.fecUnc (p : Part) (m n : Nat) : Part :=
  let p := p.netCount F.NET_MAC_FECUNC_COUNT m n
  let p := (List.range n).foldl (fun (r : Part) (_ : Nat) => (r.rasCount tileN 0 2 2 0 0 .unstated m 0).macEvent 2) p
  let c := p.pkt.bad.get 0 m + n
  let p := p.modPkt (fun s => { s with bad := s.bad.put m c })
  if c ≥ 8 then p.macLockLost m else p

/-- FRAME_RECEIVED: `data` runs from the destination address to the FCS; `unc` and `corr` are the codewords that
RS-FEC could not correct, and those it corrected. -/
def Part.frameReceived (m : Nat) (data : List Byte) (unc corr : Nat) (p : Part) : Part :=
  if ¬ p.hasPe ∨ m ≥ 16 ∨ ¬ p.macUp m then p
  else
    let n := data.length
    let q := (p.netBoundary.netCount F.NET_MAC_FECCORR_COUNT m corr).bwCount 3 0 m 0 n
    if unc ≠ 0 then ((q.netCount F.NET_MAC_FCSERR_COUNT m).macEvent 1).fecUnc m unc
    else
      let q := q.modPkt (fun s => { s with bad := s.bad.del m })
      let body := data.take (n - 4)
      let fcs := data.drop (n - 4)
      if n ≥ 16384 then q.netCount F.NET_MAC_JABBER_COUNT m
      else if n ≤ 17 then q.netCount F.NET_MAC_FRAG_COUNT m
      else if fcs ≠ fcsBytes body then (q.netCount F.NET_MAC_FCSERR_COUNT m).macEvent 1
      else if ¬ q.netOn ∨ q.pkt.resetAt.isSome then q.netCount F.NET_MAC_NOLP_COUNT m
      else
        let runt := decide (n < 64)
        let big := decide (n > q.maxLen m)
        let q := if runt then q.netCount F.NET_MAC_RUNT_COUNT m else if big then q.netCount F.NET_MAC_OVERSIZE_COUNT m
          else (q.netCount F.NET_MAC_RXOK_COUNT m).netCount48 F.NET_MAC_RXBYTES_LO_COUNT F.NET_MAC_RXBYTES_HI_COUNT m n
        match q.lpFor m body with
        | none => q.netCount F.NET_MAC_NOLP_COUNT m
        | some lp =>
          let adj := q.rg F.NET_MAC_TSADJ_NS m
          let ts := (q.time + 2 ^ 64 + adj - (if adj ≥ 32768 then 65536 else 0)) % 2 ^ 64
          let keep := if q.rgOn F.NET_LP_CFG_FCSCT lp then fcs else []
          let r := if runt ∨ big then
              let pe := parseEth body
              let h := (crc32c (flowKey body pe lp (q.rg F.NET_LP_CFG_KEY lp))).toNat
              q.toError { data := (if big then data.take (q.maxLen m) else body ++ keep), len := n, lp := lp, ts := ts,
                          status := (if big then 9 else 8), hash := h, mark := 0, flow := 0, fhit := false, dly := false, job := none,
                          parse := pe, cells := cellsOf n, time := q.time }
            else q.rxFrame lp body keep n ts
          if r.2 then r.1 else p.retried r.1

/-! ### Receive descriptors and delivery (R422) -/

/-- Read the descriptor at index `i` of a queue's ring. -/
def Part.netDesc (p : Part) (q i : Nat) : Dma :=
  let s := p.queueOf q
  (p.netGrant 2 netRounds).netRead s.inst s.psid 3 (ctxField s.ctx 1 63 0 + 32 * (i % s.dsize)) 32

/-- Fetch one receive descriptor. -/
def Part.rxFetch (p : Part) (q : Nat) : Part × Bool :=
  let s := p.queueOf q
  match p.netDesc q s.dcidx with
  | .wait t => (p.retried t, false)
  | .refused t => (t.netError q, false)
  | .ok t v pois =>
    if pois then (t.netError q, false)
    else
      let t := t.modQueue q (fun x => { x.fetched 1 with rxd := x.rxd ++ [(v % 2 ^ 64, v / 2 ^ 64 % 2 ^ 32)] })
      (t.queueEvent 1 1 s.inst, true)

/-- Bytes of a queue's receive buffers. -/
def QueueSt.bufBytes (s : QueueSt) : Nat := 64 * max 1 (ctxField s.ctx 0 15 0)

/-- Fill buffers in ring order: the cookie of the first, the buffers filled, whether a write was refused. -/
def Part.fillBuffers (q : Nat) : Nat → List Byte → Nat → Nat → Bool → Part → Part × Option (Nat × Nat × Bool)
  | 0, _, c, k, b, p => (p, some (c, k, b))
  | fuel + 1, l, c, k, b, p =>
    if l.isEmpty then (p, some (c, k, b))
    else
      let r := if (p.queueOf q).rxd.isEmpty then p.rxFetch q else (p, true)
      if ¬ r.2 then (r.1, none)
      else
        let s := r.1.queueOf q
        match s.rxd with
        | [] => (r.1, none)
        | (addr, ck) :: rest =>
          let piece := l.take s.bufBytes
          let t := r.1.modQueue q (fun x => { x with rxd := rest })
          let c := if k = 0 then ck else c
          let t := t.netGrant (if (s.rxq.head?.bind (·.job)).isSome then 4 else 0) netRounds
          match t.netWrite s.inst s.psid 0 addr piece.length (bytesNat piece) false with
          | .wait t => (p.retried t, none)
          | .refused t => Part.fillBuffers q fuel (l.drop s.bufBytes) c (k + 1) true t
          | .ok t _ _ => Part.fillBuffers q fuel (l.drop s.bufBytes) c (k + 1) b t

/-- Buffers that a frame needs, 16 at most. -/
def QueueSt.need (s : QueueSt) (f : RxFrame) : Nat := min 16 ((f.data.length + s.bufBytes - 1) / s.bufBytes)

/-- The first waiting frame finds its descriptors and a record slot. -/
def QueueSt.ready (s : QueueSt) (f : RxFrame) : Bool :=
  decide (s.slots > 0) && decide (s.rxd.length + s.posted ≥ s.need f)

/-- The first frame leaves the queue's waiting frames. -/
def Part.rxPop (p : Part) (q : Nat) (f : RxFrame) : Part :=
  (p.modQueue q (fun x => { x with rxq := x.rxq.drop 1 })).pauseCheck f.lp

/-- RX_DELIVERY: the first waiting frame is written to its buffers, and then its record. -/
def Part.rxDelivery (q : Nat) (p : Part) : Part :=
  let s := p.queueOf q
  match s.rxq with
  | [] => p
  | f :: _ =>
    if ¬ p.netOn ∨ s.state ≠ .enabled then p
    else if ¬ s.ready f then
      if ctxField s.ctx 3 19 10 ≠ 0 then p
      else
        let r := (p.rxPop q f).rxDrop q f 1
        if r.2 then r.1 else p.retried r.1
    else
      match Part.fillBuffers q (s.need f) f.data 0 0 false p with
      | (t, none) => if (t.queueOf q).state = .error then p.retried t |>.netError q else p.retried t
      | (t, some (c, k, bad)) =>
        let st := higher (higher f.status (if f.data.length > 16 * s.bufBytes then 9 else 0)) (higher (if f.dly then 2 else 0) (if bad then 10 else 0))
        let r : NetRec := { ts := f.ts, cookie := c, mark := f.mark, hash := f.hash, status := st, lp := f.lp, nbuf := k, fhit := f.fhit,
                            len := f.len, flow := f.flow, parse := f.parse, dly := f.dly, mcrep := f.job.isSome, moved := !bad }
        match (t.rxPop q f).netRecord q r with
        | (t, true) => t.jobStep f.job (!bad)
        | (t, false) => p.retried t

/-- RXWAIT_EXPIRY. -/
def Part.rxwaitExpiry (q : Nat) (p : Part) : Part :=
  let s := p.queueOf q
  match s.rxq with
  | [] => p
  | f :: _ =>
    if ¬ p.netOn ∨ s.state ≠ .enabled ∨ s.ready f then p
    else
      let t := p.advance (f.time + 1000 * ctxField s.ctx 3 19 10 - p.time)
      let r := (t.rxPop q f).rxDrop q f 1
      if r.2 then r.1 else p.retried r.1

/-! ### Transmit descriptors (R421, R471) -/

/-- The descriptors of the next frame: `none` while it must wait or the ring could not be read; the list stops at
EOP, at the sixteenth, or where software has posted no more. -/
def Part.txDescs (q : Nat) : Nat → Nat → List Nat → Part → Part × Option (List Nat)
  | 0, _, l, p => (p, some l)
  | fuel + 1, i, l, p =>
    if i = (p.queueOf q).pidx then (p, some l)
    else match p.netDesc q i with
      | .wait t => (p.retried t, none)
      | .refused t => (t.netError q, none)
      | .ok t v pois =>
        if pois then (t.netError q, none)
        else if v.testBit 110 then (t, some (l ++ [v]))
        else Part.txDescs q fuel ((i + 1) % 65536) (l ++ [v]) t

/-- LEN of a transmit descriptor. -/
def descLen (v : Nat) : Nat := v / 2 ^ 112 % 65536

/-- Read a frame's data; the Bool says that some was refused or poisoned. -/
def Part.txData (s : QueueSt) : List Nat → List Byte → Bool → Part → Part × Option (List Byte × Bool)
  | [], l, b, p => (p, some (l, b))
  | d :: r, l, b, p =>
    match (p.netGrant 1 netRounds).netRead s.inst s.psid 1 (d % 2 ^ 64) (descLen d) with
    | .wait t => (p.retried t, none)
    | .refused t => Part.txData s r l true t
    | .ok t v pois => Part.txData s r (l ++ natBytes (descLen d) v) (b || pois) t

/-- A queued descriptor that is not to be fetched completes with a status (R395, R396, R440). -/
def Part.stopStep (p : Part) (q st : Nat) : Part :=
  let s := p.queueOf q
  if s.slots = 0 ∨ p.bmeHeld s (ctxField s.ctx 1 63 0 + 32 * (s.dcidx % s.dsize)) then p
  else match p.netDesc q s.dcidx with
    | .wait t => p.retried t
    | .refused t => t.netError q
    | .ok t v _ =>
      let t := t.modQueue q (fun x => x.fetched 1)
      let r : NetRec := { ts := t.time, cookie := v / 2 ^ 64 % 2 ^ 32, mark := 0, hash := 0, status := st, lp := (if s.isTx then s.lp else 0),
                          nbuf := 1, fhit := false, len := 0, flow := 0, parse := Parse.zero, dly := false, mcrep := false, moved := false }
      match t.netRecord q r with
      | (t, true) => t
      | (t, false) => p.retried t

/-- There are cells for a transmit frame (R431, R434): of the transmit reserve, or of the shared pool when the reserves exceed
the buffer. -/
def Part.txFits (p : Part) (c : Nat) : Bool :=
  if p.reserves > 32768 then decide (p.cellsUsed + c ≤ 32768) else decide (p.txCells + c ≤ p.rg F.NET_BUFCFG_TXRES)

/-- The next transmit frame of a queue is fetched (R421, R471). -/
def Part.txFetch (p : Part) (q : Nat) : Part :=
  let s := p.queueOf q
  if s.posted = 0 ∨ s.slots = 0 then p
  else match Part.txDescs q 16 s.dcidx [] p with
    | (t, none) => if (t.queueOf q).state = .error then (p.retried t).netError q else p.retried t
    | (t, some ds) =>
      let n := ds.length
      let eop := (ds.getLastD 0).testBit 110
      let d0 := ds.headD 0
      let total := sumNat (ds.map descLen)
      let cells := cellsOf total
      if n = 0 ∨ (¬ eop ∧ n < 16) ∨ t.descUsed + n > 4096 then p.retried t
      else
        let refuse := decide (t.duse s.inst + n > t.dmax s.inst)
        let bad := !eop || !d0.testBit 111
        let st0 := if bad then 7 else if refuse then 3 else if total < 14 then 8 else 0
        let put (r : Part) (data : List Byte) (st c : Nat) : Part :=
          let f : TxFrame := { data := data, nbuf := n, desc := d0 / 2 ^ 64, status := st, cells := c, time := s.postedAt n p.time, waited := false, job := none }
          let r := r.modQueue q (fun x => { x.fetched n with txq := x.txq ++ [f] })
          let r := r.queueEvent 1 n s.inst
          let r := if st = 3 then ((r.incWrap F.VEN_REFUSED_COUNT 1 s.inst).1).queueEvent 3 1 s.inst else r
          (r.txFlushAll q).venQuota s.inst
        if st0 ≠ 0 then put t [] st0 0
        else if ¬ t.txFits cells then p.retried t
        else match Part.txData s ds [] false t with
          | (r, none) => p.retried r
          | (r, some (data, b)) => put r data (if b then 10 else 0) cells

/-- DESCRIPTOR_FETCH. -/
def Part.descriptorFetch (q : Nat) (p : Part) : Part :=
  let s := p.queueOf q
  if ¬ p.netOn ∨ p.pkt.resetAt.isSome ∨ s.state ≠ .enabled then p
  else
    let lim := if s.host ∧ ¬ p.epBme then some (s.pidx, (s.stop.map (·.2)).getD 12) else s.stop
    match lim with
    | some (i, st) =>
      if (i + 65536 - s.dcidx) % 65536 = 0 then
        (if s.host ∧ ¬ p.epBme then p else (p.modQueue q (fun x => { x with stop := none })))
      else p.stopStep q st
    | none =>
      if s.isTx then p.netBoundary.txFetch q
      else if s.posted = 0 ∨ s.rxd.length ≥ 8 ∨ p.descUsed ≥ 4096 then p
      else (p.rxFetch q).1

/-! ### Transmission (R434, R436) -/

/-- Flags of a transmit descriptor, whose bytes 8 to 31 are kept: bit `b` of bytes 12 to 15. -/
def TxFrame.flag (f : TxFrame) (b : Nat) : Bool := f.desc.testBit (32 + b)
def TxFrame.keySlot (f : TxFrame) : Nat := f.desc / 2 ^ 83 % 8192
def TxFrame.vlanTag (f : TxFrame) : Nat := f.desc / 2 ^ 80 % 8 * 8192 + f.desc / 2 ^ 64 % 4096
def TxFrame.group (f : TxFrame) : Nat := f.desc / 2 ^ 96 % 4096
def TxFrame.tail (f : TxFrame) : Nat := f.desc / 2 ^ 128 % 2 ^ 64

/-- Bytes of the bucket of R472, in eightieths. -/
def Part.bucketCap (p : Part) (i : Nat) : Nat :=
  let b := p.rg F.VEN_BW_BURST i
  (if b = 0 then 16 else b) * 1024 * 80

/-- The token bucket is brought up to now: RATE × 12.5 MB/s is RATE eightieths of a byte each nanosecond. -/
def Part.tokenFill (p : Part) (i : Nat) : Part :=
  let n := p.rg F.VEN_BW_RATE i * (p.time - (p.instOf i).tokAt)
  p.modInst i (fun v => { v with tokens := (if v.tokens + n > p.bucketCap i then max v.tokens (p.bucketCap i) else v.tokens + n), tokAt := p.time })

/-- The instance has exhausted its share. -/
def Part.tokensOut (p : Part) (i : Nat) : Bool := p.rgOn F.VEN_BW_EN i && decide ((p.instOf i).tokens < 0)

/-- The logical port is down (R436). -/
def Part.lpDown (p : Part) (n : Nat) : Bool := !p.rgOn F.NET_LP_CFG_EN n || !p.macUp (p.rg F.NET_LP_CFG_MAC n)

/-- A queue has a frame for its logical port, whatever its share. -/
def QueueSt.hasFrame (s : QueueSt) : Bool :=
  match s.txq with | f :: _ => decide (f.status = 0) && decide (f.job = none) && decide (s.state ≠ .disabled) | [] => false

/-- Queues of a logical port and class with a frame. -/
def Part.portQueues (p : Part) (n c : Nat) : List Nat :=
  (p.pkt.q.filter (fun x => x.2.isTx && decide (x.2.lp = n) && decide (ctxField x.2.ctx 0 22 21 = c) && x.2.hasFrame)).map (·.1)

/-- Deficit round robin among the queues of a class: the queue last served goes on while its deficit covers its
frame; each turn adds QUANTUM × 64 bytes (R434). A quantum of 0 is applied as 1. -/
def Part.drrPick (qs : List Nat) : Nat → Nat → Bool → Part → Part × Option Nat
  | 0, _, _, p => (p, none)
  | fuel + 1, i, fresh, p =>
    match qs[i % max 1 qs.length]? with
    | none => (p, none)
    | some q =>
      let p := if fresh then p.modQueue q (fun x => { x with deficit := x.deficit + 64 * max 1 (ctxField x.ctx 0 15 0) }) else p
      let s := p.queueOf q
      let n := ((s.txq.map (fun f => f.data.length)).headD 0)
      if n ≤ s.deficit then (p.modQueue q (fun x => { x with deficit := (if x.txq.length ≤ 1 then 0 else x.deficit - n) }), some q)
      else Part.drrPick qs fuel (i + 1) true p

/-- A frame after checksums, tag and protection; `.inl` the status that stops it. -/
def Part.txBuild (p : Part) (f : TxFrame) (inst : Nat) (body : List Byte) (pr : Parse) : Part × (Nat ⊕ List Byte) :=
  let g := insertChecksums body pr (f.flag 13) (f.flag 12)
  let g := if f.flag 9 then g.take 12 ++ beBytes 2 0x8100 ++ beBytes 2 f.vlanTag ++ g.drop 12 else g
  if f.flag 7 then
    match p.cryptoTx f.keySlot inst f.tail g with
    | (q, .fail st) => (q, .inl st)
    | (q, .ok h) => (q, .inr h)
    | (q, .plain) => (q, .inr g)
  else (p, .inr g)

/-- The first frame of queue `q` leaves on logical port `n` (R404, R407, R408, R434). -/
def Part.txDepart (p : Part) (n q : Nat) (f : TxFrame) : Part × Bool :=
  let s := p.queueOf q
  let m := p.rg F.NET_LP_CFG_MAC n
  let keep := f.flag 10
  let total := f.data.length
  let late := decide (ctxField s.ctx 3 9 0 ≠ 0) && decide (p.time - f.time > 1000 * ctxField s.ctx 3 9 0)
  let raw := if keep then f.data.take (total - 4) else f.data
  let pr := parseFrame raw
  let body := if late ∧ p.rgOn F.NET_LP_CFG_MARKECN n then markCe raw pr else raw
  let ends (t : Part) (st len mark : Nat) : Part × Bool := t.txEnd q (f.record n st len mark t.time pr late)
  if p.lpDown n then ends (p.netCount F.NET_LP_TXDOWN_COUNT n) 1 0 0
  else if keep ∧ total < 64 then ends p 8 0 0
  else if pr.status = 7 then ends p 7 0 0
  else match p.txBuild f s.inst body pr with
    | (t, .inl st) => ends t st 0 0
    | (t, .inr g) =>
      let g := if keep then g else g ++ List.replicate (60 - g.length) 0
      if f.flag 8 then
        let fr : RxFrame := { data := g ++ (if t.rgOn F.NET_LP_CFG_FCSCT n then fcsBytes g else []), len := g.length + 4, lp := n, ts := t.time,
                              status := pr.status, hash := 0, mark := 0, flow := 0, fhit := false, dly := false, job := none, parse := pr,
                              cells := cellsOf (g.length + 4), time := t.time }
        let fr0 : RxFrame := { fr with cells := f.cells }
        t.replicate f.group fr0 g none (some q)
      else if g.length + 4 > t.maxLen m then ends t 9 0 0
      else
        let own := f.data.drop (total - 4)
        let stomp := keep && decide (own ≠ fcsBytes g)
        let out := g ++ (if stomp then (fcsBytes g).map (~~~ ·) else fcsBytes g)
        let t := (t.modPkt (fun k => { k with wire := (m, out) :: k.wire })).bwCount 3 1 m 0 out.length
        let t := if stomp then (t.netCount F.NET_MAC_STOMP_COUNT m).rasCount tileN 3 2 2 1 0 .unstated m 0
          else ((t.netCount F.NET_MAC_TXOK_COUNT m).netCount48 F.NET_MAC_TXBYTES_LO_COUNT F.NET_MAC_TXBYTES_HI_COUNT m out.length).netCount
            F.NET_LP_TXOK_COUNT n
        let t := t.parseEvent 2 (some s.inst)
        let t := if late then t.parseEvent 7 (some s.inst) else t
        let t := if t.rgOn F.VEN_BW_EN s.inst then t.modInst s.inst (fun v => { v with tokens := v.tokens - 80 * out.length }) else t
        ends t (if stomp then 10 else if pr.status = 6 then 6 else if late then 2 else 0) out.length 0

/-- What a departure on logical port `n` begins with: the boundary of the settings, the tokens of its queues filled, and the frames
that now wait for tokens counted once (R434, R472). -/
def Part.txPrepare (p : Part) (n : Nat) : Part :=
  let b := p.netBoundary
  let all := (List.range 4).flatMap (fun c => b.portQueues n c)
  let b := all.foldl (fun (r : Part) (q : Nat) => r.tokenFill (r.queueOf q).inst) b
  all.foldl (fun (r : Part) (q : Nat) =>
    let s := r.queueOf q
    if r.tokensOut s.inst ∧ (s.txq.head?.map (·.waited)) = some false then
      ((r.incWrap F.VEN_BWDLY_COUNT 1 s.inst).1).modQueue q (fun x =>
        { x with txq := (match x.txq with | h :: t => { h with waited := true } :: t | [] => []) })
    else r) b

/-- Logical port `n` sends nothing now: its link is down and it holds its frames, or its MAC is paused (R402, R434). -/
def Part.txHeld (b : Part) (n : Nat) : Bool :=
  let paused := (b.pkt.pause.find? (b.rg F.NET_LP_CFG_MAC n)).isSome
  (b.lpDown n && b.rgOn F.NET_LP_CFG_DOWNHOLD n) || (!b.lpDown n && paused)

/-- The queue of port `n` whose turn it is, by class and then by deficit round robin (R434, R435). -/
def Part.txTurn (b : Part) (n : Nat) : Part × Option Nat :=
  let elig (c : Nat) : List Nat := (b.portQueues n c).filter (fun q => !b.tokensOut (b.queueOf q).inst)
  let req := (List.range 4).filter (fun c => !(elig c).isEmpty)
  let base := [b.rg F.NET_LP_CLS_B0 n, b.rg F.NET_LP_CLS_B1 n, b.rg F.NET_LP_CLS_B2 n, b.rg F.NET_LP_CLS_B3 n]
  let st := b.pkt.arb.get (base, 0) n
  match arbitrate st.1 base st.2 req with
  | none => (b, none)
  | some (c, prio, ptr) =>
    let qs := elig c
    let last := b.pkt.drr.get 0 (4 * n + c)
    -- the queue last served goes on with its deficit; else the next one has its turn
    let start := match qs.idxOf? last with | some i => (i, false) | none => ((qs.findIdx (fun q => q > last)), true)
    match Part.drrPick qs (200 * (qs.length + 1)) start.1 start.2 b with
    | (_, none) => (b, none)
    | (r, some q) => (r.modPkt (fun s => { s with arb := s.arb.put n (prio, ptr), drr := s.drr.put (4 * n + c) q }), some q)

/-- TX_FRAME_DEPART: a round of the scheduler of logical port `n` (R434). -/
def Part.txFrameDepart (n : Nat) (p : Part) : Part :=
  if ¬ p.netOn ∨ p.pkt.resetAt.isSome ∨ n ≥ 32 then p
  else
    let b := p.txPrepare n
    if b.txHeld n then b
    else
      match b.txTurn n with
      | (r, none) => r
      | (r, some q) =>
        match (r.queueOf q).txq with
        | [] => r
        | f :: _ =>
          match r.txDepart n q f with
          | (t, true) => (t.txFlushAll q).venQuota (r.queueOf q).inst
          | (t, false) => p.retried t

/-! ### Doorbells (R420) -/

/-- A discarded doorbell write: NET_STAT.DBREJ and an entry of the log of tile N. -/
def Part.bellDiscard (p : Part) (q init : Nat) : Part :=
  ((p.setRg F.NET_STAT_DBREJ 1).rasLog tileN 0xFF 9 0 init 0 .unstated).queueEvent 4 1 (p.queueOf q).inst

/-- The rules that let a doorbell write pass. -/
def Part.bellOk (p : Part) (q size vmid : Nat) (host : Bool) : Bool :=
  let s := p.queueOf q
  p.netOn && decide (s.state = .enabled) && (decide (vmid = 0) || decide (vmid = s.vmid)) && (!host || s.host) && decide (size = 4)

/-- PRODUCER_DOORBELL: a write of `v` of `size` bytes with a VMID, through BAR2 when `host`. -/
def Part.producerBell (q v size vmid : Nat) (host : Bool) (init : Nat) (p : Part) : Part :=
  if ¬ p.hasPe ∨ q ≥ 16384 then p
  else if ¬ p.bellOk q size vmid host then p.bellDiscard q init
  else
    let s := p.queueOf q
    let i := v % 65536
    if s.ahead i > s.dsize then (p.bellDiscard q init).netError q
    else p.modQueue q (fun x => x.rung i p.time)

/-- COMPLETION_DOORBELL. -/
def Part.completionBell (q v size vmid : Nat) (host : Bool) (init : Nat) (p : Part) : Part :=
  if ¬ p.hasPe ∨ q ≥ 16384 then p
  else if ¬ p.bellOk q size vmid host then p.bellDiscard q init
  else
    let s := p.queueOf q
    let i := v % 65536
    let left := (s.cpidx + 65536 - i) % 65536
    if left > s.csize then (p.bellDiscard q init).netError q
    else
      let p := p.modQueue q (fun x => { x with ccidx := i, times := x.times.drop (x.times.length - left),
                                               armed := x.armed || v.testBit 31 })
      p.netIrq q

/-! ### Queue commands (R419) -/

/-- A queue context that enable refuses with ERRCODE 2. -/
def Part.ctxBad (p : Part) (c : Nat) : Bool :=
  let d := ctxField c 0 30 27
  let e := ctxField c 0 26 23
  decide (ctxField c 0 63 63 = 0) || decide (ctxField c 4 15 0 ≠ 0) || decide (c / 2 ^ 320 ≠ 0) || decide (ctxField c 1 5 0 ≠ 0) ||
    decide (ctxField c 2 5 0 ≠ 0) || decide (d < 6) || decide (e < 6) ||
    (decide (ctxField c 0 62 62 = 1) && !p.rgOn F.NET_LP_CFG_EN (ctxField c 0 20 16))

/-- Enable a queue (R419). The answer: 0 done, an ERRCODE, or 16 when the read must wait. -/
def Part.queueEnable (p : Part) (q : Nat) : Part × Nat :=
  let p0 := p.netBoundary
  if (p0.queueOf q).state ≠ .disabled then (p, 1)
  else match p0.ioBytes (p0.ioAgent tileN 3) 255 (p0.addrOf F.NET_QCTXB_LO_PA F.NET_QCTXB_HI_PA + 64 * q) 64 (lineFuel 64) with
    | .wait t => (p.retried t, 16)
    | .got t c pois =>
      if pois then (t, 4)
      else if t.ctxBad c then (t, 2)
      else if t.venState (ctxField c 0 61 52) = 0 then (t, 3)
      else
        ((t.modQueue q (fun x => { QueueSt.reset with state := .enabled, ctx := c, drops := x.drops, lost := x.lost })).venQuotas, 0)

/-- A draining queue completes what it can: waiting frames, fetched receive descriptors (R419). `st` is the status
of a waiting receive frame. -/
def Part.drainStep (q st : Nat) : Nat → Part → Part
  | 0, p => p.txFlushAll q
  | fuel + 1, p =>
    let s := p.queueOf q
    match s.rxq with
    | f :: _ =>
      let r := (p.rxPop q f).rxDrop q f st
      if r.2 then Part.drainStep q st fuel r.1 else p.retried r.1
    | [] =>
      match s.rxd with
      | (_, ck) :: rest =>
        if s.slots = 0 then p.txFlushAll q
        else
          let r : NetRec := { ts := p.time, cookie := ck, mark := 0, hash := 0, status := 11, lp := 0, nbuf := 1, fhit := false, len := 0,
                              flow := 0, parse := Parse.zero, dly := false, mcrep := false, moved := false }
          match (p.modQueue q (fun x => { x with rxd := rest })).netRecord q r with
          | (t, true) => Part.drainStep q st fuel t
          | (t, false) => p.retried t
      | [] => p.txFlushAll q

def Part.drain (p : Part) (q st : Nat) : Part :=
  let s := p.queueOf q
  (Part.drainStep q st (s.rxq.length + s.rxd.length + 1) p).venQuotas

/-- Fetched frames that have not begun on the wire are to complete with a status. -/
def Part.abortTx (p : Part) (q st : Nat) : Part :=
  p.modQueue q (fun x => { x with txq := x.txq.map (fun f => if f.job.isSome then f else { f with status := higher f.status st, cells := 0 }) })

/-- OP 1 and OP 3: the queue enters DRAINING. -/
def Part.queueDrain (p : Part) (q : Nat) (abort : Bool) : Part :=
  if (p.queueOf q).state = .disabled then p
  else
    let p := p.modQueue q (fun x => { x with state := (if x.state = .error then .error else .draining) })
    (if abort then p.abortTx q 11 else p).drain q 1

/-- Every fetched descriptor has its record and nothing waits. -/
def QueueSt.quiet (s : QueueSt) : Bool := s.rxq.isEmpty && s.rxd.isEmpty && s.txq.isEmpty

/-- A draining queue goes on, and becomes DISABLED once it is quiet. -/
def Part.queueSettle (p : Part) (q : Nat) : Part :=
  let s := p.queueOf q
  if s.state = .draining ∨ s.state = .error then
    let p := p.drain q 1
    let s := p.queueOf q
    if s.quiet then
      (p.modQueue q (fun x => { x with state := .disabled, errseen := x.errseen || decide (x.state = .error) })).venQuotas
    else p
  else p

/-- The four words of a queue read (R442). -/
def QueueSt.readWords (s : QueueSt) : List Nat :=
  [s.pidx * 65536 + s.dcidx, s.cpidx * 65536 + s.ccidx, s.drops * 65536 + s.lost,
   s.cells % 65536 * 65536 + s.errseen.toNat * 8 + s.state.code]

/-- OP 2 through the direct registers. -/
def Part.queueRead (p : Part) (q : Nat) : Part :=
  let s := p.queueOf q
  let p := (p.setRg F.NET_QREAD0_PIDX s.pidx).setRg F.NET_QREAD0_DCIDX s.dcidx
  let p := (p.setRg F.NET_QREAD1_CPIDX s.cpidx).setRg F.NET_QREAD1_CCIDX s.ccidx
  let p := (p.setRg F.NET_QREAD2_DROPS s.drops).setRg F.NET_QREAD2_LOST s.lost
  ((p.setRg F.NET_QREAD3_CELLS s.cells).setRg F.NET_QREAD3_ERRSEEN s.errseen.toNat).setRg F.NET_QREAD3_STATE s.state.code

def Part.clearLoss (p : Part) (q : Nat) : Part := p.modQueue q (fun x => { x with drops := 0, lost := 0 })

/-- A write of GO to NET_QCMD (R419). Disable and abort stay busy until the queue is DISABLED. -/
def Part.qCmd (p : Part) : Part :=
  let q := p.rg F.NET_QCMD_QUEUE
  if ¬ p.netOn then p
  else if p.pkt.qcmd.isSome then p.setRg F.NET_QCMDSTAT_REJ 1
  else
    let done (t : Part) (e : Nat) : Part :=
      let t := (t.setRg F.NET_QCMDSTAT_ERRCODE e).setRg F.NET_QCMDSTAT_DONE 1
      if e = 0 then t else t.setRg F.NET_QCMDSTAT_ERR 1
    match p.rg F.NET_QCMD_OP with
    | 0 =>
      match p.queueEnable q with
      | (t, 16) => t
      | (t, e) => done t e
    | 2 => done (if p.rgOn F.NET_QCMD_CLR then (p.queueRead q).clearLoss q else p.queueRead q) 0
    | op =>
      if (p.queueOf q).state = .disabled then done p 0
      else
        let p := (p.setRg F.NET_QCMDSTAT_BUSY 1).modPkt (fun s => { s with qcmd := some (.direct, q) })
        p.queueDrain q (decide (op = 3))

/-! ### Flow commands (R417) -/

/-- Drop cached buckets: one, or everything with the groups. -/
def Part.flowDrop (p : Part) (all : Bool) (b : Nat) : Part :=
  p.modPkt (fun s => if all then { s with flow := [], mc := [] } else { s with flow := s.flow.del b })

/-- A flow command starts. Whether lookups before its end already use the new bucket is open. -/
def Part.flowStart (p : Part) (w : Waiter) (all : Bool) (b : Nat) : Part :=
  let p := p.modPkt (fun s => { s with flowcmd := some { all := all, bucket := b, who := w } })
  if p.freshNat % 2 = 1 then p.used.flowDrop all b else p.used

/-- A write of GO to NET_FLOWCMD. -/
def Part.flowCmd (p : Part) : Part :=
  if ¬ p.netOn then p
  else if p.pkt.flowcmd.isSome then p.setRg F.NET_FLOWSTAT_REJ 1
  else (p.setRg F.NET_FLOWSTAT_BUSY 1).flowStart .direct (p.rgOn F.NET_FLOWCMD_ALL) (p.rg F.NET_FLOWCMD_BUCKET)

/-! ### Reset of the engine (R438) -/

/-- Nothing that a reset must complete is left. -/
def Part.netQuiet (p : Part) : Bool := p.pkt.q.all (fun x => x.2.quiet)

/-- The engine enters reset: queues, caches and counters are cleared, the NET_ pages return to reset. -/
def Part.netEnterReset (p : Part) : Part :=
  let st := [F.NET_CTL_RST, F.NET_STAT_BUFCFG, F.NET_STAT_OVF, F.NET_STAT_DBREJ, F.NET_STAT_ABANDON]
  let kept := st.map (fun f => (f, p.rg f))
  let pages := Blk.netg.place 0 :: ((List.range 16).map Blk.mac.place ++ (List.range 32).map Blk.lp.place)
  let p := pages.foldl (fun (r : Part) (g : Pg) => r.resetPage g) p
  let p := kept.foldl (fun (r : Part) (x : Fld × Nat) => r.setRg x.1 x.2) p
  let p := if p.rgOn F.NET_CTL_RST then p else p.setRg F.NET_STAT_INRESET 0
  (p.modPkt (fun s => { PktSt.reset with owner := s.owner, wire := s.wire })).venQuotas

/-- The engine goes on with its reset: frames and descriptors complete with ABORTED_RESET. -/
def Part.netResetStep (p : Part) : Part :=
  let p := p.pkt.q.foldl (fun (r : Part) (x : Nat × QueueSt) => r.drain x.1 11) p
  if p.netQuiet then p.netEnterReset else p

/-- RST is written to 1: fetch stops, multicast ends with what it has delivered. -/
def Part.netReset (p : Part) : Part :=
  let p := p.modPkt (fun s => { s with resetAt := some p.time })
  let p := p.pkt.q.foldl (fun (r : Part) (x : Nat × QueueSt) =>
    (r.modQueue x.1 (fun y => { y with state := (if y.state = .enabled then .draining else y.state),
                                       txq := y.txq.map (fun f => { f with job := none }) })).abortTx x.1 11) p
  (p.setRg F.NET_STAT_INRESET 1).netResetStep

/-- NET_CTL.RST was written (R438): `old` is the value before. -/
def Part.netRst (p : Part) (old : Nat) : Part :=
  let new := p.rg F.NET_CTL_RST
  if old = 0 ∧ new = 1 then p.netReset
  else if new = 0 ∧ p.pkt.resetAt = none then p.setRg F.NET_STAT_INRESET 0
  else p

/-- Descriptors of a queue for which no record slot freed within 1 ms are abandoned (R427). -/
def Part.netAbandon (p : Part) (q : Nat) : Part :=
  let s := p.queueOf q
  let n := s.rxd.length + s.txDesc
  let p := p.modQueue q (fun x => { x with rxq := [], rxd := [], txq := [] })
  if n = 0 then p else (p.setRg F.NET_STAT_ABANDON 1).rasLog tileN 0xFF 13 0 3 0 (.named [16, n])

/-- NET_LP_ and NET_MAC_ on a switch-off of Ethernet island `k` (R439). -/
def Part.etherOff (p : Part) (k : Nat) : Part :=
  (List.range 8).foldl (fun (r : Part) (j : Nat) => r.macTo (8 * k + j) 0) p

/-! ### The endpoint host's queues (R395, R396, R440) -/

/-- Descriptors of host queues that are posted now complete unfetched with a status. -/
def Part.hostStop (p : Part) (st : Nat) : Part :=
  p.pkt.q.foldl (fun (r : Part) (x : Nat × QueueSt) =>
    if x.2.host ∧ x.2.state = .enabled then r.modQueue x.1 (fun y => { y with stop := some (y.pidx, st) }) else r) p

/-- BME_CLEAR: the host clears Bus Master Enable. -/
def Part.hostBmeClear (p : Part) : Part := if p.epMode ∧ p.epBme then p.bmeClear.hostStop 12 else p.bmeClear
/-- BME_SET: issue resumes with the next descriptor posted after it. -/
def Part.hostBmeSet (p : Part) : Part := if p.epMode ∧ ¬ p.epBme then (p.hostStop 12).bmeSet else p.bmeSet
/-- FLR_INITIATE: queued descriptors complete with ABORTED_RESET. -/
def Part.hostFlr (p : Part) : Part := if p.epMode then p.flrInitiate.hostStop 11 else p.flrInitiate

end Sys2Proof.Machine
end

