-- ==== Sys2Proof/Machine/Veneer.lean ====
section
/-!
DEFINITION. Veneer (R460 to R481): tenant commands, manager commands, quotas, mailboxes, and the completions of
the queue, flow and key sequencers that the direct registers share with it.
-/
namespace Sys2Proof.Machine

/-- A staging word as the tenant wrote it; the register itself reads zero. -/
def Part.stg (p : Part) (i n : Nat) : Nat := p.rg F.VEN_STG_DATA i n
/-- All staging as one number. -/
def Part.staged (p : Part) (i : Nat) : Nat := (List.range 16).foldl (fun a n => a + p.stg i n * 2 ^ (32 * n)) 0
def Part.stgClear (p : Part) (i : Nat) : Part := (List.range 16).foldl (fun (r : Part) (n : Nat) => r.setRg F.VEN_STG_DATA 0 i n) p

/-- A tenant command ends: CODE 0 is success (R467, R468). DESIGN CHOICE (notes/assumptions/89.md): one that its quota refuses
counts in VEN_REFUSED, as the worked example of R475 has it; the register's own row names R471's frames only. -/
def Part.venEnd (p : Part) (i code : Nat) : Part :=
  let p := if code = 2 then (p.incWrap F.VEN_REFUSED_COUNT 1 i).1 else p
  let p := ((p.stgClear i).setRg F.VEN_CMDSTAT_BUSY 0 i).setRg F.VEN_CMDSTAT_CODE code i
  let p := if code = 0 then p.setRg F.VEN_CMDSTAT_DONE 1 i else p.setRg F.VEN_CMDSTAT_ERR 1 i
  let p := (p.modInst i (fun v => { v with cmd := none })).venEvtT i F.VEN_TEVT_CMD
  let p := p.venQuota i
  p

/-- Which sequencer a tenant command uses: 0 queues, 1 flows, 2 keys, 3 none. -/
def venSeq (op : Nat) : Nat := if op < 4 then 0 else if op < 6 then 1 else if op < 8 then 2 else 3

def Part.seqFree (p : Part) (n : Nat) : Bool :=
  match n with
  | 0 => p.pkt.qcmd.isNone
  | 1 => p.pkt.flowcmd.isNone
  | 2 => p.key.cmd.isNone
  | _ => true

/-- CODE 5 and 6 of R468: the context that a queue's PSID names (R210). 16: the read must wait. -/
def Part.psidCode (p : Part) (i ctx : Nat) : Part × Nat :=
  let base := p.addrOf F.IOT_DMB_LO_PA F.IOT_DMB_HI_PA + 16 * i
  let code (c : Nat) : Nat := if c = 11 then 6 else 5
  match p.iotRead 0 base with
  | .wait q => (p.retried q, 16)
  | .bad q c => (q, code c)
  | .got q a =>
    if domBad a then (q, 5)
    else
      let n := ctxField ctx 0 51 32
      let own := decide (ctxField ctx 0 31 31 = 1)
      if own ∧ n ≥ 2 ^ bitsOf a 5 1 then (q, 5)
      else match q.iotRead 0 (if own then bitsOf a 51 12 * 2 ^ 12 + 8 * n else base + 8) with
        | .wait s => (p.retried s, 16)
        | .bad s c => (s, code c)
        | .got s e => (s, if bitsOf e 63 60 = 5 then 0 else 5)

/-- Tile N writes `n` bytes at a physical address. -/
def Part.netPut (p : Part) (addr n v : Nat) : Part × Bool :=
  match p.ioPut (p.ioAgent tileN 3) 255 addr n v false (lineFuel n) with
  | some q => (q, true)
  | none => (p, false)

/-- Tenant OP 0: a staged context is checked, written and enabled (R467, R468). 16: to be given again. -/
def Part.venEnable (p : Part) (i q : Nat) : Part × Nat :=
  let c0 := p.staged i
  let c := c0 - ctxField c0 0 61 52 * 2 ^ 52 + i * 2 ^ 52
  let c := c - ctxField c 3 63 52 * 2 ^ 244 + p.ownerOf i * 2 ^ 244
  if ¬ p.qRange i q then (p, 1)
  else if p.quse i ≥ p.qmax i then (p, 2)
  else if p.ctxBad c then (p, 3)
  else if (p.queueOf q).state ≠ .disabled then (p, 4)
  else match p.psidCode i c with
    | (t, 0) =>
      match t.netPut (t.addrOf F.NET_QCTXB_LO_PA F.NET_QCTXB_HI_PA + 64 * q) 64 c with
      | (t, true) => (t.modQueue q (fun x => { QueueSt.reset with state := .enabled, ctx := c, drops := x.drops, lost := x.lost }), 0)
      | (t, false) => (p.retried t, 16)
    | (t, 16) => (t, 16)
    | (t, e) => (t, e)

/-- The queue's context names the instance, and the queue lies in its range (R468). -/
def Part.venOwns (p : Part) (i q : Nat) : Bool := p.qRange i q && decide ((p.queueOf q).inst = i)

/-- The rule of R469 refuses a staged flow context. -/
def Part.flowDenied (p : Part) (i c : Nat) : Bool :=
  let act := c / 2 ^ 384 % 2 ^ 64
  let lp := c / 2 ^ 336 % 256
  let q0 := act / 2 ^ 43 % 16384
  let n := 2 ^ min 6 (act / 2 ^ 57 % 8)
  let g := act / 2 ^ 31 % 4096
  !(p.rg F.VEN_LPMASK_LP i).testBit lp ||
  (!act.testBit 62 && !(List.range n).all (fun k => p.qRange i ((q0 + k) % 16384))) ||
  (act.testBit 60 && !p.kRange i (act / 2 ^ 18 % 8192)) ||
  (act.testBit 61 && !(p.rgOn F.VEN_MCRANGE_MCOK i && inRange (p.rg F.VEN_MCRANGE_MCBASE i) (p.rg F.VEN_MCRANGE_MCCNT i) g))

/-- A flow context in memory: its 64 bytes and whether they are poisoned. -/
def Part.flowRead (p : Part) (idx : Nat) : Part × Option (Nat × Bool) :=
  match p.ioBytes (p.ioAgent tileN 3) 255 (p.addrOf F.NET_FLOWB_LO_PA F.NET_FLOWB_HI_PA + 64 * idx) 64 (lineFuel 64) with
  | .got q v b => (q, some (v, b))
  | .wait q => (p.retried q, none)

/-- Tenant OP 4 (R468, R469). -/
def Part.venInstall (p : Part) (i idx : Nat) : Part × Nat :=
  let c := p.staged i
  let own := p.pkt.owner.find? idx
  match p.flowRead idx with
  | (t, none) => (t, 16)
  | (t, some (v, pois)) =>
    let valid := !pois && (bucketCtx v 0).isSome
    let key := natBytes 48 (c % 2 ^ 384)
    if (own.isSome ∧ own ≠ some i ∧ (valid ∨ pois)) ∨ (valid ∧ own = none) then (t, 1)
    else if own ≠ some i ∧ t.fuse i ≥ t.fmax i then (t, 2)
    else if (bucketCtx c 0).isNone ∨ idx / 4 ≠ (crc32c key).toNat % 65536 then (t, 3)
    else if pois then (t, 6)
    else if t.flowDenied i c then (t, 7)
    else match t.netPut (t.addrOf F.NET_FLOWB_LO_PA F.NET_FLOWB_HI_PA + 64 * idx) 64 c with
      | (t, true) => ((t.modPkt (fun s => { s with owner := s.owner.put idx i })).flowStart (.tenant i) false (idx / 4), 32)
      | (t, false) => (p.retried t, 16)

/-- V of a flow context is cleared, and its owner record (R469). 0 done, 6 poison, 16 wait. -/
def Part.flowClear (p : Part) (idx : Nat) : Part × Nat :=
  match p.flowRead idx with
  | (t, none) => (t, 16)
  | (t, some (v, pois)) =>
    if pois then (t, 6)
    else match t.netPut (t.addrOf F.NET_FLOWB_LO_PA F.NET_FLOWB_HI_PA + 64 * idx + 55) 1 (v / 2 ^ 440 % 128) with
      | (t, true) => (t.modPkt (fun s => { s with owner := s.owner.del idx }), 0)
      | (t, false) => (p.retried t, 16)

/-- Zero a counter set. -/
def Part.setZero (p : Part) (c : Nat) : Part := p.modVen (fun v => { v with ctr := v.ctr.del c })

/-- What a tenant stages for a key load (R467). -/
def Part.venKey (p : Part) (i : Nat) : KeyLoad :=
  let c := p.stg i 0
  { ctl := c - c / 2 ^ 10 % 1024 * 2 ^ 10 + i * 2 ^ 10, win := p.stg i 1, id := p.stg i 2 + p.stg i 3 * 2 ^ 32,
    seq := p.stg i 4 + p.stg i 5 * 2 ^ 32, salt := p.stg i 6,
    key := (List.range 8).foldl (fun a n => a + p.stg i (7 + n) * 2 ^ (32 * n)) 0 }

/-- A tenant command runs: its CODE, 16 when it must be given again, 32 when its end comes later. -/
def Part.venRun (p : Part) (i op idx : Nat) : Part × Nat :=
  if ¬ p.netOn then (p, 4)
  else match op with
    | 0 => p.netBoundary.venEnable i idx
    | 1 | 3 =>
      if ¬ p.venOwns i idx then (p, 1)
      else if (p.queueOf idx).state = .disabled then (p, 4)
      else (((p.modPkt (fun s => { s with qcmd := some (.tenant i, idx) })).queueDrain idx (decide (op = 3))), 32)
    | 2 =>
      if ¬ p.venOwns i idx then (p, 1)
      else
        let q := ((p.queueOf idx).readWords.zipIdx).foldl (fun (r : Part) (x : Nat × Nat) => r.setRg F.VEN_QREAD_DATA x.1 i x.2) p
        (if (p.stg i 0).testBit 0 then q.clearLoss idx else q, 0)
    | 4 => p.venInstall i idx
    | 5 =>
      if p.pkt.owner.find? idx ≠ some i then (p, 1)
      else match p.flowClear idx with
        | (t, 0) => (t.flowStart (.tenant i) false (idx / 4), 32)
        | (t, e) => (t, e)
    | 6 =>
      let k := p.venKey i
      if ¬ p.kRange i idx ∨ idx ≥ 8192 then (p, 1)
      else if ¬ p.keyValid idx ∧ p.kuse i ≥ p.kmax i then (p, 2)
      else if k.badFormat then (p, 3)
      else ((p.keyLoad idx k).keyStart (.tenant i) [idx], 32)
    | 7 =>
      if ¬ p.kRange i idx ∨ idx ≥ 8192 then (p, 1) else ((p.keyErase idx).keyStart (.tenant i) [idx], 32)
    | 8 =>
      let q := p.stg i 0 % 16384
      if ¬ p.cRange i idx then (p, 1)
      else if ¬ p.qRange i q then (p, 7)
      else ((p.modVen (fun v => { v with bind := v.bind.put q idx })).setZero idx, 0)
    | _ =>
      if ¬ p.cRange i idx then (p, 1)
      else ((p.modVen (fun v => { v with bind := v.bind.filter (fun x => decide (x.2 ≠ idx)) })).setZero idx, 0)

/-! ### Manager commands (R462, R474, R478) -/

/-- A manager command ends. -/
def Part.mgrEnd (p : Part) (i code : Nat) : Part :=
  let p := ((p.setRg F.VEN_MSTAT_BUSY 0 i).setRg F.VEN_MSTAT_DONE 1 i).setRg F.VEN_MSTAT_CODE code i
  let p := if code = 0 then p else p.setRg F.VEN_MSTAT_ERR 1 i
  (p.modInst i (fun v => { v with mcmd := none })).venQuota i

/-- Two ranges overlap. -/
def overlaps (b1 c1 b2 c2 : Nat) : Bool := decide (b1 < b2 + c2) && decide (b2 < b1 + c1) && decide (c1 > 0) && decide (c2 > 0)

/-- CODE of a create (R462), 0 when it succeeds. -/
def Part.createCode (p : Part) (i : Nat) : Nat :=
  let qb (k : Nat) : Nat := p.rg F.VEN_QRANGE_QBASE k
  let qc (k : Nat) : Nat := p.rg F.VEN_QRANGE_QCNT k
  let kb (k : Nat) : Nat := p.rg F.VEN_KRANGE_KBASE k
  let kc (k : Nat) : Nat := p.rg F.VEN_KRANGE_KCNT k
  let cb (k : Nat) : Nat := p.rg F.VEN_CRANGE_CBASE k
  let cc (k : Nat) : Nat := p.rg F.VEN_CRANGE_CCNT k
  if p.venState i ≠ 0 then 1
  else if qb i + qc i > 16384 ∨ kb i + kc i > 8192 ∨ cb i + cc i > 2048 ∨
      p.instances.any (fun j => overlaps (qb i) (qc i) (qb j) (qc j) || overlaps (kb i) (kc i) (kb j) (kc j) || overlaps (cb i) (cc i) (cb j) (cc j))
    then 2
  else if p.fmax i > 262144 - p.asgF ∨ (p.rgOn F.VEN_BW_EN i ∧ p.rg F.VEN_BW_RATE i > 16000 - p.asgBw) then 3
  else 0

/-- The bucket's first contents are open (R472). -/
def Part.tokenStart (p : Part) (i : Nat) : Part :=
  (p.modInst i (fun v => { v with tokens := p.freshNat % (p.bucketCap i + 1), tokAt := p.time })).used

/-- Remove flow contexts that the instance owns, highest number first, while more than `keep` are left. -/
def Part.flowsDown (i keep : Nat) : Nat → Part → Part × Bool
  | 0, p => (p, true)
  | fuel + 1, p =>
    let l := p.ownedFlows i
    if l.length ≤ keep then (p, true)
    else
      let idx := l.getLastD 0
      match p.flowClear idx with
      | (t, 16) => (t, false)
      | (t, 6) => Part.flowsDown i keep fuel ((t.modPkt (fun s => { s with owner := s.owner.del idx })).flowDrop false (idx / 4))
      | (t, _) => Part.flowsDown i keep fuel (t.flowDrop false (idx / 4))

/-- Erase valid slots of the range, highest number first, while more than `keep` are left. -/
def Part.keysDown (p : Part) (i keep : Nat) : Part :=
  ((p.usedSlots i).drop keep).foldl (fun (r : Part) (s : Nat) => r.keyErase s) p

/-- Both mailboxes, VEN_MBCTL and the staging registers are cleared (R478). -/
def Part.venClear (p : Part) (i : Nat) : Part :=
  let p := (List.range 16).foldl (fun (r : Part) (n : Nat) => (r.setRg F.VEN_MBIN_DATA 0 i n).setRg F.VEN_MBOUT_DATA 0 i n) (p.stgClear i)
  ((p.setRg F.VEN_MBCTL_OUTFULL 0 i).setRg F.VEN_MBCTL_INFULL 0 i).setRg F.VEN_MBCTL_OUTOVR 0 i |>.setRg F.VEN_MBCTL_INOVR 0 i

/-- Fields of the manager half (R481). -/
def managerField (key : Nat) : Bool := key % 8192 / 32 * 4 ≥ 0x200

/-- Step 3 to 5 of R478, once every queue of the instance is DISABLED. -/
def Part.venTear (p : Part) (i : Nat) (destroy : Bool) : Part × Bool :=
  match Part.flowsDown i 0 ((p.ownedFlows i).length + 1) p with
  | (t, false) => (t, false)
  | (t, true) =>
    let t := t.keysDown i 0
    let sets := (t.ven.bind.filter (fun x => t.cRange i x.2)).map (·.2)
    let t := t.modVen (fun v => { v with bind := v.bind.filter (fun x => !sets.contains x.2), ctr := v.ctr.filter (fun x => !sets.contains x.1) })
    let t := t.venClear i
    if destroy then
      let t := { t with ctl := t.ctl.filter (fun e => !(inPage (Blk.ven.place i) e.1 && managerField e.1)) }
      ((t.setRg F.VEN_STAT_STATE 0 i).mgrEnd i 0, true)
    else (((t.setRg F.VEN_STAT_STATE 1 i).venEvtT i F.VEN_TEVT_RESET).mgrEnd i 0, true)

/-- Queues of an instance that are not DISABLED, wherever they lie. -/
def Part.instQueues (p : Part) (i : Nat) : List Nat :=
  (p.pkt.q.filter (fun x => decide (x.2.inst = i) && decide (x.2.state ≠ .disabled))).map (·.1)

/-- A queue that has settled ends the direct queue command that waits for it. -/
def Part.queueDone (p : Part) (q : Nat) : Part :=
  if (p.queueOf q).state ≠ .disabled then p
  else match p.pkt.qcmd with
    | some (w, k) =>
      if k ≠ q then p
      else
        let p := p.modPkt (fun s => { s with qcmd := none })
        match w with
        | .direct => ((p.setRg F.NET_QCMDSTAT_BUSY 0).setRg F.NET_QCMDSTAT_ERRCODE 0).setRg F.NET_QCMDSTAT_DONE 1
        | .tenant i => p.venEnd i 0
        | .manager _ => p
    | none => p

/-- A revoke goes on (R474): queues, flows, key slots. -/
def Part.revokeStep (p : Part) (i res : Nat) : Part :=
  let above := decide (res % 2 = 1) && decide (p.quse i > p.qmax i)
  if above then
    let q := (p.usedQueues i).getLastD 0
    p.queueDrain q true
  else
    match (if res.testBit 1 then Part.flowsDown i (p.fmax i) ((p.ownedFlows i).length + 1) p else (p, true)) with
    | (t, false) => t
    | (t, true) => (if res.testBit 2 then t.keysDown i (t.kmax i) else t).mgrEnd i 0

/-- Queues settle one after the other. -/
def Part.settleAll (p : Part) (l : List Nat) : Part := l.foldl (fun (r : Part) (q : Nat) => (r.queueSettle q).queueDone q) p

/-- A manager command goes on, and ends if it can. -/
def Part.mgrStep (p : Part) (i : Nat) : Part :=
  match (p.instOf i).mcmd with
  | none => p
  | some m =>
    if m.op = 3 then
      -- each pass settles what it can; a queue that settles leaves the next one to be aborted
      (List.range ((p.usedQueues i).length + 1)).foldl (fun (r : Part) (_ : Nat) =>
        if (r.instOf i).mcmd.isNone then r
        else (r.revokeStep i m.res).settleAll (((r.revokeStep i m.res).usedQueues i).filter (fun q => decide (((r.revokeStep i m.res).queueOf q).state ≠ .enabled)))) p
    else
      let p := p.settleAll (p.instQueues i)
      if (p.instQueues i).isEmpty then (p.venTear i (decide (m.op = 2))).1 else p

/-- A manager command starts (R462, R474, R478). -/
def Part.mgrStart (p : Part) (i : Nat) : Part :=
  match (p.instOf i).mcmd with
  | none => p
  | some m =>
    match m.op with
    | 0 =>
      let c := p.createCode i
      if c ≠ 0 then p.mgrEnd i c else ((p.setRg F.VEN_STAT_STATE 1 i).tokenStart i).mgrEnd i 0
    | 3 => (p.modInst i (fun v => { v with mcmd := some { m with started := true, time := p.time } })).mgrStep i
    | op =>
      if p.venState i ≠ 1 then p.mgrEnd i 1
      else
        let p := (p.setRg F.VEN_STAT_STATE (if op = 1 then 2 else 3) i).modInst i (fun v => { v with mcmd := some { m with started := true, time := p.time } })
        ((p.instQueues i).foldl (fun (r : Part) (q : Nat) => r.queueDrain q true) p).mgrStep i

/-- A tenant command tries to start; it waits for its sequencer otherwise. -/
def Part.venTry (p : Part) (i : Nat) : Part :=
  match (p.instOf i).cmd with
  | none => p
  | some (op, idx, true) => if op < 10 then p else p.venEnd i idx
  | some (op, idx, false) =>
    let wait (r : Part) : Part := if r.ven.waiting.contains i then r else r.modVen (fun v => { v with waiting := v.waiting ++ [i] })
    if ¬ p.seqFree (venSeq op) then wait p
    else
      let q := p.modVen (fun v => { v with waiting := v.waiting.erase i })
      match q.venRun i op idx with
      | (t, 16) => wait t
      | (t, 32) => t.modInst i (fun v => { v with cmd := some (op, idx, true) })
      | (t, c) => t.venEnd i c

/-- After something has ended: waiting tenant commands start, in order; manager commands that waited for a tenant
command start; queues that have settled end their commands. -/
def Part.venNext (p : Part) : Part :=
  let p := (match p.pkt.qcmd with | some (_, q) => p.queueDone q | none => p)
  let p := p.ven.waiting.foldl (fun (r : Part) (i : Nat) => r.venTry i) p
  (p.ven.inst.map (·.1)).foldl (fun (r : Part) (i : Nat) =>
    match (r.instOf i).mcmd with
    | some m => if m.started then r.mgrStep i else if (r.instOf i).cmd.isSome then r else r.mgrStart i
    | none => r) p
/-- A write of GO to VEN_CMD (R467). -/
def Part.venCmd (p : Part) (i : Nat) : Part :=
  let op := p.rg F.VEN_CMD_OP i
  if (p.instOf i).cmd.isSome ∨ p.venState i ≠ 1 ∨ (p.instOf i).mcmd.isSome ∨ op ≥ 10 then p.setRg F.VEN_CMDSTAT_REJ 1 i
  else
    ((p.setRg F.VEN_CMDSTAT_BUSY 1 i).modInst i (fun v => { v with cmd := some (op, p.rg F.VEN_CMD_INDEX i, false) })).venTry i

/-- A write of GO to VEN_MCMD (R462, R474, R475, R478). -/
def Part.venMcmd (p : Part) (i : Nat) : Part :=
  let op := p.rg F.VEN_MCMD_OP i
  if op ≥ 4 ∨ (p.instOf i).mcmd.isSome then p.setRg F.VEN_MSTAT_REJ 1 i
  else
    let m : MgrCmd := { op := op, res := p.rg F.VEN_MCMD_RES i, started := false, time := p.time }
    let p := (p.setRg F.VEN_MSTAT_BUSY 1 i).modInst i (fun v => { v with mcmd := some m })
    if (p.instOf i).cmd.isSome then p else p.mgrStart i

/-- FLOWCMD_DONE (R417, R469). -/
def Part.flowcmdDone (p : Part) : Part :=
  match p.pkt.flowcmd with
  | none => p
  | some c =>
    let p := (p.flowDrop c.all c.bucket).modPkt (fun s => { s with flowcmd := none })
    let p := match c.who with
      | .direct => (p.setRg F.NET_FLOWSTAT_BUSY 0).setRg F.NET_FLOWSTAT_DONE 1
      | .tenant i => p.venEnd i 0
      | .manager _ => p
    p.venNext

/-- KEY_CMD_DONE: the earlier generation is zeroized (R447). -/
def Part.keyCmdDone (p : Part) : Part :=
  match p.key.cmd with
  | none => p
  | some (w, _) =>
    let p := p.modKey (fun k => { k with cmd := none })
    let p := match w with
      | .direct => (p.setRg F.KEY_CMDSTAT_BUSY 0).setRg F.KEY_CMDSTAT_DONE 1
      | .tenant i => p.venEnd i 0
      | .manager _ => p
    p.venNext

/-- VEN_MCMD_DONE: a manager command goes on and finishes when it can. -/
def Part.venMcmdDone (i : Nat) (p : Part) : Part :=
  match (p.instOf i).mcmd with
  | some m => if m.started then (p.mgrStep i).venNext else p
  | none => p

/-- The sequencer no longer holds the command of instance `i` that was running: the engine's reset cleared it. -/
def Part.seqLost (p : Part) (i : Nat) : Bool :=
  match (p.instOf i).cmd with
  | some (op, _, true) =>
    (decide (venSeq op = 0) && decide (p.pkt.qcmd.map (·.1) ≠ some (.tenant i))) ||
      (decide (venSeq op = 1) && decide (p.pkt.flowcmd.map (·.who) ≠ some (.tenant i)))
  | _ => false

/-- The engine has entered reset (R438): every queue is DISABLED and the caches are empty, so the tenant commands that waited for
that are done; others start, and fail (R480). -/
def Part.netEnded (p : Part) : Part :=
  ((p.ven.inst.map (·.1)).foldl (fun (r : Part) (i : Nat) => if r.seqLost i then r.venEnd i 0 else r) p).venNext

/-- A reset of the engine goes on, and ends if it can. -/
def Part.netResetOn (p : Part) : Part := if p.netResetStep.pkt.resetAt = none then p.netResetStep.netEnded else p.netResetStep

/-- QUEUE_DISABLED: a draining queue has a record for every fetched descriptor and becomes DISABLED; while the engine is being
reset, its queues go on with their records. -/
def Part.queueDisabled (q : Nat) (p : Part) : Part :=
  if ¬ p.hasPe then p
  else match p.pkt.resetAt with
    | none => ((p.queueSettle q).queueDone q).venNext
    | some _ => p.netResetOn

/-- NET_CTL was written (R438). -/
def Part.netRstAll (p : Part) (old : Nat) : Part :=
  if (p.netRst old).pkt.resetAt = none then (p.netRst old).netEnded else p.netRst old

/-- DESCRIPTOR_ABANDON (R427): 1 ms after the engine's reset, or the instance's, a queue's descriptors without a
record slot are abandoned. -/
def Part.descriptorAbandon (q : Nat) (p : Part) : Part :=
  match p.pkt.resetAt with
  | some t =>
    let p := (p.advance (t + 1000000 - p.time)).netAbandon q
    if p.netQuiet then p.netEnterReset.netEnded else p
  | none =>
    let i := (p.queueOf q).inst
    match (p.instOf i).mcmd with
    | some m =>
      if m.started ∧ (m.op = 1 ∨ m.op = 2) ∧ (p.queueOf q).state ≠ .disabled then
        (((p.advance (m.time + 1000000 - p.time)).netAbandon q).mgrStep i).venNext
      else p
    | none => p

/-! ### Writes of an instance's page -/

/-- A write of a quota or share by the manager is refused for want of free pool (R464): `f` and its new values. DEDUCED: so that
no unit is created while an instance is being reset or destroyed, either (R463). -/
def Part.poolRefuses (p : Part) (i off v : Nat) : Bool :=
  decide (p.venState i ≠ 0) &&
  (if off = 0x224 then decide (v % 2 ^ 19 > p.fmax i) && decide (v % 2 ^ 19 - p.fmax i > 262144 - p.asgF)
   else if off = 0x22C then
     let now := if p.rgOn F.VEN_BW_EN i then p.rg F.VEN_BW_RATE i else 0
     let new := if v.testBit 31 then v % 16384 else 0
     decide (new > now) && decide (new - now > 16000 - p.asgBw)
   else false)

/-- A range or owner write while the instance is not FREE is ignored, and sets VEN_MSTAT.REJ (R462). -/
def Part.rangeLocked (p : Part) (i off : Nat) : Bool :=
  decide (p.venState i ≠ 0) && (decide (off = 0x208) || decide (off = 0x210) || decide (off = 0x214) || decide (off = 0x218))

/-- After a write of VEN_BW: a bucket that comes into force has open contents; one in force is filled to now. -/
def Part.bwWritten (p : Part) (i : Nat) (wasOn : Bool) : Part := if p.rgOn F.VEN_BW_EN i ∧ ¬ wasOn then p.tokenStart i else p

/-- OUTSEND (R476). -/
def Part.outSend (p : Part) (i : Nat) : Part :=
  if p.rgOn F.VEN_MBCTL_OUTFULL i then p.setRg F.VEN_MBCTL_OUTOVR 1 i
  else (p.setRg F.VEN_MBCTL_OUTFULL 1 i).venEvtM i F.VEN_MEVT_MBOUT
/-- OUTACK. -/
def Part.outAck (p : Part) (i : Nat) : Part :=
  if p.rgOn F.VEN_MBCTL_OUTFULL i then (p.setRg F.VEN_MBCTL_OUTFULL 0 i).venEvtT i F.VEN_TEVT_OUTACK else p
/-- INSEND. -/
def Part.inSend (p : Part) (i : Nat) : Part :=
  if p.rgOn F.VEN_MBCTL_INFULL i then p.setRg F.VEN_MBCTL_INOVR 1 i
  else (p.setRg F.VEN_MBCTL_INFULL 1 i).venEvtT i F.VEN_TEVT_MBIN
/-- INACK. -/
def Part.inAck (p : Part) (i : Nat) : Part :=
  if p.rgOn F.VEN_MBCTL_INFULL i then (p.setRg F.VEN_MBCTL_INFULL 0 i).venEvtM i F.VEN_MEVT_INACK else p

end Sys2Proof.Machine
end

