-- ==== Sys2Proof/Machine/Palette.lean ====
section
/-!
DEFINITION. The Palette (R23 to R29), the Primer record behind it (R530), marking units unusable (R25, R231), and
sparing a core (R520 to R522).
-/
namespace Sys2Proof.Machine

/-! ### What a variant has (R27) -/

def Variant.pe : Variant → Bool | .h256n => false | _ => true
def Variant.ep : Variant → Bool | .h96s => true | _ => false
def Variant.mtile : Variant → Nat | .h192 => 0x77 | .h96s => 0x55 | _ => 0xFF
def Variant.p1 : Variant → Bool | .h96s => false | _ => true
def Variant.groups : Variant → Nat | .h96s => 4 | _ => 8
def Variant.maxskt : Variant → Nat | .h192 => 4 | .h96s => 1 | _ => 16

/-- Cores that a variant enables, and those that it has fused off: eight more serve as spares (R1, R2, R27). -/
def Variant.cores : Variant → Nat | .h192 => 192 | .h96s => 96 | _ => 256
def Variant.fusedOff (v : Variant) : Nat := 256 - v.cores

/-- The fuses name as many cores as the variant has fused off, and eight spares, all different (R27). -/
def Fuses.fits (f : Fuses) : Bool :=
  decide (f.coresOff.length = f.variant.fusedOff) && decide (f.spares.length = 8) && decide ((f.coresOff ++ f.spares).Nodup)
    && (f.coresOff ++ f.spares).all (fun n => decide (n < nCores))

/-- The cores fused off, and the spares. DESIGN CHOICE (notes/assumptions/87.md): fuses that do not fit the variant read as the
highest-numbered cores fused off and the eight below them spare, so that each variant has the counts of R1 and R27. -/
def Fuses.offCores (f : Fuses) : List Nat :=
  if f.fits then f.coresOff else (List.range f.variant.fusedOff).map (fun n => f.variant.cores + 8 + n)
def Fuses.spareCores (f : Fuses) : List Nat :=
  if f.fits then f.spares else (List.range 8).map (fun n => f.variant.cores + n)

/-- The base-die domains that a variant has, by the bits of PWR_BSTAT: those of absent units are off for good (R28, R505). -/
def Variant.baseDomains (v : Variant) : Nat :=
  (List.range 27).foldl (fun a b =>
    if (if b < 16 then v.mtile.testBit (b / 2) else if b < 24 then decide (b - 16 < v.groups) else if b < 26 then v.pe else true)
    then a + 2 ^ b else a) 0

/-- A bit of the Primer record: word `w`, bit `b`. -/
def Part.recBit (p : Part) (w b : Nat) : Bool := (p.sys.prm.record.get 0 w).testBit b
def Part.setRec (p : Part) (w b : Nat) (v : Bool) : Part :=
  p.modPrm (fun s => { s with record := s.record.put w (setBit (s.record.get 0 w) b v) })

/-- The record marks a core unusable, or did until a restore that waits for the next cold reset (R530). A core fused off counts
as that alone (R25). -/
def Part.coreBad (p : Part) (n : Nat) : Bool :=
  !p.sys.fuses.offCores.contains n && (p.recBit (n / 32) (n % 32) || p.sys.prm.restore.contains (false, n))
def Part.sliceBad (p : Part) (k : Nat) : Bool :=
  p.recBit (9 + k / 32) (k % 32) || p.sys.prm.restore.contains (true, k)

/-- Spares that are neither unusable nor in service, in PAL_CORE_MAP order. -/
def Part.idleSpares (p : Part) : List Nat :=
  (List.range nCores).filter (fun n => p.sys.fuses.spareCores.contains n && !p.coreBad n && !p.coreInSvc n)

/-- Set or clear a map bit. -/
def Part.setCoreMap (p : Part) (n : Nat) (on : Bool) : Part :=
  p.setRg F.PAL_CORE_MAP_INSVC (setBit (p.rg F.PAL_CORE_MAP_INSVC 0 (n / 32)) (n % 32) on) 0 (n / 32)
def Part.setSliceMap (p : Part) (k : Nat) (on : Bool) : Part :=
  p.setRg F.PAL_SLICE_MAP_INSVC (setBit (p.rg F.PAL_SLICE_MAP_INSVC 0 (k / 32)) (k % 32) on) 0 (k / 32)

/-- The cores in service after population (R24 to R27, R524): those that are neither fused off nor spare nor
unusable, and for each unusable one the lowest-numbered usable spare. -/
def Part.bootCores (p : Part) : List Nat :=
  let f := p.sys.fuses
  let own := (List.range nCores).filter (fun n => !f.offCores.contains n && !f.spareCores.contains n)
  let good := own.filter (fun n => !p.coreBad n)
  let sp := (List.range nCores).filter (fun n => f.spareCores.contains n && !p.coreBad n)
  good ++ sp.take (own.length - good.length)

/-- Population of the Palette from fuses and the Primer record (R26, R27): PAL_GEN becomes 1. The retired ways
of the record are in force (R241). -/
def Part.populate (p : Part) : Part :=
  let f := p.sys.fuses
  let v := f.variant
  let cores := p.bootCores
  let bad := ((List.range nCores).filter p.coreBad).length
  let badS := ((List.range nSlices).filter p.sliceBad).length
  let spares := ((List.range nCores).filter (fun n => f.spareCores.contains n && !p.coreBad n && !cores.contains n)).length
  let b (x : Bool) : Nat := if x then 1 else 0
  let map (l : List Nat) (w : Nat) : Nat := (l.filter (fun n => decide (n / 32 = w))).foldl (fun a n => a + 2 ^ (n % 32)) 0
  let slices := (List.range nSlices).filter (fun k => !p.sliceBad k)
  let p := (List.range 9).foldl (fun (r : Part) (w : Nat) => r.setRg F.PAL_CORE_MAP_INSVC (map cores w) 0 w) p
  let p := (List.range 5).foldl (fun (r : Part) (w : Nat) => r.setRg F.PAL_SLICE_MAP_INSVC (map slices w) 0 w) p
  let p := ((p.setRg F.PAL_ID_DIESET f.dieset).setRg F.PAL_UNITS_MTILE v.mtile).setRg F.PAL_UNITS_P1 (b v.p1)
  let p := ((p.setRg F.PAL_UNITS_P0 1).setRg F.PAL_UNITS_CXLMEM 1).setRg F.PAL_UNITS_EP (b v.ep)
  let p := (p.setRg F.PAL_UNITS_DVT (if v.links = 0 then 0 else 1)).setRg F.PAL_UNITS_PE (b v.pe)
  let p := ((p.setRg F.PAL_CORES_UNUSABLE bad).setRg F.PAL_CORES_FUSEDOFF f.offCores.length).setRg F.PAL_CORES_SPARE spares
  let p := ((p.setRg F.PAL_CORES_CORES cores.length).setRg F.PAL_SLICES_UNUSABLE badS).setRg F.PAL_SLICES_SLICES slices.length
  let p := (p.setRg F.PAL_MEM_CXLPORTS 4).setRg F.PAL_MEM_CHANNELS (2 * onesBelow 8 v.mtile)
  let p := ((p.setRg F.PAL_IO_MAXSKT v.maxskt).setRg F.PAL_IO_LINKS v.links).setRg F.PAL_IO_GROUPS v.groups
  let p := p.setRg F.PAL_IO_LANES (16 * v.groups)
  let p := (p.setRg F.PAL_NET_SERDES (if v.pe then 16 else 0)).setRg F.PAL_NET_PORTS (if v.pe then 32 else 0)
  let p := (p.setRg F.PAL_FLOWS_FLOWS (if v.pe then 262144 else 0)).setRg F.PAL_QUEUES_QUEUES (if v.pe then 16384 else 0)
  let p := (p.setRg F.PAL_KEYS_KEYS (if v.pe then 8192 else 0)).setRg F.PAL_VENEER_INSTANCES (if v.pe then 1024 else 0)
  let ways (c : Nat) : List Nat := (List.range 8).filter (fun w => p.recBit (14 + c / 4) (8 * (c % 4) + w))
  let p := (List.range nCores).foldl (fun (r : Part) (c : Nat) =>
    if (ways c).isEmpty then r else r.modCore c (fun s => { s with l2ret := ways c })) p
  let p := (List.range nSlices).foldl (fun (r : Part) (k : Nat) =>
    let m := r.sys.prm.record.get 0 (80 + k / 2) / 2 ^ (16 * (k % 2)) % 2 ^ 16
    if m = 0 then r else r.setRg F.LLC_WAYSTAT_RETIRED m k) p
  -- the domains of absent units are off for good (R28)
  let p := p.setRg F.PWR_BSTAT_ON (p.rg F.PWR_BSTAT_ON &&& v.baseDomains)
  p.setRg F.PAL_GEN_GEN 1

/-- One Palette update is complete: PAL_GEN advances and EAS_EVT.PALCHG is posted (R26). -/
def Part.palChanged (p : Part) : Part := (p.setRg F.PAL_GEN_GEN (p.rg F.PAL_GEN_GEN + 1)).easEvent F.EAS_EVT_PALCHG

/-- PRM_FCFG and the life-cycle state (R499, R500): the state in force. -/
def Part.lcs (p : Part) : Nat := p.rg F.EAS_LCS_STATE

/-! ### A slice leaves service (R231) -/

/-- Primer marks slice `k` unusable: its modified lines are written back, its directory entries, waiting and
active requests go to the new homes, and the Palette changes. -/
def Part.sliceOut (p : Part) (k : Nat) : Part :=
  if ¬ p.sliceInSvc k then p
  else
    let p := ((p.sliceOf k).abuf.map (·.line)).foldl (fun (r : Part) (l : Nat) => r.abufOut k l) p
    let p := p.sweepLines k (fun _ => true) true
    let s := p.sliceOf k
    let p := (p.setRec (9 + k / 32) (k % 32) true).setSliceMap k false
    let p := (p.setRg F.PAL_SLICES_SLICES (p.rg F.PAL_SLICES_SLICES - 1)).setRg F.PAL_SLICES_UNUSABLE (p.rg F.PAL_SLICES_UNUSABLE + 1)
    let p := p.modSlice k (fun s => { s with dir := [], trk := [] })
    let p := s.dir.foldl (fun (r : Part) (e : Nat × DirEnt) => r.dirPut (r.homeOf e.1) e.1 e.2) p
    let p := s.trk.foldl (fun (r : Part) (t : Trk) => r.modSlice (r.homeOf (t.req.addr / 64)) (fun x => { x with trk := x.trk ++ [t] })) p
    let old := coreTile k
    let p := (p.net.filter (fun (m : Msg) => m.dst.skt = p.sktId ∧ m.dst.tile = old ∧ m.dst.init = 4)).foldl (fun (r : Part) (m : Msg) =>
      r.readdress m ⟨p.sktId, coreTile (p.homeOf (m.addr / 64)), 4⟩) p
    p.palChanged

/-- Retire a slice way; a fifth takes the slice out of service (R241). -/
def Part.retireSliceWay (p : Part) (k w : Nat) : Part :=
  if p.retiredWays k ≥ 4 ∧ ¬ (p.rg F.LLC_WAYSTAT_RETIRED k).testBit w then p.sliceOut k else p.retireWay k w

/-! ### Sparing (R520 to R522) -/

/-- The 38 read-write registers from STAT_S to FDELEG, in ascending number order (R59, R522). -/
def saveRegs : List Nat :=
  (List.range 8).map (0x400 + ·) ++ [0x410, 0x411] ++ (List.range 9).map (0x800 + ·) ++ [0x810]
    ++ (List.range 8).map (0x880 + ·) ++ [0x890] ++ (List.range 9).map (0xC00 + ·)

/-- The dwords of a thread's save area, by index from its start (R522). -/
def Thr.saveDwords (th : Thr) : List (Nat × Dword) :=
  (List.range 32).map (fun i => (i, th.gr (BitVec.ofNat 5 i)))
    ++ ((List.range 32).map (fun i => (List.range 8).map (fun j =>
          (0x20 + 8 * i + j, ((th.vr (BitVec.ofNat 5 i)).extractLsb' (64 * j) 64))))).flatten
    ++ (List.range 8).map (fun i => (0x120 + i, th.mr (BitVec.ofNat 3 i)))
    ++ [(0x128, dw th.c.toNat), (0x129, th.sys 0x011)]
    ++ (List.range 7).map (fun i => (0x12A + i, th.sys ([0x020, 0x021, 0x022, 0x024, 0x025, 0x026, 0x028].getD i 0)))
    ++ [(0x131, th.pc), (0x132, match th.slot with | some s => s.dest | none => 0),
        (0x133, dw (th.level.code + (if th.vm then 4 else 0) + (if th.slot.isSome then 8 else 0)))]
    ++ (List.range 38).map (fun i => (0x134 + i, th.sys (saveRegs.getD i 0)))

/-- Line `l` of the 4 KB of a thread. -/
def saveLine (ds : List (Nat × Dword)) (l : Nat) : Vec :=
  BitVec.ofNat 512 ((ds.filter (fun e => decide (e.1 / 8 = l))).foldl (fun a e => a + e.2.toNat * 2 ^ (64 * (e.1 % 8))) 0)

/-- Easel writes the save area, by whole lines. The Bool says that every line was written. -/
def Part.saveLines (p : Part) (base : Nat) (ds : List (Nat × Dword)) : List Nat → Part × Bool
  | [] => (p, true)
  | l :: r =>
    match p.heard ⟨p.sktId, tileD, 4⟩ (base / 64 + l) (some .wrna) (p.naWrite (base / 64 + l) (saveLine ds l) (BitVec.allOnes 64) 0 true false) with
    | .done q _ => q.saveLines base ds r
    | .unassigned q => let (t, _) := (q.logUnmapped tileD 4 6 (base + 64 * l)).saveLines base ds r; (t, false)
    | .wait q => (q, false)

/-- Copy a field of core `a` to core `b`, the value in force and the held one. -/
def Part.copyFld (p : Part) (f g : Fld) (ua ia ub ib : Nat) : Part :=
  let p := match p.held.find? (f.key ua ia) with | some v => { p with held := p.held.put (g.key ub ib) v } | none => p
  p.setRg g (p.rg f ua ia) ub ib

/-- The configuration that goes with the threads (R520 step 3). -/
def Part.copyConfig (p : Part) (a b : Nat) : Part :=
  let p := [F.CORE_CFG_ROBMAX, F.CORE_CFG_ICGATE, F.CORE_CFG_LBEN, F.CORE_CFG_RASEN, F.CORE_CFG_BTBEN, F.CORE_CFG_FPOL,
    F.CORE_CFG_T1EN, F.CORE_PLUMB_EN, F.CORE_PLUMB_OVRIE, F.CORE_PLUMB_OVRVEC, F.CORE_PLUMB_MEMLAT].foldl
      (fun (r : Part) (f : Fld) => r.copyFld f f a 0 b 0) p
  let tp (c t : Nat) : Fld := match c % 2, t with
    | 0, 0 => F.LLC_TPART_C0T0 | 0, _ => F.LLC_TPART_C0T1 | _, 0 => F.LLC_TPART_C1T0 | _, _ => F.LLC_TPART_C1T1
  let pf (c : Nat) (l2 : Bool) : Fld := match c % 2, l2 with
    | 0, false => F.LLC_PFCTL_L1PF0 | 0, true => F.LLC_PFCTL_L2PF0 | _, false => F.LLC_PFCTL_L1PF1 | _, true => F.LLC_PFCTL_L2PF1
  let p := [0, 1].foldl (fun (r : Part) (t : Nat) => r.copyFld (tp a t) (tp b t) (a / 2) 0 (b / 2) 0) p
  let p := [false, true].foldl (fun (r : Part) (l : Bool) => r.copyFld (pf a l) (pf b l) (a / 2) 0 (b / 2) 0) p
  let p := [F.PWR_C_RST, F.PWR_C_MODE, F.PWR_C_IDLET].foldl (fun (r : Part) (f : Fld) => r.copyFld f f (tileOfCore a) (a % 2) (tileOfCore b) (b % 2)) p
  [F.CLK_C_FMIN, F.CLK_C_FMAX, F.CLK_C_FEFF].foldl (fun (r : Part) (f : Fld) => r.copyFld f f (tileOfCore a) (a % 2) (tileOfCore b) (b % 2)) p

/-- What a thread that is to be in state `r` does: a thermal trip has stopped every core island, until a cold reset (R582). -/
def Part.runAs (p : Part) (r : RunSt) : RunSt :=
  if p.sys.pins.thermtrip then (if r = .running ∨ r = .waiting ∨ r = .parked then .easel else r) else r

/-- A thread gets control back from Easel: it runs as before, and a WAIT is to retire (R93, R145). -/
def Part.giveBack (p : Part) (t : Nat) (r : RunSt) : Part :=
  p.modThread t (fun th => { th with run := p.runAs r, wake := th.wake || decide (r = .waiting) })

/-- What a core's island holds when it starts: nothing cached or predicted, and secrets of draws `n` and `n + 1` (R170, R494);
its retired ways stay retired (R241). -/
def CoreSt.fresh (s : CoreSt) (n : Nat) : CoreSt := { CoreSt.reset with l2ret := s.l2ret, secretH := n, secretF := n + 1 }

/-- Two draws from Easel's random source, that no draw has given before. -/
def Part.drawn (p : Part) : Nat := p.free + 2

/-- The state of a core that holds no thread: threads and controllers in reset, caches empty. -/
def Part.coreEmpty (p : Part) (c : Nat) : Part :=
  { p.used.used with thr := (p.thr.del (2 * c)).del (2 * c + 1), ic := (p.ic.del (2 * c)).del (2 * c + 1),
                     core := p.core.upd CoreSt.reset c (fun s => s.fresh p.drawn) }

/-- The island of a core loses its power (R494): CYCLE alone is kept for it, standing still. -/
def Part.coreDark (p : Part) (c : Nat) : Part :=
  p.used.used.modCore c (fun s => { s.fresh p.drawn with cycle := s.cycle })

/-- Primer's result of a test or a command (R585 event 13). -/
def Part.primerLog (p : Part) (slice : Bool) (target : Nat) (failed full : Bool) : Part :=
  p.easelLog 13 (if failed then 2 else 0) 0 ((if failed then 2 ^ 8 else 0) + (if slice then 2 ^ 9 else 0) + target % 2 ^ 9 * 2 ^ 10
    + (if full then 2 ^ 19 else 0))

/-- Sparing from step 3 on (R520), with what both threads were doing, on behalf of window-counter source `src`, 0xFF for none.
The Bool says that it was not refused: a sparing that would leave no core in service is (R521). -/
def Part.spareCore (p : Part) (a : Nat) (r0 r1 : RunSt) (src : Nat := 0xFF) : Part × Bool :=
  match p.idleSpares with
  | b :: _ =>
    let p := p.copyConfig a b
    let t0 := p.thread (2 * a)
    let t1 := p.thread (2 * a + 1)
    let i0 := p.icOf (2 * a)
    let i1 := p.icOf (2 * a + 1)
    let p := (p.coreEmpty a).coreEmpty b
    let p := { p with thr := (p.thr.put (2 * b) t0).put (2 * b + 1) t1, ic := (p.ic.put (2 * b) i0).put (2 * b + 1) i1 }
    let p := p.setRg F.CORE_PLUMB_STAT_MEMLAT (max 64 (p.rg F.CORE_PLUMB_MEMLAT b)) b
    let p := ((p.setRec (a / 32) (a % 32) true).setCoreMap a false).setCoreMap b true
    let p := (p.setRg F.PAL_CORES_SPARE (p.rg F.PAL_CORES_SPARE - 1)).setRg F.PAL_CORES_UNUSABLE (p.rg F.PAL_CORES_UNUSABLE + 1)
    let p := p.palChanged
    (((p.giveBack (2 * b) r0).giveBack (2 * b + 1) r1).rasLog (tileOfCore a) src 5 0 0xFF 0 (.named [20, a, b]), true)
  | [] =>
    if p.rg F.PAL_CORES_CORES ≤ 1 then (p, false)
    else
      let base := p.addrOf F.PRM_SAVEB_LO_PA F.PRM_SAVEB_HI_PA
      let (p, ok) := if base = 0 then (p, false)
        else
          let (q, a0) := p.saveLines base (p.thread (2 * a)).saveDwords (List.range 64)
          let (q, a1) := q.saveLines (base + 0x1000) (q.thread (2 * a + 1)).saveDwords (List.range 64)
          (q, a0 && a1)
      let p := ((p.coreEmpty a).setRec (a / 32) (a % 32) true).setCoreMap a false
      let p := (p.setRg F.PAL_CORES_CORES (p.rg F.PAL_CORES_CORES - 1)).setRg F.PAL_CORES_UNUSABLE (p.rg F.PAL_CORES_UNUSABLE + 1)
      let p := p.palChanged.rasLog (tileOfCore a) src 6 0 0xFF 0 (.named [21, a])
      (p.socketCheck (tileOfCore a) [5, a, ok.toNat], true)

end Sys2Proof.Machine
end

