-- ==== Sys2Proof/Machine/Reset.lean ====
section
/-!
DEFINITION. Cores that Easel takes through R309, core and tile resets, resets of the socket (R492 to R496), and what
follows every command: the progress of such cores and the warm reset of R43 and R496.
-/
namespace Sys2Proof.Machine

/-- The core is OFF (R494). -/
def Part.coreOff (p : Part) (c : Nat) : Bool := (p.sys.pwr.off.find? c).isSome

/-- Both threads of a core are in reset. -/
def Part.coreInReset (p : Part) (c : Nat) : Bool :=
  decide ((p.thread (2 * c)).run = .inReset) && decide ((p.thread (2 * c + 1)).run = .inReset)

/-- A core reset (R161, R185, R496): threads, controllers and the state store are reset, held CORE_ writes apply,
and a core whose CORE_PLUMB.EN is then 1 is in Plumb mode. Both threads stay in reset until CORE_START. -/
def Part.coreReset (p : Part) (c : Nat) : Part :=
  let p := p.coreEmpty c
  let p := p.modPwr (fun s => { s with off := s.off.del c, entering := s.entering.del c })
  let p := p.applyHeld (inPage (Blk.core.place c))
  let p := p.setRg F.CORE_PLUMB_STAT_MEMLAT (max 64 (p.rg F.CORE_PLUMB_MEMLAT c)) c
  (p.setRg F.CORE_PLUMB_STAT_ENTERING 0 c).setRg F.CORE_PLUMB_STAT_ACTIVE (p.rg F.CORE_PLUMB_EN c) c

/-- Both threads of a core enter reset, and their controllers with them (R161). -/
def Part.threadsReset (p : Part) (c : Nat) : Part :=
  { p with thr := (p.thr.del (2 * c)).del (2 * c + 1), ic := (p.ic.del (2 * c)).del (2 * c + 1) }

/-- Easel starts to take a core through R309. A reset overtakes any other aim, but a sparing: its threads are reset, and it goes
on (R519: an action completes). -/
def Part.coreAim (p : Part) (c : Nat) (aim : CoreAim) : Part :=
  if p.coreOff c ∧ aim = .reset then p.coreReset c
  else
    let start := p.modPwr (fun s => { s with entering := s.entering.put c { aim := aim, since := p.time, held := none } })
    match p.sys.pwr.entering.find? c with
    | none => start
    | some old =>
      if aim ≠ .reset then p
      else match old.aim with
        | .spare _ _ _ => (p.threadsReset c).modPwr (fun s => { s with entering := s.entering.put c { old with held := some (.inReset, .inReset) } })
        | _ => start

/-- A thread is where Easel can take control of it (R145): not between a transfer and its slot, not within an
access, and with no event due. -/
def Part.canHold (p : Part) (t : Nat) : Bool :=
  let th := p.thread t
  if th.run = .running then th.boundary && !p.eventDue t else true

/-- A thread in WAIT whose vector has become pending (R495). -/
def Part.wakes (p : Part) (t : Nat) (r : RunSt) : Bool :=
  decide (r = .waiting) && (p.icOf t).vec.any (fun e => (p.icOf t).unmasked (p.thread t) e.1)

/-- Control of both threads returns to them, the core's TLBs invalidated (R208). -/
def Part.release (p : Part) (c : Nat) (r : RunSt × RunSt) : Part :=
  ((p.modCore c (fun s => { s with tlb := [] })).giveBack (2 * c) r.1).giveBack (2 * c + 1) r.2

/-- The end of a command in PRM_CMDSTAT, and in PRM_LAST with its duration since `start` (R538). -/
def Part.prmEnd (p : Part) (code : Nat) (start : Nat := p.time) : Part :=
  let p := ((p.setRg F.PRM_CMDSTAT_BUSY 0).setRg F.PRM_CMDSTAT_DONE 1).setRg F.PRM_CMDSTAT_CODE code
  let fail := if code = 0 then 0 else 1
  let p := (p.setRg F.PRM_CMDSTAT_ERR fail).setRg F.PRM_LAST_FAIL fail
  let op := p.rg F.PRM_CMD_OP
  let p := (p.setRg F.PRM_LAST_KIND (if op = 1 ∨ op = 3 ∨ op = 6 then 1 else 0)).setRg F.PRM_LAST_TARGET (p.rg F.PRM_CMD_TARGET)
  p.setRg F.PRM_LAST_US (min (2 ^ 21 - 1) ((p.time - start) / 1000))

/-- A core whose PWR_Cn.MODE is 2 is to go off (R494): asked for while the core was under another action, or of the core that it
has taken the place of. -/
def Part.forceDue (p : Part) (c : Nat) : Part :=
  if p.coreInSvc c ∧ p.rg F.PWR_C_MODE (tileOfCore c) (c % 2) = 2 then p.coreAim c (.off .forced) else p

/-- The sparing of a core ends, and its record: an escalation action, or PRM_CMD that began at `since`. -/
def Part.spareEnd (p : Part) (c tile src since : Nat) (cmd : Bool) (r : RunSt × RunSt) : Part :=
  let b := p.idleSpares.headD c
  match p.spareCore c r.1 r.2 src with
  | (q, true) =>
    let q := q.forceDue b
    let q := if src < 16 then q.setRg F.RAS_WCNT_PEND 0 tile src else q
    if cmd then q.prmEnd 0 since else q
  | (q, false) =>
    let q := ((q.modCore c (fun s => { s with draining := false })).release c r).forceDue c
    let q := if src < 16 then (q.setRg F.RAS_WCNT_PEND 0 tile src).rasLog (tileOfCore c) src 6 0 0xFF 0 .unstated else q
    if cmd then q.prmEnd 7 since else q

/-- The switched part of a tile starts from its reset state: its unit, and the registers held there (R341, R492, R493). The
CORE_ and TLB_ pages of a core tile lie in the retained part. -/
def Part.unitReset (p : Part) (t : Nat) : Part :=
  let p := p.fabMask t
  match tileKind t with
  | .core =>
    let k := (coreOrd t).getD 0
    let p := { p with slice := p.slice.del k }
    [Pg.mk t 0x002, ⟨t, 0x003⟩].foldl (fun (r : Part) (g : Pg) => r.resetPage g) p
  | .mem =>
    let i := (memIndex t).getD 0
    let n := (p.mtOf i).pwb.length
    let p := if n = 0 then p else p.rasLog t 0xFF 13 2 0xFF 0 (.fixed n)
    let p := (p.chanFinish (2 * i)).chanFinish (2 * i + 1)
    let p := { p with mt := p.mt.del i, chan := (p.chan.del (2 * i)).del (2 * i + 1) }
    [Pg.mk t 0x020, ⟨t, 0x021⟩, ⟨t, 0x028⟩].foldl (fun (r : Part) (g : Pg) => r.resetPage g) p
  | .pcie =>
    let h := if t = tileP0 then 0 else 1
    let p := (List.range 4).foldl (fun (r : Part) (j : Nat) => r.grpEnterReset (4 * h + j) true) p
    p.iotReset h
  | .net =>
    { p with ctl := p.ctl.filter (fun e => !(decide (e.1 / 8192 / 4096 = t) && decide (e.1 / 8192 % 4096 ≥ 0x100))),
             held := p.held.filter (fun e => !(decide (e.1 / 8192 / 4096 = t) && decide (e.1 / 8192 % 4096 ≥ 0x100))),
             pkt := { PktSt.reset with wire := p.pkt.wire }, key := KeySt.reset, ven := VeneerSt.reset }
  | .dvt =>
    (List.range 4).foldl (fun (r : Part) (d : Nat) =>
      if d < r.sys.fuses.variant.links then
        let w := decide (d < r.sktBits)
        let r := r.modLink d (fun _ => { LinkSt.reset with time := r.time })
        let r := { r with ctl := r.ctl.filter (fun e => !(inPage (Blk.dvt.place d) e.1 && decide (e.1 / 32 % 256 < 0x40))) }
        if w then r.setRg F.DVT_STAT_STATE 1 d else r
      else r) p

/-- A core tile whose RST is 1 completes its reset once both cores are reset (R496). -/
def Part.tileResetEnd (p : Part) (t : Nat) : Part :=
  match coreOrd t with
  | none => p
  | some k =>
    if p.rgOn F.PWR_TCTL_RST t ∧ (p.sys.pwr.entering.find? (2 * k)).isNone ∧ (p.sys.pwr.entering.find? (2 * k + 1)).isNone then
      ([Pg.mk t 0x010, ⟨t, 0x011⟩, ⟨t, 0x018⟩, ⟨t, 0x019⟩].foldl (fun (r : Part) (g : Pg) => r.resetPage g) (p.unitReset t)).setRg
        F.PWR_TCTL_RST 0 t
    else p

/-- The core has reached the end of R309: what its aim asks for follows (R494, R496, R520, R527). -/
def Part.aimEnd (p : Part) (c : Nat) (a : AimSt) : Part :=
  let p := p.modPwr (fun s => { s with entering := s.entering.del c })
  let r := a.held.getD (.inReset, .inReset)
  match a.aim with
  | .reset => (p.coreReset c).tileResetEnd (tileOfCore c)
  | .off b =>
    let p := p.coreDark c
    p.modPwr (fun s => { s with off := s.off.put c { by_ := b, r0 := r.1, r1 := r.2 } })
  | .test => (p.coreDark c).modPrm (fun s => { s with test := s.test.map (fun t => { t with r0 := r.1, r1 := r.2 }) })
  | .spare tile src cmd => (p.spareEnd c tile src a.since cmd r).tileResetEnd (tileOfCore c)

/-- Steps 1 to 3 of R309. -/
def Part.aimDrain (p : Part) (c : Nat) (a : AimSt) : Part :=
  let p := p.modPwr (fun s => { s with entering := s.entering.put c a })
  let p := p.modCore c (fun s => { s with draining := true })
  let (p, _) := p.drainCore c
  let s := p.coreOf c
  if ¬ s.mb.isEmpty ∨ ¬ s.sq.isEmpty ∨ ¬ s.miss.isEmpty ∨ ¬ s.pwt.isEmpty then p
  else
    let p := p.l2Flush c
    if (p.coreOf c).l2.isEmpty ∧ (p.coreOf c).wbuf.isEmpty then p.aimEnd c a else p

/-- A switch-off of a core waits while it is in Plumb mode, or on its way there: Easel does not take control of it for power
management (R183). -/
def Part.aimWaits (p : Part) (c : Nat) (a : CoreAim) : Bool :=
  match a with
  | .off _ => p.plumb c || p.plumbEntering c
  | _ => false

/-- One core goes on through R309: control of its threads, no new requests, its stores and requests done, its L2
written back. A waking vector ends an entry into OFF (R495). -/
def Part.aimStep (p : Part) (c : Nat) (a : AimSt) : Part :=
  let idle := decide (a.aim = .off .idle)
  match a.held with
  | none =>
    if a.aim = .reset then
      let p := (p.modThread (2 * c) (fun th => { th with run := .inReset })).modThread (2 * c + 1) (fun th => { th with run := .inReset })
      p.aimDrain c { a with held := some (.inReset, .inReset) }
    else if !p.aimWaits c a.aim && p.canHold (2 * c) && p.canHold (2 * c + 1) then
      let r := ((p.thread (2 * c)).run, (p.thread (2 * c + 1)).run)
      let hold (x : RunSt) : RunSt := if x = .inReset ∨ x = .halted then x else .easel
      let p := (p.modThread (2 * c) (fun th => { th with run := hold r.1 })).modThread (2 * c + 1) (fun th => { th with run := hold r.2 })
      p.aimDrain c { a with held := some r }
    else p
  | some r =>
    if idle && (p.wakes (2 * c) r.1 || p.wakes (2 * c + 1) r.2) then
      ((p.modPwr (fun s => { s with entering := s.entering.del c })).modCore c (fun s => { s with draining := false })).release c r
    else p.aimDrain c a

/-- CORE_DRAIN_TIMEOUT: 100 µs have passed and the core has not drained: its reset or switch-off goes ahead (R309).
What its L2 held is lost, and its homes find it missing (R308). -/
def Part.coreDrainTimeout (c : Nat) (p : Part) : Part :=
  match p.sys.pwr.entering.find? c with
  | none => p
  | some a =>
    let p := { p with time := max p.time (a.since + 100000) }
    match a.held with
    | none => p
    | some _ => ((p.coreDark c).modCore c (fun s => { s with draining := true })).aimEnd c a

/-! ### Resets of the socket (R496) -/

inductive ResetKind where | standby | cold | warm
  deriving DecidableEq, Repr

/-- Channel addresses, in bytes, that valid persistent ranges give channel `c`: base and length. -/
def Part.persSpans (p : Part) (c : Nat) : List (Nat × Nat) :=
  ((List.range 16).map p.ilv).filterMap (fun t =>
    if t.v && !p.ilvBad t && t.pers && !t.cxl && t.chmask.testBit c then
      some (t.choff * 2 ^ 30, (t.limit - t.base + 1) * 2 ^ 30 / max 1 t.ways) else none)

/-- A DRAM key lies in a persistent range of a channel in self-refresh. -/
def Part.persKey (p : Part) (selfOnly : Bool) (k : Nat) : Bool :=
  let c := k / 2 ^ 44
  let ca := k % 2 ^ 44
  (!selfOnly || p.rgOn F.MC_STAT_SELFREF c) && (p.persSpans c).any (fun s => decide (s.1 ≤ ca) && decide (ca < s.1 + s.2))

/-- Control registers that a reset of the socket keeps: those in Easel's domain, and what enumeration wrote on a
warm reset (R348, R496, R505). -/
def keptKey (kind : ResetKind) (k : Nat) : Bool :=
  match kind with
  | .standby => false
  | _ =>
    inPage ⟨tileD, 0x030⟩ k || decide (k = F.PWR_STBY_SWITCHES.key 0 0)
      || (decide (kind = .warm) && ([F.PAL_SKT_SKTID, F.PAL_SKT_SKTCNT, F.DVT_ENUM_DONE, F.DVT_ENUM_FAIL, F.DVT_ENUM_MASTER,
            F.DVT_ENUM_SKTCNT, F.DVT_ENUM_SKTID, F.DVT_ENUM_TAG].any (fun f => decide (k = f.key 0 0))))

/-- The write queue of channel `c` ends with a reset: the channel completes the writes that it had accepted (R341). Once
a flush or the loss of the supply has stopped it (R337), whether one of them reached DRAM is open (`maybe`). -/
def Part.wqEnd (p : Part) (maybe : Bool) (c : Nat) : Part :=
  let l := (p.chanOf c).wq
  let p := p.modChan c (fun s => { s with wq := [] })
  if (p.chanOf c).off then p
  else l.foldl (fun (r : Part) (e : WqEnt) =>
    if ¬ maybe then r.dramWrite c e
    else if r.freshNat % 2 = 1 then r.used.dramWrite c e else r.used) p

/-- The socket is reset. DRAM keeps every range on a warm reset, held in self-refresh, and on a cold reset the
persistent ranges that Varnish left in self-refresh. -/
def Part.socketReset (p : Part) (kind : ResetKind) : Part :=
  let warm := decide (kind = .warm)
  let keep (k : Nat) : Bool := warm || (decide (kind = .cold) && p.persKey true k)
  let refs := (List.range 16).filter (fun c => (warm && (p.rgOn F.MC_STAT_TRAINED c || p.rgOn F.MC_STAT_SELFREF c))
    || (decide (kind = .cold) && p.rgOn F.MC_STAT_SELFREF c))
  let p := if kind = .standby then p
    else (List.range 16).foldl (fun (r : Part) (c : Nat) => r.wqEnd (decide (kind = .cold) || p.flushOn) c) p
  let d := p.sys.dvt
  let s := p.sys
  let q : Part :=
    { p with
      time := if warm then p.time else 0, ctl := p.ctl.filter (fun e => keptKey kind e.1), held := [],
      thr := [], ic := [], core := [], slice := [], net := [], fab := FabSt.reset, chan := [], mt := [], ras := [],
      mem := p.mem.filter (fun e => keep e.1), pois := p.pois.filter (fun e => keep (16 * e.1)),
      elog := if kind = .standby then [] else p.elog,
      pci := { PciSt.reset with ep := { EpSt.reset with perst := p.pci.ep.perst } },
      pkt := { PktSt.reset with wire := p.pkt.wire }, key := KeySt.reset, ven := VeneerSt.reset,
      sys := { s with
        boot := .off, image := (if kind = .standby then none else s.image), epoch := none,
        pins := { s.pins with coldWaits := false, thermtrip := false },
        pwr := { off := [], hot := [], duty := 16, refLoss := s.pwr.refLoss, entering := [] },
        prm := { s.prm with test := none, round := [], nextTest := 0, audit := none,
                            restore := (if warm then s.prm.restore else []),
                            fulled := decide (kind ≠ .standby) && s.prm.fulled },
        gperf := { hold := none, snap := none, nextSnap := 0, bw := [], cyc := 0 },
        dvt := (if warm then { DvtSt.reset with phase := d.phase, id := d.id, count := d.count, tag := d.tag } else DvtSt.reset),
        varn := { flush := none, flushdone := (if kind = .cold then s.varn.flushdone else false), rstHigh := !s.pins.rstLow } } }
  refs.foldl (fun (r : Part) (c : Nat) => r.setRg F.MC_STAT_SELFREF 1 c) q

/-- The links that the identity of the socket asks for start to train (R350). -/
def Part.linksStart (p : Part) : Part :=
  if ¬ p.rgOn F.DVT_ENUM_DONE then p
  else (List.range p.sys.fuses.variant.links).foldl (fun (r : Part) (l : Nat) =>
    if l < r.sktBits ∧ r.rgOn F.DVT_CTL_EN l then
      (r.setRg F.DVT_STAT_STATE 1 l).modLink l (fun s => { s with time := r.time }) else r) p

/-- Fuses are read: the life-cycle state and the key slots (R497 step 2, R499, R500). A state that fuses blown in
the last boot name is in force from a cold reset on. -/
def Part.readFuses (p : Part) (cold : Bool) : Part :=
  let f := p.sys.fuses
  let st := if f.lcs = 0 then 0 else f.lcs.log2
  let p := if cold then (p.setRg F.EAS_LCS_STATE st).setRg F.EAS_LCS_PEND 0 else p
  let held := (List.range 4).foldl (fun a n => if (f.hash.find? n).isSome then a + 2 ^ n else a) 0
  ((p.setRg F.EAS_BOOT_REVOKED f.revoked).setRg F.EAS_BOOT_FUSED held).setRg F.EAS_BOOT_COUNT f.count

/-- Easel starts the boot at step 1 of R497. Enumeration runs but after a warm reset. -/
def Part.bootStart (p : Part) (warm : Bool) : Part :=
  let p := (p.modSys (fun s => { s with boot := .started, warm := warm })).readFuses (!warm)
  if warm then p.linksStart else p.modDvt (fun d => { d with phase := .wait })

/-- A warm reset of the socket (R340, R496): without effect while RSTIN_N is low or a cold reset waits (R580),
or after a thermal trip (R582). -/
def Part.warmReset (p : Part) : Part :=
  if p.sys.pins.rstLow ∨ p.sys.pins.coldWaits ∨ p.sys.pins.thermtrip ∨ p.sys.boot = .off then p
  else (p.socketReset .warm).bootStart true

/-- RSTIN_N is high and a reset has ended: DVT_ENUM shows the strap (R345, R373) and the boot starts, or is held while PWRFAIL_N is low (R497, R580). -/
def Part.rstRise (p : Part) : Part :=
  let p := (p.modVarn (fun v => { v with flushdone := false, rstHigh := true })).setRg F.DVT_ENUM_MASTER p.sys.pins.master.toNat
  if p.sys.pins.pwrfailLow then (p.modSys (fun s => { s with boot := .held })).easelLog 9 0 0 0 else p.bootStart false

/-- A cold reset (R496): it waits for FLUSHDONE while a flush is under way (R580). -/
def Part.coldReset (p : Part) : Part :=
  if p.flushOn ∧ ¬ p.sys.varn.flushdone then p.modPins (fun s => { s with coldWaits := true })
  else
    let p := p.socketReset .cold
    if p.sys.pins.rstLow then p else p.rstRise

/-- Once every thread of the boot core that has left reset has halted, Easel resets the socket (R43, R496). -/
def Part.haltCheck (p : Part) : Part :=
  if p.sys.boot ≠ .released ∨ p.sys.pins.thermtrip then p
  else
    let t := p.socketThread
    let l := [(p.thread t).run, (p.thread (t + 1)).run].filter (fun r => decide (r ≠ RunSt.inReset))
    if ¬ l.isEmpty ∧ l.all (fun r => decide (r = RunSt.halted)) then p.warmReset else p

/-- What a core does of itself after a command: its store queue moves on (R222), and Plumb entry (R177). -/
def Part.coreSettle (p : Part) (c : Nat) : Part :=
  let p := if (p.coreOf c).sq.isEmpty then p else p.sqPump c
  Part.plumbFlush c p

/-- What follows every command: the windows and cycles of the counters up to TIME (R555, R562), store queues and Plumb entries move on, IPIs without a target are discarded, timeout reports go out, lane groups
complete their reset (R397), cores to be reset start their entry (R308), cores on their way through R309 go on, and a halted
boot core resets the socket. -/
def Part.settle (p : Part) : Part :=
  let p := p.bwRolls.perfCycles
  let p := p.core.foldl (fun (r : Part) (e : Nat × CoreSt) => r.coreSettle e.1) p
  let p := p.ipiNowhere.mailPump
  let p := p.pci.closing.foldl (fun (r : Part) (e : Nat × Bool) => r.grpSettle e) p
  let p := (p.core.filter (fun e => e.2.draining && (p.sys.pwr.entering.find? e.1).isNone)).foldl
    (fun (r : Part) (e : Nat × CoreSt) => r.coreAim e.1 .reset) p
  let p := p.sys.pwr.entering.foldl (fun (r : Part) (e : Nat × AimSt) =>
    if r.sys.pwr.entering.find? e.1 = some e.2 then r.aimStep e.1 e.2 else r) p
  p.haltCheck

end Sys2Proof.Machine
end

