-- ==== Sys2Proof/Machine/Primer.lean ====
section
/-!
DEFINITION. Primer: field tests (R526 to R529), PRM_CMD (R538), the full test (R525), audits of the ledgers (R532 to
R535), and the escalation actions of the window counters (R515 to R519).
-/
namespace Sys2Proof.Machine

/-! ### Window counters and escalation (R515 to R519) -/

/-- WINDOW_EXPIRY: a window of source `s` of a tile ends without a declaration (R515). This command moves TIME to
its end. -/
def Part.windowExpiry (tile s : Nat) (p : Part) : Part :=
  match (p.rasOf tile).win.find? s with
  | none => p
  | some e =>
    let p := { p with time := max p.time e }
    (p.modRas tile (fun r => { r with win := r.win.del s })).setRg F.RAS_WCNT_COUNT 0 tile s

/-- An action ends: its ESCALATED or ESCFAIL entry (R518), for the unit. -/
def Part.actEnd (p : Part) (tile src _unit : Nat) (ok : Bool) : Part :=
  (p.setRg F.RAS_WCNT_PEND 0 tile src).rasLog tile src (if ok then 5 else 6) 0 0xFF 0 .unstated

/-- The way `w` would be the third of core `n`'s L2 to be retired: the core is spared instead (R518). -/
def Part.thirdWay (p : Part) (n w : Nat) : Bool :=
  decide ((p.coreOf n).l2ret.length ≥ 2) && !(p.coreOf n).l2ret.contains w

/-- The unit of an action is under another action, a field test or a sparing, or in Plumb mode (R519). -/
def Part.actBusy (p : Part) (a : WaitAct) : Bool :=
  let core := decide (a.act = 1) || decide (a.act = 3)
  let slice := decide (a.act = 2) || decide (a.act = 4)
  let tested (s : Bool) : Bool := match p.sys.prm.test with | some t => decide (t.slice = s) && decide (t.target = a.unit) | none => false
  (core && ((p.sys.pwr.entering.find? a.unit).isSome || tested false))
    || ((decide (a.act = 3) || (decide (a.act = 1) && p.thirdWay a.unit a.detail)) && p.plumb a.unit) || (slice && tested true)

/-- An action spares a core (R520): of one that is OFF, the state store holds what is needed already. -/
def Part.spareStart (p : Part) (c tile src : Nat) : Part :=
  match p.sys.pwr.off.find? c with
  | none => p.coreAim c (.spare tile src false)
  | some o =>
    match p.spareCore c o.r0 o.r1 src with
    | (q, true) =>
      let q := (q.modPwr (fun s => { s with off := s.off.del c })).forceDue (p.idleSpares.headD c)
      if src < 16 then q.setRg F.RAS_WCNT_PEND 0 tile src else q
    | (q, false) => if src < 16 then q.actEnd tile src c false else q

/-- ESCALATION_START: the oldest waiting action of a tile whose unit is free starts (R518, R519). -/
def Part.escalationStart (tile : Nat) (p : Part) : Part :=
  match (p.rasOf tile).acts.find? (fun a => !p.actBusy a) with
  | none => p
  | some a =>
    let p := p.modRas tile (fun r => { r with acts := r.acts.erase a })
    let gone := if a.act = 1 ∨ a.act = 3 then !p.coreInSvc a.unit else if a.act = 2 ∨ a.act = 4 then !p.sliceInSvc a.unit else false
    if gone then p.actEnd tile a.src a.unit false
    else
      match a.act with
      | 1 =>
        if p.thirdWay a.unit a.detail then (p.actEnd tile a.src a.unit false).spareStart a.unit tile 0xFF
        else (p.retireL2Way a.unit a.detail).actEnd tile a.src a.unit true
      | 2 =>
        let full := p.retiredWays a.unit ≥ 4
        (p.retireSliceWay a.unit a.detail).actEnd tile a.src a.unit (!full)
      | 3 => p.spareStart a.unit tile a.src
      | 4 => (p.sliceOut a.unit).actEnd tile a.src a.unit true
      | 5 =>
        let (q, ok) := p.downshift a.unit a.detail
        q.actEnd tile a.src a.unit ok
      | _ =>
        match p.offlineRank a.unit a.detail with
        | (q, true) => q.setRg F.RAS_WCNT_PEND 0 tile a.src
        | (q, false) => q.actEnd tile a.src a.unit false

/-! ### Tests of units (R526 to R529) -/

/-- The record of a test of a unit, and its end: PRM_FDONE for a field test, PRM_LAST, the Easel log. -/
def Part.testEnd (p : Part) (t : UnitTest) (failed : Bool) (code : Nat) : Part :=
  let p := p.modPrm (fun s => { s with test := none })
  let p := if t.command then p else
    let q := p.countSat F.PRM_FDONE_TESTS
    if failed then q.countSat F.PRM_FDONE_FAILS else q
  let p := ((p.setRg F.PRM_LAST_FAIL (if failed then 1 else 0)).setRg F.PRM_LAST_KIND (if t.slice then 1 else 0)).setRg F.PRM_LAST_TARGET t.target
  let p := p.setRg F.PRM_LAST_US (min (2 ^ 21 - 1) ((p.time - t.start) / 1000))
  let p := p.primerLog t.slice t.target failed false
  if t.command then p.prmEnd code t.start else p.setRg F.PRM_CMDSTAT_BUSY 0

/-- A test of a unit starts. -/
def Part.testStart (p : Part) (slice : Bool) (target : Nat) (command : Bool) : Part :=
  let t : UnitTest := { slice := slice, target := target, command := command, full := false, start := p.time, r0 := .inReset,
                        r1 := .inReset, ended := false, grpOff := 0, grpOn := 0 }
  let p := (p.modPrm (fun s => { s with test := some t })).setRg F.PRM_CMDSTAT_BUSY 1
  if slice then p else p.coreAim target .test

/-- A core that no field test visits now (R526). -/
def Part.coreSkipped (p : Part) (n : Nat) : Bool :=
  p.plumb n || p.coreOff n || p.coreInReset n || (p.sys.pwr.entering.find? n).isSome
    || (p.rasOf (tileOfCore n)).acts.any (fun a => (decide (a.act = 1) || decide (a.act = 3)) && decide (a.unit = n))

/-- The units of a round, slices as 1000 + k. -/
def Part.roundUnits (p : Part) : List Nat :=
  (if p.rgOn F.PRM_FCFG_CEN then (List.range nCores).filter p.coreInSvc else [])
    ++ (if p.rgOn F.PRM_FCFG_SEN then ((List.range nSlices).filter p.sliceInSvc).map (1000 + ·) else [])

/-- FIELD_TEST_START: the period has elapsed and the test of the next unit starts (R526). This command moves TIME
there. -/
def Part.fieldTestStart (p : Part) : Part :=
  let units := p.roundUnits
  if p.sys.boot ≠ .released ∨ p.lcs = 4 ∨ p.rgOn F.PRM_FCFG_HOLD ∨ p.rgOn F.PRM_CMDSTAT_BUSY ∨ units.isEmpty then p
  else
    let p := { p with time := max p.time p.sys.prm.nextTest }
    let gap := max 1 (p.rg F.PRM_FCFG_PERIOD) * 3600000000000 / units.length
    let p := p.modPrm (fun s => { s with nextTest := p.time + gap,
                                         round := (if units.all (fun u => s.round.contains u) then [] else s.round) })
    let left := units.filter (fun u => !p.sys.prm.round.contains u)
    let skip (u : Nat) : Bool := decide (u < 1000) && p.coreSkipped u
    let p := p.modPrm (fun s => { s with round := s.round ++ left.takeWhile skip })
    match left.dropWhile skip with
    | [] => p
    | u :: _ =>
      let p := p.modPrm (fun s => { s with round := s.round ++ [u] })
      if u < 1000 then p.testStart false u false else p.testStart true (u - 1000) false

/-- A core test ends early: a write of PWR_Cn.MODE = 2 or PWR_Cn.RST came (R529). -/
def Part.testAbort (p : Part) (c : Nat) : Part :=
  match p.sys.prm.test with
  | none => p
  | some t =>
    if t.slice ∨ t.target ≠ c then p
    else
      let r := match p.sys.pwr.entering.find? c with
        | some a => a.held
        | none => some (t.r0, t.r1)
      let p := p.modPwr (fun s => { s with entering := s.entering.del c })
      let p := p.modCore c (fun s => { s with draining := false })
      let p := match r with | some x => p.release c x | none => p
      let p := p.modPrm (fun s => { s with test := none })
      if t.command then p.prmEnd 3 t.start else p.setRg F.PRM_CMDSTAT_BUSY 0

/-- CORE_TEST_DONE: the test of a core ends (R527): the threads are restored, an L2 way is retired, or the core is
spared with the state already saved. -/
def Part.coreTestDone (c : Nat) (res : TestRes) (p : Part) : Part :=
  match p.sys.prm.test with
  | none => p
  | some t =>
    if t.slice ∨ t.full ∨ t.target ≠ c ∨ (p.sys.pwr.entering.find? c).isSome then p
    else
      let p := p.used.advance (p.freshNat % 10000001)
      let r := (t.r0, t.r1)
      let spare (p : Part) : Part :=
        match p.spareCore c r.1 r.2 with
        | (q, true) => q.testEnd t true 5
        | (q, false) => (q.release c r).testEnd t true 7
      match res with
      | .pass => (p.release c r).testEnd t false 0
      | .fail => spare p
      | .way w =>
        if p.thirdWay c w then spare p
        else
          -- the record of the retirement in the tile's log (R241)
          (((p.retireL2Way c (w % 8)).rasLog (tileOfCore c) 0xFF 5 0 0xFF 0 (.named [16, c, w % 8])).release c r).testEnd t true 5

/-- SLICE_TEST_DONE: the test of a slice ends (R528): its groups have been cleaned, the failing ways are retired,
and groups whose ON changed meanwhile follow it (R529). -/
def Part.sliceTestDone (k : Nat) (bad : BitVec 16) (p : Part) : Part :=
  match p.sys.prm.test with
  | none => p
  | some t =>
    if ¬ t.slice ∨ t.full ∨ t.target ≠ k then p
    else
      let p := p.used.advance (p.freshNat % 10000001)
      let p := p.sweepLines k (fun _ => true) true
      let p := (List.range 4).foldl (fun (r : Part) (g : Nat) =>
        if t.grpOff.testBit g then Part.wayGroupCleaned k g (r.wayGroupSet k g false)
        else if t.grpOn.testBit g then Part.wayGroupWoken k g (r.wayGroupSet k g true)
        else r) (p.modPrm (fun s => { s with test := none }))
      let p := (List.range 16).foldl (fun (r : Part) (w : Nat) => if bad.getLsbD w then r.retireSliceWay k w else r) p
      p.testEnd t (decide (bad ≠ 0)) (if bad = 0 then 0 else 5)

/-! ### The full test (R525) -/

/-- The full test with the units that fail it: they are marked unusable, DRAM is overwritten, and a cold reset
follows. Units are (slice?, number). -/
def Part.fullTest (p : Part) (failed : List (Bool × Nat)) : Part :=
  let p := failed.foldl (fun (r : Part) (u : Bool × Nat) =>
    let r := if u.1 then (if u.2 < nSlices then r.setRec (9 + u.2 / 32) (u.2 % 32) true else r)
      else if u.2 < nCores then r.setRec (u.2 / 32) (u.2 % 32) true else r
    r.primerLog u.1 u.2 true true) p
  let p := if failed.isEmpty then p.primerLog false 0 false true else p
  let p := (p.setRg F.PRM_CMDSTAT_DONE 1).used.advance (p.freshNat % 1200000000001)
  ({ p with mem := [], pois := [] } : Part).coldReset

/-- The units that a full test with open results finds bad: a core fused off is not tested. -/
def Part.openFails (p : Part) : List (Bool × Nat) :=
  ((List.range nCores).filter (fun n => p.freshNat.testBit n && !p.sys.fuses.offCores.contains n)).map (fun n => (false, n))
    ++ ((List.range nSlices).filter (fun k => p.freshNat.testBit (nCores + k))).map (fun k => (true, k))

/-! ### Ledgers (R532 to R535) -/

/-- One comparison of an audit: where the field is, and whether it holds its constant. -/
structure LedgerChk where
  pg : Pg
  word : Nat
  lo : Nat
  ok : Bool
  deriving DecidableEq, Repr

def Part.chkFld (f : Fld) (u i : Nat) (ok : Bool) : LedgerChk := ⟨f.blk.place u, f.word i, f.lo, ok⟩

def Part.abUsed (p : Part) (k : Nat) : Nat := (p.sliceOf k).abuf.length
def Part.rqUsed (p : Part) (c : Nat) : Nat := (p.chanOf c).rq.length
def Part.wqUsed (p : Part) (c : Nat) : Nat := (p.chanOf c).wq.length
def Part.pwbUsed (p : Part) (i : Nat) : Nat := (p.mtOf i).pwb.length
def Part.rbufUsed (p : Part) (d : Nat) : Nat := (p.linkOf d).tx.length
def Part.tagsUsed (p : Part) (n : Nat) : Nat := (p.portOf n).out.length
def Part.keysValid (p : Part) : Nat := ((List.range 8192).filter p.keyValid).length

/-- Every comparison of an audit (R533): one for each constant of each ledger of a unit that is present. -/
def Part.audit (p : Part) : List LedgerChk :=
  let fab := (List.range nTiles).map (fun t => ((List.range 5).map (fun o =>
    [(F.FAB_LDG_REQ_VC0, 0, false), (F.FAB_LDG_REQ_VC1, 0, true), (F.FAB_LDG_REQ_VC2, 1, false), (F.FAB_LDG_REQ_VC3, 1, true),
     (F.FAB_LDG_DATA_VC0, 2, false), (F.FAB_LDG_DATA_VC1, 2, true), (F.FAB_LDG_DATA_VC2, 3, false),
     (F.FAB_LDG_DATA_VC3, 3, true)].map (fun e =>
       Part.chkFld e.1 t o (decide (p.credits t o e.2.1 e.2.2 = fabDepth e.2.1))))).flatten)
  let coh := (List.range nSlices).map (fun k =>
    [Part.chkFld F.COH_LDG_TRKFREE k 0 (decide (p.trkUsed k ≤ 64)), Part.chkFld F.COH_LDG_ABFREE k 0 (decide (p.abUsed k ≤ 8)),
     Part.chkFld F.COH_LDG_TRKUSED k 0 (decide (p.trkUsed k = 0))])
  let mc := ((List.range 16).filter (fun c => p.memTilePresent (c / 2))).map (fun c =>
    [Part.chkFld F.MC_LDG_RQFREE c 0 (decide (p.rqUsed c ≤ 64)), Part.chkFld F.MC_LDG_WQFREE c 0 (decide (p.wqUsed c ≤ 64)),
     Part.chkFld F.MC_LDG_RQUSED c 0 (decide (p.rqUsed c = 0)), Part.chkFld F.MC_LDG_WQUSED c 0 (decide (p.wqUsed c = 0))])
  let vr := ((List.range 8).filter p.memTilePresent).map (fun i =>
    [Part.chkFld F.VAR_LDG_FREE i 0 (decide (p.pwbUsed i ≤ 2048)), Part.chkFld F.VAR_LDG_USED i 0 (decide (p.pwbUsed i = 0))])
  let dv := (List.range p.sys.fuses.variant.links).map (fun d =>
    [(F.DVT_LDG0_VC0, 64), (F.DVT_LDG0_VC1, 64), (F.DVT_LDG0_VC2, 160), (F.DVT_LDG0_VC3, 16), (F.DVT_LDG1_VC4, 64),
     (F.DVT_LDG1_VC5, 64), (F.DVT_LDG1_VC6, 160)].map (fun e => Part.chkFld e.1 d 0 (decide (p.rg e.1 d = e.2)))
    ++ [Part.chkFld F.DVT_RBUF_FREE d 0 (decide (p.rbufUsed d ≤ 1024)), Part.chkFld F.DVT_RBUF_USED d 0 (decide (p.rbufUsed d = 0))])
  let pc := ((List.range 64).filter p.portExists).map (fun n =>
    [Part.chkFld F.PCI_PORT_LDG_FREE n 0 (decide (p.tagsUsed n ≤ 256)), Part.chkFld F.PCI_PORT_LDG_USED n 0 (decide (p.tagsUsed n = 0))])
  let nt := if ¬ p.hasPe then [] else
    [Part.chkFld F.NET_LDG_CELL_FREE 0 0 (decide (p.cellsUsed ≤ 32768)), Part.chkFld F.NET_LDG_CELL_USED 0 0 (decide (p.cellsUsed = 0)),
     Part.chkFld F.NET_LDG_DESC_FREE 0 0 (decide (p.descUsed ≤ 4096)), Part.chkFld F.NET_LDG_DESC_USED 0 0 (decide (p.descUsed = 0)),
     Part.chkFld F.KEY_LDG_FREE 0 0 (decide (p.keysValid ≤ 8192)), Part.chkFld F.VEN_POOLQ_FREE 0 0 (decide (p.asgQ ≤ 16384)),
     Part.chkFld F.VEN_POOLK_FREE 0 0 (decide (p.asgK ≤ 8192)), Part.chkFld F.VEN_POOLC_FREE 0 0 (decide (p.asgC ≤ 2048)),
     Part.chkFld F.VEN_POOLF_FREE_COUNT 0 0 (decide (p.asgF ≤ 262144)), Part.chkFld F.VEN_POOLBW_FREE 0 0 (decide (p.asgBw ≤ 16000))]
  let pl := [Part.chkFld F.PAL_CORES_CORES 0 0 (decide (p.rg F.PAL_CORES_CORES + p.rg F.PAL_CORES_SPARE + p.rg F.PAL_CORES_FUSEDOFF
      + p.rg F.PAL_CORES_UNUSABLE = nCores)),
    Part.chkFld F.PAL_SLICES_SLICES 0 0 (decide (p.rg F.PAL_SLICES_SLICES + p.rg F.PAL_SLICES_UNUSABLE = nSlices))]
  fab.flatten ++ coh.flatten ++ mc.flatten ++ vr.flatten ++ dv.flatten ++ pc.flatten ++ nt ++ pl

/-- AUDIT_QUIESCENT: the routers have been quiet for 10 µs and the ledgers are compared (R535). -/
def Part.auditQuiescent (p : Part) : Part :=
  if p.sys.prm.audit = none ∨ ¬ p.net.isEmpty then p
  else
    let start := p.sys.prm.audit.getD p.time
    let p := (p.fabUntil (fun _ => false) 4096).advance 10000
    let all := p.audit
    let bad := all.filter (fun c => !c.ok)
    let p := (p.setRg F.PRM_AUDIT_CHECKED all.length).setRg F.PRM_AUDIT_MISMATCH bad.length
    let p := match bad with
      | [] => p
      | c :: _ => (((p.setRg F.PRM_AMIS_TILE c.pg.tile).setRg F.PRM_AMIS_PAGE c.pg.page).setRg F.PRM_AMIS_OFFSET c.word).setRg F.PRM_AMIS_FIELD c.lo
    let p := bad.foldl (fun (r : Part) (c : LedgerChk) => r.rasLog c.pg.tile 0xFF 12 0 0xFF 0 .unstated) p
    (p.modPrm (fun s => { s with audit := none })).prmEnd 0 start

/-- AUDIT_TIMEOUT: quiescence is not reached within 10 ms (R535). -/
def Part.auditTimeout (p : Part) : Part :=
  match p.sys.prm.audit with
  | none => p
  | some t => (({ p with time := max p.time (t + 10000000) } : Part).modPrm (fun s => { s with audit := none })).prmEnd 6 t

/-! ### PRM_CMD (R538) -/

/-- A restore: the record's bit is cleared; the unit returns at the next cold reset (R530). -/
def Part.restore (p : Part) (slice : Bool) (u : Nat) : Part :=
  let w := if slice then 9 + u / 32 else u / 32
  if p.recBit w (u % 32) then (p.setRec w (u % 32) false).modPrm (fun s => { s with restore := (slice, u) :: s.restore }) else p

/-- A core cannot be acted on now (CODE 3). -/
def Part.coreBusy (p : Part) (n : Nat) : Bool :=
  p.plumb n || p.coreOff n || p.coreInReset n || (p.sys.pwr.entering.find? n).isSome

/-- PRM_CMD.GO was written; OP and TARGET are in the register. -/
def Part.prmCmd (p : Part) : Part :=
  if p.rgOn F.PRM_CMDSTAT_BUSY then p.setRg F.PRM_CMDSTAT_REJ 1
  else
    let u := p.rg F.PRM_CMD_TARGET
    let st := p.lcs
    let okState (op : Nat) : Bool :=
      match op with
      | 4 => decide (st ≠ 2) && decide (st ≠ 4)
      | 5 => decide (st ≠ 2) && decide (st ≠ 4)
      | 6 => decide (st ≠ 2) && decide (st ≠ 4)
      | 7 => true
      | _ => decide (st ≠ 4)
    let op := p.rg F.PRM_CMD_OP
    if ¬ okState op then p.prmEnd 1
    else
      match op with
      | 0 => if ¬ p.coreInSvc u then p.prmEnd 2 else if p.coreBusy u then p.prmEnd 3 else p.testStart false u true
      | 1 => if ¬ p.sliceInSvc u then p.prmEnd 2 else p.testStart true u true
      | 2 =>
        if ¬ p.coreInSvc u then p.prmEnd 2 else if p.coreBusy u then p.prmEnd 3
        else (p.setRg F.PRM_CMDSTAT_BUSY 1).coreAim u (.spare tileD 0xFF true)
      | 3 => if ¬ p.sliceInSvc u then p.prmEnd 2 else (p.sliceOut u).prmEnd 0
      | 4 => p.used.fullTest p.openFails
      | 5 => if u ≥ nCores then p.prmEnd 2 else (p.restore false u).prmEnd 0
      | 6 => if u ≥ nSlices then p.prmEnd 2 else (p.restore true u).prmEnd 0
      | _ => (p.setRg F.PRM_CMDSTAT_BUSY 1).modPrm (fun s => { s with audit := some p.time })

end Sys2Proof.Machine
end

