-- ==== Sys2Proof/Machine/Power.lean ====
section
/-!
DEFINITION. Supplies and contacts (R484, R571 to R582), the Varnish flush (R337 to R340), clocks and the capping loop
(R485 to R491), switching units off and resetting them (R492 to R496), and the EAS_ commands (R506).
-/
namespace Sys2Proof.Machine

/-! ### The Varnish flush -/

/-- Memory tiles whose buffer is armed. -/
def Part.armed (p : Part) : List Nat := (List.range 8).filter (fun i => p.rgOn F.VAR_CTL_ARM i)

/-- Entries left in the armed buffers. -/
def Part.armedLeft (p : Part) : Nat := sumNat (p.armed.map p.pwbUsed)

/-- The flush starts (R337 steps 1 and 2). -/
def Part.flushStart (p : Part) : Part :=
  let none_ := decide (p.gpfGroups = 0)
  let p := p.armed.foldl (fun (r : Part) (i : Nat) => r.setRg F.VAR_STAT_FLUSHING 1 i) p
  p.modVarn (fun v => { v with rstHigh := !p.sys.pins.rstLow,
                               flush := some { phase1 := none_, phase2 := none_, fails := 0, report := p.armedLeft, start := p.time } })

/-- A fall of PWRFAIL_N as the flush domain takes it (R336, R337, R340). -/
def Part.powerFall (p : Part) : Part :=
  if p.flushOn ∨ ¬ (p.rg F.PWR_BSTAT_ON).testBit 26 then p
  else if p.armed.isEmpty then p.easelLog 7 0 0 0
  else p.flushStart

/-- PWRFAIL_N_FALL: the contact has been low for 200 ns. -/
def Part.pwrfailFall (p : Part) : Part :=
  if ¬ p.sys.pins.stbyOk ∨ p.sys.pins.pwrfailLow then p
  else ((p.modPins (fun s => { s with pwrfailLow := true })).advance 200).powerFall

/-- VDD_BASE_LOW: VDD_BASE has been below 0.70 V for 1 µs (R578). -/
def Part.vddBaseLow (p : Part) : Part :=
  if p.sys.pins.rstLow ∨ ¬ p.sys.pins.stbyOk then p else ((p.advance 1000).easelLog 8 0 0 0).powerFall

/-- PWRFAIL_N is high and RSTIN_N has stayed high: the warm reset that follows FLUSHDONE (R340). -/
def Part.flushReset (p : Part) : Part :=
  if p.flushOn ∧ p.sys.varn.flushdone ∧ p.sys.varn.rstHigh ∧ ¬ p.sys.pins.pwrfailLow then p.warmReset else p

/-- PWRFAIL_N_RISE. -/
def Part.pwrfailRise (p : Part) : Part :=
  if ¬ p.sys.pins.stbyOk then p else (p.modPins (fun s => { s with pwrfailLow := false })).flushReset

/-- Change the flush in progress; nothing without one, or once FLUSHDONE is asserted. -/
def Part.modFlush (p : Part) (g : Flush → Part → Part) : Part :=
  match p.sys.varn.flush with
  | none => p
  | some f => if p.sys.varn.flushdone then p else g f p

def Part.setFlush (p : Part) (f : Flush) : Part := p.modVarn (fun v => { v with flush := some f })

/-- GPF_PHASE1_ACK: every listed lane group has acknowledged phase 1. -/
def Part.gpfPhase1 (p : Part) : Part :=
  p.modFlush (fun f p => if f.phase1 then p else p.setFlush { f with phase1 := true, start := p.time })

/-- Lane groups of GPFGRP whose device is removed or contained (R391): they complete no phase 2. -/
def Part.gpfLost (p : Part) : Nat :=
  (List.range 8).foldl (fun a g => if p.gpfGroups.testBit g && !p.cxlUp g then a + 2 ^ g else a) 0

/-- GPF_PHASE2_DONE. -/
def Part.gpfPhase2 (p : Part) : Part :=
  p.modFlush (fun f p => if f.phase1 ∧ ¬ f.phase2 ∧ p.gpfLost = 0 then p.setFlush { f with phase2 := true } else p)

/-- GPFTMO as applied, in µs (R343). -/
def Part.gpfTmo (p : Part) : Nat := max 1 (min 1300 (p.rg F.VAR_SEQ_GPFTMO))

/-- GPF_TIMEOUT: the lane groups of `groups`, and those whose device is lost, have not completed phase 2 within GPFTMO. This command moves TIME
there. -/
def Part.gpfTimeout (groups : BitVec 8) (p : Part) : Part :=
  p.modFlush (fun f p =>
    let late := (groups.toNat &&& p.gpfGroups) ||| p.gpfLost
    if ¬ f.phase1 ∨ f.phase2 ∨ late = 0 then p
    else ({ p with time := max p.time (f.start + p.gpfTmo * 1000) } : Part).setFlush { f with phase2 := true, fails := late })

/-- Outcome code of a flush (R585 event 3): a GPF timeout is named before a buffer that is not empty. -/
def flushCode (fails left : Nat) : Nat := if fails ≠ 0 then 1 else if left ≠ 0 then 2 else 0

/-- The channels that persistent ranges name enter self-refresh. -/
def Part.selfRefresh (p : Part) : Part := p.persChannels.foldl (fun (r : Part) (c : Nat) => r.setRg F.MC_STAT_SELFREF 1 c) p

/-- The outcome entry of a flush, and EAS_EVT.VARNISH (R339). -/
def Part.flushLog (p : Part) (code fails tiles lost : Nat) : Part :=
  (p.easelLog 3 (if code = 0 then 0 else 2) 0 (code * 2 ^ 8 + fails * 2 ^ 16 + tiles * 2 ^ 24 + min lost (2 ^ 24 - 1) * 2 ^ 32)).easEvent
    F.EAS_EVT_VARNISH

/-- FLUSHDONE: GPF is over and no armed buffer has an entry whose channel is in service (R337 steps 5 and 6). -/
def Part.flushDone (p : Part) : Part :=
  p.modFlush (fun f p =>
    if ¬ f.phase2 ∨ p.armed.any (fun i => (p.mtOf i).pwb.any (fun x => !(p.chanOf x.1).off)) then p
    else
      let left := p.armedLeft
      let tiles := p.armed.foldl (fun a i => if p.pwbUsed i = 0 then a else a + 2 ^ i) 0
      let p := p.armed.foldl (fun (r : Part) (i : Nat) => (r.setRg F.VAR_STAT_FLUSHING 0 i).setRg F.VAR_STAT_DONE 1 i) p.selfRefresh
      let p := (p.flushLog (flushCode f.fails left) f.fails tiles left).modVarn (fun v => { v with flushdone := true })
      if p.sys.pins.coldWaits then p.coldReset else p.flushReset)

/-- FLUSH_PROGRESS_REPORT: 10 µs on, the flush domain reports the entries left (R339). -/
def Part.flushReport (p : Part) : Part :=
  p.modFlush (fun f p => (p.advance 10000).setFlush { f with report := p.armedLeft })

/-- Entries that were being drained when the rails fell may or may not have reached DRAM. -/
def Part.drainOpen (p : Part) (i : Nat) : Part :=
  (p.mtOf i).pwb.foldl (fun (r : Part) (x : Nat × WqEnt) =>
    if r.freshNat % 2 = 1 ∧ ¬ (r.chanOf x.1).off then r.used.dramWrite x.1 x.2 else r.used) p

/-- FLUSH_DOMAIN_SILENT: the main rails fell before FLUSHDONE (R339). Entries in the buffers may or may not have
reached DRAM; everything on the main rails is lost but the DRAM of persistent ranges. -/
def Part.flushSilent (p : Part) : Part :=
  p.modFlush (fun f p =>
    let p := p.flushLog 3 f.fails 0 f.report
    let p := p.armed.foldl (fun (r : Part) (i : Nat) => r.drainOpen i) p
    p.selfRefresh.socketReset .cold)

/-! ### Supplies, REFCLK and RSTIN_N -/

/-- STANDBY_POWER_ON: an input reaches 1.71 V: VSTBY_BAK, or VSTBY_MAIN. The first starts Easel, which takes an RSTIN_N
that is already high as its rise (R577). -/
def Part.standbyOn (bak : Bool) (p : Part) : Part :=
  if p.sys.pins.stbyOk then (if bak then p.modPins (fun s => { s with bakOk := true }) else p)
  else
    let p := (p.socketReset .standby).modPins (fun s => { s with stbyOk := true, mainOk := !bak, bakOk := bak })
    if p.sys.pins.rstLow then p else p.rstRise

/-- A switch-over of the standby domain (R484). -/
def Part.stbySwitch (p : Part) (toBak : Bool) : Part :=
  let p := (p.modPins (fun s => { s with mainOk := !toBak })).countSat F.PWR_STBY_SWITCHES
  ((p.setRg F.PWR_STAT_STBYSW 1).easelLog 5 0 0 (if toBak then 2 ^ 8 else 0)).easEvent F.EAS_EVT_STBYSW

/-- STBY_SWITCH_TO_BAK: VSTBY_MAIN falls below 1.65 V while VSTBY_BAK is there. -/
def Part.stbyToBak (p : Part) : Part :=
  if p.sys.pins.stbyOk ∧ p.sys.pins.mainOk ∧ p.sys.pins.bakOk then p.stbySwitch true else p

/-- STBY_SWITCH_BACK: VSTBY_MAIN has stayed at or above 1.72 V for 10 ms. -/
def Part.stbyBack (p : Part) : Part :=
  if p.sys.pins.stbyOk ∧ ¬ p.sys.pins.mainOk then (p.advance 10000000).stbySwitch false else p

/-- STANDBY_LOSS: both inputs are lost (R484). -/
def Part.standbyLoss (p : Part) : Part :=
  if ¬ p.sys.pins.stbyOk then p
  else (p.socketReset .standby).modPins (fun s => { s with stbyOk := false, mainOk := false, bakOk := false })

/-- RSTIN_N_FALL: RSTIN_N is low for 1 ms (`long`), or for less (R496). -/
def Part.rstinFall (long : Bool) (p : Part) : Part :=
  if p.sys.pins.rstLow then p
  else if ¬ p.sys.pins.stbyOk then (if long then p.modPins (fun s => { s with rstLow := true }) else p)
  else
    let p := p.modVarn (fun v => { v with rstHigh := false })
    if ¬ long then p.easelLog 12 0 0 0
    else ((p.advance 1000000).modPins (fun s => { s with rstLow := true, thermtrip := false })).coldReset

/-- RSTIN_N_RISE: the strap SKT_MASTER is sampled and the boot starts (R345, R497), unless a cold reset still waits
for FLUSHDONE (R580). -/
def Part.rstinRise (master : Bool) (p : Part) : Part :=
  if ¬ p.sys.pins.rstLow then p
  else
    let p := p.modPins (fun s => { s with rstLow := false, master := master })
    if p.sys.pins.coldWaits ∨ ¬ p.sys.pins.stbyOk then p else p.rstRise

/-- BOOT_HOLD_RELEASE: PWRFAIL_N has been high for 10 ms (R580). -/
def Part.bootHoldRelease (p : Part) : Part :=
  if p.sys.boot ≠ .held ∨ p.sys.pins.pwrfailLow then p else (p.advance 10000000).bootStart false

/-- REFCLK_LOSS: no edge for 1 µs (R487). -/
def Part.refclkLoss (p : Part) : Part :=
  if p.sys.pwr.refLoss ∨ ¬ p.sys.pins.stbyOk then p
  else
    let p := ((p.setRg F.CLK_REF_LOSS 1).easelLog 6 0 0 0).modPwr (fun s => { s with refLoss := true })
    if p.coreInSvc (p.socketThread / 2) then p.socketCheck tileD [6] else p

/-! ### Frequencies and the capping loop -/

/-- CLK_Cn.FMIN and FMAX as applied (R504). -/
def Part.coreFmin (p : Part) (c : Nat) : Nat := max 40 (p.rg F.CLK_C_FMIN (tileOfCore c) (c % 2))
def Part.coreFmax (p : Part) (c : Nat) : Nat :=
  let m := min 152 (p.rg F.CLK_C_FMAX (tileOfCore c) (c % 2))
  if m < p.coreFmin c then p.coreFmin c else m
def Part.coreFreq (p : Part) (c : Nat) : Nat := p.rg F.CLK_C_FEFF (tileOfCore c) (c % 2)
def Part.setCoreFreq (p : Part) (c f : Nat) : Part := p.setRg F.CLK_C_FEFF f (tileOfCore c) (c % 2)

/-- CLK_UNC as applied. -/
def Part.uncFmin (p : Part) (t : Nat) : Nat := max 48 (p.rg F.CLK_UNC_FMIN t)
def Part.uncFmax (p : Part) (t : Nat) : Nat :=
  let m := min 96 (p.rg F.CLK_UNC_FMAX t)
  if m < p.uncFmin t then p.uncFmin t else m

/-- Tile N's uncore runs at 2.4 GHz for the packet engine (R485). -/
def Part.netHeld (p : Part) (t : Nat) : Bool := decide (t = tileN) && p.rgOn F.PAL_UNITS_PE && !p.rgOn F.NET_CTL_RST
/-- CLK_TSTAT.UNCHELD: the loop does not lower the tile's uncore (R485, R490). -/
def Part.uncHeld (p : Part) (t : Nat) : Bool := p.rgOn F.FAB_STNCTL_EN t || p.netHeld t

/-- PWR_LOOP.HOTF as applied. -/
def Part.hotF (p : Part) : Nat := max 40 (p.rg F.PWR_LOOP_HOTF)

/-- A core island is held at HOTF: VRHOT_N, or its die is hot. -/
def Part.coreHot (p : Part) (c : Nat) : Bool := p.sys.pins.vrhot || p.sys.pwr.hot.contains (dieOf (tileOfCore c))

/-- CLK_Cn was written: the effective frequency follows its bounds. -/
def Part.clkCore (p : Part) (c : Nat) : Part :=
  if p.sys.pwr.refLoss ∨ p.coreHot c then p
  else p.setCoreFreq c (max (p.coreFmin c) (min (p.coreFmax c) (p.coreFreq c)))

/-- CLK_UNC was written. -/
def Part.clkUnc (p : Part) (t : Nat) : Part :=
  if p.sys.pwr.refLoss then p
  else
    let f := max (p.uncFmin t) (min (p.uncFmax t) (p.rg F.CLK_UNC_FEFF t))
    p.setRg F.CLK_UNC_FEFF (if p.netHeld t then 96 else f) t

/-- CLK_ALLCORE was written: a non-zero field goes to every CLK_Cn (R505). -/
def Part.clkAllCore (p : Part) (fmax fmin : Nat) : Part :=
  let p := (p.setRg F.CLK_ALLCORE_FMAX 0).setRg F.CLK_ALLCORE_FMIN 0
  (List.range nCores).foldl (fun (r : Part) (c : Nat) =>
    let r := if fmax = 0 then r else r.setRg F.CLK_C_FMAX fmax (tileOfCore c) (c % 2)
    let r := if fmin = 0 then r else r.setRg F.CLK_C_FMIN fmin (tileOfCore c) (c % 2)
    r.clkCore c) p

/-- The effective package limit (R371, R488): the share counts while the master's cap is in force, as the last time message told. -/
def Part.effLimit (p : Part) : Nat :=
  let w := if p.sys.dvt.capOn then min (p.rg F.PWR_PL_W) (p.rg F.DVT_PWRSHARE_W) else p.rg F.PWR_PL_W
  max (p.rg F.PAL_POWER_PLMIN) (min (p.rg F.PAL_POWER_PLMAX) w)

/-- Cores that the loop moves, and uncore islands that it may cut. -/
def Part.loopCores (p : Part) : List Nat := (List.range nCores).filter (fun c => p.coreInSvc c && !p.coreHot c)
def Part.loopTiles (p : Part) : List Nat :=
  if p.rgOn F.PWR_LOOP_UNCCUT then (List.range nTiles).filter (fun t => !p.uncHeld t) else []

/-- Take power: cores, then uncores, then issue duty (R490). -/
def Part.capDown (p : Part) (n : Nat) : Part :=
  let cs := p.loopCores.filter (fun c => decide (p.coreFreq c > p.coreFmin c))
  let ts := p.loopTiles.filter (fun t => decide (p.rg F.CLK_UNC_FEFF t > p.uncFmin t))
  if ¬ cs.isEmpty then cs.foldl (fun (r : Part) (c : Nat) => r.setCoreFreq c (max (r.coreFmin c) (r.coreFreq c - n))) p
  else if ¬ ts.isEmpty then ts.foldl (fun (r : Part) (t : Nat) => r.setRg F.CLK_UNC_FEFF (max (r.uncFmin t) (r.rg F.CLK_UNC_FEFF t - n)) t) p
  else if p.sys.pwr.duty > 4 then (p.modPwr (fun s => { s with duty := max 4 (s.duty - n) })).setRg F.PWR_STAT_FLOOR 1
  else p.setRg F.PWR_STAT_OVER 1

/-- Give power back, in the reverse order. -/
def Part.capUp (p : Part) (n : Nat) : Part :=
  let ts := (List.range nTiles).filter (fun t => decide (p.rg F.CLK_UNC_FEFF t < p.uncFmax t))
  if p.sys.pwr.duty < 16 then p.modPwr (fun s => { s with duty := min 16 (s.duty + n) })
  else if ¬ ts.isEmpty then ts.foldl (fun (r : Part) (t : Nat) => r.setRg F.CLK_UNC_FEFF (min (r.uncFmax t) (r.rg F.CLK_UNC_FEFF t + n)) t) p
  else p.loopCores.foldl (fun (r : Part) (c : Nat) => r.setCoreFreq c (min (r.coreFmax c) (r.coreFreq c + n))) p

/-- CAPPING_ITERATION: 50 µs on, the loop with its estimate of the package power, the average over TAU and the steps
that it takes, at most four (R489, R490). -/
def Part.cappingIteration (power avg steps : Nat) (p : Part) : Part :=
  if p.sys.boot = .off ∨ p.sys.boot = .held ∨ p.sys.pwr.refLoss then p
  else
    let p := (p.advance 50000).setRg F.PWR_PLSTAT_AVG (min 1023 avg)
    let n := min 4 steps
    if p.sys.pins.vrhot ∨ n = 0 then p else if power > p.effLimit then p.capDown n else p.capUp n

/-- Cores whose FEFF the loop holds below FMAX (CLK_TSTAT.CAP0, CAP1), and PWR_STAT.CAPPING. -/
def Part.coreCapped (p : Part) (c : Nat) : Bool := p.coreInSvc c && !p.coreHot c && decide (p.coreFreq c < p.coreFmax c)
def Part.capping (p : Part) : Bool :=
  (List.range nCores).any p.coreCapped || (List.range nTiles).any (fun t => decide (p.rg F.CLK_UNC_FEFF t < p.uncFmax t))

/-- VRHOT_ASSERT: every core island moves to HOTF (R491). -/
def Part.vrhotAssert (p : Part) : Part :=
  if p.sys.pins.vrhot ∨ p.sys.boot = .off then p
  else
    let p := (p.modPins (fun s => { s with vrhot := true })).setRg F.PWR_STAT_VRHOT 1
    if p.sys.pwr.refLoss then p else (List.range nCores).foldl (fun (r : Part) (c : Nat) => r.setCoreFreq c r.hotF) p

/-- REFCLK_RETURN: the PLLs have relocked; TIME resumes from its held value, and frequency changes resume (R487): every island
follows what CLK_ registers and heat have asked for meanwhile. -/
def Part.refclkReturn (p : Part) : Part :=
  if ¬ p.sys.pwr.refLoss then p
  else
    let p := p.modPwr (fun s => { s with refLoss := false })
    let p := (List.range nCores).foldl (fun (r : Part) (c : Nat) => if r.coreHot c then r.setCoreFreq c r.hotF else r.clkCore c) p
    (List.range nTiles).foldl (fun (r : Part) (t : Nat) => r.clkUnc t) p

/-- VRHOT_RELEASE. -/
def Part.vrhotRelease (p : Part) : Part := p.modPins (fun s => { s with vrhot := false })

/-! ### Thermal limits -/

/-- The hottest reading of a die. -/
def dieTemp (readings : List Nat) (d : Nat) : Nat :=
  ((List.range nTiles).filter (fun t => decide (dieOf t = d))).foldl (fun a t => max a (readings.getD t 0)) 0

/-- A die has reached 105 °C (R581). -/
def Part.dieHot (p : Part) (d : Nat) : Part :=
  let p := p.modPwr (fun s => { s with hot := s.hot ++ [d] })
  let p := if p.sys.pwr.refLoss then p else
    ((List.range nCores).filter (fun c => decide (dieOf (tileOfCore c) = d))).foldl (fun (r : Part) (c : Nat) => r.setCoreFreq c r.hotF) p
  p.easelLog 10 0 0 (d * 2 ^ 8)

/-- A thermal trip (R582): the core islands stop, THERMTRIP_N is asserted, Varnish starts when armed. -/
def Part.thermalTrip (p : Part) (d : Nat) : Part :=
  if p.sys.pins.thermtrip then p
  else
    let p := (p.easelLog 11 0 0 (d * 2 ^ 8)).modPins (fun s => { s with thermtrip := true })
    let p := { p with thr := p.thr.map (fun (e : Nat × Thr) => (e.1, { e.2 with run := p.runAs e.2.run })) }
    if p.flushOn ∨ p.armed.isEmpty then p else p.flushStart

/-- THERMAL_SAMPLE: 50 µs on, Easel reads every sensor, in degrees Celsius by tile. -/
def Part.thermalSample (readings : List Nat) (p : Part) : Part :=
  if p.sys.boot = .off then p
  else
    let p := p.advance 50000
    let p := (List.range 4).foldl (fun (r : Part) (d : Nat) =>
      if dieTemp readings d ≥ 105 ∧ ¬ r.sys.pwr.hot.contains d then r.dieHot d else r) p
    (List.range 4).foldl (fun (r : Part) (d : Nat) => if dieTemp readings d ≥ 125 then r.thermalTrip d else r) p

/-- THERMAL_RECOVER: every reading of a die has been at or below 100 °C for 1 ms. -/
def Part.thermalRecover (d : Nat) (p : Part) : Part :=
  if ¬ p.sys.pwr.hot.contains d then p else (p.advance 1000000).modPwr (fun s => { s with hot := s.hot.erase d })

/-! ### Cores (R494, R495) -/

/-- PWR_Cn.MODE as applied. -/
def Part.coreMode (p : Part) (c : Nat) : Nat :=
  match p.rg F.PWR_C_MODE (tileOfCore c) (c % 2) with | 3 => 0 | m => m
/-- PWR_Cn.IDLET as applied, in µs. -/
def Part.coreIdle (p : Part) (c : Nat) : Nat := max 1 (p.rg F.PWR_C_IDLET (tileOfCore c) (c % 2))

/-- PWR_Cn was written: RST and MODE before. -/
def Part.pwrCore (p : Part) (c : Nat) (oldRst : Bool) (oldMode : Nat) : Part :=
  let rst := p.rgOn F.PWR_C_RST (tileOfCore c) (c % 2) && !oldRst
  let off := decide (p.coreMode c = 2) && decide (oldMode ≠ 2)
  let p := if rst ∨ off then p.testAbort c else p
  let p := if off ∧ ¬ p.coreOff c then p.coreAim c (.off .forced) else p
  -- a forced entry that Easel has not begun ends with the request
  let p := if p.coreMode c ≠ 2 ∧ (p.sys.pwr.entering.find? c).any (fun a => decide (a.aim = .off .forced) && a.held.isNone)
    then p.modPwr (fun s => { s with entering := s.entering.del c }) else p
  if rst then p.coreAim c .reset else p

/-- CORE_IDLE_OFF: both threads of a core have waited IDLET µs and Easel takes it off. -/
def Part.coreIdleOff (c : Nat) (p : Part) : Part :=
  if c ≥ nCores ∨ p.coreMode c ≠ 1 ∨ p.coreOff c ∨ (p.sys.pwr.entering.find? c).isSome ∨ (p.thread (2 * c)).run ≠ .waiting
      ∨ (p.thread (2 * c + 1)).run ≠ .waiting then p
  else (p.used.advance (p.freshNat % (p.coreIdle c * 1000 + 1))).coreAim c (.off .idle)

/-- CORE_WAKE: an OFF core whose condition to wake holds is powered and its threads run again (R495). -/
def Part.coreWake (c : Nat) (p : Part) : Part :=
  match p.sys.pwr.off.find? c with
  | none => p
  | some o =>
    let due : Bool := match o.by_ with
      | .idle => p.wakes (2 * c) o.r0 || p.wakes (2 * c + 1) o.r1
      | .forced => decide (p.coreMode c ≠ 2)
      | .spareUnit => false
    if ¬ due then p
    else
      let p := p.used.advance (p.freshNat % 40001)
      let p := (p.modPwr (fun s => { s with off := s.off.del c })).release c (o.r0, o.r1)
      if p.coreMode c = 2 then p.coreAim c (.off .forced) else p

/-- CORE_RESET by Easel itself (R308, R496). -/
def Part.coreResetBy (c : Nat) (p : Part) : Part := if c < nCores then (p.testAbort c).coreAim c .reset else p

/-- A core's state in PWR_TSTAT (R494). -/
def Part.corePwr (p : Part) (c : Nat) : Nat :=
  let idle (t : Nat) : Bool := decide ((p.thread t).run = .waiting) || decide ((p.thread t).run = .parked)
  if p.coreOff c then 2 else if p.coreInReset c then 3 else if idle (2 * c) && idle (2 * c + 1) then 1 else 0

/-- ISOLATION_HOLD: 1 ms after isolation Easel holds every core in reset (R367). -/
def Part.isolationHold (p : Part) : Part :=
  match p.isolationDue with
  | none => p
  | some q => (List.range nCores).foldl (fun (r : Part) (c : Nat) => if r.coreInSvc c then (r.testAbort c).coreAim c .reset else r) q

/-! ### Tiles and base-die domains (R493, R496) -/

/-- A valid range names a channel. -/
def Part.chanNamed (p : Part) (c : Nat) : Bool :=
  (List.range 16).any (fun r => let t := p.ilv r; t.v && !p.ilvBad t && !t.cxl && t.chmask.testBit c)

/-- R438 carried to its end: descriptors that find no record slot are abandoned after 1 ms. -/
def Part.netForceReset (p : Part) : Part :=
  let old := p.rg F.NET_CTL_RST
  let p := (p.setRg F.NET_CTL_RST 1).netRstAll old
  if p.pkt.resetAt = none then p
  else
    let p := p.advance 1000000
    (p.pkt.q.foldl (fun (r : Part) (x : Nat × QueueSt) => if x.2.quiet then r else r.netAbandon x.1) p).netEnterReset.netEnded

/-- Every entry of tile Mi's persistent write buffer drains. -/
def Part.pwbDrainAll (p : Part) (i : Nat) : Part :=
  (List.range (p.mtOf i).pwb.length).foldl (fun (r : Part) (_ : Nat) => r.pwbDrain i) p

/-- Why a tile's switched part may not be switched off: the reason code of R493, 0 when it may. -/
def Part.tileOffReason (p : Part) (t : Nat) : Nat :=
  match tileKind t with
  | .core =>
    let k := (coreOrd t).getD 0
    if p.sliceInSvc k || !p.coreOff (2 * k) || !p.coreOff (2 * k + 1) then 1 else 0
  | .mem =>
    let i := (memIndex t).getD 0
    if p.chanNamed (2 * i) || p.chanNamed (2 * i + 1) || p.rgOn F.VAR_CTL_ARM i then 2 else 0
  | .pcie =>
    let h := if t = tileP0 then 0 else 1
    let quiet := (List.range 4).all (fun j => !p.grpPresent (4 * h + j) || p.rgOn F.PCI_GRP_STAT_INRESET (4 * h + j))
    if !quiet || (decide (h = 0) && p.rgOn F.PAL_UNITS_PE && !p.rgOn F.NET_CTL_RST) then 3 else 0
  | .net => 0
  | .dvt => 4

/-- A refused request of a tile's PWR_ page. -/
def Part.tileRefused (p : Part) (t reason : Nat) : Part := (p.setRg F.PWR_TSTAT_REFUSED 1 t).setRg F.PWR_TSTAT_REASON reason t

/-- PWR_TCTL.OFF was written (R493). -/
def Part.tileOff (p : Part) (t : Nat) (old : Bool) : Part :=
  let new := p.rgOn F.PWR_TCTL_OFF t
  if new = old then p
  else if ¬ new then p.setRg F.PWR_UNCON_ON 1 t
  else
    let why := p.tileOffReason t
    if why ≠ 0 then (p.setRg F.PWR_TCTL_OFF 0 t).tileRefused t why
    else
      let p := match tileKind t with
        | .mem =>
          let i := (memIndex t).getD 0
          let q := (p.pwbDrainAll i).unitReset t
          (q.modChan (2 * i) (fun s => { s with off := true })).modChan (2 * i + 1) (fun s => { s with off := true })
        | .net => p.netForceReset.unitReset t
        | _ => p.unitReset t
      p.setRg F.PWR_UNCON_ON 0 t

/-- PWR_TCTL.RST was written 1 (R496). -/
def Part.tileRst (p : Part) (t : Nat) : Part :=
  match coreOrd t with
  | some k =>
    if p.sliceInSvc k then (p.setRg F.PWR_TCTL_RST 0 t).tileRefused t 6
    else ((((p.testAbort (2 * k)).coreAim (2 * k) .reset).testAbort (2 * k + 1)).coreAim (2 * k + 1) .reset).tileResetEnd t
  | none =>
    let p := if t = tileN then p.netForceReset else p
    (p.unitReset t).setRg F.PWR_TCTL_RST 0 t

/-- A channel's island is switched off: its queues empty, its registers and its contents go (R341, R493). -/
def Part.chanOff (p : Part) (c : Nat) : Part :=
  let p := p.chanFinish c
  let mine (k : Nat) : Bool := inPage (mcPage c) k && decide (k / 32 % 256 < 0x80)
  let p := { p with ctl := p.ctl.filter (fun e => !mine e.1), held := p.held.filter (fun e => !mine e.1),
                    mem := p.mem.filter (fun e => decide (e.1 / 2 ^ 44 ≠ c)), pois := p.pois.filter (fun e => decide (16 * e.1 / 2 ^ 44 ≠ c)) }
  p.modChan c (fun _ => { ChanSt.reset with off := true })

/-- Base-die domain of bit `b` of PWR_BOFF, and the reason against switching it off. -/
def baseDomain (b : Nat) : Nat := if b < 26 then 408 + b else 435
def Part.baseOffReason (p : Part) (b : Nat) : Nat :=
  if b < 16 then (if p.chanNamed b then 2 else 0) else if b = 26 then (if p.armed.isEmpty then 0 else 5) else 0

/-- One bit of PWR_BOFF changed to 1: switched off, or refused. -/
def Part.baseOff (p : Part) (b : Nat) : Part :=
  let why := p.baseOffReason b
  if why ≠ 0 then
    (((p.setRg F.PWR_BOFF_OFF (setBit (p.rg F.PWR_BOFF_OFF) b false)).setRg F.PWR_REFUSE_REASON why).setRg F.PWR_REFUSE_DOMAIN (baseDomain b)).setRg
      F.PWR_STAT_REFUSED 1
  else
    let p := p.setRg F.PWR_BSTAT_ON (setBit (p.rg F.PWR_BSTAT_ON) b false)
    if b < 16 then p.chanOff b
    else if b < 24 then p.grpEnterReset (b - 16) true
    else if b < 26 then p.etherOff (b - 24)
    else p

/-- One bit of PWR_BOFF changed to 0: the domain is on, in its reset state; that of an absent unit stays off (R28). A lane
group's reference clock starts (R574), and a channel trains again (R320). -/
def Part.baseOn (p : Part) (b : Nat) : Part :=
  if ¬ p.sys.fuses.variant.baseDomains.testBit b then p
  else
  let p := p.setRg F.PWR_BSTAT_ON (setBit (p.rg F.PWR_BSTAT_ON) b true)
  let p := if 16 ≤ b ∧ b < 24 then p.modPci (fun s => { s with clkSince := s.clkSince.put (b - 16) p.time }) else p
  if b < 16 ∧ (p.sys.boot = .configured ∨ p.sys.boot = .released) then p.trains b
  else if 24 ≤ b ∧ b < 26 then p.macEval else p

/-- PWR_BOFF was written. -/
def Part.boffWritten (p : Part) (old : Nat) : Part :=
  let new := p.rg F.PWR_BOFF_OFF
  (List.range 27).foldl (fun (r : Part) (b : Nat) =>
    if new.testBit b = old.testBit b then r else if new.testBit b then r.baseOff b else r.baseOn b) p

/-! ### EAS_ commands (R506) -/

/-- The end of a command. -/
def Part.easEnd (p : Part) (code : Nat) : Part :=
  ((p.setRg F.EAS_CMDSTAT_DONE 1).setRg F.EAS_CMDSTAT_CODE code).setRg F.EAS_CMDSTAT_ERR (if code = 0 then 0 else 1)

/-- A thread leaves reset at level F (R37). Thread 1 is parked while T1EN is 0 or the core is in Plumb mode. -/
def Part.startThread (p : Part) (t : Nat) (pc : Dword) : Part :=
  let park := decide (t % 2 = 1) && (!p.rgOn F.CORE_CFG_T1EN (t / 2) || p.plumb (t / 2))
  let run : RunSt := p.runAs (if park then .parked else .running)
  match p.sys.pwr.off.find? (t / 2) with
  | none => p.modThread t (fun _ => { Thr.reset with pc := pc, run := run })
  | some o =>
    let o := if t % 2 = 0 then { o with r0 := run } else { o with r1 := run }
    (p.modThread t (fun _ => { Thr.reset with pc := pc, run := .easel })).modPwr (fun s => { s with off := s.off.put (t / 2) o })

/-- What a thread does, the core switched off or not. -/
def Part.runOf (p : Part) (t : Nat) : RunSt :=
  match p.sys.pwr.off.find? (t / 2) with
  | none => (p.thread t).run
  | some o => if t % 2 = 0 then o.r0 else o.r1

/-- CORE_START. -/
def Part.easStart (p : Part) : Part :=
  let t := p.rg F.EAS_ARG_ARG 0 0 % 1024
  let c := t / 2
  if ¬ p.coreInSvc c ∨ p.runOf t ≠ .inReset ∨ p.rgOn F.PWR_C_RST (tileOfCore c) (c % 2) ∨ (p.sys.pwr.entering.find? c).isSome then p.easEnd 3
  else (p.startThread t (dw (p.rg F.EAS_ARG_ARG 0 1 + p.rg F.EAS_ARG_ARG 0 2 * 2 ^ 32))).easEnd 0

/-- Word `i` of a log entry, 0 to 7 (R514, R585). -/
def RasEnt.word (e : RasEnt) (i : Nat) : Nat :=
  match i with
  | 0 => e.time % 2 ^ 32
  | 1 => e.time / 2 ^ 32 % 2 ^ 32
  | 2 => e.seq
  | 3 => e.src + e.kind * 2 ^ 8 + e.sev * 2 ^ 16 + e.init * 2 ^ 24
  | 4 => e.addr % 2 ^ 32
  | 5 => e.addr / 2 ^ 32 % 2 ^ 32
  | 6 => e.info % 2 ^ 32
  | _ => e.info / 2 ^ 32 % 2 ^ 32

/-- LOG_READ. What it returns for a number that never was given to an entry is open. -/
def Part.easLogRead (p : Part) : Part :=
  let n := p.rg F.EAS_ARG_ARG 0 0
  let top := p.rg F.EAS_LOGSEQ_SEQ
  let back := (top + 2 ^ 32 - n) % 2 ^ 32
  if 1024 ≤ back ∧ back < 2 ^ 31 then p.easEnd 4
  else if back ≥ 2 ^ 31 then p.easEnd 6
  else
    let w (i : Nat) : Nat := match p.elog.find? (fun x => decide (x.2.seq = n)) with
      | some (tile, e) => if i = 7 then e.info / 2 ^ 32 % 2 ^ 24 + tile * 2 ^ 24 else e.word i
      | none => Config.freeNat p.free / 2 ^ (32 * i) % 2 ^ 32
    ((List.range 8).foldl (fun (r : Part) (i : Nat) => r.setRg F.EAS_RES_RES (w i) 0 i) p.used).easEnd 0

/-- WARM_RESET. The EAS_ page lies in the standby domain: DONE is there after the reset. -/
def Part.easWarm (p : Part) : Part :=
  if p.rg F.EAS_ARG_ARG 0 0 % 2 = 1 ∧ ¬ p.rgOn F.DVT_ENUM_MASTER then p.easEnd 5 else p.warmReset.easEnd 0

/-- EAS_CMD.GO was written by a master of level F or Easel (`top`), or another. -/
def Part.easCmd (p : Part) (top : Bool) : Part :=
  if p.rgOn F.EAS_CMDSTAT_BUSY then p.setRg F.EAS_CMDSTAT_REJ 1
  else
    match p.rg F.EAS_CMD_OP with
    | 1 => if top then p.easStart else p.easEnd 2
    | 2 => p.easLogRead
    | 3 => if top then p.easWarm else p.easEnd 2
    | _ => p.easEnd 1

end Sys2Proof.Machine
end

