-- ==== Sys2Proof/Machine/Bus.lean ====
section
/-!
DEFINITION. Reads of control registers (R9, R539 to R547, R558): which units answer, what a master may see, and the
fields whose value is computed from the state of the unit.
-/
namespace Sys2Proof.Machine

/-- A field at its place: field, unit, register index. -/
structure At where
  f : Fld
  u : Nat
  i : Nat
  deriving DecidableEq, Repr

/-- The index of the register of a field's name that lies at register word `w`. -/
def Fld.idx? (f : Fld) (w : Nat) : Option Nat :=
  if f.cnt ≤ 1 then (if f.off = 4 * w then some 0 else none)
  else if f.stride = 0 ∨ 4 * w < f.off then none
  else
    let d := 4 * w - f.off
    if d % f.stride = 0 ∧ d / f.stride < f.cnt then some (d / f.stride) else none

/-- The fields at word `w` of a page. -/
def fldsAt (pg : Pg) (w : Nat) : List At :=
  ((pageBlocks pg).map (fun b => b.1.flds.filterMap (fun f => (f.idx? w).map (fun i => At.mk f b.2 i)))).flatten

/-- A field exists where its page has it: some registers are reserved in some tiles (R504, R517, R536). -/
def At.real (a : At) : Bool :=
  let core := decide (tileKind a.u = .core)
  if a.f.blk = .ras then
    (if a.f = F.RAS_MCSTAT_VALID ∨ a.f = F.RAS_MCSEQ_SEQ then core
     else if 0x060 ≤ a.f.off then (srcDefault (tileKind a.u) a.i).isSome else true)
  else if (a.f.blk = .pwr ∨ a.f.blk = .clk) ∧ a.f.off < 8 then core
  else true

/-- The unit is present and in service (R6, R29, R441): otherwise its page reads zero and ignores writes. -/
def Part.blkThere (p : Part) (b : Blk) (u : Nat) : Bool :=
  match b with
  | .pal => decide (p.rg F.PAL_GEN_GEN ≠ 0)
  | .llc => p.sliceInSvc u
  | .coh => p.sliceInSvc u
  | .core => p.coreInSvc u
  | .tlb => p.coreInSvc u
  | .mc => p.memTilePresent (u / 2)
  | .ilv => p.memTilePresent 0
  | .var => p.memTilePresent u
  | .varseq => p.memTilePresent 0
  | .dvt => decide (u < p.rg F.PAL_IO_LINKS)
  | .dvtg => decide (p.rg F.PAL_IO_LINKS ≠ 0)
  | .pcig => p.grpPresent u
  | .ep => p.rgOn F.PAL_UNITS_EP
  | .pcip => p.portExists u
  | .iot => if u = 0 then p.rgOn F.PAL_UNITS_P0 else p.rgOn F.PAL_UNITS_P1
  | .netg => p.hasPe
  | .mac => p.hasPe
  | .lp => p.hasPe
  | .key => p.hasPe
  | .keyslot => p.hasPe
  | .ven => p.hasPe
  | _ => true

/-- The block's page is held in a power domain that is on (R492, R493). -/
def Part.blkPowered (p : Part) (b : Blk) (u : Nat) : Bool :=
  let unc := p.rgOn F.PWR_UNCON_ON (b.place u).tile
  let dom (n : Nat) : Bool := (p.rg F.PWR_BSTAT_ON).testBit n
  match b with
  | .llc => unc
  | .coh => unc
  | .mc => unc && dom u
  | .ilv => unc
  | .var => unc
  | .varseq => unc
  | .pcig => unc && dom (16 + u)
  | .ep => unc && dom 16
  | .pcip => unc && dom (16 + u / 8)
  | .iot => unc
  | .netg => unc
  | .mac => unc && dom (24 + u / 8)
  | .lp => unc
  | .key => unc
  | .keyslot => unc
  | .ven => unc
  | _ => true

/-- A register word that the engine in reset still shows (R438). -/
def Part.netShows (p : Part) (b : Blk) (w : Nat) : Bool :=
  match b with
  | .netg => !p.rgOn F.NET_CTL_RST || decide (w ≤ 2)
  | .mac => !p.rgOn F.NET_CTL_RST
  | .lp => !p.rgOn F.NET_CTL_RST
  | _ => true

/-- In sockets other than the master, DVT_GPWR and DVT_ILVMIS read zero and ignore writes (R373). -/
def Part.dvtShows (p : Part) (f : Fld) : Bool :=
  decide (f.blk ≠ .dvtg) || !(decide (f.off = 0x118) || decide (f.off = 0x124)) || p.rgOn F.DVT_ENUM_MASTER

/-- The fields that answer at a word of a page: step 1 of R543. -/
def Part.answering (p : Part) (pg : Pg) (w : Nat) : List At :=
  (fldsAt pg w).filter (fun a => a.real && p.blkThere a.f.blk a.u && p.blkPowered a.f.blk a.u && p.netShows a.f.blk w && p.dvtShows a.f)

/-- Nothing behind the page can answer because its power domain is off: the stand-in answers (R276, R493). -/
def Part.pageOff (p : Part) (pg : Pg) : Bool :=
  let l := (pageBlocks pg).filter (fun b => p.blkThere b.1 b.2)
  !l.isEmpty && l.all (fun b => !p.blkPowered b.1 b.2)

/-- A master of level F, or Easel (R544). -/
def Master.top (m : Master) : Bool := m.easel || decide (m.lvl = .f)
/-- The VMID that a block checks; Easel acts as VMID 0. -/
def Master.vm (m : Master) : Nat := if m.easel then 0 else m.vmid

/-- A counter that a guest owns (R558). -/
def Part.guestCtr (p : Part) (t c vm : Nat) : Bool := p.rgOn F.PERF_CFG_VMF t c && decide (p.rg F.PERF_CFG_VMID t c = vm)
/-- The PERF_OVF bits of a guest's counters. -/
def Part.guestOvf (p : Part) (t vm : Nat) : Nat :=
  (List.range 24).foldl (fun a c => if p.guestCtr t c vm then a + 2 ^ c else a) 0

/-- A read shows the field: the FO check of R544 and the block's own checks (R461, R558, R560). -/
def Part.shows (p : Part) (m : Master) (a : At) (w : Nat) : Bool :=
  (m.top || !a.f.fo) &&
  match a.f.blk with
  | .perf => decide (m.vm = 0) || decide (w = 0) || decide (a.f = F.PERF_OVF_OVF)
      || (decide (0x100 ≤ a.f.off) && p.guestCtr a.u a.i m.vm)
  | .gperf => decide (m.vm = 0)
  | .ven => decide (m.vm = 0) || (decide (m.vm = p.ownerOf a.u) && !(decide (0x90 ≤ w) && decide (w ≤ 0x95)))
  | _ => true

/-! ### Values computed at a read -/

/-- STATE and LBUF of a thread in CORE_THSTAT (R185). Whether the fetch of a running thread waits, CWAIT, is open; one that does
not run fetches nothing. -/
def Part.thByte (p : Part) (t : Nat) : Nat :=
  (p.runOf t).code + (if p.fromLoopBuf t then 16 else 0)
    + (if p.runOf t = .running then p.freshNat / 2 ^ (t % 2) % 2 * 8 else 0)

def Part.coreVal (p : Part) (a : At) : Nat :=
  let f := a.f
  if f = F.CORE_ID_SOCKET then p.sktId
  else if f = F.CORE_CFG_EFF_ROBMAX then p.rg F.CORE_CFG_ROBMAX a.u
  else if f = F.CORE_CFG_EFF_ICGATE then p.rg F.CORE_CFG_ICGATE a.u
  else if f = F.CORE_CFG_EFF_LBEN then p.rg F.CORE_CFG_LBEN a.u
  else if f = F.CORE_CFG_EFF_RASEN then p.rg F.CORE_CFG_RASEN a.u
  else if f = F.CORE_CFG_EFF_BTBEN then p.rg F.CORE_CFG_BTBEN a.u
  else if f = F.CORE_CFG_EFF_FPOL then p.rg F.CORE_CFG_FPOL a.u
  else if f = F.CORE_CFG_EFF_T1EN then p.rg F.CORE_CFG_T1EN a.u
  else if f = F.CORE_CFG_EFF_PEND then (p.held.any (fun e => inPage (Blk.place .core a.u) e.1 && decide (e.1 / 32 % 256 = 1))).toNat
  else if f = F.CORE_PLUMB_STAT_PEND then (p.held.any (fun e => inPage (Blk.place .core a.u) e.1 && decide (e.1 / 32 % 256 = 4))).toNat
  else if f = F.CORE_THSTAT_T0 then p.thByte (2 * a.u)
  else if f = F.CORE_THSTAT_T1 then p.thByte (2 * a.u + 1)
  else if f = F.ICDB_DATA then 0
  else p.rg f a.u a.i

/-- The effective ROBMAX of CORE_CFG_EFF is the applied value (R185). -/
def robmax (v : Nat) : Nat := min 320 (max 64 v)

/-- Slots that a slice serves besides its own: those just below it in slice order, all out of service (R230). -/
def Part.redirects (p : Part) (k n : Nat) : Nat → Nat
  | 0 => n
  | fuel + 1 => if p.sliceInSvc ((k + 2 * nSlices - 1 - n) % nSlices) then n else p.redirects k (n + 1) fuel

def Part.llcVal (p : Part) (a : At) : Nat :=
  if a.f = F.LLC_OCC_LINES then ((p.sliceOf a.u).llc.filter (fun e => decide (e.2.part = a.i))).length
  else if a.f = F.LLC_REDIR_EXTRA then p.redirects a.u 0 (nSlices - 1)
  else p.rg a.f a.u a.i

def Part.cohVal (p : Part) (a : At) : Nat :=
  if a.f = F.COH_LDG_ABUSED then p.abUsed a.u
  else if a.f = F.COH_LDG_ABFREE then 8 - p.abUsed a.u
  else if a.f = F.COH_LDG_TRKUSED then p.trkUsed a.u
  else if a.f = F.COH_LDG_TRKFREE then 64 - p.trkUsed a.u
  else p.rg a.f a.u a.i

/-- MC_ pages, the interleave table and the VAR_ pages. -/
def Part.memVal (p : Part) (a : At) : Nat :=
  if a.f = F.MC_STAT_PEND then (p.held.any (fun e => mcCfgKey a.u e.1)).toNat
  else if a.f = F.MC_LDG_RQUSED then p.rqUsed a.u
  else if a.f = F.MC_LDG_RQFREE then 64 - p.rqUsed a.u
  else if a.f = F.MC_LDG_WQUSED then p.wqUsed a.u
  else if a.f = F.MC_LDG_WQFREE then 64 - p.wqUsed a.u
  else if a.f = F.MC_ILVSTAT_BAD then p.ilvBadBits
  else if a.f = F.MC_ILVSTAT_PEND then (p.held.any (fun e => ilvKey e.1) || p.rgOn F.MC_ILVCTL_COMMIT).toNat
  else if a.f = F.MC_ILVSUM_CRC then p.ilvSum
  else if a.f = F.VAR_STAT_ARMED then p.rg F.VAR_CTL_ARM a.u
  else if a.f = F.VAR_LDG_USED then p.pwbUsed a.u
  else if a.f = F.VAR_LDG_FREE then 2048 - p.pwbUsed a.u
  else if a.f = F.VAR_SEQ_GPFGRP then p.gpfGroups
  else p.rg a.f a.u a.i

def Part.dvtVal (p : Part) (a : At) : Nat :=
  if a.f = F.DVT_RBUF_USED then p.rbufUsed a.u
  else if a.f = F.DVT_RBUF_FREE then 1024 - p.rbufUsed a.u
  else if a.f = F.DVT_REACH_SKT then p.reachSet
  else if a.f = F.DVT_STAT_WIDTH then (if p.linkState a.u = 4 then p.rg F.DVT_STAT_WIDTH a.u else 3)
  else p.rg a.f a.u a.i

def Part.pciVal (p : Part) (a : At) : Nat :=
  if a.f = F.PCI_PORT_LDG_USED then p.tagsUsed a.u
  else if a.f = F.PCI_PORT_LDG_FREE then 256 - p.tagsUsed a.u
  else if a.f = F.EP_STAT_BME then p.epBme.toNat
  else if a.f = F.EP_STAT_LINKUP then (p.epMode && decide (p.portState 0 = 3)).toNat
  else if a.f = F.EP_HDB_VEC ∨ a.f = F.EP_HINT_VEC then 0
  else p.rg a.f a.u a.i

def Part.netVal (p : Part) (a : At) : Nat :=
  let g := p.rg F.NET_MCSEL_GROUP
  if a.f = F.NET_MCFRAMES_COUNT then (p.pkt.mcstat.get (0, 0, 0) g).1
  else if a.f = F.NET_MCREPL_COUNT then (p.pkt.mcstat.get (0, 0, 0) g).2.1
  else if a.f = F.NET_MCDROP_COUNT then (p.pkt.mcstat.get (0, 0, 0) g).2.2
  else if a.f = F.NET_LDG_CELL_USED then p.cellsUsed
  else if a.f = F.NET_LDG_CELL_FREE then 32768 - p.cellsUsed
  else if a.f = F.NET_LDG_DESC_USED then p.descUsed
  else if a.f = F.NET_LDG_DESC_FREE then 4096 - p.descUsed
  else if a.f = F.NET_LP_CELLS_CELLS then p.lpCells a.u
  else if a.f = F.NET_LP_CFG_PEND then (p.pendingIn (Blk.place .lp a.u)).toNat
  else p.rg a.f a.u a.i

def Part.keyVal (p : Part) (a : At) : Nat :=
  let s := p.rg F.KEY_SEL_SLOT
  if a.f = F.KEY_OKCNT_COUNT then (p.slotOf s).ok
  else if a.f = F.KEY_TAGFAIL_COUNT then (p.slotOf s).tagfail
  else if a.f = F.KEY_REPLAY_COUNT then (p.slotOf s).replay
  else if a.f = F.KEY_LDG_VALID then p.validSlots.length
  else if a.f = F.KEY_LDG_FREE then 8192 - p.validSlots.length
  else if a.f = F.KEY_STG_SALT_SALT ∨ a.f = F.KEY_STG_K_KEY then 0
  else p.rg a.f a.u a.i

/-- The counter set that VEN_CTRSEL shows, if it lies in the instance's range (R470). -/
def Part.venSet (p : Part) (i : Nat) : CtrSet :=
  let c := p.rg F.VEN_CTRSEL_SET i
  if p.cRange i c then p.ven.ctr.get CtrSet.reset c else CtrSet.reset

def Part.venVal (p : Part) (a : At) : Nat :=
  let i := a.u
  if a.f = F.VEN_STG_DATA then 0
  else if a.f = F.VEN_USE_QK_QUSE then p.quse i
  else if a.f = F.VEN_USE_QK_KUSE then p.kuse i
  else if a.f = F.VEN_USE_F_FUSE then p.fuse i
  else if a.f = F.VEN_USE_DC_DUSE then p.duse i
  else if a.f = F.VEN_USE_DC_CUSE then p.cuse i
  else if a.f = F.VEN_CTR_FR_LO_COUNT then (p.venSet i).frames
  else if a.f = F.VEN_CTR_FR_HI_COUNT then (p.venSet i).frames / 2 ^ 32
  else if a.f = F.VEN_CTR_BY_LO_COUNT then (p.venSet i).bytes
  else if a.f = F.VEN_CTR_BY_HI_COUNT then (p.venSet i).bytes / 2 ^ 32
  else if a.f = F.VEN_CTR_DROP_COUNT then (p.venSet i).drop
  else if a.f = F.VEN_POOLQ_ASG then p.asgQ
  else if a.f = F.VEN_POOLQ_FREE then 16384 - p.asgQ
  else if a.f = F.VEN_POOLK_ASG then p.asgK
  else if a.f = F.VEN_POOLK_FREE then 8192 - p.asgK
  else if a.f = F.VEN_POOLC_ASG then p.asgC
  else if a.f = F.VEN_POOLC_FREE then 2048 - p.asgC
  else if a.f = F.VEN_POOLF_ASG_COUNT then p.asgF
  else if a.f = F.VEN_POOLF_FREE_COUNT then 262144 - p.asgF
  else if a.f = F.VEN_POOLBW_ASG then p.asgBw
  else if a.f = F.VEN_POOLBW_FREE then 16000 - p.asgBw
  else p.rg a.f a.u a.i

/-- The tile and socket PWR_ and CLK_ pages. -/
def Part.pwrVal (p : Part) (a : At) : Nat :=
  let core (j : Nat) : Option Nat := (coreOrd a.u).map (fun k => 2 * k + j)
  if a.f = F.PWR_TSTAT_C0 then (match core 0 with | some c => p.corePwr c | none => 0)
  else if a.f = F.PWR_TSTAT_C1 then (match core 1 with | some c => p.corePwr c | none => 0)
  else if a.f = F.CLK_TSTAT_CAP0 then (match core 0 with | some c => (p.coreCapped c).toNat | none => 0)
  else if a.f = F.CLK_TSTAT_CAP1 then (match core 1 with | some c => (p.coreCapped c).toNat | none => 0)
  else if a.f = F.CLK_TSTAT_UNCHELD then (p.uncHeld a.u).toNat
  else if a.f = F.PWR_PLSTAT_EFF then p.effLimit
  else if a.f = F.PWR_STAT_CAPPING then p.capping.toNat
  else if a.f = F.PWR_STBY_ONBAK then (!p.sys.pins.mainOk && p.sys.pins.bakOk).toNat
  else if a.f = F.PWR_STBY_BAKOK then p.sys.pins.bakOk.toNat
  else if a.f = F.CLK_REF_LOCK then (!p.sys.pwr.refLoss && decide (p.sys.boot ≠ .off)).toNat
  else p.rg a.f a.u a.i

def Part.prmVal (p : Part) (a : At) : Nat :=
  let t := p.sys.prm.test
  if a.f = F.PRM_FSTAT_ACTIVE then t.isSome.toNat
  else if a.f = F.PRM_FSTAT_KIND then (match t with | some x => x.slice.toNat | none => 0)
  else if a.f = F.PRM_FSTAT_TARGET then (match t with | some x => x.target | none => 0)
  else if a.f = F.PRM_RECDATA_DATA then
    (let w := p.rg F.PRM_RECSEL_WORD
     if w ≤ 149 then p.sys.prm.record.get 0 w else 0)
  else p.rg a.f a.u a.i

/-- The log entry that RAS_LOGSEL selects (R514, R537). -/
def Part.rasSel (p : Part) (t : Nat) : Option RasEnt :=
  (p.rasOf t).log.find? (fun e => decide (e.seq = p.rg F.RAS_LOGSEL_SEQ t))

def Part.rasVal (p : Part) (a : At) : Nat :=
  if a.f = F.RAS_LOGSTAT_VALID then (p.rasSel a.u).isSome.toNat
  else if a.f = F.RAS_LOGD_DATA then (match p.rasSel a.u with | some e => e.word a.i | none => 0)
  else p.rg a.f a.u a.i

def Part.fabVal (p : Part) (a : At) : Nat :=
  if a.f = F.FAB_EPOCH_FRAME then p.sys.epoch.getD 0
  else if a.f = F.FAB_STNSTAT_PEND then (p.held.any (fun e => stencilKey a.u e.1)).toNat
  else if a.f = F.FAB_STNSTAT_ACTIVE then p.rg F.FAB_STNCTL_EN a.u
  else if a.f = F.FAB_LDG_REQ_VC0 then p.credits a.u a.i 0 false
  else if a.f = F.FAB_LDG_REQ_VC1 then p.credits a.u a.i 0 true
  else if a.f = F.FAB_LDG_REQ_VC2 then p.credits a.u a.i 1 false
  else if a.f = F.FAB_LDG_REQ_VC3 then p.credits a.u a.i 1 true
  else if a.f = F.FAB_LDG_DATA_VC0 then p.credits a.u a.i 2 false
  else if a.f = F.FAB_LDG_DATA_VC1 then p.credits a.u a.i 2 true
  else if a.f = F.FAB_LDG_DATA_VC2 then p.credits a.u a.i 3 false
  else if a.f = F.FAB_LDG_DATA_VC3 then p.credits a.u a.i 3 true
  else p.rg a.f a.u a.i

def Part.perfCtlVal (p : Part) (a : At) : Nat :=
  if a.f = F.PERF_CTL_RUN then (p.perfRun a.u).toNat
  else if a.f = F.PERF_GSTAT_PENDING then (p.sys.gperf.hold.isSome || p.pendingIn gperfPage).toNat
  else if a.f = F.PERF_GSTAT_SNAPBUSY then p.sys.gperf.snap.isSome.toNat
  else p.rg a.f a.u a.i

/-- The value of a field to a master that may see it (R9). A set bit of W1S reads 0 unless the field says
otherwise. -/
def Part.fldVal (p : Part) (m : Master) (a : At) : Nat :=
  match a.f.acc with
  | .rwb => p.rgWritten a.f a.u a.i
  | .w1s => if a.f = F.PWR_TCTL_RST ∨ a.f = F.MC_ILVCTL_COMMIT then p.rg a.f a.u a.i else 0
  | _ =>
    match a.f.blk with
    | .fab => p.fabVal a
    | .perf => if a.f = F.PERF_OVF_OVF ∧ m.vm ≠ 0 then p.rg a.f a.u &&& p.guestOvf a.u m.vm else p.perfCtlVal a
    | .gperf => if a.f = F.PERF_GCTL_RUN then p.rgWritten a.f else p.perfCtlVal a
    | .ras => p.rasVal a
    | .pwr => p.pwrVal a
    | .clk => p.pwrVal a
    | .spwr => p.pwrVal a
    | .sclk => p.pwrVal a
    | .llc => p.llcVal a
    | .coh => p.cohVal a
    | .core => if a.f = F.CORE_CFG_EFF_ROBMAX then robmax (p.coreVal a) else p.coreVal a
    | .mc => p.memVal a
    | .ilv => p.memVal a
    | .var => p.memVal a
    | .varseq => p.memVal a
    | .dvt => p.dvtVal a
    | .dvtg => p.dvtVal a
    | .ep => p.pciVal a
    | .pcip => p.pciVal a
    | .netg => p.netVal a
    | .lp => p.netVal a
    | .key => p.keyVal a
    | .ven => p.venVal a
    | .prm => p.prmVal a
    | _ => p.rg a.f a.u a.i

/-! ### Counters of events below the model's grain -/

/-- The energy counters advance by an open amount (R504, R505), since the specification gives no figures (R30), and so do the tile
counters of events below the grain and the progress of a sparing copy (R342). -/
def Part.energyStep (p : Part) (a : At) : Part :=
  if a.f = F.PWR_ENERGY_UJ then p.used.setRg a.f (p.rg a.f a.u + p.freshNat) a.u
  else if a.f = F.PWR_ENERGY_LO_UJ then
    let n := p.rg F.PWR_ENERGY_LO_UJ + p.rg F.PWR_ENERGY_HI_UJ * 2 ^ 32 + p.freshNat
    (p.used.setRg F.PWR_ENERGY_LO_UJ n).setRg F.PWR_ENERGY_HI_UJ (n / 2 ^ 32)
  else if a.f = F.PERF_CTR_LO_COUNT then p.fineStep a.u a.i
  else if a.f = F.MC_SPARE_PCT ∧ p.rg F.MC_SPARE_STATE a.u = 1 then p.used.setRg a.f (max (p.rg a.f a.u) (p.freshNat % 100)) a.u
  else p

/-- The selected log entry counts as read (R514). -/
def Part.rasRead (p : Part) (t : Nat) : Part :=
  p.modRas t (fun r => { r with log := r.log.map (fun e =>
    if e.seq = p.rg F.RAS_LOGSEL_SEQ t then { e with read := true } else e) })

/-- The value of word `w` of a page to a master, and the state after the read. -/
def Part.ctlRead (p : Part) (m : Master) (pg : Pg) (w : Nat) : Part × Nat :=
  let l := (p.answering pg w).filter (fun a => p.shows m a w)
  let p := l.foldl (fun (r : Part) (a : At) => r.energyStep a) p
  let v := l.foldl (fun (s : Nat) (a : At) => s + p.fldVal m a % 2 ^ a.f.width * 2 ^ a.f.lo) 0
  let p := if l.any (fun a => a.f = F.RAS_LOGD_DATA) then p.rasRead pg.tile else p
  (if l.any (fun a => a.f.blk = .core ∧ a.f.off = 0x01C) then p.used else p, v)

/-- Words `w` to `w + n - 1` of a page in ascending order, in one step (R541). -/
def Part.ctlReads (p : Part) (m : Master) (pg : Pg) (w : Nat) : Nat → Part × Nat
  | 0 => (p, 0)
  | n + 1 =>
    let (q, v) := p.ctlRead m pg (w % 256)
    let (r, u) := q.ctlReads m pg (w + 1) n
    (r, v + u * 2 ^ 32)

end Sys2Proof.Machine
end

