-- ==== Sys2Proof/Machine/Regw.lean ====
section
/-!
DEFINITION. Writes of control registers (R9, R540 to R546, R550, R558): what a master may write, the access codes, and
what each register sets in motion; the device accesses DRD and DWR that reach a control window; and the writes that
have a command of their own.
-/
namespace Sys2Proof.Machine

/-- A denied write: one entry of the log of the page's tile with the page and the offset (R544), or 1 for a
write that is not of whole registers (R541). -/
def Part.denied (p : Part) (m : Master) (pg : Pg) (w : Nat) (part : Bool) : Part :=
  let off := pg.page * 4096 + 4 * w
  let base := if m.loc then 0xFFF1000000000 else 0xFFF0000000000 + p.sktId * 2 ^ 32
  p.rasLog pg.tile 0xFF 10 0 m.init (base + pg.tile * 2 ^ 24 + off) (.fixed (if part then 1 else off))

/-! ### The block's own checks (step 3 of R543) -/

/-- What a guest's write of the PERF_ page changes: `none`, it is denied (R558). -/
def Part.guestPerf (p : Part) (vm : Nat) (l : List At) (w : Nat) : Option (List At) :=
  if w = 0 then some []
  else if l.any (fun a => a.f = F.PERF_OVF_OVF) then some l
  else if w ≥ 0x40 ∧ l.all (fun a => p.guestCtr a.u a.i vm) then
    some (l.filter (fun a => decide (a.f ≠ F.PERF_CFG_VMF) && decide (a.f ≠ F.PERF_CFG_VMID)))
  else none

/-- Fields of the tenant half that only the tenant writes, and those that only the manager writes (R481). -/
def tenantField (f : Fld) : Bool :=
  [F.VEN_CMD_OP, F.VEN_CMD_INDEX, F.VEN_STG_DATA, F.VEN_MBOUT_DATA, F.VEN_MBCTL_OUTSEND, F.VEN_MBCTL_INACK].contains f
def managerOnly (f : Fld) : Bool := [F.VEN_MBIN_DATA, F.VEN_MBCTL_OUTACK, F.VEN_MBCTL_INSEND].contains f

/-- A write of an instance's page (R461): the fields it reaches, none when it is denied. -/
def Part.venReach (p : Part) (vm i w : Nat) (l : List At) : Option (List At) :=
  let own := decide (vm = p.ownerOf i)
  if w ≥ 0x80 then (if vm = 0 then some l else none)
  else if vm ≠ 0 ∧ ¬ own then none
  else some (l.filter (fun a => (own || !tenantField a.f) && (decide (vm = 0) || !managerOnly a.f)))

/-- The block's own check of a write of word `w`: the fields that it reaches and the state after the check. -/
def Part.blockCheck (p : Part) (m : Master) (pg : Pg) (w v : Nat) (l : List At) : Part × List At :=
  match l with
  | [] => (p, [])
  | a :: _ =>
    match a.f.blk with
    | .perf =>
      if m.vm = 0 then (p, l)
      else match p.guestPerf m.vm l w with
        | some r => (p, r)
        | none => (p.denied m pg w false, [])
    | .gperf => if m.vm = 0 then (p, l) else (p.denied m pg w false, [])
    | .ven =>
      let i := a.u
      (match p.venReach m.vm i w l with
       | none => ((p.denied m pg w false).venEvtM i F.VEN_MEVT_DENY, [])
       | some r =>
         -- ranges are locked outside FREE (R462), a full mailbox keeps its message (R476), a pool can refuse (R464)
         if p.rangeLocked i (4 * w) then (p.setRg F.VEN_MSTAT_REJ 1 i, [])
         else if p.poolRefuses i (4 * w) v then (p.setRg F.VEN_MSTAT_POOLREJ 1 i, [])
         else if r.any (fun x => x.f = F.VEN_MBOUT_DATA) ∧ p.rgOn F.VEN_MBCTL_OUTFULL i then (p.setRg F.VEN_MBCTL_OUTOVR 1 i, [])
         else if r.any (fun x => x.f = F.VEN_MBIN_DATA) ∧ p.rgOn F.VEN_MBCTL_INFULL i then (p.setRg F.VEN_MBCTL_INOVR 1 i, [])
         else (p, r))
    | _ => (p, l)

/-! ### Access codes (step 4 of R543) -/

/-- Fields whose write is carried out by the register's action, not by storing it. -/
def actionOnly (f : Fld) : Bool :=
  [F.ICDB_DATA, F.EP_HINT_VEC, F.EP_HDB_VEC, F.VAR_CTL_ARM, F.CLK_ALLCORE_FMAX, F.CLK_ALLCORE_FMIN].contains f

/-- A field takes a written value by its access code. The buffered PERF_GCTL.RUN waits for the tick (R560). -/
def Part.putFld (p : Part) (m : Master) (a : At) (v : Nat) : Part :=
  let x := v / 2 ^ a.f.lo % 2 ^ a.f.width
  let old := p.rg a.f a.u a.i
  if actionOnly a.f then p
  else
    match a.f.acc with
    | .ro => p
    | .rw =>
      if a.f = F.PERF_GCTL_RUN then { p with held := p.held.put (a.f.key a.u a.i) x }
      else p.setRg a.f x a.u a.i
    | .rwb => { p with held := p.held.put (a.f.key a.u a.i) x }
    | .w1c =>
      let y := if a.f = F.PERF_OVF_OVF ∧ m.vm ≠ 0 then x &&& p.guestOvf a.u m.vm else x
      p.setRg a.f (old - (old &&& y)) a.u a.i
    | .w1s => if (a.f = F.PWR_TCTL_RST ∨ a.f = F.MC_ILVCTL_COMMIT) ∧ x ≠ 0 then p.setRg a.f 1 a.u a.i else p

/-! ### What a register sets in motion -/

/-- CORE_BTBCTL (R170): a new secret from Easel's random source, and the level's entries of the buffer and of both stacks are
invalid. -/
def Part.reseed (p : Part) (c : Nat) (l : Level) : Part :=
  p.used.used.modCore c (fun s =>
    let t := { s with btb := s.btb.filter (fun e => e.level ≠ l), ras0 := s.ras0.filter (fun e => e.level ≠ l),
                      ras1 := s.ras1.filter (fun e => e.level ≠ l) }
    if l = .f then { t with secretF := p.drawn } else { t with secretH := p.drawn })
def Part.btbFlush (p : Part) (c : Nat) : Part := p.modCore c (fun s => { s with btb := [], ras0 := [], ras1 := [] })

/-- A written bit: the field was reached and its bits are not all zero. -/
def wroteOne (l : List At) (v : Nat) (f : Fld) : Bool := l.any (fun a => decide (a.f = f) && decide (v / 2 ^ f.lo % 2 ^ f.width ≠ 0))
/-- A field was reached. -/
def wrote (l : List At) (f : Fld) : Bool := l.any (fun a => a.f = f)

/-- A write of N or W of a window counter closes its window (R515). -/
def Part.windowClose (p : Part) (tile s : Nat) : Part :=
  (p.modRas tile (fun r => { r with win := r.win.del s })).setRg F.RAS_WCNT_COUNT 0 tile s

/-- The fabric, counter, error, power and clock pages of a tile. -/
def Part.tileHook (p old : Part) (b : Blk) (t w v : Nat) (l : List At) : Part :=
  let on := wroteOne l v
  let c := 2 * (coreOrd t).getD 0 + w % 2
  match b with
  | .fab => if on F.FAB_STATSTAT_CLR then p.fabStatClear t else p
  | .perf => if on F.PERF_CTL_CLR then p.perfClear t else p
  | .ras =>
    if wrote l F.RAS_WCFG_N then p.windowClose t (w - 0x18)
    else if wrote l F.RAS_UNMAP_INFO_VALID ∧ ¬ p.rgOn F.RAS_UNMAP_INFO_VALID t then p.setRg F.RAS_UNMAP_INFO_COUNT 0 t
    else p
  | .pwr =>
    if w < 2 then p.pwrCore c (old.rgOn F.PWR_C_RST t (w % 2)) (old.rg F.PWR_C_MODE t (w % 2))
    else if w = 2 then
      let p := p.tileOff t (old.rgOn F.PWR_TCTL_OFF t)
      if on F.PWR_TCTL_RST then p.tileRst t else p
    else p
  | .clk => if w < 2 then p.clkCore c else if w = 2 then p.clkUnc t else p
  | _ => p

/-- The slice, core, memory, Dovetail and I/O pages. -/
def Part.unitHook (p old : Part) (m : Master) (b : Blk) (u w v : Nat) (l : List At) : Part :=
  let on := wroteOne l v
  match b with
  | .llc =>
    if wrote l F.LLC_WAYPWR_ON then p.llcWaypwr u (old.rg F.LLC_WAYPWR_ON u) (p.rg F.LLC_WAYPWR_ON u)
    else if on F.LLC_MAINT_GO then p.llcMaint u else p
  | .core =>
    if w = 3 then
      let p := if on F.CORE_BTBCTL_RESEED_F then p.reseed u .f else p
      let p := if on F.CORE_BTBCTL_RESEED_H then p.reseed u .h else p
      if on F.CORE_BTBCTL_FLUSH then p.btbFlush u else p
    else if on F.CORE_PLUMB_OVR_OVR then (p.setRg F.CORE_PLUMB_OVR_COUNT 0 u).setRg F.CORE_PLUMB_OVR_MAXEX 0 u
    else if wrote l F.ICDB_DATA then p.doorbell (2 * u + w % 2) v 4 m.init
    else p
  | .mc => if wrote l F.MC_SPARE_EN then p.capUpdate u else p
  | .var => if wrote l F.VAR_CTL_ARM then p.varCtl u (v.testBit 31) else p
  | .dvt =>
    if wrote l F.DVT_CTL_EN then
      let p := p.dvtEnable u (old.rgOn F.DVT_CTL_EN u) (p.rgOn F.DVT_CTL_EN u)
      if on F.DVT_CTL_RETRAIN then p.dvtRetrain u else p
    else p
  | .pcig => if wrote l F.PCI_GRP_CTL_RST then p.grpRst u (old.rgOn F.PCI_GRP_CTL_RST u) (p.rgOn F.PCI_GRP_CTL_RST u) else p
  | .ep => if wrote l F.EP_HINT_VEC then p.epHint (v % 2 ^ 11) else p
  | .pcip =>
    if wrote l F.PCI_PORT_CTL_EN then
      let p := if on F.PCI_PORT_CTL_RELEASE then p.portRelease u else p
      let p := p.portEnable u (old.rgOn F.PCI_PORT_CTL_EN u) (p.rgOn F.PCI_PORT_CTL_EN u)
      if on F.PCI_PORT_CTL_RETRAIN then p.portRetrain u else p
    else p
  | .iot =>
    if on F.IOT_INV_CMD_GO then p.iotInvGo u
    else if on F.IOT_STAT_FQFULL then p.setRg F.IOT_FQOVF_COUNT 0 u
    else p
  | _ => p

/-- The packet engine, crypto and Veneer pages. -/
def Part.netHook (p old : Part) (b : Blk) (u w v : Nat) (l : List At) : Part :=
  let on := wroteOne l v
  match b with
  | .netg =>
    if wrote l F.NET_CTL_RST then p.netRstAll (old.rg F.NET_CTL_RST)
    else if on F.NET_FLOWCMD_GO then p.flowCmd
    else if on F.NET_QCMD_GO then p.qCmd
    else p
  | .mac => if w = 0 then p.macWritten u (old.rg F.NET_MAC_CFG_SPEED u) (old.rg F.NET_MAC_CFG_AN u) else p
  | .key => if on F.KEY_CMD_GO then p.keyCmd else p
  | .ven =>
    if on F.VEN_CMD_GO then p.venCmd u
    else if on F.VEN_MCMD_GO then p.venMcmd u
    else if w = 0x40 then
      let p := if on F.VEN_MBCTL_OUTACK then p.outAck u else p
      let p := if on F.VEN_MBCTL_OUTSEND then p.outSend u else p
      let p := if on F.VEN_MBCTL_INACK then p.inAck u else p
      if on F.VEN_MBCTL_INSEND then p.inSend u else p
    else if wrote l F.VEN_BW_EN then (p.bwWritten u (old.rgOn F.VEN_BW_EN u)).venQuota u
    else if 0x88 ≤ w ∧ w ≤ 0x8A ∧ ¬ l.isEmpty then p.venQuota u
    else p
  | _ => p

/-- A write of PERF_SNAPPER: a period begins at an open point within one period of now (notes/assumptions/43.md). -/
def Part.snapperWritten (p : Part) : Part :=
  match p.snapPeriod with
  | none => p
  | some n => p.used.modGperf (fun s => { s with nextSnap := p.time + 1 + p.freshNat % n })

/-- Easel's, Primer's, the socket power and the collector pages. -/
def Part.easelHook (p old : Part) (m : Master) (b : Blk) (w v : Nat) (l : List At) : Part :=
  let on := wroteOne l v
  match b with
  | .eas => if on F.EAS_CMD_GO then p.easCmd m.top else p
  | .prm => if on F.PRM_CMD_GO then p.prmCmd else p
  | .spwr => if wrote l F.PWR_BOFF_OFF then p.boffWritten (old.rg F.PWR_BOFF_OFF) else p
  | .sclk => if wrote l F.CLK_ALLCORE_FMAX then p.clkAllCore (v / 2 ^ 8 % 256) (v % 256) else p
  | .gperf =>
    if w = 0 ∧ ¬ l.isEmpty then
      (if on F.PERF_GCTL_CLRALL ∨ on F.PERF_GCTL_SNAP then p.gctlHold (on F.PERF_GCTL_CLRALL) (on F.PERF_GCTL_SNAP) else p)
    else if wrote l F.PERF_SNAPPER_US then p.snapperWritten
    else if wrote l F.PERF_BWSEL_EN then p.bwSelect ((w - 0x40) / 8)
    else p
  | _ => p

/-- What the write of a register of block `b`, unit `u`, sets in motion. -/
def Part.regHook (p old : Part) (m : Master) (b : Blk) (u w v : Nat) (l : List At) : Part :=
  (((p.tileHook old b u w v l).unitHook old m b u w v l).netHook old b u w v l).easelHook old m b w v l

/-- Write the 32-bit value `v` to word `w` of a page (R543): presence, the FO check, the block's check, the access
codes, and the register's action. -/
def Part.ctlWrite (p : Part) (m : Master) (pg : Pg) (w v : Nat) : Part :=
  let all := p.answering pg w
  let fo := !m.top && all.any (fun a => a.f.fo)
  let p := if fo then p.denied m pg w false else p
  let (p, l) := p.blockCheck m pg w v (all.filter (fun a => m.top || !a.f.fo))
  -- the tokens of a bucket count at the old share up to the write (R472)
  let p := if wrote l F.VEN_BW_EN then l.foldl (fun (r : Part) (a : At) => if a.f = F.VEN_BW_EN ∧ r.rgOn F.VEN_BW_EN a.u then r.tokenFill a.u else r) p else p
  let q := l.foldl (fun (r : Part) (a : At) => r.putFld m a v) p
  ((l.map (fun a => (a.f.blk, a.u))).eraseDups).foldl (fun (r : Part) (b : Blk × Nat) =>
    r.regHook p m b.1 b.2 w v (l.filter (fun a => a.f.blk = b.1))) q

/-! ### Accesses by size (R541) -/

/-- The doorbell at a word of a page: a thread's (R156), or a queue's (R420) as queue and completion. -/
inductive Bell where
  | thread (t : Nat)
  | queue (q : Nat) (completion : Bool)
  deriving DecidableEq, Repr

def bellAt (pg : Pg) (w : Nat) : Option Bell :=
  if pg.tile = tileN ∧ 0x180 ≤ pg.page ∧ pg.page ≤ 0x1FF then some (.queue (128 * (pg.page - 0x180) + w / 2) (decide (w % 2 = 1)))
  else match coreOrd pg.tile with
    | none => none
    | some k =>
      if (w = 0xC0 ∨ w = 0xC1) ∧ pg.page = 0x010 then some (.thread (4 * k + (w - 0xC0)))
      else if (w = 0xC0 ∨ w = 0xC1) ∧ pg.page = 0x018 then some (.thread (4 * k + 2 + (w - 0xC0)))
      else none

/-- A doorbell is written with `size` bytes. -/
def Part.ringBell (p : Part) (b : Bell) (v size : Nat) (m : Master) : Part :=
  match b with
  | .thread t => p.doorbell t v size m.init
  | .queue q true => Part.completionBell q v size m.vm false m.init p
  | .queue q false => Part.producerBell q v size m.vm false m.init p

/-- A write of a control page: 64 bytes of data and mask placed as in the line, of a width in bytes. DESIGN CHOICE
(notes/assumptions/86.md): a write of part of a register is logged DENIED wherever a register answers (R541), the populated
Palette among them, though R23 has writes of the Palette ignored and not logged. -/
def Part.ctlStore (p : Part) (m : Master) (pg : Pg) (off width : Nat) (d : Vec) (mask : Dword) : Part :=
  let base := off / 64 * 16
  let touched := (List.range 16).filter (fun j => (byteMask (4 * j) 4 &&& mask) ≠ 0)
  let word (j : Nat) : Nat := (base + j) % 256
  let val (j : Nat) : Nat := d.toNat / 2 ^ (32 * j) % 2 ^ 32
  let bells := touched.filterMap (fun j => (bellAt pg (word j)).map (fun b => (b, j)))
  match bells with
  | (b, j) :: _ => p.ringBell b (val j) width m
  | [] =>
    touched.foldl (fun (r : Part) (j : Nat) =>
      if byteMask (4 * j) 4 &&& mask = byteMask (4 * j) 4 then r.ctlWrite m pg (word j) (val j)
      else if (r.answering pg (word j)).isEmpty then r
      else r.denied m pg (word j) true) p

/-- A read of `n` bytes at an offset of a page: the value with its first byte lowest. -/
def Part.ctlLoad (p : Part) (m : Master) (pg : Pg) (off n : Nat) : Part × Nat :=
  let (q, v) := p.ctlReads m pg (off / 4 % 256) ((off % 4 + n + 3) / 4)
  (q, v / 2 ^ (8 * (off % 4)) % 2 ^ (8 * n))

/-! ### DRD and DWR -/

/-- The address lies in the local control window (R18). -/
def inLocal (a : Nat) : Bool := match regionOf a with | .loc _ => true | _ => false

/-- Who sent a device access (R544). -/
def Msg.master (q : Msg) : Master :=
  { easel := false, lvl := Level.ofCode q.op, vmid := q.vmid, tile := q.src.tile, init := q.src.init, loc := inLocal q.addr }

/-- The page of an offset of a control window. -/
def pageOf (off : Nat) : Pg := ⟨off / 2 ^ 24, off / 2 ^ 12 % 2 ^ 12⟩

/-- A device access to a control window of this socket, at an offset. -/
def Part.ctlAccess (p : Part) (q : Msg) (off : Nat) : Part :=
  let pg := pageOf off
  let src : Agent := ⟨p.sktId, pg.tile, 0⟩
  if p.pageOff pg then
    let p := p.standInLog pg.tile q
    if q.opc = .drd then p.devReply src q 0 true 2 else p.devCmp src q 2
  else if q.opc = .drd then
    let (r, v) := p.ctlLoad q.master pg (off % 4096) (2 ^ q.sz)
    r.devReply src q v false 0
  else p.ctlStore q.master pg (off % 4096) (2 ^ q.sz) q.data q.mask

/-- A device access reaches the socket that it names. -/
def Part.devArrive (m : Msg) (p : Part) : Part :=
  let (q, r) := p.arrive m
  match regionOf q.addr with
  | .ctl s off =>
    if s = r.sktId then r.ctlAccess q off
    else if s < r.sktCnt then r
    else r.devUnassigned ⟨r.sktId, tileD, 0⟩ q
  | .loc off => r.ctlAccess q off
  | .pcieWin =>
    let s := (aperture q.addr).1
    if s = r.sktId then r.pcieAccess q
    else if s < r.sktCnt then r
    else r.devUnassigned ⟨r.sktId, tileD, 0⟩ q
  | _ => r.devUnassigned ⟨r.sktId, tileD, 0⟩ q

/-- DRD: a device or control-window read arrives at its target (R380, R541). -/
def Part.drd (m : Msg) (p : Part) : Part := Part.devArrive { m with opc := .drd } p
/-- DWR: a device or control-window write arrives at its target. -/
def Part.dwr (m : Msg) (p : Part) : Part := Part.devArrive { m with opc := .dwr } p

/-! ### Writes with a command of their own -/

/-- REGISTER_WRITE: a write of `size` bytes to a control page of this socket (R9). -/
def Part.regWrite (tile page off size : Nat) (v : Vec) (m : Master) (p : Part) : Part :=
  if off % 4096 + size > 4096 ∨ off % 64 + size > 64 ∨ p.pageOff ⟨tile, page⟩ then p
  else p.ctlStore m ⟨tile, page⟩ (off % 4096) size (v <<< (8 * (off % 64))) (byteMask (off % 64) size)

/-- A 4-byte write of the register that holds field `f` of unit `u`, index `i`. -/
def Part.regPut (p : Part) (m : Master) (f : Fld) (u i : Nat) (v : BitVec 32) : Part :=
  let pg := f.blk.place u
  if p.pageOff pg then p else p.ctlWrite m pg (f.word i) v.toNat

def Part.reseedF (c : Nat) (m : Master) (p : Part) : Part := p.regPut m F.CORE_BTBCTL_RESEED_F c 0 4
def Part.reseedH (c : Nat) (m : Master) (p : Part) : Part := p.regPut m F.CORE_BTBCTL_RESEED_H c 0 2
def Part.btbFlushWrite (c : Nat) (m : Master) (p : Part) : Part := p.regPut m F.CORE_BTBCTL_FLUSH c 0 1
def Part.coreCfgWrite (c : Nat) (v : BitVec 32) (m : Master) (p : Part) : Part := p.regPut m F.CORE_CFG_T1EN c 0 v
def Part.corePlumbWrite (c : Nat) (v : BitVec 32) (m : Master) (p : Part) : Part := p.regPut m F.CORE_PLUMB_EN c 0 v

/-- A write of IOT_INV_CMD with GO and a scope (R215), after the PSID and the address have been written. -/
def Part.iotInv (scope : Nat) (u : Nat) (domain : BitVec 12) (rid : BitVec 16) (psid : BitVec 20) (addr : Dword) (m : Master) (p : Part) : Part :=
  let p := p.regPut m F.IOT_INV_PSID_PSID u 0 (psid.setWidth 32)
  let p := p.regPut m F.IOT_INV_ADDR_LO_ADDR u 0 (addr.setWidth 32)
  let p := p.regPut m F.IOT_INV_ADDR_HI_ADDR u 0 ((addr >>> 32).setWidth 32)
  p.regPut m F.IOT_INV_CMD_GO u 0 (BitVec.ofNat 32 (2 ^ 31 + scope * 2 ^ 28 + domain.toNat * 2 ^ 16 + rid.toNat))

def Part.llcWaypwrWrite (k : Nat) (on : BitVec 4) (m : Master) (p : Part) : Part := p.regPut m F.LLC_WAYPWR_ON k 0 (on.setWidth 32)
/-- LLC_MAINT with GO, OP 0 (clean) or 1 (clean and invalidate), and the way groups. -/
def Part.llcMaintWrite (op : Nat) (k : Nat) (groups : BitVec 4) (m : Master) (p : Part) : Part :=
  p.regPut m F.LLC_MAINT_GO k 0 (BitVec.ofNat 32 (2 ^ 31 + groups.toNat * 2 ^ 4 + op))
def Part.fabStatClr (tile : Nat) (freeze : Bool) (m : Master) (p : Part) : Part :=
  p.regPut m F.FAB_STATSTAT_CLR tile 0 (BitVec.ofNat 32 (2 ^ 31 + freeze.toNat * 2 ^ 30))
def Part.ilvCommit (m : Master) (p : Part) : Part := p.regPut m F.MC_ILVCTL_COMMIT 0 0 1
def Part.varCtlWrite (i : Nat) (arm : Bool) (m : Master) (p : Part) : Part := p.regPut m F.VAR_CTL_ARM i 0 (BitVec.ofNat 32 (arm.toNat * 2 ^ 31))
/-- DVT_CTL with RETRAIN, the other fields as they are. -/
def Part.dvtCtlRetrain (d : Nat) (m : Master) (p : Part) : Part :=
  p.regPut m F.DVT_CTL_RETRAIN d 0 (BitVec.ofNat 32 (2 ^ 31 + p.rg F.DVT_CTL_MAXW d * 2 + p.rg F.DVT_CTL_EN d))
def Part.dvtCtlEn (d : Nat) (en : Bool) (m : Master) (p : Part) : Part :=
  p.regPut m F.DVT_CTL_EN d 0 (BitVec.ofNat 32 (p.rg F.DVT_CTL_MAXW d * 2 + en.toNat))
/-- PCI_PORT_CTL with one of RELEASE and RETRAIN, the other fields as they are. -/
def Part.portCtl (n top : Nat) (en : Nat) (m : Master) (p : Part) : Part :=
  p.regPut m F.PCI_PORT_CTL_EN n 0 (BitVec.ofNat 32 (top + p.rg F.PCI_PORT_CTL_MAXSPEED n * 4 + p.rg F.PCI_PORT_CTL_ECRC n * 2 + en))
def Part.portReleaseWrite (n : Nat) (m : Master) (p : Part) : Part := Part.portCtl n (2 ^ 31) (p.rg F.PCI_PORT_CTL_EN n) m p
def Part.portRetrainWrite (n : Nat) (m : Master) (p : Part) : Part := Part.portCtl n (2 ^ 30) (p.rg F.PCI_PORT_CTL_EN n) m p
def Part.portEnWrite (n : Nat) (en : Bool) (m : Master) (p : Part) : Part := Part.portCtl n 0 en.toNat m p
def Part.grpRstWrite (g : Nat) (rst : Bool) (m : Master) (p : Part) : Part := p.regPut m F.PCI_GRP_CTL_RST g 0 (BitVec.ofNat 32 rst.toNat)
def Part.epHintWrite (v : BitVec 32) (m : Master) (p : Part) : Part := p.regPut m F.EP_HINT_VEC 0 0 v
def Part.macCfgWrite (k : Nat) (v : BitVec 32) (m : Master) (p : Part) : Part := p.regPut m F.NET_MAC_CFG_SPEED k 0 v
/-- NET_QCMD with GO. -/
def Part.queueCmd (op : Nat) (q : BitVec 14) (clr : Bool) (m : Master) (p : Part) : Part :=
  p.regPut m F.NET_QCMD_GO 0 0 (BitVec.ofNat 32 (2 ^ 31 + op * 2 ^ 29 + clr.toNat * 2 ^ 28 + q.toNat))
def Part.flowBucket (b : BitVec 16) (m : Master) (p : Part) : Part := p.regPut m F.NET_FLOWCMD_GO 0 0 (BitVec.ofNat 32 (2 ^ 31 + b.toNat))
def Part.flowAll (m : Master) (p : Part) : Part := p.regPut m F.NET_FLOWCMD_GO 0 0 (BitVec.ofNat 32 (2 ^ 31 + 2 ^ 30))
def Part.netCtlRst (rst : Bool) (m : Master) (p : Part) : Part := p.regPut m F.NET_CTL_RST 0 0 (BitVec.ofNat 32 rst.toNat)
/-- KEY_CMD with GO. -/
def Part.keyCmdWrite (op : Nat) (s : BitVec 13) (m : Master) (p : Part) : Part :=
  p.regPut m F.KEY_CMD_GO 0 0 (BitVec.ofNat 32 (2 ^ 31 + op * 2 ^ 29 + s.toNat))
/-- VEN_MCMD with GO. -/
def Part.venMgr (op : Nat) (i : BitVec 10) (res : BitVec 3) (m : Master) (p : Part) : Part :=
  p.regPut m F.VEN_MCMD_GO i.toNat 0 (BitVec.ofNat 32 (2 ^ 31 + op * 2 ^ 28 + res.toNat))
/-- A write of a quota or share register of the manager half: VEN_QUOTA_QK, _F, _D and VEN_BW (R464). -/
def QuotaReg.fld : QuotaReg → Fld
  | .qk => F.VEN_QUOTA_QK_QMAX | .f => F.VEN_QUOTA_F_FMAX | .d => F.VEN_QUOTA_D_DMAX | .bw => F.VEN_BW_EN
def Part.venQuotaWrite (i : BitVec 10) (r : QuotaReg) (v : BitVec 32) (m : Master) (p : Part) : Part := p.regPut m r.fld i.toNat 0 v
/-- VEN_CMD with GO. -/
def Part.venTenant (op : Nat) (i : BitVec 10) (index : BitVec 18) (m : Master) (p : Part) : Part :=
  p.regPut m F.VEN_CMD_GO i.toNat 0 (BitVec.ofNat 32 (2 ^ 31 + op * 2 ^ 27 + index.toNat))
/-- VEN_MBCTL with one bit. -/
def Part.venMbox (bit : Nat) (i : BitVec 10) (m : Master) (p : Part) : Part := p.regPut m F.VEN_MBCTL_OUTSEND i.toNat 0 (BitVec.ofNat 32 (2 ^ bit))
def Part.pwrPlWrite (w : BitVec 32) (m : Master) (p : Part) : Part := p.regPut m F.PWR_PL_W 0 0 w
def Part.clkAllWrite (fmax fmin : BitVec 8) (m : Master) (p : Part) : Part :=
  p.regPut m F.CLK_ALLCORE_FMAX 0 0 (BitVec.ofNat 32 (fmax.toNat * 2 ^ 8 + fmin.toNat))
def Part.tileOffWrite (t : Nat) (off : Bool) (m : Master) (p : Part) : Part := p.regPut m F.PWR_TCTL_OFF t 0 (BitVec.ofNat 32 off.toNat)
def Part.tileRstWrite (t : Nat) (m : Master) (p : Part) : Part :=
  p.regPut m F.PWR_TCTL_RST t 0 (BitVec.ofNat 32 (2 ^ 31 + p.rg F.PWR_TCTL_OFF t))
def Part.boffWrite (off : BitVec 27) (m : Master) (p : Part) : Part := p.regPut m F.PWR_BOFF_OFF 0 0 (off.setWidth 32)
/-- PWR_Cn with MODE and IDLET, RST as it is. -/
def Part.pwrMode (c : Nat) (mode : BitVec 2) (idlet : BitVec 16) (m : Master) (p : Part) : Part :=
  p.regPut m F.PWR_C_MODE (tileOfCore c) (c % 2)
    (BitVec.ofNat 32 (p.rg F.PWR_C_RST (tileOfCore c) (c % 2) * 2 ^ 31 + mode.toNat * 2 ^ 16 + idlet.toNat))
/-- CORE_RESET: Easel resets a core, or PWR_Cn.RST is written 1 (R496). -/
def Part.coreRst (c : Nat) (m : Master) (p : Part) : Part :=
  if m.easel then Part.coreResetBy c p
  else if c ≥ nCores then p
  else
    let t := tileOfCore c
    p.regPut m F.PWR_C_RST t (c % 2)
      (BitVec.ofNat 32 (2 ^ 31 + p.rg F.PWR_C_MODE t (c % 2) * 2 ^ 16 + p.rg F.PWR_C_IDLET t (c % 2)))
/-- The arguments and then EAS_CMD with GO: commands 1 to 3 (R506). -/
def Part.easCall (op : Nat) (args : List (BitVec 32)) (m : Master) (p : Part) : Part :=
  let p := (args.zipIdx).foldl (fun (r : Part) (a : BitVec 32 × Nat) => r.regPut m F.EAS_ARG_ARG 0 a.2 a.1) p
  p.regPut m F.EAS_CMD_GO 0 0 (BitVec.ofNat 32 (2 ^ 31 + op))
def Part.coreStart (t : Nat) (pc : Dword) (m : Master) (p : Part) : Part :=
  Part.easCall 1 [BitVec.ofNat 32 t, pc.setWidth 32, (pc >>> 32).setWidth 32] m p
def Part.logReadCmd (n : BitVec 32) (m : Master) (p : Part) : Part := Part.easCall 2 [n] m p
def Part.warmResetCmd (whole : Bool) (m : Master) (p : Part) : Part := Part.easCall 3 [BitVec.ofNat 32 whole.toNat] m p
/-- PRM_CMD with GO. -/
def Part.prmCall (op : Nat) (target : BitVec 9) (m : Master) (p : Part) : Part :=
  p.regPut m F.PRM_CMD_GO 0 0 (BitVec.ofNat 32 (2 ^ 31 + op * 2 ^ 28 + target.toNat))
/-- RAS_LOG_READ: a master reads word `i` of the selected entry of a tile's log (R514). -/
def Part.rasLogRead (tile : Nat) (i : BitVec 3) (m : Master) (p : Part) : Part :=
  (p.ctlRead m (Blk.place .ras tile) (F.RAS_LOGD_DATA.word i.toNat)).1
def Part.perfCtlClr (tile : Nat) (freeze : Bool) (m : Master) (p : Part) : Part :=
  p.regPut m F.PERF_CTL_CLR tile 0 (BitVec.ofNat 32 (2 ^ 31 + freeze.toNat * 2 ^ 30))
def Part.gctlWrite (run clr snap : Bool) (m : Master) (p : Part) : Part :=
  p.regPut m F.PERF_GCTL_RUN 0 0 (BitVec.ofNat 32 (run.toNat * 2 ^ 31 + clr.toNat * 2 ^ 30 + snap.toNat * 2 ^ 29))
def Part.bwSelWrite (b : BitVec 4) (v : BitVec 32) (m : Master) (p : Part) : Part := p.regPut m F.PERF_BWSEL_EN 0 b.toNat v

end Sys2Proof.Machine
end

