-- ==== Sys2Proof/Machine/Boot.lean ====
section
/-!
DEFINITION. The boot sequence from the image on (R497 to R503): the checks of an image, the Primer boot checks and the
sections of step 8, the copy of firmware, and the release of the boot core.
-/
namespace Sys2Proof.Machine

/-! ### The checks of an image (R501) -/

/-- The key-hash slots accepted in a life-cycle state (R499). -/
def slotsIn : Nat → List Nat
  | 0 => [0] | 1 => [0, 1, 2, 3] | 2 => [1, 2, 3] | 3 => [0] | _ => []

/-- A KEYHASH section: its slot (R503). -/
def Section.hashSlot (s : Section) : Nat := (s.data.headD 0).toNat
/-- A LIFECYCLE section: its target state. -/
def Section.target (s : Section) : Nat := (s.data.headD 0).toNat
/-- The records of a CONFIG section: offset and value. -/
def Section.config (s : Section) : List (Nat × Nat) :=
  (List.range (s.data.length / 16)).map (fun i => (s.num (16 * i) 8, s.num (16 * i + 8) 4))

/-- The slots that KEYHASH sections of an image name, in order. -/
def Image.hashSlots (i : Image) : List Nat := (i.sections.filter (fun s => s.kind = 7)).map Section.hashSlot

/-- A KEYHASH section may be applied (R503): the state, the slot blank and not revoked. -/
def Part.hashOk (p : Part) (s : Section) : Bool :=
  let n := s.hashSlot
  decide (s.data.length = 52) && decide (s.num 1 3 = 0) && decide (1 ≤ n) && decide (n ≤ 3) && decide (p.lcs ≤ 1)
    && (p.sys.fuses.hash.find? n).isNone && !p.sys.fuses.revoked.testBit n

/-- A LIFECYCLE section may be carried out (R499, R500, R503). -/
def Part.lifeOk (p : Part) (i : Image) (s : Section) : Bool :=
  let t := s.target
  let owner := [1, 2, 3].any (fun n => (p.sys.fuses.hash.find? n).isSome || i.hashSlots.contains n)
  decide (s.data.length = 4) && decide (s.num 1 3 = 0) && decide (t ≤ 4) && decide (t > p.lcs)
    && (match t with
        | 1 => owner && decide (i.keyslot = 0)
        | 2 => decide (1 ≤ i.keyslot)
        | _ => true)

/-- Kind, destination and content of a section, but for FIRMWARE destinations (check 8). -/
def Part.sectionOk (p : Part) (i : Image) (s : Section) : Bool :=
  (decide (s.kind = 1) || decide (s.dest = 0)) &&
  match s.kind with
  | 1 => true
  | 2 => decide (s.data.length % 16 = 0) && s.config.all (fun r => decide (r.1 < 2 ^ 32))
  | 3 => decide (s.data.length = 16)
  | 4 => decide (s.data.length = 16)
  | 5 => p.lifeOk i s
  | 6 => true
  | 7 => p.hashOk s
  | _ => false

/-- Easel as a master. -/
def easelMaster : Master := { easel := true, lvl := .f, vmid := 0, tile := tileD, init := 4, loc := false }

/-- The writes of a CONFIG section, in order. -/
def Part.applyConfig (p : Part) (s : Section) : Part :=
  s.config.foldl (fun (r : Part) (e : Nat × Nat) =>
    Part.regWrite (e.1 / 2 ^ 24) (e.1 / 2 ^ 12 % 2 ^ 12) (e.1 % 2 ^ 12) 4 (BitVec.ofNat 512 e.2) easelMaster r) p

/-- Every FIRMWARE destination lies in valid ranges of the effective table. -/
def Part.destsOk (p : Part) (i : Image) : Bool :=
  (i.sections.filter (fun s => s.kind = 1)).all (fun s =>
    (p.decode s.dest).isSome && (p.decode (s.dest + (s.data.length - 1))).isSome)

/-- The part as it would be once the CONFIG sections are committed, with every channel of a present memory tile
trained: the first judgement of the FIRMWARE destinations (R501). -/
def Part.asConfigured (p : Part) (i : Image) : Part :=
  let p := p.populate
  let p := (List.range 16).foldl (fun (r : Part) (c : Nat) => if r.memTilePresent (c / 2) then r.setRg F.MC_STAT_TRAINED 1 c else r) p
  ((i.sections.filter (fun s => s.kind = 2)).foldl (fun (r : Part) (s : Section) => r.applyConfig s) p).ilvApply

/-- The code of the first check that an image fails, 0 when it passes (R501). -/
def Part.imageCode (p : Part) (i : Image) : Nat :=
  let f := p.sys.fuses
  if i.magic ≠ 0x4E4D5A45 ∨ i.format ≠ 1 ∨ i.hdrlen ≠ 256 ∨ ¬ i.zero ∨ ¬ i.sections.all (fun s => s.zero) ∨ i.flags ≥ 2
      ∨ i.nsec = 0 ∨ i.nsec > 64 ∨ i.nsec ≠ i.sections.length ∨ i.totlen > 2 ^ 24 then 1
  else if i.family ≠ 0x4847 ∨ i.mindie > f.dieset then 2
  else if ¬ i.lcmask.testBit p.lcs then 3
  else if ¬ (slotsIn p.lcs).contains i.keyslot ∨ f.revoked.testBit i.keyslot ∨ f.hash.find? i.keyslot ≠ some i.pubHash then 4
  else if ¬ i.sigOk then 5
  else if i.secver < f.count then 6
  else if i.sections.any (fun s => !s.digest) then 7
  else if ¬ i.sections.all (fun s => p.sectionOk i s) ∨ ¬ i.hashSlots.Nodup ∨ ¬ (p.asConfigured i).destsOk i then 8
  else 0

def Part.readCode (p : Part) (r : FlashRead) : Nat :=
  match r with
  | .error => 9
  | .image i => p.imageCode i

/-- An image fails with a code: event 1 of the Easel log (R498, R585). -/
def Part.imageFails (p : Part) (code : Nat) (backup i3c : Bool) : Part :=
  p.easelLog 1 0 (if backup && !i3c then 0x1000000 else 0) (code * 2 ^ 8 + backup.toNat * 2 ^ 16 + i3c.toNat * 2 ^ 17)

/-- The image store takes a verified image and EAS_BOOT is set. -/
def Part.imageTaken (p : Part) (i : Image) (backup : Bool) (failp : Nat) (recovery : Bool) : Part :=
  let p := p.modSys (fun s => { s with image := some i, boot := .verified })
  (((p.setRg F.EAS_BOOT_SECVER i.secver).setRg F.EAS_BOOT_BACKUP backup.toNat).setRg F.EAS_BOOT_FAILP failp).setRg
    F.EAS_BOOT_RECOVERY recovery.toNat

/-- Enumeration is over, so that step 6 can follow (R345, R346). -/
def Part.enumOver (p : Part) : Bool :=
  p.sys.warm || p.rgOn F.DVT_ENUM_DONE || p.rgOn F.DVT_ENUM_FAIL

/-- BOOT_IMAGE_CHECKED: the primary image, then the backup, have been read and checked (R498). In RETIRED no image
is loaded (R500). -/
def Part.bootImageChecked (primary backup : FlashRead) (p : Part) : Part :=
  if p.sys.boot ≠ .started ∨ ¬ p.enumOver ∨ p.lcs = 4 then p
  else
    let c1 := p.readCode primary
    match c1, primary with
    | 0, .image i => p.imageTaken i false 0 false
    | _, _ =>
      let p := p.imageFails c1 false false
      let c2 := p.readCode backup
      match c2, backup with
      | 0, .image i => p.imageTaken i true c1 false
      | _, _ =>
        (((p.imageFails c2 true false).modSys (fun s => { s with boot := .recovery })).setRg F.EAS_BOOT_FAILP c1).setRg
          F.EAS_BOOT_RECOVERY 1

/-- RECOVERY_IMAGE: an image received over I3C is checked as one from flash (R498). -/
def Part.recoveryImage (i : Image) (p : Part) : Part :=
  if p.sys.boot ≠ .recovery then p
  else
    let c := p.imageCode i
    if c = 0 then p.imageTaken i (p.rgOn F.EAS_BOOT_BACKUP) (p.rg F.EAS_BOOT_FAILP) true
    else p.imageFails c false true

/-! ### Steps 7 and 8 -/

/-- A unit fails its boot check: it is marked unusable (R524). A core fused off is not checked. -/
def Part.bootFail (p : Part) (slice : Bool) (u : Nat) : Part :=
  if (slice ∧ u ≥ nSlices) ∨ (¬ slice ∧ (u ≥ nCores ∨ u ∈ p.sys.fuses.offCores)) then p
  else (p.setRec (if slice then 9 + u / 32 else u / 32) (u % 32) true).primerLog slice u true false

/-- A KEYHASH section fuses its slot; a blank slot takes the hash (R503). -/
def Part.applyHash (p : Part) (s : Section) : Part :=
  p.modSys (fun x => { x with fuses := { x.fuses with hash := x.fuses.hash.put s.hashSlot (s.num 4 48) } })

/-- A LIFECYCLE section (R500). -/
def Part.applyLife (p : Part) (s : Section) : Part :=
  let t := s.target
  let p := p.modSys (fun x =>
    let f : Fuses := { x.fuses with lcs := x.fuses.lcs ||| 2 ^ t, revoked := (if t = 3 then x.fuses.revoked ||| 0xE else x.fuses.revoked) }
    { x with fuses := f })
  p.setRg F.EAS_LCS_PEND 1

/-- A PRIMER section (R531). -/
def Part.applyPrimer (p : Part) (s : Section) : Part :=
  let fl := s.num 0 1
  let p := ((p.setRg F.PRM_FCFG_CEN (fl % 2)).setRg F.PRM_FCFG_SEN (fl / 2 % 2)).setRg F.PRM_FCFG_PERIOD (s.num 2 2)
  (p.setRg F.PRM_SAVEB_LO_PA (s.num 8 8 / 2 ^ 12)).setRg F.PRM_SAVEB_HI_PA (s.num 8 8 / 2 ^ 32)

/-- Step 8: KEYHASH sections first, then the others in image order. -/
def Part.applySections (p : Part) (i : Image) : Part :=
  let p := (i.sections.filter (fun s => s.kind = 7)).foldl (fun (r : Part) (s : Section) => r.applyHash s) p
  let p := i.sections.foldl (fun (r : Part) (s : Section) =>
    match s.kind with
    | 2 => r.applyConfig s
    | 4 => r.applyPrimer s
    | 5 => r.applyLife s
    | _ => r) p
  p.readFuses false

/-- The image asks for a full test that the life-cycle state allows and that has not been run (R523, R531). -/
def Part.wantsFull (p : Part) (i : Image) : Bool :=
  !p.sys.prm.fulled && decide (p.lcs ≠ 2) && decide (p.lcs ≠ 4)
    && i.sections.any (fun s => decide (s.kind = 4) && (s.num 0 1).testBit 2)

/-- PRIMER_BOOT_CHECKS_DONE: the boot checks end with the cores and slices that failed; the Palette is populated
and the sections of step 8 are applied (R497, R500, R524). -/
def Part.bootChecksDone (cores slices : List Nat) (p : Part) : Part :=
  if p.lcs = 4 ∧ p.sys.boot = .started ∧ p.enumOver then
    p.populate.modSys (fun s => { s with boot := .stopped })
  else if p.sys.boot = .recovery ∧ p.rg F.PAL_GEN_GEN = 0 then
    -- no image has been verified yet: the checks do not need one
    (slices.foldl (fun (r : Part) (n : Nat) => r.bootFail true n)
      (cores.foldl (fun (r : Part) (n : Nat) => r.bootFail false n) p)).populate
  else if p.sys.boot ≠ .verified then p
  else
    let p := cores.foldl (fun (r : Part) (n : Nat) => r.bootFail false n) p
    let p := slices.foldl (fun (r : Part) (n : Nat) => r.bootFail true n) p
    match p.sys.image with
    | none => p
    | some i =>
      let p := p.populate
      if p.wantsFull i then (p.modPrm (fun s => { s with fulled := true })).fullTest p.openFails
      else
        let p := p.applySections i
        let retired := i.sections.any (fun s => decide (s.kind = 5) && decide (s.target = 4))
        if retired then p.modSys (fun s => { s with boot := .stopped })
        else (if p.sys.warm then p else (List.range 16).foldl (fun (r : Part) (c : Nat) => r.trains c) p).modSys (fun s => { s with boot := .configured })

/-! ### Steps 10 to 12 -/

/-- Step 10: every line of a trained channel outside the persistent ranges is written with zero (R320, R497). Zero
is what unlisted memory reads as. -/
def Part.eccInit (p : Part) : Part :=
  let keep (k : Nat) : Bool := !p.rgOn F.MC_STAT_TRAINED (k / 2 ^ 44) || p.persKey false k
  { p with mem := p.mem.filter (fun e => keep e.1), pois := p.pois.filter (fun e => keep (16 * e.1)) }

/-- Step 11: FIRMWARE sections are copied. The Bool says that no line had to wait. -/
def Part.copyFirmware (p : Part) : List Section → Part × Bool
  | [] => (p, true)
  | s :: r =>
    match p.ioPut (p.ioAgent tileD 4) 255 s.dest s.data.length (bytesNat s.data) false (lineFuel s.data.length) with
    | some q => q.copyFirmware r
    | none => (p, false)

/-- Step 12: thread 0 of the boot core starts at level F at the entry point, with XVEC_F; the fused count rises when
RAISE asks for it (R497, R502). -/
def Part.bootCoreStart (p : Part) (i : Image) : Part :=
  let t := p.socketThread
  let p := (p.startThread t (dw i.entry)).modThread t (fun th => th.setSys 0xC07 (dw (i.xvecf / 4096 * 4096)))
  let p := p.modSys (fun s =>
    let f : Fuses := { s.fuses with count := (if i.flags % 2 = 1 then max s.fuses.count (min 63 i.secver) else s.fuses.count) }
    { s with boot := .released, fuses := f })
  p.readFuses false

/-- BOOT_CORE_RELEASE: memory has been trained and its ECC initialised; held writes have reached their boundaries; the
firmware is copied, and the boot core is released (R497, R498). -/
def Part.bootCoreRelease (p : Part) : Part :=
  match p.sys.boot, p.sys.image with
  | .configured, some i =>
    let q := (List.range 16).foldl (fun (r : Part) (c : Nat) => Part.refreshBoundary c r) p
    let q := if q.sys.warm then q else q.eccInit
    if ¬ q.destsOk i then
      let rec_ := q.rgOn F.EAS_BOOT_RECOVERY
      ((q.imageFails 8 (q.rgOn F.EAS_BOOT_BACKUP && !rec_) rec_).modSys (fun s => { s with boot := .recovery })).setRg F.EAS_BOOT_RECOVERY 1
    else
      match q.copyFirmware (i.sections.filter (fun s => s.kind = 1)) with
      | (r, true) => r.bootCoreStart i
      | (_, false) => p
  | _, _ => p

end Sys2Proof.Machine
end

