-- ==== Sys2Proof/Machine/Inbound.lean ====
section
/-!
DEFINITION. Inbound requests of the PCIe and CXL.io ports (R377, R382 to R385), and the endpoint function's BAR0, BAR2
and expansion ROM window (R392 to R394, R396).
-/
namespace Sys2Proof.Machine

/-- The pieces in which read data from address `a` on returns (R377, R382): in address order, at most 512 bytes each, cut at
64-byte read completion boundaries. DESIGN CHOICE (notes/assumptions/36.md): each piece is as long as it may be. -/
def cplPieces (a : Nat) (l : List Byte) : Nat → List (List Byte)
  | 0 => [l]
  | fuel + 1 =>
    let k := 512 - a % 64
    if l.length ≤ k then [l] else l.take k :: cplPieces (a + k) (l.drop k) fuel

/-- The completions that a port sends, of data read from address `a` on. -/
def Part.answerTlp (p : Part) (n : Nat) (st : CplStatus) (data : List Byte) (pois : Bool) (a : Nat := 0) : Part :=
  let l := (cplPieces a data 8).map (fun (d : List Byte) => ({ port := n, status := st, data := d, pois := pois } : InCpl))
  (p.modPci (fun s => { s with cpl := l.reverse ++ s.cpl })).bwCount 2 1 n 0 data.length

/-- What the I/O translation unit is asked. -/
def InReq.toIo (r : InReq) (addr : Nat) (kind : IoKind) (len : Nat) : IoReq :=
  { rid := some r.rid, dom := 0, psid := r.psid, priv := r.priv, addr := addr, kind := kind, len := len, translated := r.translated }

/-- The request is from the function below the endpoint's port: the host (R392). -/
def Part.fromHost (p : Part) (n : Nat) : Bool := p.epMode && decide (n = 0)

/-- A request that PCIe does not allow: it crosses a 4 KB boundary, or is longer than R377 allows. -/
def InAddr.badSpan (a : InAddr) (len limit : Nat) : Bool :=
  let off := match a with | .mem x => x | .bar0 x => x | .bar2 x => x | .rom x => x | .cfg x => x
  decide (len = 0) || decide (len > limit) || decide (off % 4096 + len > 4096)

/-- Read a PCIe window for a peer, line by line (R383): data, poison, and whether a port claimed it. What none claims is recorded
in the initiator's tile (R19). -/
def Part.peerBytes (p : Part) (a : Agent) (port addr n : Nat) : Nat → IoB × Bool
  | 0 => (.got p 0 false, true)
  | fuel + 1 =>
    if n = 0 then (.got p 0 false, true)
    else
      let off := addr % 64
      let k := min n (64 - off)
      match p.ioRead a port (addr / 64) with
      | .wait q => (.wait q, true)
      | .unassigned q => (.got (q.logUnmapped a.tile a.init 6 addr) 0 true, false)
      | .got q l st =>
        if st = 3 then (.got (q.logUnmapped a.tile a.init 6 addr) 0 true, false)
        else
          match q.peerBytes a port (addr + k) (n - k) fuel with
          | (.got r v b, ok) => (.got r (l.bytes off k + v * 2 ^ (8 * k)) (b || l.poisoned off k), ok)
          | (.wait r, ok) => (.wait (p.retried r), ok)

/-! ### The endpoint function's windows -/

/-- Easel's rights, for the storage that a window shares with control pages. -/
def windowMaster : Master := { easel := true, lvl := .f, vmid := 0, tile := tileP0, init := 0, loc := false }

/-- A dword of BAR0 (R392). -/
def Part.bar0Word (p : Part) (i : Nat) : Nat :=
  if i < 8 then (p.ctlRead windowMaster ⟨tileP0, 0x030⟩ (0x40 + i)).2
  else if 0x1FC0 ≤ i ∧ i < 0x2000 then
    (List.range 32).foldl (fun (a : Nat) (b : Nat) => if p.pci.ep.pba.contains (32 * (i - 0x1FC0) + b) then a + 2 ^ b else a) 0
  else if 0x2000 ≤ i ∧ i < 0x4000 then p.pci.ep.msix.get (if i % 4 = 3 then 1 else 0) (i - 0x2000)
  else 0

/-- A host write of a dword of BAR0: EP_ROMPAGE, EP_HDB and the MSI-X table; the host cannot write the rest (R399). -/
def Part.bar0Write (p : Part) (i v : Nat) : Part :=
  if i = 0 then (p.setRg F.EP_ROMPAGE_TGT (v / 2 ^ 30)).setRg F.EP_ROMPAGE_PAGE v
  else if i = 1 then Part.epHdb (v % 2 ^ 10) p
  else if 0x2000 ≤ i ∧ i < 0x4000 then
    (p.modEp (fun e => { e with msix := e.msix.put (i - 0x2000) (if i % 4 = 3 then v % 2 else v) })).msixPump
  else p

/-- A dword of the expansion ROM window (R393). The flash and the image store hold what the specification does not
say: open values (notes/assumptions/2.md). -/
def Part.romWord (p : Part) (i : Nat) : Part × Nat :=
  if p.rg F.EP_ROMPAGE_TGT ≥ 2 then (if i < 1024 then p.ctlRead windowMaster ⟨tileD, 0x010⟩ (i % 256) else (p, 0))
  else if p.rg F.EP_ROMPAGE_TGT = 1 ∧ p.rg F.EP_ROMPAGE_PAGE ≥ 16 then (p, 0) -- the store is 16 MB (R498)
  else (p.used, p.freshNat % 2 ^ 32)

/-- Dwords of a window in ascending order. -/
def readWords (f : Part → Nat → Part × Nat) (p : Part) (i : Nat) : Nat → Part × Nat
  | 0 => (p, 0)
  | n + 1 =>
    let (q, v) := f p i
    let (r, u) := readWords f q (i + 1) n
    (r, v + u * 2 ^ 32)

/-- A host read of a window: its bytes. -/
def Part.windowRead (p : Part) (f : Part → Nat → Part × Nat) (n off len : Nat) : Part :=
  let (q, v) := readWords f p (off / 4) ((off % 4 + len + 3) / 4)
  q.answerTlp n .success (natBytes len (v / 2 ^ (8 * (off % 4)))) false off

/-- The host reads the endpoint function. While a function-level reset runs, BAR0 and BAR2 are not served (R396). -/
def Part.hostRead (p : Part) (r : InReq) (len : Nat) : Part :=
  let flr := p.rgOn F.EP_STAT_FLR
  match r.addr with
  | .bar0 off =>
    if flr ∨ off + len > 0x10000 then p.answerTlp r.port .ur [] false
    else p.windowRead (fun q i => (q, q.bar0Word i)) r.port off len
  | .bar2 off =>
    if flr ∨ off + len > 0x4000000 then p.answerTlp r.port .ur [] false
    else p.windowRead (fun q _ => (q, 0)) r.port off len
  | .rom off => if off + len > 0x100000 then p.answerTlp r.port .ur [] false else p.windowRead Part.romWord r.port off len
  | .cfg off =>
    if flr then p.answerTlp r.port .crs [] false
    else p.windowRead (fun q i => (q, q.epDword i)) r.port (off % 4096) len
  | .mem _ => p.answerTlp r.port .ur [] false

/-- The bytes of a write that are enabled, in runs: the first byte's place and the bytes. -/
def runsAt (i : Nat) : List (Option Byte) → List (Nat × List Byte)
  | [] => []
  | none :: r => runsAt (i + 1) r
  | some b :: r =>
    match runsAt (i + 1) r with
    | (j, l) :: t => if j = i + 1 then (i, b :: l) :: t else (i, [b]) :: (j, l) :: t
    | [] => [(i, [b])]

/-- The whole dwords that a run of bytes covers: dword index and value. -/
def runDwords (off : Nat) (l : List Byte) : List (Nat × Nat) :=
  let first := (off + 3) / 4
  let v := bytesNat l
  ((List.range ((off + l.length) / 4 - first)).map (fun k => (first + k, v / 2 ^ (8 * (4 * (first + k) - off)) % 2 ^ 32)))

/-- The host writes a dword of the function's configuration space. Bus Master Enable and Initiate Function Level Reset act as
R395 and R396 state; PRESUMED (notes/assumptions/36.md): they are bit 2 of Command and bit 15 of Device Control, which reads
zero, as PCIe numbers them. -/
def Part.epCfgWrite (p : Part) (i v : Nat) : Part :=
  if i = 1 then
    let on := v.testBit 2
    let p := if on = p.epBme then p else if on then p.hostBmeSet else p.hostBmeClear
    p.modEp (fun e => { e with hdr := e.hdr.put 1 (setBit (v % 2 ^ 16) 2 on) })
  else if [0, 2, 3, 8, 9, 10, 11].contains i then p
  else
    let flr := decide (i = Config.epDevCtlOff / 4) && v.testBit (8 * (Config.epDevCtlOff % 4) + 15)
    let p := p.modEp (fun e => { e with hdr := e.hdr.put i (if flr then setBit v (8 * (Config.epDevCtlOff % 4) + 15) false else v) })
    if flr then p.hostFlr else p

/-- The enabled bytes of a write over a dword's present value. -/
def mergeBytes (old : Nat) (off : Nat) (data : List (Option Byte)) : Nat :=
  (List.range data.length).foldl (fun (v : Nat) (k : Nat) =>
    match data.getD k none with
    | none => v
    | some b =>
      let sh := 8 * ((off + k) % 4)
      v - v / 2 ^ sh % 256 * 2 ^ sh + b.toNat * 2 ^ sh) old

/-- The host writes the endpoint function. Registers take whole dwords; queue doorbells exactly four bytes (R420). -/
def Part.hostWrite (p : Part) (r : InReq) (data : List (Option Byte)) : Part :=
  let flr := p.rgOn F.EP_STAT_FLR
  match r.addr with
  | .bar0 off =>
    if flr ∨ off + data.length > 0x10000 then p
    else ((runsAt off data).flatMap (fun x => runDwords x.1 x.2)).foldl (fun (q : Part) (x : Nat × Nat) => q.bar0Write x.1 x.2) p
  | .bar2 off =>
    if flr ∨ off + data.length > 0x4000000 then p
    else
      (runsAt off data).foldl (fun (q : Part) (x : Nat × List Byte) =>
        let v := bytesNat x.2
        let size := if x.1 % 4 = 0 then x.2.length else 1
        if x.1 % 4096 < 4 then Part.producerBell (x.1 / 4096) (v % 2 ^ 32) size 0 true 0 q
        else if x.1 % 4096 < 8 then Part.completionBell (x.1 / 4096) (v % 2 ^ 32) size 0 true 0 q
        else q) p
  | .rom _ => p.rasLog tileP0 0xFF 10 0 0 0 .unstated
  | .cfg off =>
    if flr then p.answerTlp r.port .crs [] false
    else
      let i := off % 4096 / 4
      (p.epCfgWrite i (mergeBytes (p.epDword i) off data)).answerTlp r.port .success [] false
  | .mem _ => p

/-! ### The rows -/

/-- The checks of R385, with their record in PCI_PORT_ERR. -/
def Part.sourceBad (p : Part) (n rid : Nat) : Option Part :=
  if ¬ p.belowPort n rid then some (p.portErr n [F.PCI_PORT_ERR_SRCVAL])
  else if ¬ p.rootBme n then some (p.portErr n [F.PCI_PORT_ERR_UR])
  else none

/-- A read below a root port, of `len` bytes at an address (R382, R383). -/
def Part.rootRead (p : Part) (r : InReq) (addr len : Nat) : Part :=
  let n := r.port
  let u := if n < 32 then 0 else 1
  let a := p.grpAgent (n / 8)
  let ur (q : Part) : Part := (q.grpEvent (n / 8) 1 none).answerTlp n .ur [] false
  match p.sourceBad n r.rid with
  | some q => ur q
  | none =>
    -- a read does not pass an earlier posted write
    if p.pci.iow.any (fun w => decide (w.agent = a) && decide (w.port = n)) then p
    else
      let q := r.toIo addr (if r.exec then .exec else .read) len
      match p.ioTranslate u q with
      | .wait s => p.retried s
      | .refused s rec dom cause =>
        (match s.ioRefuse u q rec dom cause with
         | (t, true) => ur t
         | (t, false) => p.retried t)
      | .ok s pa _ _ _ =>
        let done (t : Part) (v : Nat) (b : Bool) : Part :=
          (t.grpEvent (n / 8) 1 none).answerTlp n .success (natBytes len v) b addr
        if regionOf pa = .pcieWin then
          match s.peerBytes a n pa len (lineFuel len) with
          | (.wait t, _) => p.retried t
          | (.got t v b, true) => done t v b
          | (.got t _ _, false) => ur (t.portErr n [F.PCI_PORT_ERR_UR])
        else
          match s.ioBytes a n pa len (lineFuel len) with
          | .wait t => p.retried t
          | .got t v b => done t v b

/-- INBOUND_MEMORY_READ (R382). -/
def Part.inboundRead (r : InReq) (len : Nat) (p : Part) : Part :=
  if ¬ p.portUp r.port then p
  else if r.addr.badSpan len 4096 then Part.containmentTrigger r.port .malformed p
  else if p.fromHost r.port then p.hostRead r len
  else match r.addr with
    | .mem addr => p.rootRead r addr len
    | _ => p

/-- Write a list of bytes, each with its byte enable, at a physical address in memory or in a PCIe window: one prepared write for each
line with an enabled byte (R382, R383); `fuel` bounds the lines. -/
def Part.storeLines (p : Part) (a : Agent) (n pa : Nat) (pois : Bool) (data : List (Option Byte)) : Nat → Option Part
  | 0 => some p
  | fuel + 1 =>
    if data.isEmpty then some p
    else
      let off := pa % 64
      let k := 64 - off
      let l := data.take k
      let m : Dword := BitVec.ofNat 64 ((List.range l.length).foldl (fun (x i : Nat) =>
        if (l.getD i none).isSome then x + 2 ^ (off + i) else x) 0)
      let d : Vec := BitVec.ofNat 512 (bytesNat (l.map (fun b => b.getD 0)) * 2 ^ (8 * off))
      match if m = 0 then some p else p.ioWrite a n (pa / 64) d m (if pois then 0xF else 0) with
      | none => none
      | some q => q.storeLines a n (pa + k) pois (data.drop k) fuel

/-- A translated inbound write (R382 to R384): to a doorbell, or line by line. -/
def Part.storeTlp (p : Part) (a : Agent) (n pa : Nat) (pois : Bool) (data : List (Option Byte)) : Option Part :=
  match regionOf pa, runsAt 0 data with
  | .ctl _ _, [(0, l)] | .loc _, [(0, l)] => p.ioStore a n pa l.length (bytesNat l) pois
  | _, _ => p.storeLines a n pa pois data (lineFuel data.length)

/-- A write below a root port (R382 to R385). -/
def Part.rootWrite (p : Part) (r : InReq) (addr : Nat) (data : List (Option Byte)) (pois : Bool) : Part :=
  let n := r.port
  let u := if n < 32 then 0 else 1
  let a := p.grpAgent (n / 8)
  let ev (q : Part) : Part := (q.grpEvent (n / 8) 1 none).bwCount 2 0 n 0 data.length
  match p.sourceBad n r.rid with
  | some q => ev q
  | none =>
    let runs := runsAt 0 data
    -- only a write of every byte of a dword can be a doorbell (R211)
    let len := match runs with | [(0, l)] => l.length | _ => 0
    let q := r.toIo addr .write len
    match p.ioTranslate u q with
    | .wait s => p.retried s
    | .refused s rec dom cause =>
      (match s.ioRefuse u q rec dom cause with
       | (t, true) => ev t
       | (t, false) => p.retried t)
    | .ok s pa _ _ _ =>
      match s.storeTlp a n pa pois data with
      | none => p
      | some t => ev t

/-- INBOUND_MEMORY_WRITE (R382): the bytes, each with its byte enable. -/
def Part.inboundWrite (r : InReq) (data : List (Option Byte)) (pois : Bool) (p : Part) : Part :=
  if ¬ p.portUp r.port then p
  else if r.addr.badSpan data.length 512 then Part.containmentTrigger r.port .malformed p
  else if p.fromHost r.port then (p.bwCount 2 0 r.port 0 data.length).hostWrite r data
  else match r.addr with
    | .mem addr => p.rootWrite r addr data pois
    | _ => p

/-- ATS_TRANSLATION_REQUEST: a device below port `n` asks for a translation (R212). A source that R385 refuses is answered with
neither read nor write, and no fault record. -/
def Part.atsArrive (n rid : Nat) (psid : Option Nat) (priv : Bool) (addr : Nat) (p : Part) : Part :=
  let u := if n < 32 then 0 else 1
  if ¬ p.portUp n ∨ p.fromHost n then p
  else match p.sourceBad n rid with
    | some q => q.atsComplete u (.refusal rid)
    | none => p.atsRequest u rid psid priv addr

/-- INBOUND_ATOMICOP: completed with Unsupported Request (R377). -/
def Part.inboundAtomic (n : Nat) (p : Part) : Part :=
  if ¬ p.portUp n then p else p.answerTlp n .ur [] false

/-- CMP: the completion of a store (R251, R294). A peer write that no port claimed is recorded at its source port (R383). -/
def Part.cmpRow (m : Msg) (p : Part) : Part :=
  let (q, _) := p.arrive { m with opc := .cmp }
  let r := Part.cmpAt { m with opc := .cmp } p
  if q.dst.skt = p.sktId ∧ q.stat = 3 then
    match q.peerPort q.dst with
    | some n => r.portErr n [F.PCI_PORT_ERR_UR]
    | none => r
  else r

/-- When an event starts a function-level reset, queued descriptors of the host complete with ABORTED_RESET (R396). -/
def Part.withHostStop (p : Part) (f : Part → Part) : Part :=
  let q := f p
  if q.rgOn F.EP_STAT_FLR ∧ ¬ p.rgOn F.EP_STAT_FLR then q.hostStop 11 else q

/-- HOT_RESET, PERST_CHANGE, PORT_LINK_DOWN and RECOVERY_DONE with the end of the host's descriptors. -/
def Part.hotResetRow (p : Part) : Part := p.withHostStop Part.hotReset
def Part.perstRow (low : Bool) (p : Part) : Part := p.withHostStop (Part.perstChange low)
def Part.linkDownRow (n : Nat) (p : Part) : Part := p.withHostStop (Part.portLinkDown n)
def Part.recoveryRow (n : Nat) (ok : Bool) (speed width : Nat) (p : Part) : Part :=
  p.withHostStop (Part.recoveryDone n ok speed width)

end Sys2Proof.Machine
end

