-- ==== Sys2Proof/Machine/State.lean ====
section
/-!
DEFINITION. The state of the block: one Helgen part and the commands that wait for it.
-/
namespace Sys2Proof.Machine

/-- The part as its reset leaves it: standby supplies up, RSTIN_N low (R9, R496). Every register reads its reset value,
no table lists anything; the model's own fields `free` and `seq` start at 0. -/
def Part.reset : Part :=
  { free := 0, seq := 0, time := 0, ctl := [], held := [], thr := [], ic := [], core := [], slice := [], net := [], fab := FabSt.reset, mem := [],
    pois := [], chan := [], mt := [], ras := [], elog := [], pci := PciSt.reset, pkt := PktSt.reset, key := KeySt.reset,
    ven := VeneerSt.reset, sys := SysSt.reset }

/-- The state: the part, and the commands that wait, first in, first out. -/
structure State where
  pending : List Instr
  part : Part
  deriving DecidableEq, Repr

/-- Right after reset: the part at reset and no command waiting. -/
def State.reset : State := { pending := [], part := Part.reset }

/-- What stops the machine. No command raises a fault: where the specification reports an error it says what the part
does, and that is the command's effect. -/
inductive Fault where
  /-- The part no longer takes commands. Raised by nobody: the specification describes no such condition. Safe. -/
  | stopped
  deriving DecidableEq, Repr

/-- Why a command is turned away. -/
inductive Refusal where
  /-- The command has no meaning in the model yet; raised by an arm of Dispatch.lean that says so. Safe. -/
  | notModelled (mnemonic : String)
  deriving DecidableEq, Repr

end Sys2Proof.Machine
end

