-- ==== Sys2Proof/Machine/Fp.lean ====
section
/-!
DEFINITION. IEEE 754 arithmetic for FP16, BF16, FP32 and FP64 (R108 to R111): exact values, one rounding
with the flags of R106, the operations, comparisons and conversions.
-/
namespace Sys2Proof.Machine

/-- A binary format: width, exponent bits and fraction bits (R44, R108). -/
structure FpFmt where
  w : Nat
  eb : Nat
  mb : Nat
  deriving DecidableEq, Repr

/-- The format of an ft code (R104). -/
def fpFmt : Nat → FpFmt
  | 0 => ⟨16, 5, 10⟩
  | 1 => ⟨16, 8, 7⟩
  | 2 => ⟨32, 8, 23⟩
  | _ => ⟨64, 11, 52⟩

def FpFmt.bias (f : FpFmt) : Nat := 2 ^ (f.eb - 1) - 1
/-- Least exponent of a normal number. -/
def FpFmt.emin (f : FpFmt) : Int := 1 - (f.bias : Int)

/-- The exact value of an operand, or of a result before rounding: `fin s m e` is ±m × 2^e. -/
inductive FpV where
  | nan (sig : Bool)
  | inf (s : Bool)
  | fin (s : Bool) (m : Nat) (e : Int)
  deriving DecidableEq, Repr

/-- Flags in the order of FPCSR[8:4]: NV 16, DZ 8, OF 4, UF 2, NX 1. -/
abbrev FpFlags := BitVec 5
def fNV : FpFlags := 16
def fDZ : FpFlags := 8
def fOF : FpFlags := 4
def fUF : FpFlags := 2
def fNX : FpFlags := 1

/-- The canonical quiet NaN (R109). -/
def FpFmt.qnan (f : FpFmt) : Nat := (2 ^ (f.eb + 1) - 1) * 2 ^ (f.mb - 1)
def FpFmt.infBits (f : FpFmt) (s : Bool) : Nat := (if s then 2 ^ (f.w - 1) else 0) + (2 ^ f.eb - 1) * 2 ^ f.mb
def FpFmt.maxBits (f : FpFmt) (s : Bool) : Nat := f.infBits s - 1

/-- Read an operand; with `fz` a subnormal reads as a zero of its sign (R110). -/
def FpFmt.dec (f : FpFmt) (fz : Bool) (x : Nat) : FpV :=
  let s := x.testBit (f.w - 1)
  let e := x / 2 ^ f.mb % 2 ^ f.eb
  let m := x % 2 ^ f.mb
  if e = 2 ^ f.eb - 1 then (if m = 0 then .inf s else .nan (!x.testBit (f.mb - 1)))
  else if e = 0 then (if fz then .fin s 0 0 else .fin s m (f.emin - f.mb))
  else .fin s (m + 2 ^ f.mb) ((e : Int) - f.bias - f.mb)

/-- Whether a magnitude `m` with remainder `rem` of `2^k` (and more below when `st`) rounds up. -/
def roundUp (rm : Nat) (s : Bool) (odd : Bool) (rem half : Nat) (st : Bool) : Bool :=
  let inexact := decide (rem ≠ 0) || st
  match rm with
  | 0 => decide (half > 0) && (decide (rem > half) || (decide (rem = half) && (st || odd)))
  | 1 => false
  | 2 => s && inexact
  | 3 => !s && inexact
  | _ => decide (half > 0) && decide (rem ≥ half)

/-- Round ±m × 2^e (and more below it when `st`) to a unit of 2^q: the integer, and whether it is inexact. -/
def roundAt (rm : Nat) (s : Bool) (m : Nat) (e q : Int) (st : Bool) : Nat × Bool :=
  if e ≥ q then (m * 2 ^ (e - q).toNat, st)
  else
    let k := (q - e).toNat
    let t := m / 2 ^ k
    let r := m % 2 ^ k
    (if roundUp rm s (t % 2 = 1) r (2 ^ (k - 1)) st then t + 1 else t, decide (r ≠ 0) || st)

/-- Round an exact finite value to a format (R108, R110): bits and flags. Where `st` holds the magnitude
`m` must have more bits than the format keeps. -/
def FpFmt.round (f : FpFmt) (rm : Nat) (fz : Bool) (s : Bool) (m : Nat) (e : Int) (st : Bool) : Nat × FpFlags :=
  let sb := if s then 2 ^ (f.w - 1) else 0
  if m = 0 then (sb, 0)
  else
    let ex : Int := e + m.log2
    let qu : Int := ex - f.mb
    let q : Int := max qu (f.emin - f.mb)
    let (t, inexact) := roundAt rm s m e q st
    let (t, q) := if t = 2 ^ (f.mb + 1) then (2 ^ f.mb, q + 1) else (t, q)
    let tiny := decide (ex < f.emin)
      && !(decide (ex = f.emin - 1) && decide ((roundAt rm s m e qu st).1 = 2 ^ (f.mb + 1)))
    let nx : FpFlags := if inexact then fNX else 0
    if t ≥ 2 ^ f.mb then
      let ef : Int := q + f.mb + f.bias
      if ef ≥ 2 ^ f.eb - 1 then
        let toInf := match rm with | 0 => true | 1 => false | 2 => s | 3 => !s | _ => true
        (if toInf then f.infBits s else f.maxBits s, fOF ||| fNX)
      else (sb + ef.toNat * 2 ^ f.mb + (t - 2 ^ f.mb), nx ||| (if tiny && inexact then fUF else 0))
    else if fz ∧ t ≠ 0 then (sb, fUF ||| fNX)
    else (sb + t, nx ||| (if tiny && inexact then fUF else 0))

/-- Round any exact value; a NaN becomes the canonical one (R109). -/
def FpFmt.enc (f : FpFmt) (rm : Nat) (fz : Bool) (v : FpV) (st : Bool) : Nat × FpFlags :=
  match v with
  | .nan _ => (f.qnan, 0)
  | .inf s => (f.infBits s, 0)
  | .fin s m e => f.round rm fz s m e st

/-- A NaN operand that signals. -/
def FpV.snan : FpV → Bool
  | .nan s => s
  | _ => false
def FpV.isNan : FpV → Bool
  | .nan _ => true
  | _ => false

def FpV.neg : FpV → FpV
  | .nan s => .nan s
  | .inf s => .inf (!s)
  | .fin s m e => .fin (!s) m e

/-- Flags of NaN operands. -/
def nanFlags (l : List FpV) : FpFlags := if l.any FpV.snan then fNV else 0

/-- The exact sum (R108): an exact zero of operands with different signs is +0, or −0 under RDN. -/
def FpV.add (rm : Nat) (a b : FpV) : FpV × FpFlags :=
  match a, b with
  | .nan _, _ => (.nan false, nanFlags [a, b])
  | _, .nan _ => (.nan false, nanFlags [a, b])
  | .inf s, .inf r => if s = r then (.inf s, 0) else (.nan false, fNV)
  | .inf s, _ => (.inf s, 0)
  | _, .inf s => (.inf s, 0)
  | .fin s m e, .fin r n d =>
    let q := min e d
    let x : Int := (m * 2 ^ (e - q).toNat : Nat)
    let y : Int := (n * 2 ^ (d - q).toNat : Nat)
    let z := (if s then -x else x) + (if r then -y else y)
    if z = 0 then (.fin (if s = r then s else rm = 2) 0 0, 0)
    else (.fin (decide (z < 0)) z.natAbs q, 0)

/-- The exact product. -/
def FpV.mul (a b : FpV) : FpV × FpFlags :=
  match a, b with
  | .nan _, _ => (.nan false, nanFlags [a, b])
  | _, .nan _ => (.nan false, nanFlags [a, b])
  | .inf s, .inf r => (.inf (s != r), 0)
  | .inf s, .fin r n _ => if n = 0 then (.nan false, fNV) else (.inf (s != r), 0)
  | .fin s m _, .inf r => if m = 0 then (.nan false, fNV) else (.inf (s != r), 0)
  | .fin s m e, .fin r n d => (.fin (s != r) (m * n) (e + d), 0)

/-- Addition and multiplication in a format. -/
def FpFmt.fadd (f : FpFmt) (rm : Nat) (fz : Bool) (a b : Nat) : Nat × FpFlags :=
  let (v, fl) := (f.dec fz a).add rm (f.dec fz b)
  let (r, g) := f.enc rm fz v false
  (r, fl ||| g)
def FpFmt.fsub (f : FpFmt) (rm : Nat) (fz : Bool) (a b : Nat) : Nat × FpFlags :=
  let (v, fl) := (f.dec fz a).add rm (f.dec fz b).neg
  let (r, g) := f.enc rm fz v false
  (r, fl ||| g)
def FpFmt.fmul (f : FpFmt) (rm : Nat) (fz : Bool) (a b : Nat) : Nat × FpFlags :=
  let (v, fl) := (f.dec fz a).mul (f.dec fz b)
  let (r, g) := f.enc rm fz v false
  (r, fl ||| g)

/-- Division. -/
def FpFmt.fdiv (f : FpFmt) (rm : Nat) (fz : Bool) (a b : Nat) : Nat × FpFlags :=
  let x := f.dec fz a
  let y := f.dec fz b
  match x, y with
  | .nan _, _ => (f.qnan, nanFlags [x, y])
  | _, .nan _ => (f.qnan, nanFlags [x, y])
  | .inf _, .inf _ => (f.qnan, fNV)
  | .inf s, .fin r _ _ => (f.infBits (s != r), 0)
  | .fin s _ _, .inf r => (if s != r then 2 ^ (f.w - 1) else 0, 0)
  | .fin s m e, .fin r n d =>
    if n = 0 then (if m = 0 then (f.qnan, fNV) else (f.infBits (s != r), fDZ))
    else
      let k := f.mb + 4 + n.log2
      let t := m * 2 ^ k
      f.round rm fz (s != r) (t / n) (e - d - k) (decide (t % n ≠ 0))

/-- Integer square root of a number below 2^(2 × bits). -/
def isqrt (bits n : Nat) : Nat :=
  (List.range bits).foldl (fun r i =>
    let c := r + 2 ^ (bits - 1 - i)
    if c * c ≤ n then c else r) 0

/-- Square root. -/
def FpFmt.fsqrt (f : FpFmt) (rm : Nat) (fz : Bool) (a : Nat) : Nat × FpFlags :=
  match f.dec fz a with
  | .nan s => (f.qnan, if s then fNV else 0)
  | .inf s => if s then (f.qnan, fNV) else (f.infBits false, 0)
  | .fin s m e =>
    if m = 0 then (if s then 2 ^ (f.w - 1) else 0, 0)
    else if s then (f.qnan, fNV)
    else
      let k := 2 * f.mb + 6 + (if (e - (2 * f.mb + 6 : Nat)) % 2 = 0 then 0 else 1)
      let t := m * 2 ^ k
      let r := isqrt (2 * f.mb + 8) t
      f.round rm fz false r ((e - k) / 2) (decide (r * r ≠ t))

/-- Fused multiply-add of exact values: ±(a × b) ± d (R109, R116). -/
def fmaV (rm : Nat) (a b d : FpV) (np nd : Bool) : FpV × FpFlags :=
  let (x, g) := a.mul b
  let x := if np then x.neg else x
  let (v, h) := x.add rm (if nd then d.neg else d)
  (v, g ||| h ||| nanFlags [a, b, d])
def FpFmt.fma (f : FpFmt) (rm : Nat) (fz : Bool) (a b d : Nat) (np nd : Bool) : Nat × FpFlags :=
  let (v, g) := fmaV rm (f.dec fz a) (f.dec fz b) (f.dec fz d) np nd
  let (r, h) := f.enc rm fz v false
  (r, g ||| h)

/-- One lane of the widening dot product: two products of a 16-bit format and an FP32 addend (R116). -/
def dotLane (src : FpFmt) (rm : Nat) (fz : Bool) (a0 b0 a1 b1 d : Nat) (np nd : Bool) : Nat × FpFlags :=
  let o := fpFmt 2
  let (p0, g0) := (src.dec fz a0).mul (src.dec fz b0)
  let (p1, g1) := (src.dec fz a1).mul (src.dec fz b1)
  let s (x : FpV) : FpV := if np then x.neg else x
  let dv := o.dec fz d
  let (t, g2) := (s p0).add rm (s p1)
  let (v, g3) := t.add rm (if nd then dv.neg else dv)
  let (r, g4) := o.enc rm fz v false
  (r, g0 ||| g1 ||| g2 ||| g3 ||| g4 ||| nanFlags [dv])

/-- Exact comparison of two values that are not NaN: −1, 0 or 1. -/
def FpV.cmp (a b : FpV) : Int :=
  match a, b with
  | .inf s, .inf r => if s = r then 0 else if s then -1 else 1
  | .inf s, _ => if s then -1 else 1
  | _, .inf s => if s then 1 else -1
  | .fin s m e, .fin r n d =>
    let q := min e d
    let x : Int := (m * 2 ^ (e - q).toNat : Nat)
    let y : Int := (n * 2 ^ (d - q).toNat : Nat)
    let z := (if s then -x else x) - (if r then -y else y)
    if z = 0 then 0 else if z < 0 then -1 else 1
  | _, _ => 0

def FpV.signOf : FpV → Bool
  | .nan _ => false
  | .inf s => s
  | .fin s _ _ => s

/-- minimumNumber and maximumNumber, −0 below +0 (R109). -/
def FpFmt.fminmax (f : FpFmt) (fz : Bool) (a b : Nat) (isMax : Bool) : Nat × FpFlags :=
  let x := f.dec fz a
  let y := f.dec fz b
  let fl := nanFlags [x, y]
  let out (v : FpV) : Nat := (f.enc 0 false v false).1
  if x.isNan then (out y, fl)
  else if y.isNan then (out x, fl)
  else
    let c := x.cmp y
    let xLess := decide (c < 0) || (decide (c = 0) && x.signOf && !y.signOf)
    (out (if xLess != isMax then x else y), fl)

/-- A floating-point condition and its NV (R119); `none` for a code that is not listed. -/
def FpFmt.fcmp (f : FpFmt) (fz : Bool) (cc : Nat) (a b : Nat) : Option (Bool × FpFlags) :=
  let x := f.dec fz a
  let y := f.dec fz b
  let un := x.isNan || y.isNan
  let c := x.cmp y
  let quiet : FpFlags := nanFlags [x, y]
  let sgn : FpFlags := if un then fNV else 0
  match cc with
  | 0 => some (!un && decide (c = 0), quiet)
  | 1 => some (un || decide (c ≠ 0), quiet)
  | 2 => some (!un && decide (c < 0), sgn)
  | 3 => some (!un && decide (c ≥ 0), sgn)
  | 6 => some (!un && decide (c ≤ 0), sgn)
  | 7 => some (!un && decide (c > 0), sgn)
  | 12 => some (un, quiet)
  | 13 => some (!un, quiet)
  | _ => none

/-- Floating point to a signed integer of `w` bits (R111): the bits and the flags. -/
def FpFmt.toInt (f : FpFmt) (rm : Nat) (fz : Bool) (w a : Nat) : Nat × FpFlags :=
  let top : Nat := 2 ^ (w - 1) - 1
  let low : Nat := 2 ^ (w - 1)
  match f.dec fz a with
  | .nan _ => (0, fNV)
  | .inf s => (if s then low else top, fNV)
  | .fin s m e =>
    if m = 0 then (0, 0)
    else if e + m.log2 > (w : Int) + 2 then (if s then low else top, fNV)
    else
      let (t, nx) := roundAt rm s m e 0 false
      if s ∧ t > low then (low, fNV)
      else if ¬ s ∧ t > top then (top, fNV)
      else (if s then (2 ^ w - t) % 2 ^ w else t, if nx then fNX else 0)

/-- A signed integer of `w` bits to floating point (R111). -/
def FpFmt.ofInt (f : FpFmt) (rm : Nat) (fz : Bool) (w a : Nat) : Nat × FpFlags :=
  let z := toSigned w a
  f.round rm fz (decide (z < 0)) z.natAbs 0 false

/-- One format to another (R108, R109). -/
def fpConv (src dst : FpFmt) (rm : Nat) (fz : Bool) (a : Nat) : Nat × FpFlags :=
  let v := src.dec fz a
  let (r, g) := dst.enc rm fz v false
  (r, g ||| nanFlags [v])

end Sys2Proof.Machine
end

