-- ==== Sys2Proof/Machine/Vec.lean ====
section
/-!
DEFINITION. Vector, floating-point and mask instructions (R104, R105, R113 to R121).
-/
namespace Sys2Proof.Machine

/-- Element `j` of `b` bytes of a vector (R104). -/
def lane (v : Vec) (b j : Nat) : Nat := v.toNat / 2 ^ (8 * b * j) % 2 ^ (8 * b)
/-- A vector of elements of `b` bytes. -/
def mkVec (b : Nat) (f : Nat → Nat) : Vec :=
  BitVec.ofNat 512 ((List.range (64 / b)).foldl (fun a j => a + f j % 2 ^ (8 * b) * 2 ^ (8 * b * j)) 0)
/-- Element `j` is selected (R35, R105). -/
def selects (m : Dword) (b j : Nat) : Bool := m.getLsbD (b * j)
/-- Size in bytes of a type code and of a size code (R104). -/
def etSize : Nat → Nat
  | 0 => 1 | 1 => 2 | 2 => 4 | 3 => 8 | 4 => 2 | 5 => 2 | 6 => 4 | _ => 8
/-- Merge computed elements into a destination under a mask (R105). -/
def maskLanes (b : Nat) (m : Dword) (z : Bool) (old : Vec) (f : Nat → Nat) : Vec :=
  mkVec b (fun j => if selects m b j then f j else if z then 0 else lane old b j)

/-- FPCSR fields (R106). -/
def Thr.fz (th : Thr) : Bool := (th.sys 0x011).getLsbD 3
def Thr.dynRm (th : Thr) : Nat := (th.sys 0x011).toNat % 8
def Thr.addFlags (th : Thr) (g : FpFlags) : Thr :=
  if g = 0 then th else th.setSys 0x011 (th.sys 0x011 ||| (g.setWidth 64 <<< (4 : Nat)))

/-- The rounding mode of an rm field, if it is not reserved (R106, R107). -/
def Thr.rmode (th : Thr) (rm : Nat) : Option Nat :=
  let r := if rm = 7 then th.dynRm else rm
  if r < 5 then some r else none

/-- The results of elements that raise flags, with the flags of the selected ones (R105, R107). -/
def fpLanes (b : Nat) (m : Dword) (f : Nat → Nat × FpFlags) : FpFlags :=
  (List.range (64 / b)).foldl (fun g j => if selects m b j then g ||| (f j).2 else g) 0

/-! ### VINT (R113) -/

/-- A saturating result in `n` bits. -/
def satS (n : Nat) (z : Int) : Nat :=
  if z > 2 ^ (n - 1) - 1 then 2 ^ (n - 1) - 1 else if z < -(2 ^ (n - 1)) then 2 ^ (n - 1) else (z % 2 ^ n).toNat

/-- An element operation of `n` bits; `none` for a reserved code. -/
def vintOp (op n a b : Nat) : Option Nat :=
  let sa := toSigned n a
  let sb := toSigned n b
  let c := b % n
  match op with
  | 0 => some ((a + b) % 2 ^ n)
  | 1 => some ((a + 2 ^ n - b) % 2 ^ n)
  | 2 => some (a &&& b)
  | 3 => some (a ||| b)
  | 4 => some (a ^^^ b)
  | 5 => some (a &&& (2 ^ n - 1 - b))
  | 6 => some (a * b % 2 ^ n)
  | 7 => some ((sa * sb / 2 ^ n % 2 ^ n).toNat)
  | 8 => some (a * b / 2 ^ n)
  | 9 => some (if sa ≤ sb then a else b)
  | 10 => some (if sb ≤ sa then a else b)
  | 11 => some (min a b)
  | 12 => some (max a b)
  | 13 => some (a * 2 ^ c % 2 ^ n)
  | 14 => some (a / 2 ^ c)
  | 15 => some ((sa / 2 ^ c % 2 ^ n).toNat)
  | 16 => some (satS n (sa + sb))
  | 17 => some (min (a + b) (2 ^ n - 1))
  | 18 => some (satS n (sa - sb))
  | 19 => some (a - b)
  | 20 => some ((Int.natAbs sa) % 2 ^ n)
  | _ => none

/-- VINT: fn is op, sz, mk, Z. -/
def Part.iVint (t : Nat) (rd ra rb : BitVec 5) (fn : BitVec 11) (p : Part) : Part :=
  let op := fn.toNat % 32
  let b := 2 ^ (fn.toNat / 32 % 4)
  let mk : BitVec 3 := BitVec.ofNat 3 (fn.toNat / 128)
  let z := fn.getLsbD 10
  p.runInstr t { legal := decide (op ≤ 20) && (decide (op ≠ 20) || decide (rb = 0)),
                 cost := if 6 ≤ op ∧ op ≤ 8 then 4 else 1 } (fun q =>
    .retire (q.modThread t (fun th =>
      th.setV rd (maskLanes b (th.mr mk) z (th.vr rd) (fun j =>
        (vintOp op (8 * b) (lane (th.vr ra) b j) (lane (th.vr rb) b j)).getD 0)))))

/-! ### VFP, SFP, FMA (R114 to R116) -/

/-- An element operation 0 to 10 of VFP and SFP. -/
def vfpOp (op : Nat) (f : FpFmt) (rm : Nat) (fz : Bool) (a b : Nat) : Nat × FpFlags :=
  let sg := 2 ^ (f.w - 1)
  let mag := a % sg
  match op with
  | 0 => f.fadd rm fz a b
  | 1 => f.fsub rm fz a b
  | 2 => f.fmul rm fz a b
  | 3 => f.fdiv rm fz a b
  | 4 => f.fsqrt rm fz a
  | 5 => f.fminmax fz a b false
  | 6 => f.fminmax fz a b true
  | 7 => (mag, 0)
  | 8 => (mag + (if a ≥ sg then 0 else sg), 0)
  | 9 => (mag + (if b ≥ sg then sg else 0), 0)
  | _ => (mag + (if b ≥ sg then 0 else sg), 0)

/-- Pairwise combination of R114: `n` halvings of a list. -/
def reducePairs (op : Nat → Nat → Nat × FpFlags) : Nat → List Nat → FpFlags → Nat × FpFlags
  | 0, l, g => (l.headD 0, g)
  | n + 1, l, g =>
    let half := l.length / 2
    let r := (List.range half).map (fun i => op (l.getD (2 * i) 0) (l.getD (2 * i + 1) 0))
    reducePairs op n (r.map (·.1)) (r.foldl (fun g x => g ||| x.2) g)

/-- Cost of a VFP or SFP operation in Plumb mode (R182). -/
def vfpCost (op ft : Nat) : Nat :=
  let lanes := match ft with | 0 => 5 | 1 => 5 | 2 => 4 | _ => 3
  match op with
  | 3 => (match ft with | 3 => 22 | 2 => 12 | _ => 8)
  | 4 => (match ft with | 3 => 28 | 2 => 16 | _ => 10)
  | 7 => 1 | 8 => 1 | 9 => 1 | 10 => 1
  | 11 => 4 * lanes | 12 => 4 * lanes | 13 => 4 * lanes
  | _ => 4

/-- Operations that round (R107): a reserved dynamic mode makes them illegal. -/
def vfpRounds (op : Nat) : Bool := op ≤ 4 || op = 11

/-- VFP: fn is op, ft, zero, mk, Z. -/
def Part.iVfp (t : Nat) (rd ra rb : BitVec 5) (fn : BitVec 11) (p : Part) : Part :=
  let op := fn.toNat % 16
  let ft := fn.toNat / 16 % 4
  let f := fpFmt ft
  let b := f.w / 8
  let mk : BitVec 3 := BitVec.ofNat 3 (fn.toNat / 128)
  let z := fn.getLsbD 10
  let th0 := p.thread t
  let unary := decide (op = 4) || decide (op = 7) || decide (op = 8)
  p.runInstr t { legal := decide (op ≤ 13) && !fn.getLsbD 6 && (!unary || decide (rb = 0))
                   && !(decide (op ≥ 11) && z) && (!vfpRounds op || (th0.rmode 7).isSome),
                 cost := vfpCost op ft } (fun q =>
    .retire (q.modThread t (fun th =>
      let rm := (th.rmode 7).getD 0
      if op ≥ 11 then
        let ident := if op = 11 then 2 ^ (f.w - 1) else f.infBits (decide (op = 13))
        let l := (List.range (64 / b)).map (fun i => if selects (th.mr mk) b i then lane (th.vr ra) b i else ident)
        let (r, g) := reducePairs (vfpOp (match op with | 11 => 0 | 12 => 5 | _ => 6) f rm th.fz) (64 / b).log2 l 0
        (th.setV rd (BitVec.ofNat 512 r)).addFlags g
      else
        let el (j : Nat) : Nat × FpFlags := vfpOp op f rm th.fz (lane (th.vr ra) b j) (lane (th.vr rb) b j)
        (th.setV rd (maskLanes b (th.mr mk) z (th.vr rd) (fun j => (el j).1))).addFlags (fpLanes b (th.mr mk) el))))

/-- SFP: fn is op, ft, zero, rm, zero (R115). -/
def Part.iSfp (t : Nat) (rd ra rb : BitVec 5) (fn : BitVec 11) (p : Part) : Part :=
  let op := fn.toNat % 16
  let ft := fn.toNat / 16 % 4
  let f := fpFmt ft
  let b := f.w / 8
  let rmf := fn.toNat / 128 % 8
  let th0 := p.thread t
  let unary := decide (op = 4) || decide (op = 7) || decide (op = 8)
  let rmOk := decide (rmf ≠ 5) && decide (rmf ≠ 6) && (!vfpRounds op || (th0.rmode rmf).isSome)
  p.runInstr t { legal := decide (op ≤ 10) && !fn.getLsbD 6 && !fn.getLsbD 10 && (!unary || decide (rb = 0)) && rmOk,
                 cost := vfpCost op ft } (fun q =>
    .retire (q.modThread t (fun th =>
      let (r, g) := vfpOp op f ((th.rmode rmf).getD 0) th.fz (lane (th.vr ra) b 0) (lane (th.vr rb) b 0)
      (th.setV rd (BitVec.ofNat 512 r)).addFlags g)))

/-- FMA: fn is form, ft, S, D, zero, mk or rm, Z (R116). -/
def Part.iFma (t : Nat) (rd ra rb : BitVec 5) (fn : BitVec 11) (p : Part) : Part :=
  let form := fn.toNat % 4
  let ft := fn.toNat / 4 % 4
  let sc := fn.getLsbD 4
  let dot := fn.getLsbD 5
  let fld := fn.toNat / 128 % 8
  let z := fn.getLsbD 10
  let f := fpFmt ft
  let b := f.w / 8
  let np := decide (form ≥ 2)
  let nd := decide (form = 1) || decide (form = 3)
  let th0 := p.thread t
  let rmOk := if sc then decide (fld ≠ 5) && decide (fld ≠ 6) && (th0.rmode fld).isSome else (th0.rmode 7).isSome
  p.runInstr t { legal := !fn.getLsbD 6 && !(sc && (dot || z)) && !(dot && decide (ft ≥ 2)) && rmOk,
                 cost := if dot then 5 else 4 } (fun q =>
    let q := q.coreEvent t 8 1
    .retire (q.modThread t (fun th =>
      if sc then
        let (r, g) := f.fma ((th.rmode fld).getD 0) th.fz (lane (th.vr ra) b 0) (lane (th.vr rb) b 0) (lane (th.vr rd) b 0) np nd
        (th.setV rd (BitVec.ofNat 512 r)).addFlags g
      else
        let mk : BitVec 3 := BitVec.ofNat 3 fld
        let rm := (th.rmode 7).getD 0
        let eb := if dot then 4 else b
        let el (j : Nat) : Nat × FpFlags :=
          if dot then
            dotLane f rm th.fz (lane (th.vr ra) 2 (2 * j)) (lane (th.vr rb) 2 (2 * j)) (lane (th.vr ra) 2 (2 * j + 1))
              (lane (th.vr rb) 2 (2 * j + 1)) (lane (th.vr rd) 4 j) np nd
          else f.fma rm th.fz (lane (th.vr ra) b j) (lane (th.vr rb) b j) (lane (th.vr rd) b j) np nd
        (th.setV rd (maskLanes eb (th.mr mk) z (th.vr rd) (fun j => (el j).1))).addFlags (fpLanes eb (th.mr mk) el))))

/-! ### VCVT (R117) -/

/-- Convert one element between two type codes. -/
def cvtElem (st dt rm : Nat) (fz : Bool) (a : Nat) : Nat × FpFlags :=
  let sw := 8 * etSize st
  let dwid := 8 * etSize dt
  if st < 4 then
    (if dt < 4 then ((toSigned sw a % 2 ^ dwid).toNat, 0) else (fpFmt (dt - 4)).ofInt rm fz sw a)
  else
    (if dt < 4 then (fpFmt (st - 4)).toInt rm fz dwid a else fpConv (fpFmt (st - 4)) (fpFmt (dt - 4)) rm fz a)

/-- Conversions that round: every one with a floating-point type. -/
def cvtLegal (st dt form : Nat) (rb : BitVec 5) : Bool :=
  let ss := etSize st
  let ds := etSize dt
  let h := rb.getLsbD 0
  decide (st ≠ dt) && (match form with
    | 0 => decide (rb.toNat / 2 = 0) && ((decide (ss = ds) && !h) || decide (ss = 2 * ds) || decide (ds = 2 * ss))
    | 1 => decide (rb = 0)
    | 2 => decide (rb = 0) && (decide (st = 2) || decide (st = 3)) && decide (dt ≥ 4)
    | _ => decide (rb = 0) && decide (st ≥ 4) && (decide (dt = 2) || decide (dt = 3)))

def Part.iVcvt (t : Nat) (rd ra rb : BitVec 5) (fn : BitVec 11) (p : Part) : Part :=
  let st := fn.toNat % 8
  let dt := fn.toNat / 8 % 8
  let form := fn.toNat / 64 % 4
  let rmf := fn.toNat / 256
  let h := rb.getLsbD 0
  let ss := etSize st
  let ds := etSize dt
  let th0 := p.thread t
  let rounds := decide (st ≥ 4) || decide (dt ≥ 4)
  p.runInstr t { legal := cvtLegal st dt form rb && decide (rmf ≠ 5) && decide (rmf ≠ 6)
                   && (!rounds || (th0.rmode rmf).isSome), cost := 4 } (fun q =>
    .retire (q.modThread t (fun th =>
      let rm := (th.rmode rmf).getD 0
      let cv (a : Nat) : Nat × FpFlags := cvtElem st dt rm th.fz a
      match form with
      | 0 =>
        let v := th.vr ra
        let n := 64 / max ss ds
        let src (j : Nat) : Nat := if ds > ss ∧ h then lane v ss (j + n) else lane v ss j
        let g := (List.range n).foldl (fun g j => g ||| (cv (src j)).2) 0
        let body := (List.range n).foldl (fun a j => a + (cv (src j)).1 * 2 ^ (8 * ds * j)) 0
        let r : Nat := if ss > ds then (if h then body * 2 ^ 256 + (th.vr rd).toNat % 2 ^ 256 else body) else body
        (th.setV rd (BitVec.ofNat 512 r)).addFlags g
      | 1 =>
        let (r, g) := cv (lane (th.vr ra) ss 0)
        (th.setV rd (BitVec.ofNat 512 r)).addFlags g
      | 2 =>
        let (r, g) := cv ((th.gr ra).toNat % 2 ^ (8 * ss))
        (th.setV rd (BitVec.ofNat 512 r)).addFlags g
      | _ =>
        let (r, g) := cv (lane (th.vr ra) ss 0)
        (th.setG rd (sextN (8 * ds) r)).addFlags g)))

/-! ### VPERM (R118) -/

/-- An integer reduction and its identity. -/
def vredOp (op n : Nat) (a b : Nat) : Nat :=
  match op with
  | 5 => (a + b) % 2 ^ n
  | 6 => (vintOp 9 n a b).getD 0
  | 7 => (vintOp 10 n a b).getD 0
  | 8 => min a b
  | _ => max a b
def vredId (op n : Nat) : Nat :=
  match op with
  | 5 => 0 | 6 => 2 ^ (n - 1) - 1 | 7 => 2 ^ (n - 1) | 8 => 2 ^ n - 1 | _ => 0

def vpermCost (op sz : Nat) : Nat :=
  if 5 ≤ op ∧ op ≤ 9 then 1 + (6 - sz)
  else match op with
    | 0 => 1 | 12 => 1 | 10 => 2 | 11 => 2 | _ => 3

def Part.iVperm (t : Nat) (rd ra rb : BitVec 5) (fn : BitVec 11) (p : Part) : Part :=
  let op := fn.toNat % 32
  let sz := fn.toNat / 32 % 4
  let b := 2 ^ sz
  let n := 8 * b
  let lanes := 64 / b
  let mk : BitVec 3 := BitVec.ofNat 3 (fn.toNat / 128)
  let z := fn.getLsbD 10
  let plain := decide (mk = 0) && !z
  let ok := match op with
    | 0 => decide (rb = 0)
    | 1 => plain | 2 => plain
    | 3 => true
    | 4 => !z
    | 10 => plain && decide (rb = 0)
    | 11 => plain && decide (rb = 0)
    | 12 => decide (rb = 0)
    | _ => decide (5 ≤ op) && decide (op ≤ 9) && !z
  p.runInstr t { legal := ok, cost := vpermCost op sz } (fun q =>
    .retire (q.modThread t (fun th =>
      let a := th.vr ra
      let m := th.mr mk
      let low := (th.gr ra).toNat % 2 ^ n
      match op with
      | 0 => th.setV rd (maskLanes b m z (th.vr rd) (fun _ => low))
      | 1 =>
        let i := (th.gr rb).toNat % lanes
        th.setV rd (mkVec b (fun j => if j = i then low else lane (th.vr rd) b j))
      | 2 => th.setG rd (sextN n (lane a b ((th.gr rb).toNat % lanes)))
      | 3 => th.setV rd (maskLanes b m z (th.vr rd) (fun j => lane a b (lane (th.vr rb) b j % lanes)))
      | 4 =>
        let l := ((List.range lanes).filter (selects m b)).map (lane a b)
        th.setV rd (mkVec b (fun j => l.getD j 0))
      | 10 => th.setG rd (sextN n (lane a b 0))
      | 11 => th.setV rd (BitVec.ofNat 512 low)
      | 12 => th.setV rd (maskLanes b m z (th.vr rd) (lane a b))
      | _ =>
        let r := ((List.range lanes).filter (selects m b)).foldl (fun x j => vredOp op n x (lane a b j)) (vredId op n)
        th.setV rd (BitVec.ofNat 512 r))))

/-! ### Compares and masks (R119 to R121) -/

/-- The condition of one element of type `et`, with its flags; `none` for a reserved code. -/
def elemCond (et cc : Nat) (fz : Bool) (a b : Nat) : Option (Bool × FpFlags) :=
  if et ≥ 4 then (fpFmt (et - 4)).fcmp fz cc a b
  else
    let n := 8 * etSize et
    (cmpCond (BitVec.ofNat 4 cc) (BitVec.ofNat n a) (BitVec.ofNat n b)).map (fun x => (x, 0))

/-- VCMP: `cd` names the mask register, `z` is bits [2:0] of the word (R119). -/
def Part.iVcmp (t : Nat) (cd : BitVec 3) (cc : BitVec 4) (va vb : BitVec 5) (et mk z : BitVec 3) (p : Part) : Part :=
  let b := etSize et.toNat
  p.runInstr t { legal := decide (z = 0) && (elemCond et.toNat cc.toNat false 0 0).isSome, cost := 2 } (fun q =>
    .retire (q.modThread t (fun th =>
      let m := th.mr mk
      let el (j : Nat) : Bool × FpFlags :=
        (elemCond et.toNat cc.toNat th.fz (lane (th.vr va) b j) (lane (th.vr vb) b j)).getD (false, 0)
      let v := (List.range (64 / b)).foldl (fun a j =>
        (a &&& ~~~ dw (2 ^ (b * j))) ||| (if selects m b j && (el j).1 then dw (2 ^ (b * j)) else 0))
        (th.mr cd)
      (th.setM cd v).addFlags (fpLanes b m (fun j => (0, (el j).2))))))

/-- FCMP: `z` is bits [6:0] (R120). -/
def Part.iFcmp (t : Nat) (cd : BitVec 3) (cc : BitVec 4) (va vb : BitVec 5) (ft : BitVec 2) (z : BitVec 7) (p : Part) : Part :=
  let f := fpFmt ft.toNat
  p.runInstr t { legal := decide (z = 0) && (f.fcmp false cc.toNat 0 0).isSome, cost := 3 } (fun q =>
    .retire (q.modThread t (fun th =>
      let (r, g) := (f.fcmp th.fz cc.toNat (lane (th.vr va) (f.w / 8) 0) (lane (th.vr vb) (f.w / 8) 0)).getD (false, 0)
      (th.setC cd r).addFlags g)))

/-- The elements of size 2^sz that a mask selects. -/
def maskElems (m : Dword) (b : Nat) : List Nat := (List.range (64 / b)).filter (selects m b)

/-- MOP (R121): fn is op, sz, zero. m and c registers named in 5-bit fields have bits [4:3] zero (R112). -/
def Part.iMop (t : Nat) (rd ra rb : BitVec 5) (fn : BitVec 11) (p : Part) : Part :=
  let op := fn.toNat % 16
  let sz := fn.toNat / 16 % 4
  let b := 2 ^ sz
  let small (r : BitVec 5) : Bool := decide (r.toNat < 8)
  let lo (r : BitVec 5) : BitVec 3 := r.setWidth 3
  let ok := decide (fn.toNat / 64 = 0) && (decide (op ≥ 10) || decide (sz = 0)) && (match op with
    | 8 => small rd && decide (rb = 0)
    | 9 => small ra && decide (rb = 0)
    | 10 => small ra && decide (rb = 0)
    | 11 => small ra && decide (rb = 0)
    | 12 => small ra && small rd && decide (rb = 0)
    | 13 => small ra && small rd && decide (rb = 0)
    | _ => decide (op ≤ 7) && small rd && small ra && small rb)
  p.runInstr t { legal := ok, cost := if 9 ≤ op ∧ op ≤ 11 then 2 else 1 } (fun q =>
    .retire (q.modThread t (fun th =>
      let m := th.mr (lo ra)
      match op with
      | 8 => th.setM (lo rd) (th.gr ra)
      | 9 => th.setG rd m
      | 10 => th.setG rd (dw (maskElems m b).length)
      | 11 => th.setG rd (dw ((maskElems m b).headD (64 / b)))
      | 12 => th.setC (lo rd) (decide ((maskElems m b).length > 0))
      | 13 => th.setC (lo rd) (decide ((maskElems m b).length = 64 / b))
      | _ => th.setM (lo rd) (maskFun op m (th.mr (lo rb))))))

end Sys2Proof.Machine
end

