-- ==== Sys2Proof/Machine/Vmem.lean ====
section
/-!
DEFINITION. Vector memory access: VLD, VST and VMEM (R122 to R128).
-/
namespace Sys2Proof.Machine

/-- A vector access: the selected elements in ascending order with their addresses. -/
structure VAcc where
  /-- element size in bytes -/
  b : Nat
  /-- address of element 0 of a unit-stride access -/
  start : Dword
  unit : Bool
  ff : Bool
  elems : List (Nat × Dword)

/-- The access may touch device memory (R126). -/
def VAcc.devOk (a : VAcc) : Bool := a.unit && !a.ff && decide (a.start.toNat % 64 = 0)

/-- Address that VECTOR_FAULT reports for an element (R126). DESIGN CHOICE (notes/assumptions/80.md): the element's address
also where only its upper page is device memory, for which R125 would give the first byte in that page. -/
def VAcc.faultAddr (a : VAcc) (e : Dword) : Dword := if a.unit ∧ a.start.toNat % 64 ≠ 0 then a.start else e

/-- Check the elements of a list in ascending order (R125): their parts, or the first cause. -/
inductive VChk where
  | ok (p : Part) (l : List (Nat × Dword × List Seg))
  | exc (p : Part) (k : Nat) (cause : Nat) (addr : Dword) (gf : Option GFault)
  | wait (p : Part)

/-- The order of R144, rank 10, among the causes of one element. -/
def accessRank (cause : Nat) : Nat :=
  [cPageAbsent, cLoadPerm, cStorePerm, cAccessFlag, cDirtyFlag, cVectorFault].findIdx (· = cause)

/-- The cause that decides for an element, and the offset of its lowest part that fails (R125). -/
def worseCause (w : Option (Nat × Nat × Option GFault)) (cause off : Nat) (g : Option GFault) : Option (Nat × Nat × Option GFault) :=
  match w with
  | none => some (cause, off, g)
  | some (c, o, h) => if accessRank cause < accessRank c then some (cause, o, g) else some (c, o, h)

/-- Check every part of the element at `e` (R125): `bad` says that device memory is a VECTOR_FAULT. -/
def Part.elemCheck (p : Part) (t : Nat) (ak : AccKind) (e : Dword) (bad : Bool) :
    List (Nat × Nat) → List Seg → Option (Nat × Nat × Option GFault) → Chk
  | [], acc, none => .ok p acc
  | [], _, some (c, off, g) => .exc p c (e + dw off) g
  | (off, len) :: r, acc, w =>
    match p.translate t ak (e + dw off) with
    | .wait q => .wait q
    | .fault q cause g _ => q.elemCheck t ak e bad r acc (worseCause w cause off g)
    | .ok q pa ty _ =>
      if ty = .device ∧ bad then q.elemCheck t ak e bad r acc (worseCause w cVectorFault off none)
      else q.elemCheck t ak e bad r (acc ++ [⟨off, len, pa, ty⟩]) w

def Part.vcheck (p : Part) (t : Nat) (ak : AccKind) (a : VAcc) :
    List (Nat × Dword) → List (Nat × Dword × List Seg) → VChk
  | [], acc => .ok p acc
  | (j, e) :: r, acc =>
    match p.elemCheck t ak e (!a.devOk) (segments e.toNat a.b) [] none with
    | .wait q => .wait q
    | .exc q c x g => .exc q j c (if c = cVectorFault then a.faultAddr e else x) g
    | .ok q l => q.vcheck t ak a r (acc ++ [(j, e, l)])

/-- Read elements in ascending order: their values, or the first poisoned one. -/
inductive VRd where
  | ok (p : Part) (l : List (Nat × Nat))
  | poison (p : Part) (k : Nat) (addr : Dword)
  | wait (p : Part)

def Part.vread (p : Part) (t : Nat) : List (Nat × Dword × List Seg) → List (Nat × Nat) → VRd
  | [], acc => .ok p acc
  | (j, e, l) :: r, acc =>
    match p.readSegs t e 0 l 0 with
    | .wait q => .wait q
    | .exc q _ _ _ => .poison q j e
    | .ok q v => q.vread t r (acc ++ [(j, v)])

/-- The parts of a whole access lie in device memory, and it is one request of 64 bytes (R126). -/
def wholeDevice (l : List (Nat × Dword × List Seg)) : Option Nat :=
  match l with
  | (_, _, s :: _) :: _ => if s.ty = .device then some (s.pa / 64 * 64) else none
  | _ => none

/-- The lines that elements lie in. -/
def elemLines (l : List (Nat × Dword × List Seg)) : List Nat :=
  ((l.map (fun x => x.2.2.map (fun s => s.pa / 64))).flatten).eraseDups

/-- Charge a Plumb core for elements (R182): each line that is not among `seen` of a unit-stride access, else each
element. -/
def Part.vcharge (p : Part) (t : Nat) (a : VAcc) (seen : List Nat) (l : List (Nat × Dword × List Seg)) : Part :=
  p.charge (t / 2) (if a.unit then ((elemLines l).filter (fun x => !seen.contains x)).length else l.length)

/-- The values that a load brings (R125, R126). -/
def Part.vloadAll (p : Part) (t : Nat) (a : VAcc) : VRd ⊕ (Part × Nat × Dword × Option GFault) :=
  match p.vcheck t .load a a.elems [] with
  | .wait q => .inl (.wait q)
  | .exc q _ c x g => .inr (q, c, x, g)
  | .ok q l =>
    match wholeDevice l with
    | some pa =>
      -- one request of 64 bytes; the data of the selected elements decides (R125)
      match (q.charge (t / 2) 1).segLine t ⟨0, 64, pa, .device⟩ 0 with
      | .wait r => .inl (.wait r)
      | .unassigned r => .inr (r, cDataPoison, (a.elems.headD (0, a.start)).2, none)
      | .done r l =>
        match a.elems.find? (fun e => l.poisoned (a.b * e.1) a.b) with
        | some e => .inr (r, cDataPoison, e.2, none)
        | none => .inl (.ok r (a.elems.map (fun e => (e.1, l.bytes (a.b * e.1) a.b))))
    | none =>
      match (q.vcharge t a [] l).vread t l [] with
      | .poison r _ e => .inr (r, cDataPoison, e, none)
      | r => .inl r

/-- The first element, in ascending order, that has any cause, poison included, for a fault-first load
(R127), with the elements read before it. -/
def Part.vloadFF (p : Part) (t : Nat) (a : VAcc) : List (Nat × Dword) → List Nat → List (Nat × Nat) → VRd × Option Nat
  | [], _, acc => (.ok p acc, none)
  | (j, e) :: r, seen, acc =>
    match p.vcheck t .load a [(j, e)] [] with
    | .wait q => (.wait q, none)
    | .exc _ _ _ _ _ => (.ok p acc, some j)
    | .ok q l =>
      match (q.vcharge t a seen l).vread t l [] with
      | .wait q => (.wait q, none)
      | .poison _ _ _ => (.ok p acc, some j)
      | .ok q v => q.vloadFF t a r (seen ++ elemLines l) (acc ++ v)

/-- Write loaded elements into vd (R105, R122). -/
def putElems (b : Nat) (zero : Bool) (old : Vec) (l : List (Nat × Nat)) : Vec :=
  mkVec b (fun j => match l.find? (fun e => e.1 = j) with
    | some e => e.2
    | none => if zero then 0 else lane old b j)

/-- A vector load (R122 to R127). -/
def Part.vload (q : Part) (t : Nat) (rd : BitVec 5) (a : VAcc) (zero : Bool) (mk : BitVec 3) : Res :=
  let fin (r : Part) (l : List (Nat × Nat)) : Res :=
    .retire (r.modThread t (fun th => th.setV rd (putElems a.b zero (th.vr rd) l)))
  match a.elems with
  | [] => fin q []
  | first :: _ =>
    let plain : Res :=
      match q.vloadAll t a with
      | .inr (r, c, x, g) => .exc r c x g false
      | .inl (.wait r) => .wait r
      | .inl (.poison r _ e) => .exc r cDataPoison e none false
      | .inl (.ok r l) => fin r l
    if ¬ a.ff then plain
    else
      match q.vloadFF t a a.elems [] [] with
      | (.wait r, _) => .wait r
      | (.poison r _ e, _) => .exc r cDataPoison e none false
      | (.ok r l, none) => fin r l
      | (.ok r l, some k) =>
        if k = first.1 then plain
        else
          let r := r.modThread t (fun th =>
            th.setM mk ((List.range (64 / a.b)).foldl (fun m j =>
              if j ≥ k then m &&& ~~~ dw (2 ^ (a.b * j)) else m) (th.mr mk)))
          fin r l

/-- The writes of a store's elements in ascending order: a later element's bytes replace an earlier one's (R128). -/
def Part.elemEnts (p : Part) (t : Nat) (b : Nat) (v : Vec) : List (Nat × Dword × List Seg) → List MbEnt → Part × List MbEnt
  | [], acc => (p, acc)
  | (j, _, l) :: r, acc =>
    let (q, w) := p.segEnts t (lane v b j) (BitVec.allOnes 64) l acc
    q.elemEnts t b v r w

/-- A vector store (R122 to R126, R128): its bytes leave together, once every check has passed. -/
def Part.vstore (q : Part) (t : Nat) (rd : BitVec 5) (a : VAcc) : Res :=
  if a.elems.isEmpty then .retire q
  else
    match q.storing t (fun q =>
      match q.vcheck t .store a a.elems [] with
      | .wait r => .wait r
      | .exc r _ c x g => .exc r c x g
      | .ok r l =>
        let v := (r.thread t).vr rd
        let (r, w) := match wholeDevice l with
          | some pa =>
            let m := a.elems.foldl (fun (m : Dword) (e : Nat × Dword) => m ||| byteMask (a.b * e.1) a.b) 0
            (r.charge (t / 2) 1).segEnts t v.toNat m [⟨0, 64, pa, .device⟩] []
          | none => (r.vcharge t a [] l).elemEnts t a.b v l []
        r.storeOut t w) with
    | .ok r _ => .retire r
    | .exc r c x g => .exc r c x g false
    | .wait r => .wait r

/-- The selected elements of an access (R105). -/
def vElems (m : Dword) (b : Nat) (addr : Nat → Dword) : List (Nat × Dword) :=
  (maskElems m b).map (fun j => (j, addr j))

/-- VLD and VST: imm16 is disp11, sz, mk (R122). -/
def Thr.vldAcc (th : Thr) (ra : BitVec 5) (imm : BitVec 16) : VAcc :=
  let b := 2 ^ (imm.toNat / 8 % 4)
  let start := th.gr ra + (sextN 11 (imm.toNat / 32) <<< (6 : Nat))
  ⟨b, start, true, false, vElems (th.mr (imm.setWidth 3)) b (fun j => start + dw (b * j))⟩

/-- VLD (R122). With no element selected it has no effect: DESIGN CHOICE (notes/assumptions/81.md), R124 taken over R122's
zeros for the elements not selected. -/
def Part.iVld (t : Nat) (rd ra : BitVec 5) (imm : BitVec 16) (p : Part) : Part :=
  p.runInstr t {} (fun q =>
    let a := (q.thread t).vldAcc ra imm
    if a.elems.isEmpty then .retire q else q.vload t rd a true 0)
def Part.iVst (t : Nat) (rd ra : BitVec 5) (imm : BitVec 16) (p : Part) : Part :=
  p.runInstr t {} (fun q => q.vstore t rd ((q.thread t).vldAcc ra imm))

/-- The access of a VMEM (R123): fn is mode, ST, sz, FF, zero, mk, Z. -/
def Thr.vmemAcc (th : Thr) (ra rb : BitVec 5) (fn : BitVec 11) : VAcc :=
  let mode := fn.toNat % 4
  let b := 2 ^ (fn.toNat / 8 % 4)
  let m := th.mr (BitVec.ofNat 3 (fn.toNat / 128))
  let base := th.gr ra
  let start := if mode = 0 then base + th.gr rb else base
  ⟨b, start, mode = 0, fn.getLsbD 5, vElems m b (fun j =>
    match mode with
    | 0 => start + dw (b * j)
    | 1 => base + dw j * th.gr rb
    | _ => base + sextN (8 * b) (lane (th.vr rb) b j))⟩

def vmemLegal (fn : BitVec 11) : Bool :=
  let st := fn.getLsbD 2
  let ff := fn.getLsbD 5
  decide (fn.toNat % 4 ≠ 3) && !fn.getLsbD 6 && !(st && (fn.getLsbD 10 || ff))
    && !(ff && decide (fn.toNat / 128 % 8 = 0))

def Part.iVmem (t : Nat) (rd ra rb : BitVec 5) (fn : BitVec 11) (p : Part) : Part :=
  p.runInstr t { legal := vmemLegal fn } (fun q =>
    let a := (q.thread t).vmemAcc ra rb fn
    if fn.getLsbD 2 then q.vstore t rd a else q.vload t rd a (fn.getLsbD 10) (BitVec.ofNat 3 (fn.toNat / 128)))

end Sys2Proof.Machine
end

