-- ==== Sys2Proof/Machine/Run.lean ====
section
/-!
DEFINITION. How a command acts on the state.
-/
namespace Sys2Proof.Machine

/-- A command with effect `f` on the part; what follows every command (R308, R309) comes after it. The queue is as the
step left it. -/
def State.run (s : State) (f : Part → Part) : Host.Outcome State Fault Refusal :=
  .next { s with part := (f s.part).settle }

end Sys2Proof.Machine
end

