-- ==== Sys2Proof/Machine/DoCore.lean ====
section
/-!
DEFINITION. The meanings of the commands of one part of the table: core, translation-unit and cache commands. Each is one call of
an operation of the part.
-/
namespace Sys2Proof.Machine

/-- RESEED_F (R170): replaces the F-level branch target secret and invalidates F entries. -/
def execReseedF (c : CoreId) (m : Master) (s : State) : Host.Outcome State Fault Refusal :=
  s.run (Part.reseedF c.val m)
/-- RESEED_H (R170): replaces the H-level branch target secret and invalidates H entries. -/
def execReseedH (c : CoreId) (m : Master) (s : State) : Host.Outcome State Fault Refusal :=
  s.run (Part.reseedH c.val m)
/-- BTB_FLUSH (R170): invalidates every branch target buffer and return-address stack entry. -/
def execBtbFlush (c : CoreId) (m : Master) (s : State) : Host.Outcome State Fault Refusal :=
  s.run (Part.btbFlushWrite c.val m)
/-- CORE_CFG_WRITE (R185): A buffered write to CORE_CFG is held until the next context-synchronising event. -/
def execCoreCfgWrite (c : CoreId) (v : BitVec 32) (m : Master) (s : State) : Host.Outcome State Fault Refusal :=
  s.run (Part.coreCfgWrite c.val v m)
/-- CORE_PLUMB_WRITE (R177): A buffered write to CORE_PLUMB is held for thread 0's next context-synchronising instruction. -/
def execCorePlumbWrite (c : CoreId) (v : BitVec 32) (m : Master) (s : State) : Host.Outcome State Fault Refusal :=
  s.run (Part.corePlumbWrite c.val v m)
/-- ATS_TRANSLATION_REQUEST (R212): A device's ATS translation request is answered or refused. -/
def execAtsTranslationRequest (n : PortId) (rid : BitVec 16) (psid : Option (BitVec 20)) (priv : Bool) (addr : Dword) (s : State) : Host.Outcome State Fault Refusal :=
  s.run (Part.atsArrive n.val rid.toNat (psid.map BitVec.toNat) priv addr.toNat)
/-- IOT_INV_ALL (R215): starts invalidation of everything in the I/O translation unit. -/
def execIotInvAll (u : Fin 2) (m : Master) (s : State) : Host.Outcome State Fault Refusal :=
  s.run (Part.iotInv 0 u.val 0 0 0 0 m)
/-- IOT_INV_DEVICE (R215): starts invalidation of a requester's device entry and ATS translations. -/
def execIotInvDevice (u : Fin 2) (rid : BitVec 16) (m : Master) (s : State) : Host.Outcome State Fault Refusal :=
  s.run (Part.iotInv 1 u.val 0 rid 0 0 m)
/-- IOT_INV_DOMAIN (R215): starts invalidation of a domain's entries. -/
def execIotInvDomain (u : Fin 2) (dom : BitVec 12) (m : Master) (s : State) : Host.Outcome State Fault Refusal :=
  s.run (Part.iotInv 2 u.val dom 0 0 0 m)
/-- IOT_INV_PSID (R215): starts invalidation of a domain's PSID entry and its IOTLB entries. -/
def execIotInvPsid (u : Fin 2) (dom : BitVec 12) (psid : BitVec 20) (m : Master) (s : State) : Host.Outcome State Fault Refusal :=
  s.run (Part.iotInv 3 u.val dom 0 psid 0 m)
/-- IOT_INV_PSID_ADDR (R215): starts invalidation of IOTLB entries for an address under a PSID. -/
def execIotInvPsidAddr (u : Fin 2) (dom : BitVec 12) (psid : BitVec 20) (addr : Dword) (m : Master) (s : State) : Host.Outcome State Fault Refusal :=
  s.run (Part.iotInv 4 u.val dom 0 psid addr m)
/-- IOT_INV_DOMAIN_ADDR (R215): starts invalidation of IOTLB entries for an address without PSID. -/
def execIotInvDomainAddr (u : Fin 2) (dom : BitVec 12) (addr : Dword) (m : Master) (s : State) : Host.Outcome State Fault Refusal :=
  s.run (Part.iotInv 5 u.val dom 0 0 addr m)
/-- IOT_INV_COMPLETE (R215): an invalidation completes once entries, requests and ATS completions are done, clearing BUSY and setting DONE. -/
def execIotInvComplete (u : Fin 2) (s : State) : Host.Outcome State Fault Refusal :=
  s.run (Part.iotInvComplete u.val)
/-- ATS_INVALIDATION_COMPLETION (R215): A requester returns its ATS Invalidation Completion. -/
def execAtsInvalidationCompletion (u : Fin 2) (rid : BitVec 16) (s : State) : Host.Outcome State Fault Refusal :=
  s.run (Part.atsCompletion u.val rid.toNat)
/-- ATS_TIMEOUT (R215): IOT_ATSTMO expires for a requester, revoking its ATS use. -/
def execAtsTimeout (u : Fin 2) (rid : BitVec 16) (s : State) : Host.Outcome State Fault Refusal :=
  s.run (Part.atsTimeout u.val rid.toNat)
/-- MERGE_DRAIN (R223): A merging-buffer entry drains into the L2 or as an uncached write. -/
def execMergeDrain (c : CoreId) (idx : Nat) (s : State) : Host.Outcome State Fault Refusal :=
  s.run (Part.mergeDrain c.val idx)
/-- HW_PREFETCH (R243): A hardware prefetcher issues a prefetch of a line using existing translations. -/
def execHwPrefetch (t : ThreadId) (va : Dword) (toL2 : Bool) (s : State) : Host.Outcome State Fault Refusal :=
  s.run (Part.hwPrefetch t.val va toL2)
/-- LLC_WAYPWR_WRITE (R238): A change of LLC_WAYPWR.ON starts cleaning or waking a way group. -/
def execLlcWaypwrWrite (k : SliceId) (on : BitVec 4) (m : Master) (s : State) : Host.Outcome State Fault Refusal :=
  s.run (Part.llcWaypwrWrite k.val on m)
/-- WAY_GROUP_CLEANED (R238): A way group finishes cleaning and is switched off. -/
def execWayGroupCleaned (k : SliceId) (g : Fin 4) (s : State) : Host.Outcome State Fault Refusal :=
  s.run (Part.wayGroupCleaned k.val g.val)
/-- WAY_GROUP_WOKEN (R239): A waking way group is powered and becomes allocatable. -/
def execWayGroupWoken (k : SliceId) (g : Fin 4) (s : State) : Host.Outcome State Fault Refusal :=
  s.run (Part.wayGroupWoken k.val g.val)
/-- LLC_MAINT_CLEAN (R242): starts a slice sweep that writes back modified lines. -/
def execLlcMaintClean (k : SliceId) (groups : BitVec 4) (m : Master) (s : State) : Host.Outcome State Fault Refusal :=
  s.run (Part.llcMaintWrite 0 k.val groups m)
/-- LLC_MAINT_FLUSH (R242): starts a slice sweep that writes back and invalidates lines. -/
def execLlcMaintFlush (k : SliceId) (groups : BitVec 4) (m : Master) (s : State) : Host.Outcome State Fault Refusal :=
  s.run (Part.llcMaintWrite 1 k.val groups m)
/-- LLC_SWEEP_DONE (R242): A slice sweep completes, clearing BUSY and setting DONE. -/
def execLlcSweepDone (k : SliceId) (s : State) : Host.Outcome State Fault Refusal :=
  s.run (Part.llcSweepDone k.val)

end Sys2Proof.Machine
end

