-- ==== Sys2Proof/Machine/DoDvt.lean ====
section
/-!
DEFINITION. The meanings of the commands of one part of the table: Dovetail. Each is one call of
an operation of the part.
-/
namespace Sys2Proof.Machine

/-- ENUM_START (R345): the master takes ID 0 and sends the first assign frame 100 µs after RSTIN_N rises. -/
def execEnumStart (s : State) : Host.Outcome State Fault Refusal :=
  s.run (Part.enumStart)
/-- ENUM_ASSIGN (R345): an assign frame arrives; a part takes its ID and forwards, or the master learns the count and commits. -/
def execEnumAssign (frame : BitVec 28) (s : State) : Host.Outcome State Fault Refusal :=
  s.run (Part.enumAssign frame)
/-- ENUM_COMMIT (R345): A commit frame arrives and is recorded and forwarded, or completes enumeration at the master. -/
def execEnumCommit (frame : BitVec 28) (s : State) : Host.Outcome State Fault Refusal :=
  s.run (Part.enumCommit frame)
/-- ENUM_TIMEOUT (R346): no frame arrives within 10 ms and enumeration fails. -/
def execEnumTimeout (s : State) : Host.Outcome State Fault Refusal :=
  s.run (Part.enumTimeout)
/-- RECEIVER_DETECT (R350): A Dovetail link detects a receiver and starts training. -/
def execReceiverDetect (d : Fin 4) (s : State) : Host.Outcome State Fault Refusal :=
  s.run (Part.receiverDetect d.val)
/-- LINK_TRAINED (R350): dovetail lanes lock at a chosen width and the link enters CHECK. -/
def execLinkTrained (d : Fin 4) (own partner : BitVec 12) (s : State) : Host.Outcome State Fault Refusal :=
  s.run (Part.linkTrained d.val own partner)
/-- LINK_CHECK (R349): the partner's identity arrives and the link becomes ACTIVE or HELD. -/
def execLinkCheck (d : Fin 4) (id link cnt tag : Nat) (last : CheckEnd) (s : State) : Host.Outcome State Fault Refusal :=
  s.run (Part.linkCheck d.val id link cnt tag last.last.toNat last.rtt)
/-- LINK_TRAIN_TIMEOUT (R350): 2 ms in DETECT or TRAIN without progress disables or fails the link. -/
def execLinkTrainTimeout (d : Fin 4) (s : State) : Host.Outcome State Fault Refusal :=
  s.run (Part.linkTrainTimeout d.val)
/-- RETRAIN_LOCK (R350): A retraining link locks within 8 µs and returns to CHECK. -/
def execRetrainLock (d : Fin 4) (own partner : BitVec 12) (s : State) : Host.Outcome State Fault Refusal :=
  s.run (Part.retrainLock d.val own partner)
/-- RETRAIN_FAIL (R350): A second retrain attempt fails and the link enters FAILED. -/
def execRetrainFail (d : Fin 4) (s : State) : Host.Outcome State Fault Refusal :=
  s.run (Part.retrainFail d.val)
/-- DVT_CTL_RETRAIN (R356): software requests a retrain, or a new training from HELD or FAILED. -/
def execDvtCtlRetrain (d : Fin 4) (m : Master) (s : State) : Host.Outcome State Fault Refusal :=
  s.run (Part.dvtCtlRetrain d.val m)
/-- DVT_CTL_EN_WRITE (R350): A write to DVT_CTL.EN enables or disables the link. -/
def execDvtCtlEnWrite (d : Fin 4) (en : Bool) (m : Master) (s : State) : Host.Outcome State Fault Refusal :=
  s.run (Part.dvtCtlEn d.val en m)
/-- PROPOSE (R359): A retrain or width proposal arrives and is followed or withdrawn by socket ID. -/
def execPropose (d : Fin 4) (id : BitVec 4) (width group : BitVec 2) (s : State) : Host.Outcome State Fault Refusal :=
  s.run (Part.propose d.val id.toNat width.toNat group.toNat)
/-- DVT_FLIT (R354): A Dovetail flit arrives and is accepted or discarded, with ACK processing. -/
def execDvtFlit (d : Fin 4) (f : RxFlit) (s : State) : Host.Outcome State Fault Refusal :=
  s.run (Part.dvtFlit d.val f)
/-- NAK (R354): A NAK arrives and the sender resends every flit after the ACK. -/
def execNak (d : Fin 4) (ack : BitVec 12) (s : State) : Host.Outcome State Fault Refusal :=
  s.run (Part.dvtNak d.val ack.toNat)
/-- LINK_STATE_MESSAGE (R361): A link-state message updates the link map and is forwarded. -/
def execLinkStateMessage (d : Fin 4) (skt up : BitVec 4) (weight : Nat) (sum : BitVec 32) (s : State) : Host.Outcome State Fault Refusal :=
  s.run (Part.linkStateMessage d.val skt.toNat up.toNat weight sum.toNat)
/-- ISOLATION_HOLD (R367): 1 ms after isolation, Easel holds every core of the socket in reset. -/
def execIsolationHold (s : State) : Host.Outcome State Fault Refusal :=
  s.run (Part.isolationHold)
/-- DRAIN (R362): A DRAIN marker arrives at the destination, which answers DRAINACK. -/
def execDrain (e : Ends) (cls : Fin 3) (s : State) : Host.Outcome State Fault Refusal :=
  s.run (Part.drainMarker e.src.toNat e.dst.toNat cls.val)
/-- DRAINACK (R362): A DRAINACK arrives; once all arrive the new route is used. -/
def execDrainack (e : Ends) (cls : Fin 3) (s : State) : Host.Outcome State Fault Refusal :=
  s.run (Part.drainAck e.src.toNat e.dst.toNat cls.val)
/-- REINJECTED_MESSAGE (R364): A re-injected message arrives and is discarded as a duplicate or accepted. -/
def execReinjectedMessage (d : Detour) (seq : BitVec 12) (q : Msg) (s : State) : Host.Outcome State Fault Refusal :=
  s.run (Part.reinjected d.src.toNat d.dst.toNat d.link.val seq.toNat q)
/-- REINJEND (R364): A REINJEND marker arrives; after all classes, re-injection is done. -/
def execReinjend (d : Detour) (cls : Fin 3) (s : State) : Host.Outcome State Fault Refusal :=
  s.run (Part.reinjEnd d.src.toNat d.dst.toNat d.link.val cls.val)
/-- TIME_BROADCAST (R369): every 1,024 epoch ticks the master sends time messages with power shares. -/
def execTimeBroadcast (s : State) : Host.Outcome State Fault Refusal :=
  s.run (Part.timeBroadcast)
/-- TIME_MESSAGE (R369): A time message steps or slews TIME, carries the power share and is forwarded. -/
def execTimeMessage (d : Fin 4) (ref : Dword) (shares : List Nat) (s : State) : Host.Outcome State Fault Refusal :=
  s.run (Part.timeMessage d.val ref.toNat shares)
/-- TIMEOUT_REPORT (R368): A timeout report from another socket's home reaches Easel, which acts on the named agent. -/
def execTimeoutReport (e : Ends) (line : BitVec 46) (tile : TileId) (init : BitVec 4) (s : State) : Host.Outcome State Fault Refusal :=
  s.run (Part.timeoutReport e.src.toNat e.dst.toNat line.toNat tile.val init.toNat)
/-- ILV_MISMATCH (R372): A socket's MC_ILVSUM differs from the master's for 1 ms and is flagged. -/
def execIlvMismatch (skt : BitVec 4) (s : State) : Host.Outcome State Fault Refusal :=
  s.run (Part.ilvMismatch skt.toNat)

end Sys2Proof.Machine
end

