-- ==== Sys2Proof/Machine/DoFabric.lean ====
section
/-!
DEFINITION. The meanings of the commands of one part of the table: fabric events and the messages of the coherence protocol. Each is one call of
an operation of the part.
-/
namespace Sys2Proof.Machine

/-- EPOCH_TICK (R263): the epoch tick starts a Stencil frame in every router and advances FAB_EPOCH. -/
def execEpochTick (s : State) : Host.Outcome State Fault Refusal :=
  s.run (Part.epochTick)
/-- TICK_LOST (R270): A router sees no tick for 512 router cycles and free-runs its slots. -/
def execTickLost (tile : TileId) (s : State) : Host.Outcome State Fault Refusal :=
  s.run (Part.tickLost tile.val)
/-- TORUS_CRC_ERROR (R253): A flit fails its link CRC, the receiver requests a replay from that flit. -/
def execTorusCrcError (tile : TileId) (port : Fin 4) (times : Nat) (s : State) : Host.Outcome State Fault Refusal :=
  s.run (Part.torusCrcError tile.val port.val times)
/-- FAB_STAT_CLEAR (R280): FAB_STATSTAT.CLR clears every counter and statistic of the page. -/
def execFabStatClear (tile : TileId) (freeze : Bool) (m : Master) (s : State) : Host.Outcome State Fault Refusal :=
  s.run (Part.fabStatClr tile.val freeze m)
/-- RDS (R289): A read for sharing arrives at the home. -/
def execRds (q : Msg) (s : State) : Host.Outcome State Fault Refusal :=
  s.run (Part.onArrival { q with opc := .rds } (Part.homeRequest { q with opc := .rds }))
/-- RDO (R289): A read with ownership arrives at the home. -/
def execRdo (q : Msg) (s : State) : Host.Outcome State Fault Refusal :=
  s.run (Part.onArrival { q with opc := .rdo } (Part.homeRequest { q with opc := .rdo }))
/-- UPG (R291): an upgrade of an S copy arrives at the home. -/
def execUpg (q : Msg) (s : State) : Host.Outcome State Fault Refusal :=
  s.run (Part.onArrival { q with opc := .upg } (Part.homeRequest { q with opc := .upg }))
/-- OWN (R289): A request for ownership without data arrives at the home. -/
def execOwn (q : Msg) (s : State) : Host.Outcome State Fault Refusal :=
  s.run (Part.onArrival { q with opc := .own } (Part.homeRequest { q with opc := .own }))
/-- RDNA (R293): A non-allocating read arrives at the home. -/
def execRdna (q : Msg) (s : State) : Host.Outcome State Fault Refusal :=
  s.run (Part.onArrival { q with opc := .rdna } (Part.homeRequest { q with opc := .rdna }))
/-- WRNA (R294): A non-allocating whole-line write is prepared at the home. -/
def execWrna (q : Msg) (s : State) : Host.Outcome State Fault Refusal :=
  s.run (Part.onArrival { q with opc := .wrna } (Part.homeRequest { q with opc := .wrna }))
/-- WRNAP (R294): A non-allocating masked write is prepared at the home. -/
def execWrnap (q : Msg) (s : State) : Host.Outcome State Fault Refusal :=
  s.run (Part.onArrival { q with opc := .wrnap } (Part.homeRequest { q with opc := .wrnap }))
/-- WBM (R290): an eviction of an M or O line arrives at the home. -/
def execWbm (q : Msg) (s : State) : Host.Outcome State Fault Refusal :=
  s.run (Part.onArrival { q with opc := .wbm } (Part.wbm { q with opc := .wbm }))
/-- WBC (R290): A clean eviction notice arrives at the home. -/
def execWbc (q : Msg) (s : State) : Host.Outcome State Fault Refusal :=
  s.run (Part.onArrival { q with opc := .wbc } (Part.wbc { q with opc := .wbc }))
/-- AMOF (R297): A far atomic operation is executed at the home's atomic unit. -/
def execAmof (q : Msg) (s : State) : Host.Outcome State Fault Refusal :=
  s.run (Part.onArrival { q with opc := .amof } (Part.homeRequest { q with opc := .amof }))
/-- PWT (R290): A persistent write-through arrives at the home and is forwarded by MPWT. -/
def execPwt (q : Msg) (s : State) : Host.Outcome State Fault Refusal :=
  s.run (Part.onArrival { q with opc := .pwt } (Part.pwtArrive { q with opc := .pwt }))
/-- CMOC (R289): A CMO CLEAN request arrives at the home. -/
def execCmoc (q : Msg) (s : State) : Host.Outcome State Fault Refusal :=
  s.run (Part.onArrival { q with opc := .cmoc } (Part.homeRequest { q with opc := .cmoc }))
/-- CMOF (R289): A CMO FLUSH request arrives at the home. -/
def execCmof (q : Msg) (s : State) : Host.Outcome State Fault Refusal :=
  s.run (Part.onArrival { q with opc := .cmof } (Part.homeRequest { q with opc := .cmof }))
/-- CMOI (R289): A CMO INVAL request arrives at the home. -/
def execCmoi (q : Msg) (s : State) : Host.Outcome State Fault Refusal :=
  s.run (Part.onArrival { q with opc := .cmoi } (Part.homeRequest { q with opc := .cmoi }))
/-- CMOII (R289): A CMO IINV request arrives at the home, which snoops every core tile. -/
def execCmoii (q : Msg) (s : State) : Host.Outcome State Fault Refusal :=
  s.run (Part.onArrival { q with opc := .cmoii } (Part.homeRequest { q with opc := .cmoii }))
/-- DRD (R380): A device or control-window read arrives at its target. -/
def execDrd (q : Msg) (s : State) : Host.Outcome State Fault Refusal :=
  s.run (Part.onArrival { q with opc := .drd } (Part.drd q))
/-- DWR (R380): A device or control-window write arrives at its target. -/
def execDwr (q : Msg) (s : State) : Host.Outcome State Fault Refusal :=
  s.run (Part.onArrival { q with opc := .dwr } (Part.dwr q))
/-- MRD (R324): A memory read arrives at a memory tile and the line is sent to the requester. -/
def execMrd (q : Msg) (s : State) : Host.Outcome State Fault Refusal :=
  s.run (Part.onArrival { q with opc := .mrd } (Part.mrd { q with opc := .mrd }))
/-- MWR (R324): A memory write arrives at a memory tile. -/
def execMwr (q : Msg) (s : State) : Host.Outcome State Fault Refusal :=
  s.run (Part.onArrival { q with opc := .mwr } (Part.mwr { q with opc := .mwr }))
/-- MPWT (R335): A persistent write arrives at a memory tile's persistent write buffer. -/
def execMpwt (q : Msg) (s : State) : Host.Outcome State Fault Refusal :=
  s.run (Part.onArrival { q with opc := .mpwt } (Part.mpwt { q with opc := .mpwt }))
/-- SNPS (R292): A forward-for-sharing snoop arrives at the owner. -/
def execSnps (q : Msg) (s : State) : Host.Outcome State Fault Refusal :=
  s.run (Part.onArrival { q with opc := .snps } (Part.snps { q with opc := .snps }))
/-- SNPO (R292): A forward-with-ownership snoop arrives at the owner. -/
def execSnpo (q : Msg) (s : State) : Host.Outcome State Fault Refusal :=
  s.run (Part.onArrival { q with opc := .snpo } (Part.snpo { q with opc := .snpo }))
/-- SNPI (R292): an invalidate snoop arrives at a holder. -/
def execSnpi (q : Msg) (s : State) : Host.Outcome State Fault Refusal :=
  s.run (Part.onArrival { q with opc := .snpi } (Part.snpi { q with opc := .snpi }))
/-- SNPNA (R292): A forward-to-non-allocating-reader snoop arrives at the owner. -/
def execSnpna (q : Msg) (s : State) : Host.Outcome State Fault Refusal :=
  s.run (Part.onArrival { q with opc := .snpna } (Part.snpna { q with opc := .snpna }))
/-- SNPC (R292): A clean snoop arrives at the owner. -/
def execSnpc (q : Msg) (s : State) : Host.Outcome State Fault Refusal :=
  s.run (Part.onArrival { q with opc := .snpc } (Part.snpc { q with opc := .snpc }))
/-- SNPF (R292): A flush snoop arrives at the owner. -/
def execSnpf (q : Msg) (s : State) : Host.Outcome State Fault Refusal :=
  s.run (Part.onArrival { q with opc := .snpf } (Part.snpf { q with opc := .snpf }))
/-- SNPII (R292): an instruction-invalidate snoop arrives at a core tile. -/
def execSnpii (q : Msg) (s : State) : Host.Outcome State Fault Refusal :=
  s.run (Part.onArrival { q with opc := .snpii } (Part.snpii { q with opc := .snpii }))
/-- SNPBI (R286): A back-invalidate snoop arrives at a holder. -/
def execSnpbi (q : Msg) (s : State) : Host.Outcome State Fault Refusal :=
  s.run (Part.onArrival { q with opc := .snpbi } (Part.snpbi { q with opc := .snpbi }))
/-- TINV (R206): A TLB invalidation message arrives at a target core and is acknowledged once in effect. -/
def execTinv (q : Msg) (core : CoreId) (s : State) : Host.Outcome State Fault Refusal :=
  s.run (Part.tinvRow q core.val)
/-- IPI (R158): an IPI message arrives at the target controller, which sets PEND or rejects it. -/
def execIpi (skt : BitVec 4) (t : ThreadId) (vec : BitVec 10) (level : Level) (vm : Bool) (vmid : BitVec 12) (s : State) : Host.Outcome State Fault Refusal :=
  s.run (Part.ipiArrive skt.toNat t.val vec.toNat level vm vmid)
/-- DS (R289): A line granted in S arrives at the L2. -/
def execDs (q : Msg) (s : State) : Host.Outcome State Fault Refusal :=
  s.run (Part.onArrival { q with opc := .ds } (Part.dataAt .s { q with opc := .ds }))
/-- DE (R289): A line granted in E arrives at the L2. -/
def execDe (q : Msg) (s : State) : Host.Outcome State Fault Refusal :=
  s.run (Part.onArrival { q with opc := .de } (Part.dataAt .e { q with opc := .de }))
/-- DM (R289): A line granted in M arrives at the L2. -/
def execDm (q : Msg) (s : State) : Host.Outcome State Fault Refusal :=
  s.run (Part.onArrival { q with opc := .dm } (Part.dataAt .m { q with opc := .dm }))
/-- DNA (R293): A line for a non-allocating reader arrives. -/
def execDna (q : Msg) (s : State) : Host.Outcome State Fault Refusal :=
  s.run (Part.onArrival { q with opc := .dna } (Part.dna { q with opc := .dna }))
/-- GNT (R294): ownership or a prepared write is granted to the requester. -/
def execGnt (q : Msg) (s : State) : Host.Outcome State Fault Refusal :=
  s.run (Part.onArrival { q with opc := .gnt } (Part.gnt { q with opc := .gnt }))
/-- ACKI (R289): A holder's answer that it is now I arrives at the home. -/
def execAcki (q : Msg) (s : State) : Host.Outcome State Fault Refusal :=
  s.run (Part.onArrival { q with opc := .acki } (Part.acki { q with opc := .acki }))
/-- ACKS (R289): A holder's answer that it is now S arrives at the home. -/
def execAcks (q : Msg) (s : State) : Host.Outcome State Fault Refusal :=
  s.run (Part.onArrival { q with opc := .acks } (Part.acks { q with opc := .acks }))
/-- ACKO (R289): A holder's answer that it is now O arrives at the home. -/
def execAcko (q : Msg) (s : State) : Host.Outcome State Fault Refusal :=
  s.run (Part.onArrival { q with opc := .acko } (Part.acko { q with opc := .acko }))
/-- ACKE (R289): A holder's answer that it is unchanged E or M arrives at the home. -/
def execAcke (q : Msg) (s : State) : Host.Outcome State Fault Refusal :=
  s.run (Part.onArrival { q with opc := .acke } (Part.acke { q with opc := .acke }))
/-- SDAT (R289): an owner's snoop answer carrying the line arrives at the home. -/
def execSdat (q : Msg) (s : State) : Host.Outcome State Fault Refusal :=
  s.run (Part.onArrival { q with opc := .sdat } (Part.sdat { q with opc := .sdat }))
/-- CACK (R291): A requester's acknowledgement arrives and ends the line's busy state. -/
def execCack (q : Msg) (s : State) : Host.Outcome State Fault Refusal :=
  s.run (Part.onArrival { q with opc := .cack } (Part.cack { q with opc := .cack }))
/-- CMP_RESPONSE (R287): A completion arrives at the requester. -/
def execCmpResponse (q : Msg) (s : State) : Host.Outcome State Fault Refusal :=
  s.run (Part.onArrival { q with opc := .cmp } (Part.cmpRow q))
/-- AMOR (R297): A far atomic result arrives at the core. -/
def execAmor (q : Msg) (s : State) : Host.Outcome State Fault Refusal :=
  s.run (Part.onArrival { q with opc := .amor } (Part.amor { q with opc := .amor }))
/-- PACK (R290): acceptance of a persistent write arrives at the L2. -/
def execPack (q : Msg) (s : State) : Host.Outcome State Fault Refusal :=
  s.run (Part.onArrival { q with opc := .pack } (Part.pack { q with opc := .pack }))
/-- VIS (R294): an I/O agent makes a prepared write visible at the home. -/
def execVis (q : Msg) (s : State) : Host.Outcome State Fault Refusal :=
  s.run (Part.onArrival { q with opc := .vis } (Part.vis { q with opc := .vis }))
/-- DRDR (R287): device read data arrives at the reader. -/
def execDrdr (q : Msg) (s : State) : Host.Outcome State Fault Refusal :=
  s.run (Part.onArrival { q with opc := .drdr } (Part.drdr { q with opc := .drdr }))
/-- WAIT_LIST_START (R282): the home starts the oldest waiting request of a line that is no longer busy. -/
def execWaitListStart (k : SliceId) (line : BitVec 46) (s : State) : Host.Outcome State Fault Refusal :=
  s.run (Part.waitListStart k.val line.toNat)
/-- HOME_TIMEOUT (R307): A transaction exceeds HOME_TMO and the home poisons every transaction of the line. -/
def execHomeTimeout (k : SliceId) (line : BitVec 46) (s : State) : Host.Outcome State Fault Refusal :=
  s.run (Part.homeTimeout k.val line.toNat)
/-- DEFERRAL_END (R304): the use-once deferral or timed hold of a won line ends and waiting snoops are answered. -/
def execDeferralEnd (c : CoreId) (line : BitVec 46) (s : State) : Host.Outcome State Fault Refusal :=
  s.run (Part.deferralEnd c.val line.toNat)
/-- CORE_DRAIN_TIMEOUT (R309): A core does not drain within 100 µs before reset or switch-off and the reset proceeds. -/
def execCoreDrainTimeout (c : CoreId) (s : State) : Host.Outcome State Fault Refusal :=
  s.run (Part.coreDrainTimeout c.val)

end Sys2Proof.Machine
end

