-- ==== Sys2Proof/Machine/DoInteger.lean ====
section
/-!
DEFINITION. The meanings of the commands of one part of the table: integer, control-flow and memory instructions of a thread. Each is one call of
an operation of the part.
-/
namespace Sys2Proof.Machine

/-- ALU (R69): A format A integer register operation, selected by fn, computes rd from ra and rb. -/
def execAlu (t : ThreadId) (rd ra rb : BitVec 5) (fn : BitVec 11) (s : State) : Host.Outcome State Fault Refusal :=
  s.run (Part.iAlu t.val rd ra rb fn)
/-- SEL (R71): selects g[ra] or g[rb] into rd by condition register cs, waiting for a pending compare. -/
def execSel (t : ThreadId) (rd ra rb : BitVec 5) (fn : BitVec 11) (s : State) : Host.Outcome State Fault Refusal :=
  s.run (Part.iSel t.val rd ra rb fn)
/-- ADDI (R72): adds the sign-extended immediate to g[ra]. -/
def execAddi (t : ThreadId) (rd ra : BitVec 5) (imm : BitVec 16) (s : State) : Host.Outcome State Fault Refusal :=
  s.run (Part.iAddi t.val rd ra imm)
/-- ANDI (R72): ANDs g[ra] with the sign-extended immediate. -/
def execAndi (t : ThreadId) (rd ra : BitVec 5) (imm : BitVec 16) (s : State) : Host.Outcome State Fault Refusal :=
  s.run (Part.iAndi t.val rd ra imm)
/-- ORI (R72): ORs g[ra] with the zero-extended immediate. -/
def execOri (t : ThreadId) (rd ra : BitVec 5) (imm : BitVec 16) (s : State) : Host.Outcome State Fault Refusal :=
  s.run (Part.iOri t.val rd ra imm)
/-- XORI (R72): XORs g[ra] with the zero-extended immediate. -/
def execXori (t : ThreadId) (rd ra : BitVec 5) (imm : BitVec 16) (s : State) : Host.Outcome State Fault Refusal :=
  s.run (Part.iXori t.val rd ra imm)
/-- SHI (R72): shifts or rotates g[ra] by an immediate count. -/
def execShi (t : ThreadId) (rd ra : BitVec 5) (imm : BitVec 16) (s : State) : Host.Outcome State Fault Refusal :=
  s.run (Part.iShi t.val rd ra imm)
/-- LHI (R72): loads the immediate into bits [31:16] of rd, sign-extended. -/
def execLhi (t : ThreadId) (rd ra : BitVec 5) (imm : BitVec 16) (s : State) : Host.Outcome State Fault Refusal :=
  s.run (Part.iLhi t.val rd ra imm)
/-- INSH (R72): inserts the immediate into one 16-bit field of rd. -/
def execInsh (t : ThreadId) (rd ra : BitVec 5) (imm : BitVec 16) (s : State) : Host.Outcome State Fault Refusal :=
  s.run (Part.iInsh t.val rd ra imm)
/-- ADDPC (R72): writes pc plus the immediate times 4 KB into rd. -/
def execAddpc (t : ThreadId) (rd ra : BitVec 5) (imm : BitVec 16) (s : State) : Host.Outcome State Fault Refusal :=
  s.run (Part.iAddpc t.val rd ra imm)
/-- CMP (R73): compares two g registers and writes a condition register. -/
def execCmp (t : ThreadId) (cd : BitVec 3) (cc : BitVec 4) (ra rb : BitVec 5) (low : BitVec 9) (s : State) : Host.Outcome State Fault Refusal :=
  s.run (Part.iCmp t.val cd cc ra rb low)
/-- CMPI (R73): compares a g register with a 14-bit immediate and writes a condition register. -/
def execCmpi (t : ThreadId) (cd : BitVec 3) (cc : BitVec 4) (ra : BitVec 5) (imm : BitVec 14) (s : State) : Host.Outcome State Fault Refusal :=
  s.run (Part.iCmpi t.val cd cc ra imm)
/-- CLOG (R74): combines two condition registers into a third. -/
def execClog (t : ThreadId) (cd : BitVec 3) (cc : BitVec 4) (ca cb : BitVec 3) (z1 : BitVec 2) (z2 : BitVec 11) (s : State) : Host.Outcome State Fault Refusal :=
  s.run (Part.iClog t.val cd cc ca cb z1 z2)
/-- LDB (R75): loads a sign-extended byte. -/
def execLdb (t : ThreadId) (rd ra : BitVec 5) (imm : BitVec 16) (s : State) : Host.Outcome State Fault Refusal :=
  s.run (Part.iLdb t.val rd ra imm)
/-- LDBU (R75): loads a zero-extended byte. -/
def execLdbu (t : ThreadId) (rd ra : BitVec 5) (imm : BitVec 16) (s : State) : Host.Outcome State Fault Refusal :=
  s.run (Part.iLdbu t.val rd ra imm)
/-- LDH (R75): loads a sign-extended half. -/
def execLdh (t : ThreadId) (rd ra : BitVec 5) (imm : BitVec 16) (s : State) : Host.Outcome State Fault Refusal :=
  s.run (Part.iLdh t.val rd ra imm)
/-- LDHU (R75): loads a zero-extended half. -/
def execLdhu (t : ThreadId) (rd ra : BitVec 5) (imm : BitVec 16) (s : State) : Host.Outcome State Fault Refusal :=
  s.run (Part.iLdhu t.val rd ra imm)
/-- LDW (R75): loads a sign-extended word. -/
def execLdw (t : ThreadId) (rd ra : BitVec 5) (imm : BitVec 16) (s : State) : Host.Outcome State Fault Refusal :=
  s.run (Part.iLdw t.val rd ra imm)
/-- LDWU (R75): loads a zero-extended word. -/
def execLdwu (t : ThreadId) (rd ra : BitVec 5) (imm : BitVec 16) (s : State) : Host.Outcome State Fault Refusal :=
  s.run (Part.iLdwu t.val rd ra imm)
/-- LDD (R75): loads a dword. -/
def execLdd (t : ThreadId) (rd ra : BitVec 5) (imm : BitVec 16) (s : State) : Host.Outcome State Fault Refusal :=
  s.run (Part.iLdd t.val rd ra imm)
/-- STB (R75): stores a byte. -/
def execStb (t : ThreadId) (rd ra : BitVec 5) (imm : BitVec 16) (s : State) : Host.Outcome State Fault Refusal :=
  s.run (Part.iStb t.val rd ra imm)
/-- STH (R75): stores a half. -/
def execSth (t : ThreadId) (rd ra : BitVec 5) (imm : BitVec 16) (s : State) : Host.Outcome State Fault Refusal :=
  s.run (Part.iSth t.val rd ra imm)
/-- STW (R75): stores a word. -/
def execStw (t : ThreadId) (rd ra : BitVec 5) (imm : BitVec 16) (s : State) : Host.Outcome State Fault Refusal :=
  s.run (Part.iStw t.val rd ra imm)
/-- STD (R75): stores a dword. -/
def execStd (t : ThreadId) (rd ra : BitVec 5) (imm : BitVec 16) (s : State) : Host.Outcome State Fault Refusal :=
  s.run (Part.iStd t.val rd ra imm)
/-- LD_AQ (R77): performs a naturally aligned acquire load. -/
def execLdAq (t : ThreadId) (rd ra rb : BitVec 5) (sz : BitVec 2) (zx : Bool) (z : BitVec 7) (s : State) : Host.Outcome State Fault Refusal :=
  s.run (Part.iLdAq t.val rd ra rb sz zx z)
/-- STL (R77): performs a naturally aligned release store. -/
def execStl (t : ThreadId) (rd ra rb : BitVec 5) (sz : BitVec 2) (zx : Bool) (z : BitVec 7) (s : State) : Host.Outcome State Fault Refusal :=
  s.run (Part.iStl t.val rd ra rb sz zx z)
/-- AMO (R78): performs one atomic read-modify-write operation (SWAP, CAS, ADD, AND, OR, XOR, MIN, MAX, MINU, MAXU), near or far. -/
def execAmo (t : ThreadId) (rd ra rb : BitVec 5) (fn : BitVec 11) (s : State) : Host.Outcome State Fault Refusal :=
  s.run (Part.iAmo t.val rd ra rb fn)
/-- BRT (R82): branches with one delay slot when the condition register is true. -/
def execBrt (t : ThreadId) (cs : BitVec 3) (disp : BitVec 22) (s : State) : Host.Outcome State Fault Refusal :=
  s.run (Part.iBrt t.val cs disp)
/-- BRF (R82): branches with one delay slot when the condition register is false. -/
def execBrf (t : ThreadId) (cs : BitVec 3) (disp : BitVec 22) (s : State) : Host.Outcome State Fault Refusal :=
  s.run (Part.iBrf t.val cs disp)
/-- JMP (R82): jumps pc-relative with one delay slot. -/
def execJmp (t : ThreadId) (disp : BitVec 26) (s : State) : Host.Outcome State Fault Refusal :=
  s.run (Part.iJmp t.val disp)
/-- CALL (R82): writes pc + 8 to g1 and jumps pc-relative with one delay slot. -/
def execCall (t : ThreadId) (disp : BitVec 26) (s : State) : Host.Outcome State Fault Refusal :=
  s.run (Part.iCall t.val disp)
/-- JR (R82): jumps to g[ra] with one delay slot. -/
def execJr (t : ThreadId) (rd ra rb : BitVec 5) (fn : BitVec 11) (s : State) : Host.Outcome State Fault Refusal :=
  s.run (Part.iJr t.val rd ra rb fn)
/-- CALLR (R82): writes pc + 8 to g1 and jumps to g[ra] with one delay slot. -/
def execCallr (t : ThreadId) (rd ra rb : BitVec 5) (fn : BitVec 11) (s : State) : Host.Outcome State Fault Refusal :=
  s.run (Part.iCallr t.val rd ra rb fn)
/-- LOOP (R85): checks the loop-end words and sets up a hardware loop level, or skips the body on a zero count. -/
def execLoop (t : ThreadId) (lv immForm : Bool) (cnt len : BitVec 12) (s : State) : Host.Outcome State Fault Refusal :=
  s.run (Part.iLoop t.val lv immForm cnt len)

end Sys2Proof.Machine
end

