-- ==== Sys2Proof/Machine/DoIntegrity.lean ====
section
/-!
DEFINITION. The meanings of the commands of one part of the table: integrity, counters, register writes, and the rows of the table that follow. Each is one call of
an operation of the part.
-/
namespace Sys2Proof.Machine

/-- WINDOW_EXPIRY (R515): A window-counter window ends without a declaration and COUNT returns to 0. -/
def execWindowExpiry (tile : TileId) (src : Fin 16) (s : State) : Host.Outcome State Fault Refusal :=
  s.run (Part.windowExpiry tile.val src.val)
/-- ESCALATION_START (R519): A waiting escalation action starts once its unit is free. -/
def execEscalationStart (tile : TileId) (s : State) : Host.Outcome State Fault Refusal :=
  s.run (Part.escalationStart tile.val)
/-- FIELD_TEST_START (R526): the field-test period elapses and the next unit's test starts. -/
def execFieldTestStart (s : State) : Host.Outcome State Fault Refusal :=
  s.run (Part.fieldTestStart)
/-- CORE_TEST_DONE (R527): A core field test ends, restoring the threads or sparing the core. -/
def execCoreTestDone (c : CoreId) (res : TestRes) (s : State) : Host.Outcome State Fault Refusal :=
  s.run (Part.coreTestDone c.val res)
/-- SLICE_TEST_DONE (R528): A slice group's field test ends, powering the group or retiring ways. -/
def execSliceTestDone (k : SliceId) (bad : BitVec 16) (s : State) : Host.Outcome State Fault Refusal :=
  s.run (Part.sliceTestDone k.val bad)
/-- PRM_TEST_CORE (R538): PRM_CMD OP 0 tests a core. -/
def execPrmTestCore (target : BitVec 9) (m : Master) (s : State) : Host.Outcome State Fault Refusal :=
  s.run (Part.prmCall 0 target m)
/-- PRM_TEST_SLICE (R538): PRM_CMD OP 1 tests a slice. -/
def execPrmTestSlice (target : BitVec 9) (m : Master) (s : State) : Host.Outcome State Fault Refusal :=
  s.run (Part.prmCall 1 target m)
/-- PRM_SPARE_CORE (R538): PRM_CMD OP 2 spares a core. -/
def execPrmSpareCore (target : BitVec 9) (m : Master) (s : State) : Host.Outcome State Fault Refusal :=
  s.run (Part.prmCall 2 target m)
/-- PRM_SLICE_OUT (R538): PRM_CMD OP 3 takes a slice out of service. -/
def execPrmSliceOut (target : BitVec 9) (m : Master) (s : State) : Host.Outcome State Fault Refusal :=
  s.run (Part.prmCall 3 target m)
/-- PRM_FULL_TEST (R525): PRM_CMD OP 4 runs the full test and ends with a cold reset. -/
def execPrmFullTest (m : Master) (s : State) : Host.Outcome State Fault Refusal :=
  s.run (Part.prmCall 4 0 m)
/-- PRM_RESTORE_CORE (R530): PRM_CMD OP 5 clears a core's unusable mark for the next cold reset. -/
def execPrmRestoreCore (target : BitVec 9) (m : Master) (s : State) : Host.Outcome State Fault Refusal :=
  s.run (Part.prmCall 5 target m)
/-- PRM_RESTORE_SLICE (R530): PRM_CMD OP 6 clears a slice's unusable mark for the next cold reset. -/
def execPrmRestoreSlice (target : BitVec 9) (m : Master) (s : State) : Host.Outcome State Fault Refusal :=
  s.run (Part.prmCall 6 target m)
/-- PRM_AUDIT (R535): PRM_CMD OP 7 waits for quiescence and audits every ledger. -/
def execPrmAudit (m : Master) (s : State) : Host.Outcome State Fault Refusal :=
  s.run (Part.prmCall 7 0 m)
/-- AUDIT_QUIESCENT (R535): quiescence is reached and the ledgers are compared. -/
def execAuditQuiescent (s : State) : Host.Outcome State Fault Refusal :=
  s.run (Part.auditQuiescent)
/-- AUDIT_TIMEOUT (R535): quiescence is not reached within 10 ms and the audit fails with CODE 6. -/
def execAuditTimeout (s : State) : Host.Outcome State Fault Refusal :=
  s.run (Part.auditTimeout)
/-- VOTE_SCRUB (R548): A voting scrubber pass rewrites minority copies of voted fields. -/
def execVoteScrub (tile : TileId) (page : BitVec 12) (word : BitVec 10) (copy : Fin 3) (diff : BitVec 32) (s : State) : Host.Outcome State Fault Refusal :=
  s.run (Part.voteScrub tile.val page.toNat word.toNat copy.val diff)
/-- RAS_LOG_READ (R514): A read of RAS_LOGDn marks the selected log entry as read. -/
def execRasLogRead (tile : TileId) (idx : BitVec 3) (m : Master) (s : State) : Host.Outcome State Fault Refusal :=
  s.run (Part.rasLogRead tile.val idx m)
/-- PERF_CTL_CLR (R559): PERF_CTL.CLR clears every counter of the tile and PERF_OVF. -/
def execPerfCtlClr (tile : TileId) (freeze : Bool) (m : Master) (s : State) : Host.Outcome State Fault Refusal :=
  s.run (Part.perfCtlClr tile.val freeze m)
/-- PERF_GCTL_WRITE (R560): A PERF_GCTL write of RUN, CLRALL or SNAP is held for the next epoch tick. -/
def execPerfGctlWrite (run clrall snap : Bool) (m : Master) (s : State) : Host.Outcome State Fault Refusal :=
  s.run (Part.gctlWrite run clrall snap m)
/-- SNAPSHOT_DUE (R561): A snapshot falls due at a tick and every tile copies its counters to a shadow. -/
def execSnapshotDue (s : State) : Host.Outcome State Fault Refusal :=
  s.run (Part.snapshotDue)
/-- SNAPSHOT_DONE (R561): every line of a snapshot is visible and PERF_SNAPSEQ advances. -/
def execSnapshotDone (s : State) : Host.Outcome State Fault Refusal :=
  s.run (Part.snapshotDone)
/-- BW_SELECT_WRITE (R562): A PERF_BWSELb write clears a monitor's results and discards the window. -/
def execBwSelectWrite (b : BitVec 4) (v : BitVec 32) (m : Master) (s : State) : Host.Outcome State Fault Refusal :=
  s.run (Part.bwSelWrite b v m)
/-- BW_WINDOW_END (R562): A bandwidth window ends and BYTES, RATE, PEAK and WIN update. -/
def execBwWindowEnd (b : BitVec 4) (n : Nat) (s : State) : Host.Outcome State Fault Refusal :=
  s.run (Part.bwWindowEnd b.toNat n)
/-- REGISTER_WRITE (R9): A write to a control or system register field with no row of its own acts per its access code. -/
def execRegisterWrite (tile : TileId) (page off : BitVec 12) (size : Nat) (v : Vec) (m : Master) (s : State) : Host.Outcome State Fault Refusal :=
  s.run (Part.regWrite tile.val page.toNat off.toNat size v m)
/-- DVT_LANE_LOCK_LOSS (R356): A lane of an ACTIVE Dovetail link loses lock, or the cable is cut, and the link enters RETRAIN. -/
def execDvtLaneLockLoss (d : Fin 4) (s : State) : Host.Outcome State Fault Refusal :=
  s.run (Part.laneLockLoss d.val)
/-- CXL_MEM_RESPONSE (R334): A CXL.mem read data or write completion returns from a type 3 device and the P tile answers the pending MRD, MWR or MPWT. -/
def execCxlMemResponse (g : Fin 8) (data : Vec) (pois : Bool) (s : State) : Host.Outcome State Fault Refusal :=
  s.run (Part.cxlMemResponse g.val data pois)
/-- CHANNEL_READ_DONE (R324): A queued DRAM read wins channel arbitration, completes its burst and check, frees its read-queue entry and sends the line. -/
def execChannelReadDone (c : ChanId) (ce ue : BitVec 4) (rank device : Nat) (s : State) : Host.Outcome State Fault Refusal :=
  s.run (Part.channelReadDone c.val ce ue rank device)
/-- WRITE_QUEUE_DRAIN (R327): an entry of a channel's write queue wins arbitration as requester 1 and is written to DRAM, freeing the entry. -/
def execWriteQueueDrain (c : ChanId) (s : State) : Host.Outcome State Fault Refusal :=
  s.run (Part.writeQueueDrain c.val)
/-- PAUSE_QUANTA_EXPIRY (R402): the pause time of a received Annex 31B PAUSE runs out and the MAC resumes transmission. -/
def execPauseQuantaExpiry (m : Fin 16) (s : State) : Host.Outcome State Fault Refusal :=
  s.run (Part.pauseExpiry m.val)
/-- BOOT_HOLD_RELEASE (R580): PWRFAIL_N has been high for 10 ms after RSTIN_N rose while it was low, and Easel releases the held boot. -/
def execBootHoldRelease (s : State) : Host.Outcome State Fault Refusal :=
  s.run (Part.bootHoldRelease)
/-- BOOT_IMAGE_CHECKED (R498): easel finishes reading and verifying the primary, then the backup, image, and sets EAS_BOOT or enters recovery. -/
def execBootImageChecked (primary backup : FlashRead) (s : State) : Host.Outcome State Fault Refusal :=
  s.run (Part.bootImageChecked primary backup)
/-- PRIMER_BOOT_CHECKS_DONE (R524): primer boot checks complete, the Palette is populated with PAL_GEN reaching 1, and CONFIG, KEYHASH, LIFECYCLE and PRIMER sections are applied. -/
def execPrimerBootChecksDone (cores slices : List Nat) (s : State) : Host.Outcome State Fault Refusal :=
  s.run (Part.bootChecksDone cores slices)

end Sys2Proof.Machine
end

