-- ==== Sys2Proof/Machine/DoMemory.lean ====
section
/-!
DEFINITION. The meanings of the commands of one part of the table: memory channels and Varnish. Each is one call of
an operation of the part.
-/
namespace Sys2Proof.Machine

/-- CHANNEL_TRAINED (R320): A memory channel completes training and interleave ranges are re-evaluated. -/
def execChannelTrained (c : ChanId) (ok : Bool) (speed ranks dpc gb : Nat) (s : State) : Host.Outcome State Fault Refusal :=
  s.run (Part.channelTrained c.val ok speed ranks dpc gb)
/-- ILV_COMMIT (R323): A write of MC_ILVCTL.COMMIT requests application of held interleave writes. -/
def execIlvCommit (m : Master) (s : State) : Host.Outcome State Fault Refusal :=
  s.run (Part.ilvCommit m)
/-- ILV_APPLY (R323): held interleave writes apply at channel 0's refresh boundary and every tile reloads its decode copy. -/
def execIlvApply (s : State) : Host.Outcome State Fault Refusal :=
  s.run (Part.ilvApply)
/-- REFRESH_BOUNDARY (R551): A channel's refresh interval begins and held MC_CFG writes apply. -/
def execRefreshBoundary (c : ChanId) (s : State) : Host.Outcome State Fault Refusal :=
  s.run (Part.refreshBoundary c.val)
/-- SCRUB_STEP (R331): the patrol scrub reads the next line, correcting or poisoning it. -/
def execScrubStep (c : ChanId) (ce ue : BitVec 4) (rank device : Nat) (s : State) : Host.Outcome State Fault Refusal :=
  s.run (Part.scrubStep c.val ce ue rank device)
/-- RETRAIN_DONE (R332): A channel retrain completes or fails, leaving service on failure. -/
def execRetrainDone (c : ChanId) (retries : Nat) (ok : Bool) (s : State) : Host.Outcome State Fault Refusal :=
  s.run (Part.retrainDone c.val retries ok)
/-- SPARING_COPY_DONE (R333): the rank copy completes and the rank's addresses map to the spare. -/
def execSparingCopyDone (c : SpareCopy) (s : State) : Host.Outcome State Fault Refusal :=
  s.run (Part.sparingCopyDone c.chan.val c.errs)
/-- PWB_DRAIN (R335): A persistent write buffer entry drains to DRAM. -/
def execPwbDrain (d : BufDrain) (s : State) : Host.Outcome State Fault Refusal :=
  s.run (Part.pwbDrainStep d.tile.val d.err)
/-- VAR_CTL_WRITE (R336): A write to VAR_CTL.ARM arms Varnish, or a clear is ignored and logged while persistent ranges name the tile. -/
def execVarCtlWrite (idx : Fin 8) (arm : Bool) (m : Master) (s : State) : Host.Outcome State Fault Refusal :=
  s.run (Part.varCtlWrite idx.val arm m)
/-- PWRFAIL_N_FALL (R337): A 200 ns low on PWRFAIL_N starts the Varnish flush. -/
def execPwrfailNFall (s : State) : Host.Outcome State Fault Refusal :=
  s.run (Part.pwrfailFall)
/-- GPF_PHASE1_ACK (R337): every listed lane group acknowledges GPF phase 1 and phase 2 starts. -/
def execGpfPhase1Ack (s : State) : Host.Outcome State Fault Refusal :=
  s.run (Part.gpfPhase1)
/-- GPF_PHASE2_DONE (R337): GPF phase 2 completes on the listed lane groups. -/
def execGpfPhase2Done (s : State) : Host.Outcome State Fault Refusal :=
  s.run (Part.gpfPhase2)
/-- GPF_TIMEOUT (R337): GPF phase 2 does not complete within GPFTMO. -/
def execGpfTimeout (groups : BitVec 8) (s : State) : Host.Outcome State Fault Refusal :=
  s.run (Part.gpfTimeout groups)
/-- FLUSHDONE (R337): buffers are empty and GPF done; channels enter self-refresh and FLUSHDONE is asserted. -/
def execFlushdone (s : State) : Host.Outcome State Fault Refusal :=
  s.run (Part.flushDone)
/-- FLUSH_PROGRESS_REPORT (R339): every 10 µs the flush domain reports remaining buffer entries to Easel. -/
def execFlushProgressReport (s : State) : Host.Outcome State Fault Refusal :=
  s.run (Part.flushReport)
/-- FLUSH_DOMAIN_SILENT (R339): easel detects the main rails fell before FLUSHDONE and records the loss. -/
def execFlushDomainSilent (s : State) : Host.Outcome State Fault Refusal :=
  s.run (Part.flushSilent)
/-- PWRFAIL_N_RISE (R340): PWRFAIL_N rises after FLUSHDONE and Easel performs the warm reset. -/
def execPwrfailNRise (s : State) : Host.Outcome State Fault Refusal :=
  s.run (Part.pwrfailRise)
/-- VDD_BASE_LOW (R578): VDD_BASE below 0.70 V for 1 µs is treated as a fall of PWRFAIL_N. -/
def execVddBaseLow (s : State) : Host.Outcome State Fault Refusal :=
  s.run (Part.vddBaseLow)

end Sys2Proof.Machine
end

