-- ==== Sys2Proof/Machine/DoNet.lean ====
section
/-!
DEFINITION. The meanings of the commands of one part of the table: the packet engine, inline crypto and Veneer. Each is one call of
an operation of the part.
-/
namespace Sys2Proof.Machine

/-- MAC_SIGNAL_DETECT (R403): signal is detected on every lane of a MAC. -/
def execMacSignalDetect (m : Fin 16) (s : State) : Host.Outcome State Fault Refusal :=
  s.run (Part.macSignal m.val)
/-- AN_RESOLVED (R403): clause 73 auto-negotiation resolves. -/
def execAnResolved (m : Fin 16) (rate : Nat) (s : State) : Host.Outcome State Fault Refusal :=
  s.run (Part.anResolved m.val rate)
/-- MAC_TRAINED (R403): link training and PCS lock complete and the MAC is UP. -/
def execMacTrained (m : Fin 16) (s : State) : Host.Outcome State Fault Refusal :=
  s.run (Part.macTrained m.val)
/-- MAC_LOCK_LOST (R403): PCS lock loss or 8 uncorrectable codewords take the MAC down. -/
def execMacLockLost (m : Fin 16) (s : State) : Host.Outcome State Fault Refusal :=
  s.run (Part.macLockLost m.val)
/-- NET_MAC_CFG_WRITE (R401): A MAC configuration write re-evaluates SPEED validity and conflicts. -/
def execNetMacCfgWrite (k : Fin 16) (v : BitVec 32) (m : Master) (s : State) : Host.Outcome State Fault Refusal :=
  s.run (Part.macCfgWrite k.val v m)
/-- FRAME_RECEIVED (R407): A frame arrives at a MAC and is sized, assigned a logical port, parsed, classified and admitted. -/
def execFrameReceived (m : Fin 16) (data : List Byte) (unc corr : Nat) (s : State) : Host.Outcome State Fault Refusal :=
  s.run (Part.frameReceived m.val data unc corr)
/-- PAUSE_RECEIVED (R402): A PAUSE frame arrives and is honoured. -/
def execPauseReceived (m : Fin 16) (quanta : BitVec 16) (s : State) : Host.Outcome State Fault Refusal :=
  s.run (Part.pauseReceived m.val quanta.toNat)
/-- RX_DELIVERY (R422): an admitted frame is written into receive buffers and its record written. -/
def execRxDelivery (q : BitVec 14) (s : State) : Host.Outcome State Fault Refusal :=
  s.run (Part.rxDelivery q.toNat)
/-- RXWAIT_EXPIRY (R433): A frame waits RXWAIT µs without a descriptor or record slot and is dropped. -/
def execRxwaitExpiry (q : BitVec 14) (s : State) : Host.Outcome State Fault Refusal :=
  s.run (Part.rxwaitExpiry q.toNat)
/-- DESCRIPTOR_FETCH (R421): the engine fetches a transmit frame's descriptors and data once a record slot can be reserved. -/
def execDescriptorFetch (q : BitVec 14) (s : State) : Host.Outcome State Fault Refusal :=
  s.run (Part.descriptorFetch q.toNat)
/-- TX_FRAME_DEPART (R434): the logical port's scheduler releases a frame to its MAC. -/
def execTxFrameDepart (n : Fin 32) (s : State) : Host.Outcome State Fault Refusal :=
  s.run (Part.txFrameDepart n.val)
/-- COALESCE_TIMER (R426): CTIME expires with records pending and the queue's vector is signalled. -/
def execCoalesceTimer (q : BitVec 14) (s : State) : Host.Outcome State Fault Refusal :=
  s.run (Part.coalesceTimer q.toNat)
/-- PRODUCER_DOORBELL (R420): A producer doorbell write sets PIDX or is discarded. -/
def execProducerDoorbell (q : BitVec 14) (v : BitVec 32) (size : Nat) (vmid : BitVec 12) (host : Bool) (init : BitVec 4) (s : State) : Host.Outcome State Fault Refusal :=
  s.run (Part.producerBell q.toNat v.toNat size vmid.toNat host init.toNat)
/-- COMPLETION_DOORBELL (R420): A completion doorbell write sets CCIDX and may re-arm the queue. -/
def execCompletionDoorbell (q : BitVec 14) (v : BitVec 32) (size : Nat) (vmid : BitVec 12) (host : Bool) (init : BitVec 4) (s : State) : Host.Outcome State Fault Refusal :=
  s.run (Part.completionBell q.toNat v.toNat size vmid.toNat host init.toNat)
/-- QUEUE_ENABLE (R419): NET_QCMD OP 0 reads and checks the context and enables the queue. -/
def execQueueEnable (q : BitVec 14) (clr : Bool) (m : Master) (s : State) : Host.Outcome State Fault Refusal :=
  s.run (Part.queueCmd 0 q clr m)
/-- QUEUE_DISABLE (R419): NET_QCMD OP 1 puts the queue into DRAINING. -/
def execQueueDisable (q : BitVec 14) (clr : Bool) (m : Master) (s : State) : Host.Outcome State Fault Refusal :=
  s.run (Part.queueCmd 1 q clr m)
/-- QUEUE_READ (R419): NET_QCMD OP 2 places the queue's state and indices in NET_QREAD0–3. -/
def execQueueRead (q : BitVec 14) (clr : Bool) (m : Master) (s : State) : Host.Outcome State Fault Refusal :=
  s.run (Part.queueCmd 2 q clr m)
/-- QUEUE_ABORT (R419): NET_QCMD OP 3 aborts the queue's unsent frames and drains it. -/
def execQueueAbort (q : BitVec 14) (clr : Bool) (m : Master) (s : State) : Host.Outcome State Fault Refusal :=
  s.run (Part.queueCmd 3 q clr m)
/-- QUEUE_DISABLED (R419): A draining queue has a record for every fetched descriptor and becomes DISABLED. -/
def execQueueDisabled (q : BitVec 14) (s : State) : Host.Outcome State Fault Refusal :=
  s.run (Part.queueDisabled q.toNat)
/-- FLOWCMD_BUCKET (R417): NET_FLOWCMD refreshes one cached flow bucket. -/
def execFlowcmdBucket (b : BitVec 16) (m : Master) (s : State) : Host.Outcome State Fault Refusal :=
  s.run (Part.flowBucket b m)
/-- FLOWCMD_ALL (R417): NET_FLOWCMD with ALL empties every cached bucket and group. -/
def execFlowcmdAll (m : Master) (s : State) : Host.Outcome State Fault Refusal :=
  s.run (Part.flowAll m)
/-- FLOWCMD_DONE (R417): lookups under the old bucket end and NET_FLOWSTAT.DONE is set. -/
def execFlowcmdDone (s : State) : Host.Outcome State Fault Refusal :=
  s.run (Part.flowcmdDone)
/-- NET_CTL_RST (R438): A write of NET_CTL.RST stops the MACs and fetch and resets the engine. -/
def execNetCtlRst (rst : Bool) (m : Master) (s : State) : Host.Outcome State Fault Refusal :=
  s.run (Part.netCtlRst rst m)
/-- DESCRIPTOR_ABANDON (R427): A descriptor finds no record slot within 1 ms of a reset and is abandoned. -/
def execDescriptorAbandon (q : BitVec 14) (s : State) : Host.Outcome State Fault Refusal :=
  s.run (Part.descriptorAbandon q.toNat)
/-- KEY_LOAD (R445): KEY_CMD OP 0 loads staged material into a key slot. -/
def execKeyLoad (k : BitVec 13) (m : Master) (s : State) : Host.Outcome State Fault Refusal :=
  s.run (Part.keyCmdWrite 0 k m)
/-- KEY_ERASE (R445): KEY_CMD OP 1 erases one key slot. -/
def execKeyErase (k : BitVec 13) (m : Master) (s : State) : Host.Outcome State Fault Refusal :=
  s.run (Part.keyCmdWrite 1 k m)
/-- KEY_ERASE_ALL (R445): KEY_CMD OP 2 erases every key slot. -/
def execKeyEraseAll (m : Master) (s : State) : Host.Outcome State Fault Refusal :=
  s.run (Part.keyCmdWrite 2 0 m)
/-- KEY_CMD_DONE (R447): no operation holds the old generation; it is zeroized and DONE is set. -/
def execKeyCmdDone (s : State) : Host.Outcome State Fault Refusal :=
  s.run (Part.keyCmdDone)
/-- VEN_CREATE (R462): VEN_MCMD OP 0 creates an instance from its pools. -/
def execVenCreate (idx : BitVec 10) (m : Master) (s : State) : Host.Outcome State Fault Refusal :=
  s.run (Part.venMgr 0 idx 0 m)
/-- VEN_RESET (R478): VEN_MCMD OP 1 starts resetting an instance. -/
def execVenReset (idx : BitVec 10) (m : Master) (s : State) : Host.Outcome State Fault Refusal :=
  s.run (Part.venMgr 1 idx 0 m)
/-- VEN_DESTROY (R478): VEN_MCMD OP 2 starts destroying an instance. -/
def execVenDestroy (idx : BitVec 10) (m : Master) (s : State) : Host.Outcome State Fault Refusal :=
  s.run (Part.venMgr 2 idx 0 m)
/-- VEN_REVOKE (R474): VEN_MCMD OP 3 revokes resources above quota. -/
def execVenRevoke (idx : BitVec 10) (res : BitVec 3) (m : Master) (s : State) : Host.Outcome State Fault Refusal :=
  s.run (Part.venMgr 3 idx res m)
/-- VEN_MCMD_DONE (R478): A reset, destroy or revoke finishes once its queues are disabled and resources freed. -/
def execVenMcmdDone (idx : BitVec 10) (s : State) : Host.Outcome State Fault Refusal :=
  s.run (Part.venMcmdDone idx.toNat)
/-- VEN_QUOTA_WRITE (R464): the manager changes a quota or share of a created instance. -/
def execVenQuotaWrite (idx : BitVec 10) (r : QuotaReg) (v : BitVec 32) (m : Master) (s : State) : Host.Outcome State Fault Refusal :=
  s.run (Part.venQuotaWrite idx r v m)
/-- VEN_QUEUE_ENABLE (R467): tenant OP 0 writes a staged context and enables a queue. -/
def execVenQueueEnable (idx : BitVec 10) (index : BitVec 18) (m : Master) (s : State) : Host.Outcome State Fault Refusal :=
  s.run (Part.venTenant 0 idx index m)
/-- VEN_QUEUE_DISABLE (R467): tenant OP 1 disables a queue. -/
def execVenQueueDisable (idx : BitVec 10) (index : BitVec 18) (m : Master) (s : State) : Host.Outcome State Fault Refusal :=
  s.run (Part.venTenant 1 idx index m)
/-- VEN_QUEUE_READ (R467): tenant OP 2 reads a queue into VEN_QREAD0–3. -/
def execVenQueueRead (idx : BitVec 10) (index : BitVec 18) (m : Master) (s : State) : Host.Outcome State Fault Refusal :=
  s.run (Part.venTenant 2 idx index m)
/-- VEN_QUEUE_ABORT (R467): tenant OP 3 aborts a queue. -/
def execVenQueueAbort (idx : BitVec 10) (index : BitVec 18) (m : Master) (s : State) : Host.Outcome State Fault Refusal :=
  s.run (Part.venTenant 3 idx index m)
/-- VEN_FLOW_INSTALL (R469): tenant OP 4 installs a checked flow context and records ownership. -/
def execVenFlowInstall (idx : BitVec 10) (index : BitVec 18) (m : Master) (s : State) : Host.Outcome State Fault Refusal :=
  s.run (Part.venTenant 4 idx index m)
/-- VEN_FLOW_REMOVE (R469): tenant OP 5 removes an owned flow context. -/
def execVenFlowRemove (idx : BitVec 10) (index : BitVec 18) (m : Master) (s : State) : Host.Outcome State Fault Refusal :=
  s.run (Part.venTenant 5 idx index m)
/-- VEN_KEY_LOAD (R467): tenant OP 6 loads a key slot in its range. -/
def execVenKeyLoad (idx : BitVec 10) (index : BitVec 18) (m : Master) (s : State) : Host.Outcome State Fault Refusal :=
  s.run (Part.venTenant 6 idx index m)
/-- VEN_KEY_ERASE (R467): tenant OP 7 erases a key slot in its range. -/
def execVenKeyErase (idx : BitVec 10) (index : BitVec 18) (m : Master) (s : State) : Host.Outcome State Fault Refusal :=
  s.run (Part.venTenant 7 idx index m)
/-- VEN_COUNTER_BIND (R470): tenant OP 8 binds a counter set to a queue and zeroes it. -/
def execVenCounterBind (idx : BitVec 10) (index : BitVec 18) (m : Master) (s : State) : Host.Outcome State Fault Refusal :=
  s.run (Part.venTenant 8 idx index m)
/-- VEN_COUNTER_UNBIND (R470): tenant OP 9 unbinds and zeroes a counter set. -/
def execVenCounterUnbind (idx : BitVec 10) (index : BitVec 18) (m : Master) (s : State) : Host.Outcome State Fault Refusal :=
  s.run (Part.venTenant 9 idx index m)
/-- OUTSEND (R476): the tenant passes its outbound mailbox message. -/
def execOutsend (idx : BitVec 10) (m : Master) (s : State) : Host.Outcome State Fault Refusal :=
  s.run (Part.venMbox 7 idx m)
/-- OUTACK (R476): the manager acknowledges the outbound message. -/
def execOutack (idx : BitVec 10) (m : Master) (s : State) : Host.Outcome State Fault Refusal :=
  s.run (Part.venMbox 6 idx m)
/-- INSEND (R476): the manager passes its inbound mailbox message. -/
def execInsend (idx : BitVec 10) (m : Master) (s : State) : Host.Outcome State Fault Refusal :=
  s.run (Part.venMbox 5 idx m)
/-- INACK (R476): the tenant acknowledges the inbound message. -/
def execInack (idx : BitVec 10) (m : Master) (s : State) : Host.Outcome State Fault Refusal :=
  s.run (Part.venMbox 4 idx m)

end Sys2Proof.Machine
end

