-- ==== Sys2Proof/Machine/DoPci.lean ====
section
/-!
DEFINITION. The meanings of the commands of one part of the table: PCIe and CXL ports and the endpoint. Each is one call of
an operation of the part.
-/
namespace Sys2Proof.Machine

/-- PCIE_COMPLETION (R381): A completion for an outbound read or configuration write arrives at a port. -/
def execPcieCompletion (n : PortId) (tag : BitVec 8) (st : CplStatus) (data : Vec) (pois : Bool) (s : State) : Host.Outcome State Fault Refusal :=
  s.run (Part.pcieCompletion n.val tag.toNat st data pois)
/-- COMPLETION_TIMEOUT (R381): no completion arrives within PCI_PORT_CTO. -/
def execCompletionTimeout (n : PortId) (tag : BitVec 8) (s : State) : Host.Outcome State Fault Refusal :=
  s.run (Part.completionTimeout n.val tag.toNat)
/-- INBOUND_MEMORY_READ (R382): an inbound memory read TLP is translated and split into RDNA requests. -/
def execInboundMemoryRead (r : InReq) (len : Nat) (s : State) : Host.Outcome State Fault Refusal :=
  s.run (Part.inboundRead r len)
/-- INBOUND_MEMORY_WRITE (R382): an inbound memory write TLP is translated and split into prepared writes. -/
def execInboundMemoryWrite (r : InReq) (data : List (Option Byte)) (pois : Bool) (s : State) : Host.Outcome State Fault Refusal :=
  s.run (Part.inboundWrite r data pois)
/-- INBOUND_ATOMICOP (R377): an inbound AtomicOp request is completed with Unsupported Request. -/
def execInboundAtomicop (n : PortId) (s : State) : Host.Outcome State Fault Refusal :=
  s.run (Part.inboundAtomic n.val)
/-- PORT_RECEIVER_DETECT (R398): A port detects a receiver and starts training. -/
def execPortReceiverDetect (n : PortId) (s : State) : Host.Outcome State Fault Refusal :=
  s.run (Part.portDetect n.val)
/-- PORT_TRAINED (R398): A port completes Polling and Configuration and becomes ACTIVE. -/
def execPortTrained (n : PortId) (speed width : Nat) (flit : Bool) (s : State) : Host.Outcome State Fault Refusal :=
  s.run (Part.portTrained n.val speed width flit)
/-- PORT_RECOVERY (R398): an ACTIVE port enters Recovery on errors, a rate change or retrain. -/
def execPortRecovery (n : PortId) (s : State) : Host.Outcome State Fault Refusal :=
  s.run (Part.portRecovery n.val)
/-- RECOVERY_DONE (R398): recovery succeeds, or fails into a link down. -/
def execRecoveryDone (n : PortId) (ok : Bool) (speed width : Nat) (s : State) : Host.Outcome State Fault Refusal :=
  s.run (Part.recoveryRow n.val ok speed width)
/-- PORT_L1_ENTRY (R398): ASPM or D3hot takes the port into L1. -/
def execPortL1Entry (n : PortId) (s : State) : Host.Outcome State Fault Refusal :=
  s.run (Part.portL1Entry n.val)
/-- PORT_L1_EXIT (R398): the port leaves L1 into Recovery. -/
def execPortL1Exit (n : PortId) (s : State) : Host.Outcome State Fault Refusal :=
  s.run (Part.portL1Exit n.val)
/-- PORT_LINK_DOWN (R386): A port declares link down and returns all ones or contains. -/
def execPortLinkDown (n : PortId) (s : State) : Host.Outcome State Fault Refusal :=
  s.run (Part.linkDownRow n.val)
/-- CONTAINMENT_TRIGGER (R388): A containment trigger holds the link idle and completes or poisons outstanding traffic. -/
def execContainmentTrigger (n : PortId) (cause : ContainCause) (s : State) : Host.Outcome State Fault Refusal :=
  s.run (Part.containmentTrigger n.val cause)
/-- PCI_PORT_RELEASE (R388): A write of RELEASE releases containment and the port trains from DETECT. -/
def execPciPortRelease (n : PortId) (m : Master) (s : State) : Host.Outcome State Fault Refusal :=
  s.run (Part.portReleaseWrite n.val m)
/-- PCI_PORT_RETRAIN (R398): A write of RETRAIN takes the port into Recovery. -/
def execPciPortRetrain (n : PortId) (m : Master) (s : State) : Host.Outcome State Fault Refusal :=
  s.run (Part.portRetrainWrite n.val m)
/-- PCI_PORT_EN_WRITE (R398): A write to PCI_PORT_CTL.EN enables or disables the port. -/
def execPciPortEnWrite (n : PortId) (en : Bool) (m : Master) (s : State) : Host.Outcome State Fault Refusal :=
  s.run (Part.portEnWrite n.val en m)
/-- PCI_GRP_RST_WRITE (R397): A write to PCI_GRP_CTL.RST puts the group into reset or releases it with its SPLIT and MODE. -/
def execPciGrpRstWrite (g : Fin 8) (rst : Bool) (m : Master) (s : State) : Host.Outcome State Fault Refusal :=
  s.run (Part.grpRstWrite g.val rst m)
/-- EP_HDB_WRITE (R394): A host write to EP_HDB sets a vector pending or is discarded. -/
def execEpHdbWrite (v : BitVec 10) (s : State) : Host.Outcome State Fault Refusal :=
  s.run (Part.epHdb v.toNat)
/-- EP_HINT_WRITE (R394): A core write to EP_HINT sends or pends an MSI-X vector to the host. -/
def execEpHintWrite (v : BitVec 32) (m : Master) (s : State) : Host.Outcome State Fault Refusal :=
  s.run (Part.epHintWrite v m)
/-- BME_CLEAR (R395): the host clears Bus Master Enable and the endpoint stops issuing. -/
def execBmeClear (s : State) : Host.Outcome State Fault Refusal :=
  s.run (Part.hostBmeClear)
/-- BME_SET (R395): the host sets Bus Master Enable and issue resumes. -/
def execBmeSet (s : State) : Host.Outcome State Fault Refusal :=
  s.run (Part.hostBmeSet)
/-- FLR_INITIATE (R396): the host initiates Function Level Reset. -/
def execFlrInitiate (s : State) : Host.Outcome State Fault Refusal :=
  s.run (Part.hostFlr)
/-- FLR_COMPLETE (R396): the endpoint function returns to its reset state. -/
def execFlrComplete (s : State) : Host.Outcome State Fault Refusal :=
  s.run (Part.flrComplete)
/-- HOT_RESET (R396): A hot reset or endpoint link down acts as FLR and retrains. -/
def execHotReset (s : State) : Host.Outcome State Fault Refusal :=
  s.run (Part.hotResetRow)
/-- PERST_CHANGE (R575): PE0_PERST0_N changes in endpoint mode, holding or completing the reset. -/
def execPerstChange (low : Bool) (s : State) : Host.Outcome State Fault Refusal :=
  s.run (Part.perstRow low)

end Sys2Proof.Machine
end

