-- ==== Sys2Proof/Machine/DoSupply.lean ====
section
/-!
DEFINITION. The meanings of the commands of one part of the table: supplies, clocks, resets and boot. Each is one call of
an operation of the part.
-/
namespace Sys2Proof.Machine

/-- STANDBY_POWER_ON (R577): A standby input reaches 1.71 V and Easel starts, raising STBY_OK. -/
def execStandbyPowerOn (bak : Bool) (s : State) : Host.Outcome State Fault Refusal :=
  s.run (Part.standbyOn bak)
/-- STBY_SWITCH_TO_BAK (R484): VSTBY_MAIN falls below 1.65 V and the standby domain switches to VSTBY_BAK. -/
def execStbySwitchToBak (s : State) : Host.Outcome State Fault Refusal :=
  s.run (Part.stbyToBak)
/-- STBY_SWITCH_BACK (R484): VSTBY_MAIN stays at or above 1.72 V for 10 ms and the domain switches back. -/
def execStbySwitchBack (s : State) : Host.Outcome State Fault Refusal :=
  s.run (Part.stbyBack)
/-- STANDBY_LOSS (R484): both standby inputs are lost, STBY_OK falls and a standby power-on reset follows. -/
def execStandbyLoss (s : State) : Host.Outcome State Fault Refusal :=
  s.run (Part.standbyLoss)
/-- REFCLK_LOSS (R487): no REFCLK edge for 1 µs freezes frequencies and raises a machine check. -/
def execRefclkLoss (s : State) : Host.Outcome State Fault Refusal :=
  s.run (Part.refclkLoss)
/-- REFCLK_RETURN (R487): REFCLK returns, PLLs relock and TIME resumes. -/
def execRefclkReturn (s : State) : Host.Outcome State Fault Refusal :=
  s.run (Part.refclkReturn)
/-- CAPPING_ITERATION (R489): every 50 µs the capping loop adjusts island frequencies toward the limit. -/
def execCappingIteration (power avg steps : Nat) (s : State) : Host.Outcome State Fault Refusal :=
  s.run (Part.cappingIteration power avg steps)
/-- VRHOT_ASSERT (R491): VRHOT_N asserts and every core moves to HOTF. -/
def execVrhotAssert (s : State) : Host.Outcome State Fault Refusal :=
  s.run (Part.vrhotAssert)
/-- VRHOT_RELEASE (R491): VRHOT_N is released and the loop resumes. -/
def execVrhotRelease (s : State) : Host.Outcome State Fault Refusal :=
  s.run (Part.vrhotRelease)
/-- PWR_PL_WRITE (R488): A write to PWR_PL changes the local package limit. -/
def execPwrPlWrite (w : BitVec 32) (m : Master) (s : State) : Host.Outcome State Fault Refusal :=
  s.run (Part.pwrPlWrite w m)
/-- CLK_ALLCORE_WRITE (R505): A write copies FMIN or FMAX into every CLK_Cn of the socket. -/
def execClkAllcoreWrite (fmax fmin : BitVec 8) (m : Master) (s : State) : Host.Outcome State Fault Refusal :=
  s.run (Part.clkAllWrite fmax fmin m)
/-- TILE_OFF_REQUEST (R493): PWR_TCTL.OFF requests a tile's switched part off, carried out or refused. -/
def execTileOffRequest (tile : TileId) (off : Bool) (m : Master) (s : State) : Host.Outcome State Fault Refusal :=
  s.run (Part.tileOffWrite tile.val off m)
/-- PWR_BOFF_WRITE (R493): PWR_BOFF requests base-die domains off or on, carried out or refused. -/
def execPwrBoffWrite (off : BitVec 27) (m : Master) (s : State) : Host.Outcome State Fault Refusal :=
  s.run (Part.boffWrite off m)
/-- PWR_C_MODE_WRITE (R494): A write to PWR_Cn.MODE forces a core off or allows it to wake. -/
def execPwrCModeWrite (c : CoreId) (mode : BitVec 2) (idlet : BitVec 16) (m : Master) (s : State) : Host.Outcome State Fault Refusal :=
  s.run (Part.pwrMode c.val mode idlet m)
/-- CORE_IDLE_OFF (R494): both threads wait IDLET µs and the core saves state and switches off. -/
def execCoreIdleOff (c : CoreId) (s : State) : Host.Outcome State Fault Refusal :=
  s.run (Part.coreIdleOff c.val)
/-- CORE_WAKE (R495): an unmasked vector wakes an OFF core, which restores its threads. -/
def execCoreWake (c : CoreId) (s : State) : Host.Outcome State Fault Refusal :=
  s.run (Part.coreWake c.val)
/-- CORE_RESET (R496): PWR_Cn.RST or Easel resets a core and its interrupt controllers. -/
def execCoreReset (c : CoreId) (m : Master) (s : State) : Host.Outcome State Fault Refusal :=
  s.run (Part.coreRst c.val m)
/-- TILE_RESET (R496): PWR_TCTL.RST resets a tile's switched part, or is refused while its slice is in service. -/
def execTileReset (tile : TileId) (m : Master) (s : State) : Host.Outcome State Fault Refusal :=
  s.run (Part.tileRstWrite tile.val m)
/-- RSTIN_N_FALL (R496): RSTIN_N low for 1 ms gives a cold reset; a shorter pulse is logged and ignored. -/
def execRstinNFall (long : Bool) (s : State) : Host.Outcome State Fault Refusal :=
  s.run (Part.rstinFall long)
/-- RSTIN_N_RISE (R497): RSTIN_N rises and Easel starts the boot sequence. -/
def execRstinNRise (master : Bool) (s : State) : Host.Outcome State Fault Refusal :=
  s.run (Part.rstinRise master)
/-- BOOT_CORE_RELEASE (R497): boot work completes and thread 0 of the boot core starts at the image entry. -/
def execBootCoreRelease (s : State) : Host.Outcome State Fault Refusal :=
  s.run (Part.bootCoreRelease)
/-- RECOVERY_IMAGE (R498): an image received over I3C in recovery is verified and booted. -/
def execRecoveryImage (idx : Image) (s : State) : Host.Outcome State Fault Refusal :=
  s.run (Part.recoveryImage idx)
/-- CORE_START (R506): EAS_ command 1 releases a thread from reset at a given address. -/
def execCoreStart (t : ThreadId) (pc : Dword) (m : Master) (s : State) : Host.Outcome State Fault Refusal :=
  s.run (Part.coreStart t.val pc m)
/-- LOG_READ (R506): EAS_ command 2 returns an Easel log entry. -/
def execLogRead (n : BitVec 32) (m : Master) (s : State) : Host.Outcome State Fault Refusal :=
  s.run (Part.logReadCmd n m)
/-- WARM_RESET (R506): EAS_ command 3 warm-resets the socket or the whole machine. -/
def execWarmReset (whole : Bool) (m : Master) (s : State) : Host.Outcome State Fault Refusal :=
  s.run (Part.warmResetCmd whole m)
/-- THERMAL_SAMPLE (R581): every 50 µs Easel reads every temperature sensor. -/
def execThermalSample (readings : List Nat) (s : State) : Host.Outcome State Fault Refusal :=
  s.run (Part.thermalSample readings)
/-- THERMAL_RECOVER (R581): A die stays at or below 100 °C for 1 ms and the loop resumes control. -/
def execThermalRecover (d : Fin 4) (s : State) : Host.Outcome State Fault Refusal :=
  s.run (Part.thermalRecover d.val)

end Sys2Proof.Machine
end

