-- ==== Sys2Proof/Machine/DoSystem.lean ====
section
/-!
DEFINITION. The meanings of the commands of one part of the table: system-register, exception, ordering and maintenance instructions of a thread. Each is one call of
an operation of the part.
-/
namespace Sys2Proof.Machine

/-- SRD (R88): reads a system register into rd. -/
def execSrd (t : ThreadId) (rd ra : BitVec 5) (sr : BitVec 12) (s : State) : Host.Outcome State Fault Refusal :=
  s.run (Part.iSrd t.val rd ra sr)
/-- SWR (R88): writes g[ra] to a system register, possibly as a mode change. -/
def execSwr (t : ThreadId) (rd ra : BitVec 5) (sr : BitVec 12) (s : State) : Host.Outcome State Fault Refusal :=
  s.run (Part.iSwr t.val rd ra sr)
/-- SRSET (R89): sets bits of a system register and returns its old value in one step. -/
def execSrset (t : ThreadId) (rd ra : BitVec 5) (sr : BitVec 12) (s : State) : Host.Outcome State Fault Refusal :=
  s.run (Part.iSrset t.val rd ra sr)
/-- SRCLR (R89): clears bits of a system register and returns its old value in one step. -/
def execSrclr (t : ThreadId) (rd ra : BitVec 5) (sr : BitVec 12) (s : State) : Host.Outcome State Fault Refusal :=
  s.run (Part.iSrclr t.val rd ra sr)
/-- TRAP (R90): retires and then raises TRAP. -/
def execTrap (t : ThreadId) (rd ra : BitVec 5) (code : BitVec 12) (s : State) : Host.Outcome State Fault Refusal :=
  s.run (Part.iTrap t.val rd ra code)
/-- BREAK (R91): raises BREAK before taking any effect. -/
def execBrk (t : ThreadId) (rd ra : BitVec 5) (code : BitVec 12) (s : State) : Host.Outcome State Fault Refusal :=
  s.run (Part.iBreak t.val rd ra code)
/-- RETX (R149): returns from an exception using the current level's bank. -/
def execRetx (t : ThreadId) (rd ra : BitVec 5) (sr : BitVec 12) (s : State) : Host.Outcome State Fault Refusal :=
  s.run (Part.iRetx t.val rd ra sr)
/-- WAIT (R93): suspends the thread until an unmasked interrupt or machine check is pending. -/
def execWait (t : ThreadId) (rd ra : BitVec 5) (sr : BitVec 12) (s : State) : Host.Outcome State Fault Refusal :=
  s.run (Part.iWait t.val rd ra sr)
/-- WAIT_WAKE (R93): A waiting thread retires its WAIT when an interrupt or machine check becomes pending or Easel takes control. -/
def execWaitWake (t : ThreadId) (s : State) : Host.Outcome State Fault Refusal :=
  s.run (Part.waitWake t.val)
/-- FENCE (R53): orders earlier accesses of set P before later accesses of set S. -/
def execFence (t : ThreadId) (rd ra : BitVec 5) (sr : BitVec 12) (s : State) : Host.Outcome State Fault Refusal :=
  s.run (Part.iFence t.val rd ra sr)
/-- DFENCE (R55): completes once earlier persistent stores are accepted by persistent write buffers and other accesses are performed. -/
def execDfence (t : ThreadId) (rd ra : BitVec 5) (sr : BitVec 12) (s : State) : Host.Outcome State Fault Refusal :=
  s.run (Part.iDfence t.val rd ra sr)
/-- ISYNC (R95): completes earlier instructions, applies buffered core writes and refetches. -/
def execIsync (t : ThreadId) (rd ra : BitVec 5) (sr : BitVec 12) (s : State) : Host.Outcome State Fault Refusal :=
  s.run (Part.iIsync t.val rd ra sr)
/-- TSYNC (R96): waits until the thread's earlier TLBM instructions have taken effect everywhere. -/
def execTsync (t : ThreadId) (rd ra : BitVec 5) (sr : BitVec 12) (s : State) : Host.Outcome State Fault Refusal :=
  s.run (Part.iTsync t.val rd ra sr)
/-- PREFR (R97): hint to bring a line toward the core for reading. -/
def execPrefr (t : ThreadId) (ra : BitVec 5) (imm : BitVec 16) (s : State) : Host.Outcome State Fault Refusal :=
  s.run (Part.iPrefr t.val ra imm)
/-- PREFW (R97): hint to bring a line toward the core with write permission. -/
def execPrefw (t : ThreadId) (ra : BitVec 5) (imm : BitVec 16) (s : State) : Host.Outcome State Fault Refusal :=
  s.run (Part.iPrefw t.val ra imm)
/-- PREFI (R97): hint to bring a line into the L1 instruction cache. -/
def execPrefi (t : ThreadId) (ra : BitVec 5) (imm : BitVec 16) (s : State) : Host.Outcome State Fault Refusal :=
  s.run (Part.iPrefi t.val ra imm)
/-- CLEAN (R97): writes any modified copy of a line back to memory. -/
def execClean (t : ThreadId) (ra : BitVec 5) (imm : BitVec 16) (s : State) : Host.Outcome State Fault Refusal :=
  s.run (Part.iClean t.val ra imm)
/-- FLUSH (R97): writes back and invalidates every copy of a line. -/
def execFlush (t : ThreadId) (ra : BitVec 5) (imm : BitVec 16) (s : State) : Host.Outcome State Fault Refusal :=
  s.run (Part.iFlush t.val ra imm)
/-- INVAL (R97): invalidates every copy of a line without write-back. -/
def execInval (t : ThreadId) (ra : BitVec 5) (imm : BitVec 16) (s : State) : Host.Outcome State Fault Refusal :=
  s.run (Part.iInval t.val ra imm)
/-- ZERO (R97): writes zero to all 64 bytes of a line. -/
def execZero (t : ThreadId) (ra : BitVec 5) (imm : BitVec 16) (s : State) : Host.Outcome State Fault Refusal :=
  s.run (Part.iZero t.val ra imm)
/-- IINV (R97): invalidates a line in every L1 instruction cache and loop buffer. -/
def execIinv (t : ThreadId) (ra : BitVec 5) (imm : BitVec 16) (s : State) : Host.Outcome State Fault Refusal :=
  s.run (Part.iIinv t.val ra imm)
/-- TINV_PAGE (R99): invalidates non-global TLB entries for an address and ASID. -/
def execTinvPage (t : ThreadId) (rd ra rb : BitVec 5) (loc : Bool) (z : BitVec 7) (s : State) : Host.Outcome State Fault Refusal :=
  s.run (Part.iTinvPage t.val rd ra rb loc z)
/-- TINV_PAGEANY (R99): invalidates TLB entries for an address in every ASID. -/
def execTinvPageany (t : ThreadId) (rd ra rb : BitVec 5) (loc : Bool) (z : BitVec 7) (s : State) : Host.Outcome State Fault Refusal :=
  s.run (Part.iTinvPageAny t.val rd ra rb loc z)
/-- TINV_SPACE (R99): invalidates every non-global TLB entry of an ASID. -/
def execTinvSpace (t : ThreadId) (rd ra rb : BitVec 5) (loc : Bool) (z : BitVec 7) (s : State) : Host.Outcome State Fault Refusal :=
  s.run (Part.iTinvSpace t.val rd ra rb loc z)
/-- TINV_STAGE1 (R99): invalidates every stage-1 entry of the regime. -/
def execTinvStage1 (t : ThreadId) (rd ra rb : BitVec 5) (loc : Bool) (z : BitVec 7) (s : State) : Host.Outcome State Fault Refusal :=
  s.run (Part.iTinvStage1 t.val rd ra rb loc z)
/-- TINV_GPAGE (R99): invalidates stage-2 entries for a guest-physical address and the VMID's final translations. -/
def execTinvGpage (t : ThreadId) (rd ra rb : BitVec 5) (loc : Bool) (z : BitVec 7) (s : State) : Host.Outcome State Fault Refusal :=
  s.run (Part.iTinvGpage t.val rd ra rb loc z)
/-- TINV_GUEST (R99): invalidates every entry of a VMID. -/
def execTinvGuest (t : ThreadId) (rd ra rb : BitVec 5) (loc : Bool) (z : BitVec 7) (s : State) : Host.Outcome State Fault Refusal :=
  s.run (Part.iTinvGuest t.val rd ra rb loc z)
/-- TINV_EVERY (R99): invalidates every TLB entry. -/
def execTinvEvery (t : ThreadId) (rd ra rb : BitVec 5) (loc : Bool) (z : BitVec 7) (s : State) : Host.Outcome State Fault Refusal :=
  s.run (Part.iTinvEvery t.val rd ra rb loc z)

end Sys2Proof.Machine
end

