-- ==== Sys2Proof/Machine/DoVector.lean ====
section
/-!
DEFINITION. The meanings of the commands of one part of the table: vector and floating-point instructions, and the events of interrupt controllers. Each is one call of
an operation of the part.
-/
namespace Sys2Proof.Machine

/-- VINT (R113): vector integer operation element by element under a mask. -/
def execVint (t : ThreadId) (rd ra rb : BitVec 5) (fn : BitVec 11) (s : State) : Host.Outcome State Fault Refusal :=
  s.run (Part.iVint t.val rd ra rb fn)
/-- VFP (R114): vector floating-point operation or reduction under a mask. -/
def execVfp (t : ThreadId) (rd ra rb : BitVec 5) (fn : BitVec 11) (s : State) : Host.Outcome State Fault Refusal :=
  s.run (Part.iVfp t.val rd ra rb fn)
/-- SFP (R115): scalar floating-point operation on element 0. -/
def execSfp (t : ThreadId) (rd ra rb : BitVec 5) (fn : BitVec 11) (s : State) : Host.Outcome State Fault Refusal :=
  s.run (Part.iSfp t.val rd ra rb fn)
/-- FMA (R116): fused multiply-add, scalar, vector or widening dot product. -/
def execFma (t : ThreadId) (rd ra rb : BitVec 5) (fn : BitVec 11) (s : State) : Host.Outcome State Fault Refusal :=
  s.run (Part.iFma t.val rd ra rb fn)
/-- VCVT (R117): converts between element types in one of four forms. -/
def execVcvt (t : ThreadId) (rd ra rb : BitVec 5) (fn : BitVec 11) (s : State) : Host.Outcome State Fault Refusal :=
  s.run (Part.iVcvt t.val rd ra rb fn)
/-- VPERM (R118): vector move, permute, compress, insert, extract or integer reduction. -/
def execVperm (t : ThreadId) (rd ra rb : BitVec 5) (fn : BitVec 11) (s : State) : Host.Outcome State Fault Refusal :=
  s.run (Part.iVperm t.val rd ra rb fn)
/-- VCMP (R119): compares vectors element by element into a mask register. -/
def execVcmp (t : ThreadId) (cd : BitVec 3) (cc : BitVec 4) (va vb : BitVec 5) (et mk z : BitVec 3) (s : State) : Host.Outcome State Fault Refusal :=
  s.run (Part.iVcmp t.val cd cc va vb et mk z)
/-- FCMP (R120): compares element 0 of two vectors into a condition register. -/
def execFcmp (t : ThreadId) (cd : BitVec 3) (cc : BitVec 4) (va vb : BitVec 5) (ft : BitVec 2) (z : BitVec 7) (s : State) : Host.Outcome State Fault Refusal :=
  s.run (Part.iFcmp t.val cd cc va vb ft z)
/-- MOP (R121): performs a mask logic, move, count or test operation. -/
def execMop (t : ThreadId) (rd ra rb : BitVec 5) (fn : BitVec 11) (s : State) : Host.Outcome State Fault Refusal :=
  s.run (Part.iMop t.val rd ra rb fn)
/-- VLD (R122): unit-stride vector load of 64 bytes under a mask. -/
def execVld (t : ThreadId) (rd ra : BitVec 5) (imm : BitVec 16) (s : State) : Host.Outcome State Fault Refusal :=
  s.run (Part.iVld t.val rd ra imm)
/-- VST (R122): unit-stride vector store of the selected elements. -/
def execVst (t : ThreadId) (rd ra : BitVec 5) (imm : BitVec 16) (s : State) : Host.Outcome State Fault Refusal :=
  s.run (Part.iVst t.val rd ra imm)
/-- VMEM (R123): register-addressed, strided or indexed vector load or store, optionally fault-first. -/
def execVmem (t : ThreadId) (rd ra rb : BitVec 5) (fn : BitVec 11) (s : State) : Host.Outcome State Fault Refusal :=
  s.run (Part.iVmem t.val rd ra rb fn)
/-- INTERRUPT_TAKEN (R145): A deliverable interrupt is taken at a permitted boundary and its PEND is cleared. -/
def execInterruptTaken (t : ThreadId) (s : State) : Host.Outcome State Fault Refusal :=
  s.run (Part.interruptTaken t.val)
/-- MACHINE_CHECK_TAKEN (R145): A pending MACHINE_CHECK is taken at a permitted boundary after its log entry is written. -/
def execMachineCheckTaken (t : ThreadId) (s : State) : Host.Outcome State Fault Refusal :=
  s.run (Part.machineCheckTaken t.val)
/-- ICCLAIM_READ (R155): an SRD of ICCLAIM returns and clears the most urgent pending vector of the view. -/
def execIcclaimRead (t : ThreadId) (view : View) (rd : BitVec 5) (s : State) : Host.Outcome State Fault Refusal :=
  s.run (Part.icclaimRead t.val view rd)
/-- ICCFG_WRITE (R152): A view writes the configuration of the selected vector within its reach. -/
def execIccfgWrite (t : ThreadId) (view : View) (ra : BitVec 5) (s : State) : Host.Outcome State Fault Refusal :=
  s.run (Part.iccfgWrite t.val view ra)
/-- ICIPI_WRITE (R158): A write to ICIPI sends an IPI once the sender's earlier stores are performed. -/
def execIcipiWrite (t : ThreadId) (view : View) (ra : BitVec 5) (s : State) : Host.Outcome State Fault Refusal :=
  s.run (Part.icipiWrite t.val view ra)
/-- DOORBELL_WRITE (R156): A 4-byte write to ICDB0 or ICDB1 sets a vector's PEND or is discarded and logged. -/
def execDoorbellWrite (t : ThreadId) (data : BitVec 32) (size : Nat) (init : BitVec 4) (s : State) : Host.Outcome State Fault Refusal :=
  s.run (Part.doorbellWrite t.val data size init.toNat)
/-- UNIT_IPI (R159): A unit signals a vector on its own behalf once the state it reports is updated. -/
def execUnitIpi (skt : BitVec 4) (t : ThreadId) (vec : BitVec 10) (s : State) : Host.Outcome State Fault Refusal :=
  s.run (Part.unitIpi skt.toNat t.val vec.toNat)
/-- TIMER_FIRE (R160): TIME reaches an armed timer compare, disarming it and setting PEND or REJ. -/
def execTimerFire (t : ThreadId) (k : Timer) (s : State) : Host.Outcome State Fault Refusal :=
  s.run (Part.timerFire t.val k)

end Sys2Proof.Machine
end

