-- ==== Sys2Proof/Machine/Dispatch.lean ====
section
/-!
DEFINITION. The meaning of each command: one arm per constructor.
-/
namespace Sys2Proof.Machine

def exec (i : Instr) (s : State) : Host.Outcome State Fault Refusal :=
  match i with
  | .alu t rd ra rb fn => Sys2Proof.Machine.execAlu t rd ra rb fn s
  | .sel t rd ra rb fn => Sys2Proof.Machine.execSel t rd ra rb fn s
  | .addi t rd ra imm => Sys2Proof.Machine.execAddi t rd ra imm s
  | .andi t rd ra imm => Sys2Proof.Machine.execAndi t rd ra imm s
  | .ori t rd ra imm => Sys2Proof.Machine.execOri t rd ra imm s
  | .xori t rd ra imm => Sys2Proof.Machine.execXori t rd ra imm s
  | .shi t rd ra imm => Sys2Proof.Machine.execShi t rd ra imm s
  | .lhi t rd ra imm => Sys2Proof.Machine.execLhi t rd ra imm s
  | .insh t rd ra imm => Sys2Proof.Machine.execInsh t rd ra imm s
  | .addpc t rd ra imm => Sys2Proof.Machine.execAddpc t rd ra imm s
  | .cmp t cd cc ra rb low => Sys2Proof.Machine.execCmp t cd cc ra rb low s
  | .cmpi t cd cc ra imm => Sys2Proof.Machine.execCmpi t cd cc ra imm s
  | .clog t cd cc ca cb z1 z2 => Sys2Proof.Machine.execClog t cd cc ca cb z1 z2 s
  | .ldb t rd ra imm => Sys2Proof.Machine.execLdb t rd ra imm s
  | .ldbu t rd ra imm => Sys2Proof.Machine.execLdbu t rd ra imm s
  | .ldh t rd ra imm => Sys2Proof.Machine.execLdh t rd ra imm s
  | .ldhu t rd ra imm => Sys2Proof.Machine.execLdhu t rd ra imm s
  | .ldw t rd ra imm => Sys2Proof.Machine.execLdw t rd ra imm s
  | .ldwu t rd ra imm => Sys2Proof.Machine.execLdwu t rd ra imm s
  | .ldd t rd ra imm => Sys2Proof.Machine.execLdd t rd ra imm s
  | .stb t rd ra imm => Sys2Proof.Machine.execStb t rd ra imm s
  | .sth t rd ra imm => Sys2Proof.Machine.execSth t rd ra imm s
  | .stw t rd ra imm => Sys2Proof.Machine.execStw t rd ra imm s
  | .std t rd ra imm => Sys2Proof.Machine.execStd t rd ra imm s
  | .ldAq t rd ra rb sz zx z => Sys2Proof.Machine.execLdAq t rd ra rb sz zx z s
  | .stl t rd ra rb sz zx z => Sys2Proof.Machine.execStl t rd ra rb sz zx z s
  | .amo t rd ra rb fn => Sys2Proof.Machine.execAmo t rd ra rb fn s
  | .brt t cs disp => Sys2Proof.Machine.execBrt t cs disp s
  | .brf t cs disp => Sys2Proof.Machine.execBrf t cs disp s
  | .jmp t disp => Sys2Proof.Machine.execJmp t disp s
  | .call t disp => Sys2Proof.Machine.execCall t disp s
  | .jr t rd ra rb fn => Sys2Proof.Machine.execJr t rd ra rb fn s
  | .callr t rd ra rb fn => Sys2Proof.Machine.execCallr t rd ra rb fn s
  | .loop t lv immForm cnt len => Sys2Proof.Machine.execLoop t lv immForm cnt len s
  | .srd t rd ra sr => Sys2Proof.Machine.execSrd t rd ra sr s
  | .swr t rd ra sr => Sys2Proof.Machine.execSwr t rd ra sr s
  | .srset t rd ra sr => Sys2Proof.Machine.execSrset t rd ra sr s
  | .srclr t rd ra sr => Sys2Proof.Machine.execSrclr t rd ra sr s
  | .trap t rd ra code => Sys2Proof.Machine.execTrap t rd ra code s
  | .brk t rd ra code => Sys2Proof.Machine.execBrk t rd ra code s
  | .retx t rd ra sr => Sys2Proof.Machine.execRetx t rd ra sr s
  | .wait t rd ra sr => Sys2Proof.Machine.execWait t rd ra sr s
  | .waitWake t => Sys2Proof.Machine.execWaitWake t s
  | .fence t rd ra sr => Sys2Proof.Machine.execFence t rd ra sr s
  | .dfence t rd ra sr => Sys2Proof.Machine.execDfence t rd ra sr s
  | .isync t rd ra sr => Sys2Proof.Machine.execIsync t rd ra sr s
  | .tsync t rd ra sr => Sys2Proof.Machine.execTsync t rd ra sr s
  | .prefr t ra imm => Sys2Proof.Machine.execPrefr t ra imm s
  | .prefw t ra imm => Sys2Proof.Machine.execPrefw t ra imm s
  | .prefi t ra imm => Sys2Proof.Machine.execPrefi t ra imm s
  | .clean t ra imm => Sys2Proof.Machine.execClean t ra imm s
  | .flush t ra imm => Sys2Proof.Machine.execFlush t ra imm s
  | .inval t ra imm => Sys2Proof.Machine.execInval t ra imm s
  | .zero t ra imm => Sys2Proof.Machine.execZero t ra imm s
  | .iinv t ra imm => Sys2Proof.Machine.execIinv t ra imm s
  | .tinvPage t rd ra rb loc z => Sys2Proof.Machine.execTinvPage t rd ra rb loc z s
  | .tinvPageany t rd ra rb loc z => Sys2Proof.Machine.execTinvPageany t rd ra rb loc z s
  | .tinvSpace t rd ra rb loc z => Sys2Proof.Machine.execTinvSpace t rd ra rb loc z s
  | .tinvStage1 t rd ra rb loc z => Sys2Proof.Machine.execTinvStage1 t rd ra rb loc z s
  | .tinvGpage t rd ra rb loc z => Sys2Proof.Machine.execTinvGpage t rd ra rb loc z s
  | .tinvGuest t rd ra rb loc z => Sys2Proof.Machine.execTinvGuest t rd ra rb loc z s
  | .tinvEvery t rd ra rb loc z => Sys2Proof.Machine.execTinvEvery t rd ra rb loc z s
  | .vint t rd ra rb fn => Sys2Proof.Machine.execVint t rd ra rb fn s
  | .vfp t rd ra rb fn => Sys2Proof.Machine.execVfp t rd ra rb fn s
  | .sfp t rd ra rb fn => Sys2Proof.Machine.execSfp t rd ra rb fn s
  | .fma t rd ra rb fn => Sys2Proof.Machine.execFma t rd ra rb fn s
  | .vcvt t rd ra rb fn => Sys2Proof.Machine.execVcvt t rd ra rb fn s
  | .vperm t rd ra rb fn => Sys2Proof.Machine.execVperm t rd ra rb fn s
  | .vcmp t cd cc va vb et mk z => Sys2Proof.Machine.execVcmp t cd cc va vb et mk z s
  | .fcmp t cd cc va vb ft z => Sys2Proof.Machine.execFcmp t cd cc va vb ft z s
  | .mop t rd ra rb fn => Sys2Proof.Machine.execMop t rd ra rb fn s
  | .vld t rd ra imm => Sys2Proof.Machine.execVld t rd ra imm s
  | .vst t rd ra imm => Sys2Proof.Machine.execVst t rd ra imm s
  | .vmem t rd ra rb fn => Sys2Proof.Machine.execVmem t rd ra rb fn s
  | .interruptTaken t => Sys2Proof.Machine.execInterruptTaken t s
  | .machineCheckTaken t => Sys2Proof.Machine.execMachineCheckTaken t s
  | .icclaimRead t view rd => Sys2Proof.Machine.execIcclaimRead t view rd s
  | .iccfgWrite t view ra => Sys2Proof.Machine.execIccfgWrite t view ra s
  | .icipiWrite t view ra => Sys2Proof.Machine.execIcipiWrite t view ra s
  | .doorbellWrite t data size init => Sys2Proof.Machine.execDoorbellWrite t data size init s
  | .unitIpi skt t vec => Sys2Proof.Machine.execUnitIpi skt t vec s
  | .timerFire t k => Sys2Proof.Machine.execTimerFire t k s
  | .reseedF c m => Sys2Proof.Machine.execReseedF c m s
  | .reseedH c m => Sys2Proof.Machine.execReseedH c m s
  | .btbFlush c m => Sys2Proof.Machine.execBtbFlush c m s
  | .coreCfgWrite c v m => Sys2Proof.Machine.execCoreCfgWrite c v m s
  | .corePlumbWrite c v m => Sys2Proof.Machine.execCorePlumbWrite c v m s
  | .atsTranslationRequest n rid psid priv addr => Sys2Proof.Machine.execAtsTranslationRequest n rid psid priv addr s
  | .iotInvAll u m => Sys2Proof.Machine.execIotInvAll u m s
  | .iotInvDevice u rid m => Sys2Proof.Machine.execIotInvDevice u rid m s
  | .iotInvDomain u dom m => Sys2Proof.Machine.execIotInvDomain u dom m s
  | .iotInvPsid u dom psid m => Sys2Proof.Machine.execIotInvPsid u dom psid m s
  | .iotInvPsidAddr u dom psid addr m => Sys2Proof.Machine.execIotInvPsidAddr u dom psid addr m s
  | .iotInvDomainAddr u dom addr m => Sys2Proof.Machine.execIotInvDomainAddr u dom addr m s
  | .iotInvComplete u => Sys2Proof.Machine.execIotInvComplete u s
  | .atsInvalidationCompletion u rid => Sys2Proof.Machine.execAtsInvalidationCompletion u rid s
  | .atsTimeout u rid => Sys2Proof.Machine.execAtsTimeout u rid s
  | .mergeDrain c idx => Sys2Proof.Machine.execMergeDrain c idx s
  | .hwPrefetch t va toL2 => Sys2Proof.Machine.execHwPrefetch t va toL2 s
  | .llcWaypwrWrite k on m => Sys2Proof.Machine.execLlcWaypwrWrite k on m s
  | .wayGroupCleaned k g => Sys2Proof.Machine.execWayGroupCleaned k g s
  | .wayGroupWoken k g => Sys2Proof.Machine.execWayGroupWoken k g s
  | .llcMaintClean k groups m => Sys2Proof.Machine.execLlcMaintClean k groups m s
  | .llcMaintFlush k groups m => Sys2Proof.Machine.execLlcMaintFlush k groups m s
  | .llcSweepDone k => Sys2Proof.Machine.execLlcSweepDone k s
  | .epochTick => Sys2Proof.Machine.execEpochTick s
  | .tickLost tile => Sys2Proof.Machine.execTickLost tile s
  | .torusCrcError tile port times => Sys2Proof.Machine.execTorusCrcError tile port times s
  | .fabStatClear tile freeze m => Sys2Proof.Machine.execFabStatClear tile freeze m s
  | .rds q => Sys2Proof.Machine.execRds q s
  | .rdo q => Sys2Proof.Machine.execRdo q s
  | .upg q => Sys2Proof.Machine.execUpg q s
  | .own q => Sys2Proof.Machine.execOwn q s
  | .rdna q => Sys2Proof.Machine.execRdna q s
  | .wrna q => Sys2Proof.Machine.execWrna q s
  | .wrnap q => Sys2Proof.Machine.execWrnap q s
  | .wbm q => Sys2Proof.Machine.execWbm q s
  | .wbc q => Sys2Proof.Machine.execWbc q s
  | .amof q => Sys2Proof.Machine.execAmof q s
  | .pwt q => Sys2Proof.Machine.execPwt q s
  | .cmoc q => Sys2Proof.Machine.execCmoc q s
  | .cmof q => Sys2Proof.Machine.execCmof q s
  | .cmoi q => Sys2Proof.Machine.execCmoi q s
  | .cmoii q => Sys2Proof.Machine.execCmoii q s
  | .drd q => Sys2Proof.Machine.execDrd q s
  | .dwr q => Sys2Proof.Machine.execDwr q s
  | .mrd q => Sys2Proof.Machine.execMrd q s
  | .mwr q => Sys2Proof.Machine.execMwr q s
  | .mpwt q => Sys2Proof.Machine.execMpwt q s
  | .snps q => Sys2Proof.Machine.execSnps q s
  | .snpo q => Sys2Proof.Machine.execSnpo q s
  | .snpi q => Sys2Proof.Machine.execSnpi q s
  | .snpna q => Sys2Proof.Machine.execSnpna q s
  | .snpc q => Sys2Proof.Machine.execSnpc q s
  | .snpf q => Sys2Proof.Machine.execSnpf q s
  | .snpii q => Sys2Proof.Machine.execSnpii q s
  | .snpbi q => Sys2Proof.Machine.execSnpbi q s
  | .tinv q core => Sys2Proof.Machine.execTinv q core s
  | .ipi skt t vec level vm vmid => Sys2Proof.Machine.execIpi skt t vec level vm vmid s
  | .ds q => Sys2Proof.Machine.execDs q s
  | .de q => Sys2Proof.Machine.execDe q s
  | .dm q => Sys2Proof.Machine.execDm q s
  | .dna q => Sys2Proof.Machine.execDna q s
  | .gnt q => Sys2Proof.Machine.execGnt q s
  | .acki q => Sys2Proof.Machine.execAcki q s
  | .acks q => Sys2Proof.Machine.execAcks q s
  | .acko q => Sys2Proof.Machine.execAcko q s
  | .acke q => Sys2Proof.Machine.execAcke q s
  | .sdat q => Sys2Proof.Machine.execSdat q s
  | .cack q => Sys2Proof.Machine.execCack q s
  | .cmpResponse q => Sys2Proof.Machine.execCmpResponse q s
  | .amor q => Sys2Proof.Machine.execAmor q s
  | .pack q => Sys2Proof.Machine.execPack q s
  | .vis q => Sys2Proof.Machine.execVis q s
  | .drdr q => Sys2Proof.Machine.execDrdr q s
  | .waitListStart k line => Sys2Proof.Machine.execWaitListStart k line s
  | .homeTimeout k line => Sys2Proof.Machine.execHomeTimeout k line s
  | .deferralEnd c line => Sys2Proof.Machine.execDeferralEnd c line s
  | .coreDrainTimeout c => Sys2Proof.Machine.execCoreDrainTimeout c s
  | .channelTrained c ok speed ranks dpc gb => Sys2Proof.Machine.execChannelTrained c ok speed ranks dpc gb s
  | .ilvCommit m => Sys2Proof.Machine.execIlvCommit m s
  | .ilvApply => Sys2Proof.Machine.execIlvApply s
  | .refreshBoundary c => Sys2Proof.Machine.execRefreshBoundary c s
  | .scrubStep c ce ue rank device => Sys2Proof.Machine.execScrubStep c ce ue rank device s
  | .retrainDone c retries ok => Sys2Proof.Machine.execRetrainDone c retries ok s
  | .sparingCopyDone c => Sys2Proof.Machine.execSparingCopyDone c s
  | .pwbDrain d => Sys2Proof.Machine.execPwbDrain d s
  | .varCtlWrite idx arm m => Sys2Proof.Machine.execVarCtlWrite idx arm m s
  | .pwrfailNFall => Sys2Proof.Machine.execPwrfailNFall s
  | .gpfPhase1Ack => Sys2Proof.Machine.execGpfPhase1Ack s
  | .gpfPhase2Done => Sys2Proof.Machine.execGpfPhase2Done s
  | .gpfTimeout groups => Sys2Proof.Machine.execGpfTimeout groups s
  | .flushdone => Sys2Proof.Machine.execFlushdone s
  | .flushProgressReport => Sys2Proof.Machine.execFlushProgressReport s
  | .flushDomainSilent => Sys2Proof.Machine.execFlushDomainSilent s
  | .pwrfailNRise => Sys2Proof.Machine.execPwrfailNRise s
  | .vddBaseLow => Sys2Proof.Machine.execVddBaseLow s
  | .enumStart => Sys2Proof.Machine.execEnumStart s
  | .enumAssign frame => Sys2Proof.Machine.execEnumAssign frame s
  | .enumCommit frame => Sys2Proof.Machine.execEnumCommit frame s
  | .enumTimeout => Sys2Proof.Machine.execEnumTimeout s
  | .receiverDetect d => Sys2Proof.Machine.execReceiverDetect d s
  | .linkTrained d own partner => Sys2Proof.Machine.execLinkTrained d own partner s
  | .linkCheck d id link cnt tag last => Sys2Proof.Machine.execLinkCheck d id link cnt tag last s
  | .linkTrainTimeout d => Sys2Proof.Machine.execLinkTrainTimeout d s
  | .retrainLock d own partner => Sys2Proof.Machine.execRetrainLock d own partner s
  | .retrainFail d => Sys2Proof.Machine.execRetrainFail d s
  | .dvtCtlRetrain d m => Sys2Proof.Machine.execDvtCtlRetrain d m s
  | .dvtCtlEnWrite d en m => Sys2Proof.Machine.execDvtCtlEnWrite d en m s
  | .propose d id width group => Sys2Proof.Machine.execPropose d id width group s
  | .dvtFlit d f => Sys2Proof.Machine.execDvtFlit d f s
  | .nak d ack => Sys2Proof.Machine.execNak d ack s
  | .linkStateMessage d skt up weight sum => Sys2Proof.Machine.execLinkStateMessage d skt up weight sum s
  | .isolationHold => Sys2Proof.Machine.execIsolationHold s
  | .drain e cls => Sys2Proof.Machine.execDrain e cls s
  | .drainack e cls => Sys2Proof.Machine.execDrainack e cls s
  | .reinjectedMessage d seq q => Sys2Proof.Machine.execReinjectedMessage d seq q s
  | .reinjend d cls => Sys2Proof.Machine.execReinjend d cls s
  | .timeBroadcast => Sys2Proof.Machine.execTimeBroadcast s
  | .timeMessage d ref shares => Sys2Proof.Machine.execTimeMessage d ref shares s
  | .timeoutReport e line tile init => Sys2Proof.Machine.execTimeoutReport e line tile init s
  | .ilvMismatch skt => Sys2Proof.Machine.execIlvMismatch skt s
  | .pcieCompletion n tag st data pois => Sys2Proof.Machine.execPcieCompletion n tag st data pois s
  | .completionTimeout n tag => Sys2Proof.Machine.execCompletionTimeout n tag s
  | .inboundMemoryRead r len => Sys2Proof.Machine.execInboundMemoryRead r len s
  | .inboundMemoryWrite r data pois => Sys2Proof.Machine.execInboundMemoryWrite r data pois s
  | .inboundAtomicop n => Sys2Proof.Machine.execInboundAtomicop n s
  | .portReceiverDetect n => Sys2Proof.Machine.execPortReceiverDetect n s
  | .portTrained n speed width flit => Sys2Proof.Machine.execPortTrained n speed width flit s
  | .portRecovery n => Sys2Proof.Machine.execPortRecovery n s
  | .recoveryDone n ok speed width => Sys2Proof.Machine.execRecoveryDone n ok speed width s
  | .portL1Entry n => Sys2Proof.Machine.execPortL1Entry n s
  | .portL1Exit n => Sys2Proof.Machine.execPortL1Exit n s
  | .portLinkDown n => Sys2Proof.Machine.execPortLinkDown n s
  | .containmentTrigger n cause => Sys2Proof.Machine.execContainmentTrigger n cause s
  | .pciPortRelease n m => Sys2Proof.Machine.execPciPortRelease n m s
  | .pciPortRetrain n m => Sys2Proof.Machine.execPciPortRetrain n m s
  | .pciPortEnWrite n en m => Sys2Proof.Machine.execPciPortEnWrite n en m s
  | .pciGrpRstWrite g rst m => Sys2Proof.Machine.execPciGrpRstWrite g rst m s
  | .epHdbWrite v => Sys2Proof.Machine.execEpHdbWrite v s
  | .epHintWrite v m => Sys2Proof.Machine.execEpHintWrite v m s
  | .bmeClear => Sys2Proof.Machine.execBmeClear s
  | .bmeSet => Sys2Proof.Machine.execBmeSet s
  | .flrInitiate => Sys2Proof.Machine.execFlrInitiate s
  | .flrComplete => Sys2Proof.Machine.execFlrComplete s
  | .hotReset => Sys2Proof.Machine.execHotReset s
  | .perstChange low => Sys2Proof.Machine.execPerstChange low s
  | .macSignalDetect m => Sys2Proof.Machine.execMacSignalDetect m s
  | .anResolved m rate => Sys2Proof.Machine.execAnResolved m rate s
  | .macTrained m => Sys2Proof.Machine.execMacTrained m s
  | .macLockLost m => Sys2Proof.Machine.execMacLockLost m s
  | .netMacCfgWrite k v m => Sys2Proof.Machine.execNetMacCfgWrite k v m s
  | .frameReceived m data unc corr => Sys2Proof.Machine.execFrameReceived m data unc corr s
  | .pauseReceived m quanta => Sys2Proof.Machine.execPauseReceived m quanta s
  | .rxDelivery q => Sys2Proof.Machine.execRxDelivery q s
  | .rxwaitExpiry q => Sys2Proof.Machine.execRxwaitExpiry q s
  | .descriptorFetch q => Sys2Proof.Machine.execDescriptorFetch q s
  | .txFrameDepart n => Sys2Proof.Machine.execTxFrameDepart n s
  | .coalesceTimer q => Sys2Proof.Machine.execCoalesceTimer q s
  | .producerDoorbell q v size vmid host init => Sys2Proof.Machine.execProducerDoorbell q v size vmid host init s
  | .completionDoorbell q v size vmid host init => Sys2Proof.Machine.execCompletionDoorbell q v size vmid host init s
  | .queueEnable q clr m => Sys2Proof.Machine.execQueueEnable q clr m s
  | .queueDisable q clr m => Sys2Proof.Machine.execQueueDisable q clr m s
  | .queueRead q clr m => Sys2Proof.Machine.execQueueRead q clr m s
  | .queueAbort q clr m => Sys2Proof.Machine.execQueueAbort q clr m s
  | .queueDisabled q => Sys2Proof.Machine.execQueueDisabled q s
  | .flowcmdBucket b m => Sys2Proof.Machine.execFlowcmdBucket b m s
  | .flowcmdAll m => Sys2Proof.Machine.execFlowcmdAll m s
  | .flowcmdDone => Sys2Proof.Machine.execFlowcmdDone s
  | .netCtlRst rst m => Sys2Proof.Machine.execNetCtlRst rst m s
  | .descriptorAbandon q => Sys2Proof.Machine.execDescriptorAbandon q s
  | .keyLoad k m => Sys2Proof.Machine.execKeyLoad k m s
  | .keyErase k m => Sys2Proof.Machine.execKeyErase k m s
  | .keyEraseAll m => Sys2Proof.Machine.execKeyEraseAll m s
  | .keyCmdDone => Sys2Proof.Machine.execKeyCmdDone s
  | .venCreate idx m => Sys2Proof.Machine.execVenCreate idx m s
  | .venReset idx m => Sys2Proof.Machine.execVenReset idx m s
  | .venDestroy idx m => Sys2Proof.Machine.execVenDestroy idx m s
  | .venRevoke idx res m => Sys2Proof.Machine.execVenRevoke idx res m s
  | .venMcmdDone idx => Sys2Proof.Machine.execVenMcmdDone idx s
  | .venQuotaWrite idx r v m => Sys2Proof.Machine.execVenQuotaWrite idx r v m s
  | .venQueueEnable idx index m => Sys2Proof.Machine.execVenQueueEnable idx index m s
  | .venQueueDisable idx index m => Sys2Proof.Machine.execVenQueueDisable idx index m s
  | .venQueueRead idx index m => Sys2Proof.Machine.execVenQueueRead idx index m s
  | .venQueueAbort idx index m => Sys2Proof.Machine.execVenQueueAbort idx index m s
  | .venFlowInstall idx index m => Sys2Proof.Machine.execVenFlowInstall idx index m s
  | .venFlowRemove idx index m => Sys2Proof.Machine.execVenFlowRemove idx index m s
  | .venKeyLoad idx index m => Sys2Proof.Machine.execVenKeyLoad idx index m s
  | .venKeyErase idx index m => Sys2Proof.Machine.execVenKeyErase idx index m s
  | .venCounterBind idx index m => Sys2Proof.Machine.execVenCounterBind idx index m s
  | .venCounterUnbind idx index m => Sys2Proof.Machine.execVenCounterUnbind idx index m s
  | .outsend idx m => Sys2Proof.Machine.execOutsend idx m s
  | .outack idx m => Sys2Proof.Machine.execOutack idx m s
  | .insend idx m => Sys2Proof.Machine.execInsend idx m s
  | .inack idx m => Sys2Proof.Machine.execInack idx m s
  | .standbyPowerOn bak => Sys2Proof.Machine.execStandbyPowerOn bak s
  | .stbySwitchToBak => Sys2Proof.Machine.execStbySwitchToBak s
  | .stbySwitchBack => Sys2Proof.Machine.execStbySwitchBack s
  | .standbyLoss => Sys2Proof.Machine.execStandbyLoss s
  | .refclkLoss => Sys2Proof.Machine.execRefclkLoss s
  | .refclkReturn => Sys2Proof.Machine.execRefclkReturn s
  | .cappingIteration power avg steps => Sys2Proof.Machine.execCappingIteration power avg steps s
  | .vrhotAssert => Sys2Proof.Machine.execVrhotAssert s
  | .vrhotRelease => Sys2Proof.Machine.execVrhotRelease s
  | .pwrPlWrite w m => Sys2Proof.Machine.execPwrPlWrite w m s
  | .clkAllcoreWrite fmax fmin m => Sys2Proof.Machine.execClkAllcoreWrite fmax fmin m s
  | .tileOffRequest tile off m => Sys2Proof.Machine.execTileOffRequest tile off m s
  | .pwrBoffWrite off m => Sys2Proof.Machine.execPwrBoffWrite off m s
  | .pwrCModeWrite c mode idlet m => Sys2Proof.Machine.execPwrCModeWrite c mode idlet m s
  | .coreIdleOff c => Sys2Proof.Machine.execCoreIdleOff c s
  | .coreWake c => Sys2Proof.Machine.execCoreWake c s
  | .coreReset c m => Sys2Proof.Machine.execCoreReset c m s
  | .tileReset tile m => Sys2Proof.Machine.execTileReset tile m s
  | .rstinNFall long => Sys2Proof.Machine.execRstinNFall long s
  | .rstinNRise master => Sys2Proof.Machine.execRstinNRise master s
  | .bootCoreRelease => Sys2Proof.Machine.execBootCoreRelease s
  | .recoveryImage idx => Sys2Proof.Machine.execRecoveryImage idx s
  | .coreStart t pc m => Sys2Proof.Machine.execCoreStart t pc m s
  | .logRead n m => Sys2Proof.Machine.execLogRead n m s
  | .warmReset whole m => Sys2Proof.Machine.execWarmReset whole m s
  | .thermalSample readings => Sys2Proof.Machine.execThermalSample readings s
  | .thermalRecover d => Sys2Proof.Machine.execThermalRecover d s
  | .windowExpiry tile src => Sys2Proof.Machine.execWindowExpiry tile src s
  | .escalationStart tile => Sys2Proof.Machine.execEscalationStart tile s
  | .fieldTestStart => Sys2Proof.Machine.execFieldTestStart s
  | .coreTestDone c res => Sys2Proof.Machine.execCoreTestDone c res s
  | .sliceTestDone k bad => Sys2Proof.Machine.execSliceTestDone k bad s
  | .prmTestCore target m => Sys2Proof.Machine.execPrmTestCore target m s
  | .prmTestSlice target m => Sys2Proof.Machine.execPrmTestSlice target m s
  | .prmSpareCore target m => Sys2Proof.Machine.execPrmSpareCore target m s
  | .prmSliceOut target m => Sys2Proof.Machine.execPrmSliceOut target m s
  | .prmFullTest m => Sys2Proof.Machine.execPrmFullTest m s
  | .prmRestoreCore target m => Sys2Proof.Machine.execPrmRestoreCore target m s
  | .prmRestoreSlice target m => Sys2Proof.Machine.execPrmRestoreSlice target m s
  | .prmAudit m => Sys2Proof.Machine.execPrmAudit m s
  | .auditQuiescent => Sys2Proof.Machine.execAuditQuiescent s
  | .auditTimeout => Sys2Proof.Machine.execAuditTimeout s
  | .voteScrub tile page word copy diff => Sys2Proof.Machine.execVoteScrub tile page word copy diff s
  | .rasLogRead tile idx m => Sys2Proof.Machine.execRasLogRead tile idx m s
  | .perfCtlClr tile freeze m => Sys2Proof.Machine.execPerfCtlClr tile freeze m s
  | .perfGctlWrite run clrall snap m => Sys2Proof.Machine.execPerfGctlWrite run clrall snap m s
  | .snapshotDue => Sys2Proof.Machine.execSnapshotDue s
  | .snapshotDone => Sys2Proof.Machine.execSnapshotDone s
  | .bwSelectWrite b v m => Sys2Proof.Machine.execBwSelectWrite b v m s
  | .bwWindowEnd b n => Sys2Proof.Machine.execBwWindowEnd b n s
  | .registerWrite tile page off size v m => Sys2Proof.Machine.execRegisterWrite tile page off size v m s
  | .dvtLaneLockLoss d => Sys2Proof.Machine.execDvtLaneLockLoss d s
  | .cxlMemResponse g data pois => Sys2Proof.Machine.execCxlMemResponse g data pois s
  | .channelReadDone c ce ue rank device => Sys2Proof.Machine.execChannelReadDone c ce ue rank device s
  | .writeQueueDrain c => Sys2Proof.Machine.execWriteQueueDrain c s
  | .pauseQuantaExpiry m => Sys2Proof.Machine.execPauseQuantaExpiry m s
  | .bootHoldRelease => Sys2Proof.Machine.execBootHoldRelease s
  | .bootImageChecked primary backup => Sys2Proof.Machine.execBootImageChecked primary backup s
  | .primerBootChecksDone cores slices => Sys2Proof.Machine.execPrimerBootChecksDone cores slices s

end Sys2Proof.Machine
end

