-- ==== Sys2Proof/WellFormed.lean ====
section
/-!
DEFINITION. What a well-formed command is: operands that the wire, the bus or the sensor it stands for can carry. A meaning is
defined on every command; a command that is not well-formed stands for nothing that can happen to the part.
-/
namespace Sys2Proof
open Machine

/-- A size of an access in bytes (R541): a power of two up to a line. -/
def sizeOk (n : Nat) : Bool := [1, 2, 4, 8, 16, 32, 64].contains n

/-- A rate code and a width of a PCIe link (R398). -/
def linkOk (speed width : Nat) : Bool := decide (1 ≤ speed ∧ speed ≤ 6) && [1, 2, 4, 8, 16].contains width

/-- A message has the code of its row (R287), and fields that fit the header (R251, R252). -/
def msgOk (m : Msg) (o : Opc) : Bool :=
  decide (m.opc = o) && decide (m.addr < 2 ^ 52) && decide (m.sz ≤ 6) && decide (m.vmid < 2 ^ 12)
    && decide (m.src.skt < 16) && decide (m.src.tile < 144) && decide (m.src.init < 16)

/-- An inbound request's fields fit (R210, R382). -/
def Machine.InReq.ok (r : InReq) : Bool :=
  decide (r.port < 64) && decide (r.rid < 2 ^ 16) && r.psid.all (fun x => decide (x < 2 ^ 20))

/-- The bytes of an inbound request: at most `limit`, and not across a 4 KB boundary. -/
def spanOk (a : InAddr) (len limit : Nat) : Bool :=
  let off := match a with | .mem x => x | .bar0 x => x | .bar2 x => x | .rom x => x | .cfg x => x
  decide (1 ≤ len) && decide (len ≤ limit) && decide (off % 4096 + len ≤ 4096)

/-- The command is well-formed. -/
def Instr.wf (i : Instr) : Bool :=
  match i with
  | .alu _ _ _ _ _ => true
  | .sel _ _ _ _ _ => true
  | .addi _ _ _ _ => true
  | .andi _ _ _ _ => true
  | .ori _ _ _ _ => true
  | .xori _ _ _ _ => true
  | .shi _ _ _ _ => true
  | .lhi _ _ _ _ => true
  | .insh _ _ _ _ => true
  | .addpc _ _ _ _ => true
  | .cmp _ _ _ _ _ _ => true
  | .cmpi _ _ _ _ _ => true
  | .clog _ _ _ _ _ _ _ => true
  | .ldb _ _ _ _ => true
  | .ldbu _ _ _ _ => true
  | .ldh _ _ _ _ => true
  | .ldhu _ _ _ _ => true
  | .ldw _ _ _ _ => true
  | .ldwu _ _ _ _ => true
  | .ldd _ _ _ _ => true
  | .stb _ _ _ _ => true
  | .sth _ _ _ _ => true
  | .stw _ _ _ _ => true
  | .std _ _ _ _ => true
  | .ldAq _ _ _ _ _ _ _ => true
  | .stl _ _ _ _ _ _ _ => true
  | .amo _ _ _ _ _ => true
  | .brt _ _ _ => true
  | .brf _ _ _ => true
  | .jmp _ _ => true
  | .call _ _ => true
  | .jr _ _ _ _ _ => true
  | .callr _ _ _ _ _ => true
  | .loop _ _ _ _ _ => true
  | .srd _ _ _ _ => true
  | .swr _ _ _ _ => true
  | .srset _ _ _ _ => true
  | .srclr _ _ _ _ => true
  | .trap _ _ _ _ => true
  | .brk _ _ _ _ => true
  | .retx _ _ _ _ => true
  | .wait _ _ _ _ => true
  | .waitWake _ => true
  | .fence _ _ _ _ => true
  | .dfence _ _ _ _ => true
  | .isync _ _ _ _ => true
  | .tsync _ _ _ _ => true
  | .prefr _ _ _ => true
  | .prefw _ _ _ => true
  | .prefi _ _ _ => true
  | .clean _ _ _ => true
  | .flush _ _ _ => true
  | .inval _ _ _ => true
  | .zero _ _ _ => true
  | .iinv _ _ _ => true
  | .tinvPage _ _ _ _ _ _ => true
  | .tinvPageany _ _ _ _ _ _ => true
  | .tinvSpace _ _ _ _ _ _ => true
  | .tinvStage1 _ _ _ _ _ _ => true
  | .tinvGpage _ _ _ _ _ _ => true
  | .tinvGuest _ _ _ _ _ _ => true
  | .tinvEvery _ _ _ _ _ _ => true
  | .vint _ _ _ _ _ => true
  | .vfp _ _ _ _ _ => true
  | .sfp _ _ _ _ _ => true
  | .fma _ _ _ _ _ => true
  | .vcvt _ _ _ _ _ => true
  | .vperm _ _ _ _ _ => true
  | .vcmp _ _ _ _ _ _ _ _ => true
  | .fcmp _ _ _ _ _ _ _ => true
  | .mop _ _ _ _ _ => true
  | .vld _ _ _ _ => true
  | .vst _ _ _ _ => true
  | .vmem _ _ _ _ _ => true
  | .interruptTaken _ => true
  | .machineCheckTaken _ => true
  | .icclaimRead _ _ _ => true
  | .iccfgWrite _ _ _ => true
  | .icipiWrite _ _ _ => true
  | .doorbellWrite _ _ size _ => sizeOk size
  | .unitIpi _ _ _ => true
  | .timerFire _ _ => true
  | .reseedF _ _ => true
  | .reseedH _ _ => true
  | .btbFlush _ _ => true
  | .coreCfgWrite _ _ _ => true
  | .corePlumbWrite _ _ _ => true
  | .atsTranslationRequest _ _ _ _ _ => true
  | .iotInvAll _ _ => true
  | .iotInvDevice _ _ _ => true
  | .iotInvDomain _ _ _ => true
  | .iotInvPsid _ _ _ _ => true
  | .iotInvPsidAddr _ _ _ _ _ => true
  | .iotInvDomainAddr _ _ _ _ => true
  | .iotInvComplete _ => true
  | .atsInvalidationCompletion _ _ => true
  | .atsTimeout _ _ => true
  | .mergeDrain _ _ => true
  | .hwPrefetch _ _ _ => true
  | .llcWaypwrWrite _ _ _ => true
  | .wayGroupCleaned _ _ => true
  | .wayGroupWoken _ _ => true
  | .llcMaintClean _ _ _ => true
  | .llcMaintFlush _ _ _ => true
  | .llcSweepDone _ => true
  | .epochTick => true
  | .tickLost _ => true
  | .torusCrcError _ _ times => decide (1 ≤ times)
  | .fabStatClear _ _ _ => true
  | .rds q => msgOk q .rds
  | .rdo q => msgOk q .rdo
  | .upg q => msgOk q .upg
  | .own q => msgOk q .own
  | .rdna q => msgOk q .rdna
  | .wrna q => msgOk q .wrna
  | .wrnap q => msgOk q .wrnap
  | .wbm q => msgOk q .wbm
  | .wbc q => msgOk q .wbc
  | .amof q => msgOk q .amof
  | .pwt q => msgOk q .pwt
  | .cmoc q => msgOk q .cmoc
  | .cmof q => msgOk q .cmof
  | .cmoi q => msgOk q .cmoi
  | .cmoii q => msgOk q .cmoii
  | .drd q => msgOk q .drd
  | .dwr q => msgOk q .dwr
  | .mrd q => msgOk q .mrd
  | .mwr q => msgOk q .mwr
  | .mpwt q => msgOk q .mpwt
  | .snps q => msgOk q .snps
  | .snpo q => msgOk q .snpo
  | .snpi q => msgOk q .snpi
  | .snpna q => msgOk q .snpna
  | .snpc q => msgOk q .snpc
  | .snpf q => msgOk q .snpf
  | .snpii q => msgOk q .snpii
  | .snpbi q => msgOk q .snpbi
  | .tinv q _ => msgOk q .tinv
  | .ipi _ _ _ _ _ _ => true
  | .ds q => msgOk q .ds
  | .de q => msgOk q .de
  | .dm q => msgOk q .dm
  | .dna q => msgOk q .dna
  | .gnt q => msgOk q .gnt
  | .acki q => msgOk q .acki
  | .acks q => msgOk q .acks
  | .acko q => msgOk q .acko
  | .acke q => msgOk q .acke
  | .sdat q => msgOk q .sdat
  | .cack q => msgOk q .cack
  | .cmpResponse q => msgOk q .cmp
  | .amor q => msgOk q .amor
  | .pack q => msgOk q .pack
  | .vis q => msgOk q .vis
  | .drdr q => msgOk q .drdr
  | .waitListStart _ _ => true
  | .homeTimeout _ _ => true
  | .deferralEnd _ _ => true
  | .coreDrainTimeout _ => true
  | .channelTrained _ _ speed ranks dpc gb => decide (speed < 256) && decide (ranks ≤ 8) && decide (1 ≤ dpc ∧ dpc ≤ 2) && decide (gb ≤ 512)
  | .ilvCommit _ => true
  | .ilvApply => true
  | .refreshBoundary _ => true
  | .scrubStep _ _ _ rank device => decide (rank < 8) && decide (device < 10)
  | .retrainDone _ _ _ => true
  | .sparingCopyDone c => c.errs.all (fun x => decide (x.1 % 64 = 0))
  | .pwbDrain _ => true
  | .varCtlWrite _ _ _ => true
  | .pwrfailNFall => true
  | .gpfPhase1Ack => true
  | .gpfPhase2Done => true
  | .gpfTimeout _ => true
  | .flushdone => true
  | .flushProgressReport => true
  | .flushDomainSilent => true
  | .pwrfailNRise => true
  | .vddBaseLow => true
  | .enumStart => true
  | .enumAssign _ => true
  | .enumCommit _ => true
  | .enumTimeout => true
  | .receiverDetect _ => true
  | .linkTrained _ _ _ => true
  | .linkCheck _ id link cnt tag _ => decide (id < 16) && decide (link < 4) && decide (cnt ≤ 16) && decide (tag < 2 ^ 16)
  | .linkTrainTimeout _ => true
  | .retrainLock _ _ _ => true
  | .retrainFail _ => true
  | .dvtCtlRetrain _ _ => true
  | .dvtCtlEnWrite _ _ _ => true
  | .propose _ _ _ _ => true
  | .dvtFlit _ f => decide (f.msgs.length ≤ 7) && (decide (f.ty = 0) || f.msgs.isEmpty)
  | .nak _ _ => true
  | .linkStateMessage _ _ _ _ _ => true
  | .isolationHold => true
  | .drain _ _ => true
  | .drainack _ _ => true
  | .reinjectedMessage _ _ _ => true
  | .reinjend _ _ => true
  | .timeBroadcast => true
  | .timeMessage _ _ shares => decide (shares.length ≤ 16) && shares.all (fun w => decide (w < 2 ^ 10))
  | .timeoutReport _ _ _ _ => true
  | .ilvMismatch _ => true
  | .pcieCompletion _ _ _ _ _ => true
  | .completionTimeout _ _ => true
  | .inboundMemoryRead r len => r.ok && spanOk r.addr len 4096
  | .inboundMemoryWrite r data _ => r.ok && spanOk r.addr data.length 512
  | .inboundAtomicop _ => true
  | .portReceiverDetect _ => true
  | .portTrained _ speed width _ => linkOk speed width
  | .portRecovery _ => true
  | .recoveryDone _ ok speed width => !ok || linkOk speed width
  | .portL1Entry _ => true
  | .portL1Exit _ => true
  | .portLinkDown _ => true
  | .containmentTrigger _ _ => true
  | .pciPortRelease _ _ => true
  | .pciPortRetrain _ _ => true
  | .pciPortEnWrite _ _ _ => true
  | .pciGrpRstWrite _ _ _ => true
  | .epHdbWrite _ => true
  | .epHintWrite _ _ => true
  | .bmeClear => true
  | .bmeSet => true
  | .flrInitiate => true
  | .flrComplete => true
  | .hotReset => true
  | .perstChange _ => true
  | .macSignalDetect _ => true
  | .anResolved _ rate => decide (rate ≤ 3)
  | .macTrained _ => true
  | .macLockLost _ => true
  | .netMacCfgWrite _ _ _ => true
  | .frameReceived _ data _ _ => !data.isEmpty
  | .pauseReceived _ _ => true
  | .rxDelivery _ => true
  | .rxwaitExpiry _ => true
  | .descriptorFetch _ => true
  | .txFrameDepart _ => true
  | .coalesceTimer _ => true
  | .producerDoorbell _ _ size _ _ _ => sizeOk size
  | .completionDoorbell _ _ size _ _ _ => sizeOk size
  | .queueEnable _ _ _ => true
  | .queueDisable _ _ _ => true
  | .queueRead _ _ _ => true
  | .queueAbort _ _ _ => true
  | .queueDisabled _ => true
  | .flowcmdBucket _ _ => true
  | .flowcmdAll _ => true
  | .flowcmdDone => true
  | .netCtlRst _ _ => true
  | .descriptorAbandon _ => true
  | .keyLoad _ _ => true
  | .keyErase _ _ => true
  | .keyEraseAll _ => true
  | .keyCmdDone => true
  | .venCreate _ _ => true
  | .venReset _ _ => true
  | .venDestroy _ _ => true
  | .venRevoke _ _ _ => true
  | .venMcmdDone _ => true
  | .venQuotaWrite _ _ _ _ => true
  | .venQueueEnable _ _ _ => true
  | .venQueueDisable _ _ _ => true
  | .venQueueRead _ _ _ => true
  | .venQueueAbort _ _ _ => true
  | .venFlowInstall _ _ _ => true
  | .venFlowRemove _ _ _ => true
  | .venKeyLoad _ _ _ => true
  | .venKeyErase _ _ _ => true
  | .venCounterBind _ _ _ => true
  | .venCounterUnbind _ _ _ => true
  | .outsend _ _ => true
  | .outack _ _ => true
  | .insend _ _ => true
  | .inack _ _ => true
  | .standbyPowerOn _ => true
  | .stbySwitchToBak => true
  | .stbySwitchBack => true
  | .standbyLoss => true
  | .refclkLoss => true
  | .refclkReturn => true
  | .cappingIteration _ _ _ => true
  | .vrhotAssert => true
  | .vrhotRelease => true
  | .pwrPlWrite _ _ => true
  | .clkAllcoreWrite _ _ _ => true
  | .tileOffRequest _ _ _ => true
  | .pwrBoffWrite _ _ => true
  | .pwrCModeWrite _ _ _ _ => true
  | .coreIdleOff _ => true
  | .coreWake _ => true
  | .coreReset _ _ => true
  | .tileReset _ _ => true
  | .rstinNFall _ => true
  | .rstinNRise _ => true
  | .bootCoreRelease => true
  | .recoveryImage _ => true
  | .coreStart _ _ _ => true
  | .logRead _ _ => true
  | .warmReset _ _ => true
  | .thermalSample readings => decide (readings.length = 144)
  | .thermalRecover _ => true
  | .windowExpiry _ _ => true
  | .escalationStart _ => true
  | .fieldTestStart => true
  | .coreTestDone _ res => match res with | .way w => decide (w < 8) | _ => true
  | .sliceTestDone _ _ => true
  | .prmTestCore _ _ => true
  | .prmTestSlice _ _ => true
  | .prmSpareCore _ _ => true
  | .prmSliceOut _ _ => true
  | .prmFullTest _ => true
  | .prmRestoreCore _ _ => true
  | .prmRestoreSlice _ _ => true
  | .prmAudit _ => true
  | .auditQuiescent => true
  | .auditTimeout => true
  | .voteScrub _ _ _ _ _ => true
  | .rasLogRead _ _ _ => true
  | .perfCtlClr _ _ _ => true
  | .perfGctlWrite _ _ _ _ => true
  | .snapshotDue => true
  | .snapshotDone => true
  | .bwSelectWrite _ _ _ => true
  | .bwWindowEnd _ _ => true
  | .registerWrite _ _ off size _ _ => sizeOk size && decide (off.toNat % size = 0)
  | .dvtLaneLockLoss _ => true
  | .cxlMemResponse _ _ _ => true
  | .channelReadDone _ _ _ rank device => decide (rank < 8) && decide (device < 10)
  | .writeQueueDrain _ => true
  | .pauseQuantaExpiry _ => true
  | .bootHoldRelease => true
  | .bootImageChecked _ _ => true
  | .primerBootChecksDone cores slices => cores.all (fun n => decide (n < 264)) && slices.all (fun n => decide (n < 132))

end Sys2Proof
end

