-- ==== Sys2Proof/Safety.lean ====
section
/-!
DEFINITION. What a good state is: tables in canonical form, memory above all, and well-formed commands waiting.
-/
namespace Sys2Proof

/-- The memory of a state is in canonical form. -/
def Machine.State.memWf (s : Machine.State) : Bool := Machine.Memory.wf s.part.mem

/-- Every command that waits is well-formed. -/
def Machine.State.queueWf (s : Machine.State) : Bool := s.pending.all (fun c => c.wf)

/-- A command has ended with the part `p`: the next state, after what follows every command (R308, R309). -/
def Machine.State.after (s : Machine.State) (p : Machine.Part) : Host.Outcome Machine.State Machine.Fault Machine.Refusal :=
  .next { s with part := p.settle }

/-- Thread `t` starts an instruction and its fetch raises nothing: `q` is the part with the word fetched. -/
def Machine.Part.fetched (p : Machine.Part) (t : Nat) (q : Machine.Part) : Prop :=
  p.startable t = true ∧ p.fetch t = .ok q

/-- The instruction that thread `t` has fetched is no delay slot and ends no active loop body: what a transfer, LOOP,
RETX and TRAP ask (R100, R129). -/
def Machine.Part.plainSite (q : Machine.Part) (t : Nat) : Prop :=
  (q.thread t).slot = none ∧ (q.thread t).atLoopEnd = false

/-- The instruction at the pc of thread `t` retires from the part `r`, with the next word behind it (R82, R139). -/
def Machine.Part.retires (r : Machine.Part) (t cost : Nat) : Machine.Part :=
  r.retireNext t cost ((r.thread t).pc + 4)

/-- The message `q` that a command names is acted on now: the torus holds it up no longer, or it comes from an agent outside the
part; it is `m`, and `r` is the part without it (R250, R256). -/
def Machine.Part.receives (p : Machine.Part) (q m : Machine.Msg) (r : Machine.Part) : Prop :=
  p.underway q = false ∧ p.arrive q = (m, r)

/-- A scalar load of `n` bytes that reads `v` writes `x v` to its destination and retires (R75, R76). -/
def Machine.Part.loads (q : Machine.Part) (t : ThreadId) (rd ra : BitVec 5) (imm : BitVec 16) (n : Nat)
    (x : Nat → Dword) (o : Host.Outcome Machine.State Machine.Fault Machine.Refusal) (s : Machine.State) : Prop :=
  ∀ (r : Machine.Part) (v : Nat), q.load t.val ((q.thread t.val).gr ra + imm.signExtend 64) n = .ok r v →
    o = s.after ((r.modThread t.val (fun th => th.setG rd (x v))).retires t.val 1)

/-- The 32-bit register that holds field `f` of unit `u`, index `i`, answers with the fields `l`: its page is not
switched off, and every field of the word is one that is there, powered and shown (R22, R540, R543). -/
def Machine.Part.opens (p : Machine.Part) (f : Machine.Fld) (u i : Nat) (l : List Machine.Fld) : Prop :=
  p.pageOff (f.blk.place u) = false ∧ p.answering (f.blk.place u) (f.word i) = l.map (fun g => ⟨g, u, i⟩)

/-- Fields of a register that take values (R9, codes RW). -/
def Machine.Part.takes (p : Machine.Part) (u i : Nat) (l : List (Machine.Fld × Nat)) : Machine.Part :=
  l.foldl (fun (r : Machine.Part) (a : Machine.Fld × Nat) => r.setRg a.1 a.2 u i) p

/-- Buffered fields of a register that are written: the values wait for their boundary (R9, R550, code RWB). -/
def Machine.Part.buffers (p : Machine.Part) (u i : Nat) (l : List (Machine.Fld × Nat)) : Machine.Part :=
  l.foldl (fun (r : Machine.Part) (a : Machine.Fld × Nat) => { r with held := r.held.put (a.1.key u i) a.2 }) p

/-- The threads of the boot core that have left reset. -/
def Machine.Part.bootRuns (p : Machine.Part) : List Machine.RunSt :=
  [(p.thread p.socketThread).run, (p.thread (p.socketThread + 1)).run].filter (fun r => decide (r ≠ Machine.RunSt.inReset))

/-- What R496 rules out while the socket runs: every thread of the boot core that has left reset is halted, and the
warm reset that follows has not happened. -/
def Machine.Part.bootCoreLives (p : Machine.Part) : Prop :=
  p.sys.boot = .released → p.sys.pins.thermtrip = false → p.sys.pins.rstLow = false → p.sys.pins.coldWaits = false →
    ¬ (p.bootRuns ≠ [] ∧ ∀ r ∈ p.bootRuns, r = Machine.RunSt.halted)

/-- The write queues hold whole lines below the 16 TB of a channel's addresses, and each persistent write buffer such
lines of its own tile's channels. -/
def Machine.Part.wqAligned (p : Machine.Part) : Prop :=
  (∀ c, ∀ e ∈ (p.chanOf c).wq, e.ca % 64 = 0 ∧ e.ca < 2 ^ 44) ∧
  (∀ i, ∀ x ∈ (p.mtOf i).pwb, x.1 / 2 = i ∧ x.2.ca % 64 = 0 ∧ x.2.ca < 2 ^ 44)

/-- A run of the block is safe: every step from `s`, for `n` steps, answers a next state whose memory is in canonical form. -/
def safeFor : Nat → Machine.State → Bool
  | 0, s => s.memWf
  | n + 1, s => s.memWf && (match Machine.step s with
    | .next t => safeFor n t
    | _ => false)

end Sys2Proof
end

