-- ==== Sys2Proof/Certificates/Slice0/Obligations.lean ====
section
/-!
DEFINITION. The statements for the provers. A statement about a command says which next state it answers, under hypotheses
on the state and the operands alone; `s.after p` is that next state, `s.part.fetched t q` that thread `t` starts an
instruction whose fetch raises nothing and leaves the part `q`.
-/
section
open Sys2Proof Sys2Proof.Machine

/-- ALU (R34, R69, R70): the destination takes the result of the listed operation on the two sources, and the
instruction retires. The immediate instructions (R65, R72). -/
def Obligations.ScalarIntegerResults : Prop :=
  (∀ (s : State) (q : Part) (t : ThreadId) (rd ra rb : BitVec 5) (fn : BitVec 11) (v : Dword),
     s.part.fetched t.val q → aluResult fn rb ((q.thread t.val).gr ra) ((q.thread t.val).gr rb) = some v →
     exec (.alu t rd ra rb fn) s = s.after ((q.modThread t.val (fun th => th.setG rd v)).retires t.val (aluCost fn))) ∧
  (∀ (s : State) (q : Part) (t : ThreadId) (rd ra : BitVec 5) (imm : BitVec 16), s.part.fetched t.val q →
     exec (.addi t rd ra imm) s = s.after ((q.modThread t.val (fun th => th.setG rd (th.gr ra + imm.signExtend 64))).retires t.val 1) ∧
     exec (.andi t rd ra imm) s = s.after ((q.modThread t.val (fun th => th.setG rd (th.gr ra &&& imm.signExtend 64))).retires t.val 1) ∧
     exec (.ori t rd ra imm) s = s.after ((q.modThread t.val (fun th => th.setG rd (th.gr ra ||| imm.setWidth 64))).retires t.val 1) ∧
     exec (.xori t rd ra imm) s = s.after ((q.modThread t.val (fun th => th.setG rd (th.gr ra ^^^ imm.setWidth 64))).retires t.val 1) ∧
     (∀ v, shiResult imm ((q.thread t.val).gr ra) = some v →
       exec (.shi t rd ra imm) s = s.after ((q.modThread t.val (fun th => th.setG rd v)).retires t.val 1)) ∧
     exec (.lhi t rd 0 imm) s = s.after ((q.modThread t.val (fun th => th.setG rd (imm.signExtend 64 <<< (16 : Nat)))).retires t.val 1) ∧
     (ra.toNat < 4 → exec (.insh t rd ra imm) s = s.after ((q.modThread t.val (fun th =>
       th.setG rd ((th.gr rd &&& ~~~ (BitVec.ofNat 64 (0xFFFF * 2 ^ (16 * ra.toNat)))) |||
         BitVec.ofNat 64 (imm.toNat * 2 ^ (16 * ra.toNat))))).retires t.val 1)) ∧
     exec (.addpc t rd 0 imm) s = s.after ((q.modThread t.val (fun th => th.setG rd (th.pc + (imm.signExtend 64 <<< (12 : Nat))))).retires t.val 1))

/-- The integer operations of R69 with the edges of R70, at 64 bits, and at 32 bits with the sign-extended result of
R34. -/
def Obligations.AluOperations : Prop :=
  ∀ (a b : Dword) (rb : BitVec 5),
    aluResult 0x000 rb a b = some (a + b) ∧ aluResult 0x001 rb a b = some (a - b) ∧
    aluResult 0x002 rb a b = some (a &&& b) ∧ aluResult 0x003 rb a b = some (a ||| b) ∧
    aluResult 0x004 rb a b = some (a ^^^ b) ∧ aluResult 0x005 rb a b = some (a &&& ~~~ b) ∧
    aluResult 0x006 rb a b = some (a ||| ~~~ b) ∧ aluResult 0x007 rb a b = some (~~~ (a ^^^ b)) ∧
    aluResult 0x008 rb a b = some (a <<< (b.toNat % 64)) ∧ aluResult 0x009 rb a b = some (a >>> (b.toNat % 64)) ∧
    aluResult 0x00A rb a b = some (a.sshiftRight (b.toNat % 64)) ∧ aluResult 0x00B rb a b = some (a.rotateRight (b.toNat % 64)) ∧
    aluResult 0x010 rb a b = some (a * b) ∧
    aluResult 0x012 rb a b = some (BitVec.ofNat 64 (a.toNat * b.toNat / 2 ^ 64)) ∧
    (b = 0 → aluResult 0x014 rb a b = some (BitVec.allOnes 64) ∧ aluResult 0x015 rb a b = some (BitVec.allOnes 64) ∧
      aluResult 0x016 rb a b = some a ∧ aluResult 0x017 rb a b = some a) ∧
    (b ≠ 0 → aluResult 0x014 rb a b = some (a.sdiv b) ∧ aluResult 0x015 rb a b = some (a.udiv b) ∧
      aluResult 0x016 rb a b = some (a.srem b) ∧ aluResult 0x017 rb a b = some (a.umod b)) ∧
    aluResult 0x018 rb a b = some (if a.sle b then a else b) ∧ aluResult 0x01A rb a b = some (if a.ule b then a else b) ∧
    (rb ≠ 0 → aluResult 0x020 rb a b = none ∧ aluResult 0x022 rb a b = none) ∧
    aluResult 0x029 0 a b = some ((a.setWidth 32).setWidth 64) ∧
    aluResult 0x400 rb a b = some ((a.setWidth 32 + b.setWidth 32 : BitVec 32).signExtend 64) ∧
    aluResult 0x409 rb a b = some ((a.setWidth 32 >>> (b.toNat % 32) : BitVec 32).signExtend 64) ∧
    aluResult 0x402 rb a b = none ∧ aluResult 0x00C rb a b = none ∧ aluResult 0x040 rb a b = none

/-- SEL (R71), CMP and CMPI (R73) and CLOG (R74), once the word is fetched: the destination takes the selected
register, or the condition of the two sources, at 32 bits when W = 1; an encoding outside the tables raises ILLEGAL,
and nothing else is raised. -/
def Obligations.SelectAndCompare : Prop :=
  (∀ (s : State) (q : Part) (t : ThreadId) (rd ra rb : BitVec 5) (fn : BitVec 11) (cd ca cb : BitVec 3) (cc : BitVec 4)
    (low : BitVec 9) (imm : BitVec 14) (z1 : BitVec 2) (z2 : BitVec 11),
    s.part.fetched t.val q →
    let ends (f : Option (Thr → Thr)) : Host.Outcome State Fault Refusal := match f with
      | some f => s.after ((q.modThread t.val f).retires t.val 1)
      | none => s.after (q.raise t.val cIllegal 0 none false)
    let th := q.thread t.val
    exec (.sel t rd ra rb fn) s =
      ends (if fn.toNat < 8 then some (fun x => x.setG rd (if th.cr (fn.setWidth 3) then th.gr ra else th.gr rb)) else none) ∧
    exec (.cmp t cd cc ra rb low) s = ends (if low.toNat % 256 ≠ 0 then none
      else (if low.getLsbD 8 then cmpCond cc ((th.gr ra).setWidth 32) ((th.gr rb).setWidth 32) else cmpCond cc (th.gr ra) (th.gr rb)).map
        (fun v x => x.setC cd v)) ∧
    exec (.cmpi t cd cc ra imm) s = ends ((cmpCond cc (th.gr ra)
      (if cc = 4 ∨ cc = 5 ∨ cc = 8 ∨ cc = 9 then imm.setWidth 64 else imm.signExtend 64)).map (fun v x => x.setC cd v)) ∧
    exec (.clog t cd cc ca cb z1 z2) s = ends (if z1 = 0 ∧ z2 = 0 then (clogFun cc.toNat (th.cr ca) (th.cr cb)).map (fun v x => x.setC cd v)
      else none)) ∧
  -- the conditions of CMP and CMPI
  (∀ (w : Nat) (a b : BitVec w), cmpCond 0 a b = some (decide (a = b)) ∧ cmpCond 1 a b = some (decide (a ≠ b)) ∧
    cmpCond 2 a b = some (decide (a.toInt < b.toInt)) ∧ cmpCond 3 a b = some (decide (b.toInt ≤ a.toInt)) ∧
    cmpCond 4 a b = some (decide (a.toNat < b.toNat)) ∧ cmpCond 5 a b = some (decide (b.toNat ≤ a.toNat)) ∧
    cmpCond 6 a b = some (decide (a.toInt ≤ b.toInt)) ∧ cmpCond 7 a b = some (decide (b.toInt < a.toInt)) ∧
    cmpCond 8 a b = some (decide (a.toNat ≤ b.toNat)) ∧ cmpCond 9 a b = some (decide (b.toNat < a.toNat)) ∧
    cmpCond 10 a b = some (decide (a &&& b ≠ 0)) ∧ cmpCond 11 a b = some (decide (a &&& b = 0)) ∧
    (∀ cc : BitVec 4, 12 ≤ cc.toNat → cmpCond cc a b = none)) ∧
  -- the functions of CLOG
  (∀ a b : Bool, clogFun 0 a b = some (a && b) ∧ clogFun 1 a b = some (a || b) ∧ clogFun 2 a b = some (a ^^ b) ∧
    clogFun 3 a b = some (a && !b) ∧ clogFun 4 a b = some (a || !b) ∧ clogFun 5 a b = some (!(a && b)) ∧
    clogFun 6 a b = some (!(a || b)) ∧ clogFun 7 a b = some (!(a ^^ b)) ∧ ∀ n, 8 ≤ n → clogFun n a b = none)

/-- The scalar loads (R75, R76): the bytes that the load reads, sign-extended or zero-extended as the mnemonic says.
The scalar stores (R75): the low bytes of g[rd] go to the address, and nothing but the store's own effect and the
retirement happens. LD.AQ and ST.L (R51, R77): a naturally aligned access, after the thread's earlier stores; ST.L has
checked its address before. Model's choices: Loads at their command, stores at their drain: notes/assumptions/10.md.
-/
def Obligations.ScalarMemoryAccesses : Prop :=
  (∀ (s : State) (q : Part) (t : ThreadId) (rd ra : BitVec 5) (imm : BitVec 16), s.part.fetched t.val q →
     q.loads t rd ra imm 1 (sextN 8) (exec (.ldb t rd ra imm) s) s ∧
     q.loads t rd ra imm 1 (BitVec.ofNat 64) (exec (.ldbu t rd ra imm) s) s ∧
     q.loads t rd ra imm 2 (sextN 16) (exec (.ldh t rd ra imm) s) s ∧
     q.loads t rd ra imm 2 (BitVec.ofNat 64) (exec (.ldhu t rd ra imm) s) s ∧
     q.loads t rd ra imm 4 (sextN 32) (exec (.ldw t rd ra imm) s) s ∧
     q.loads t rd ra imm 4 (BitVec.ofNat 64) (exec (.ldwu t rd ra imm) s) s ∧
     q.loads t rd ra imm 8 (BitVec.ofNat 64) (exec (.ldd t rd ra imm) s) s) ∧
  (∀ (s : State) (q r : Part) (t : ThreadId) (rd ra : BitVec 5) (imm : BitVec 16) (v : Nat), s.part.fetched t.val q →
     (q.store t.val ((q.thread t.val).gr ra + imm.signExtend 64) 1 (((q.thread t.val).gr rd).toNat % 2 ^ 8) = .ok r v →
       exec (.stb t rd ra imm) s = s.after (r.retires t.val 1)) ∧
     (q.store t.val ((q.thread t.val).gr ra + imm.signExtend 64) 2 (((q.thread t.val).gr rd).toNat % 2 ^ 16) = .ok r v →
       exec (.sth t rd ra imm) s = s.after (r.retires t.val 1)) ∧
     (q.store t.val ((q.thread t.val).gr ra + imm.signExtend 64) 4 (((q.thread t.val).gr rd).toNat % 2 ^ 32) = .ok r v →
       exec (.stw t rd ra imm) s = s.after (r.retires t.val 1)) ∧
     (q.store t.val ((q.thread t.val).gr ra + imm.signExtend 64) 8 ((q.thread t.val).gr rd).toNat = .ok r v →
       exec (.std t rd ra imm) s = s.after (r.retires t.val 1))) ∧
  (∀ (s : State) (q r u w : Part) (t : ThreadId) (rd ra rb : BitVec 5) (sz : BitVec 2) (zx : Bool) (v : Nat) (l : List Seg),
     s.part.fetched t.val q → ((q.thread t.val).gr ra).toNat % 2 ^ sz.toNat = 0 →
     (zx = false ∨ sz ≠ 3 → q.performStores t.val true = (r, true) → r.load t.val ((q.thread t.val).gr ra) (2 ^ sz.toNat) = .ok u v →
       exec (.ldAq t rd ra 0 sz zx 0) s = s.after ((u.modThread t.val (fun th =>
         th.setG rd (if zx ∨ sz = 3 then BitVec.ofNat 64 v else sextN (8 * 2 ^ sz.toNat) v))).retires t.val 1)) ∧
     (q.check t.val .store ((q.thread t.val).gr ra) false cAlign [(0, 2 ^ sz.toNat)] [] = .ok r l →
       r.performStores t.val true = (u, true) →
       u.store t.val ((q.thread t.val).gr ra) (2 ^ sz.toNat) (((q.thread t.val).gr rb).toNat % 2 ^ (8 * 2 ^ sz.toNat)) = .ok w v →
       exec (.stl t 0 ra rb sz false 0) s = s.after (w.retires t.val 1)))

/-- AMO (R78 to R81): the destination takes the old value, a word sign-extended, a quad in a register pair. What an
atomic operation writes (R78), for operands of `bits` bits: swap, compare-and-swap, add, and, or, xor, and the signed
and unsigned minimum and maximum. -/
def Obligations.AtomicInstructions : Prop :=
  (∀ (s : State) (q r : Part) (t : ThreadId) (rd ra rb : BitVec 5) (fn : BitVec 11) (old : Nat),
     s.part.fetched t.val q → amoLegal rd rb fn = true →
     (fn.toNat / 16 % 4 = 2 →
       q.amo t.val ((q.thread t.val).gr ra) 4 (fn.toNat % 16) (((q.thread t.val).gr rb).toNat % 2 ^ 32)
         (((q.thread t.val).gr rd).toNat % 2 ^ 32) (fn.toNat / 256 % 4) (fn.getLsbD 6) (fn.getLsbD 7) = .ok r old →
       exec (.amo t rd ra rb fn) s = s.after ((r.modThread t.val (fun th => th.setG rd (sextN 32 old))).retires t.val 1)) ∧
     (fn.toNat / 16 % 4 = 3 →
       q.amo t.val ((q.thread t.val).gr ra) 8 (fn.toNat % 16) (((q.thread t.val).gr rb).toNat % 2 ^ 64)
         (((q.thread t.val).gr rd).toNat % 2 ^ 64) (fn.toNat / 256 % 4) (fn.getLsbD 6) (fn.getLsbD 7) = .ok r old →
       exec (.amo t rd ra rb fn) s = s.after ((r.modThread t.val (fun th => th.setG rd (BitVec.ofNat 64 old))).retires t.val 1)) ∧
     (fn.toNat / 16 % 4 = 0 →
       q.amo t.val ((q.thread t.val).gr ra) 16 (fn.toNat % 16) ((q.thread t.val).pair rb)
         ((q.thread t.val).pair rd) (fn.toNat / 256 % 4) (fn.getLsbD 6) (fn.getLsbD 7) = .ok r old →
       exec (.amo t rd ra rb fn) s = s.after ((r.modThread t.val (fun th =>
         (th.setG rd (BitVec.ofNat 64 old)).setG (rd + 1) (BitVec.ofNat 64 (old / 2 ^ 64)))).retires t.val 1))) ∧
  (∀ (bits old b e : Nat), 0 < bits → old < 2 ^ bits → b < 2 ^ bits →
     amoResult 0 bits old b e = some b ∧
     amoResult 1 bits old b old = some b ∧ (old ≠ e → amoResult 1 bits old b e = none) ∧
     amoResult 2 bits old b e = some ((BitVec.ofNat bits old + BitVec.ofNat bits b).toNat) ∧
     amoResult 3 bits old b e = some (old &&& b) ∧ amoResult 4 bits old b e = some (old ||| b) ∧
     amoResult 5 bits old b e = some (old ^^^ b) ∧
     amoResult 6 bits old b e = some (if (BitVec.ofNat bits old).sle (BitVec.ofNat bits b) then old else b) ∧
     amoResult 7 bits old b e = some (if (BitVec.ofNat bits b).sle (BitVec.ofNat bits old) then old else b) ∧
     amoResult 8 bits old b e = some (min old b) ∧ amoResult 9 bits old b e = some (max old b))

/-- The cache instructions (R97, R98, R193): prefetches retire whatever they find; the line operations act on the line
of the address; INVAL is for S, H and F. INVAL at U raises PRIV, and so do the TLB instructions at U and the guest
scopes at S (R97, R99). The TLB instructions (R99, R206): after the thread's earlier stores and the core's accesses
the entries in scope leave the thread's own core; with LOC = 1, or with no other core or socket, nothing more happens.
A TLB instruction without LOC that other cores or sockets must see (R206): one TINV for each core tile of this socket
with a target, one for every other socket, and a request of the thread for each of them that TSYNC waits for. -/
def Obligations.CacheAndTlbInstructions : Prop :=
  (∀ (s : State) (q r : Part) (t : ThreadId) (ra : BitVec 5) (imm : BitVec 16) (v : Nat), s.part.fetched t.val q →
     exec (.prefr t ra imm) s = s.after ((q.prefetch t.val .load ((q.thread t.val).gr ra + imm.signExtend 64) false false).retires t.val 1) ∧
     exec (.prefw t ra imm) s = s.after ((q.prefetch t.val .store ((q.thread t.val).gr ra + imm.signExtend 64) true false).retires t.val 1) ∧
     exec (.prefi t ra imm) s = s.after ((q.prefetch t.val .fetch ((q.thread t.val).gr ra + imm.signExtend 64) false true).retires t.val 1) ∧
     (q.lineOp t.val ((q.thread t.val).gr ra + imm.signExtend 64) .load (some .clean) = .ok r v →
       exec (.clean t ra imm) s = s.after (r.retires t.val 1)) ∧
     (q.lineOp t.val ((q.thread t.val).gr ra + imm.signExtend 64) .load (some .flush) = .ok r v →
       exec (.flush t ra imm) s = s.after (r.retires t.val 1)) ∧
     (q.lineOp t.val ((q.thread t.val).gr ra + imm.signExtend 64) .load none = .ok r v →
       exec (.iinv t ra imm) s = s.after (r.retires t.val 1)) ∧
     ((q.thread t.val).level ≠ .u → q.lineOp t.val ((q.thread t.val).gr ra + imm.signExtend 64) .store (some .inval) = .ok r v →
       exec (.inval t ra imm) s = s.after (r.retires t.val 1)) ∧
     (q.lineZero t.val ((q.thread t.val).gr ra + imm.signExtend 64) = .ok r v →
       exec (.zero t ra imm) s = s.after (r.retires t.val 1))) ∧
  (∀ (s : State) (q : Part) (t : ThreadId) (ra rb : BitVec 5) (imm : BitVec 16) (loc : Bool), s.part.fetched t.val q →
     ((q.thread t.val).level = .u →
       exec (.inval t ra imm) s = s.after (q.raise t.val cPriv 0 none false) ∧
       ∀ c ∈ [Instr.tinvPage, Instr.tinvPageany, Instr.tinvSpace, Instr.tinvStage1, Instr.tinvGpage, Instr.tinvGuest, Instr.tinvEvery],
         exec (c t 0 ra rb loc 0) s = s.after (q.raise t.val cPriv 0 none false)) ∧
     ((q.thread t.val).level = .s → ∀ c ∈ [Instr.tinvGpage, Instr.tinvGuest, Instr.tinvEvery],
         exec (c t 0 ra rb loc 0) s = s.after (q.raise t.val cPriv 0 none (q.thread t.val).vm))) ∧
  (∀ (s : State) (q r' r : Part) (t : ThreadId) (ra rb : BitVec 5) (loc : Bool),
     s.part.fetched t.val q → (q.thread t.val).level ≠ .u → q.performStores t.val true = (r', true) →
     r'.accessesDone (t.val / 2) = (r, true) →
     ∀ (k : Nat) (c : ThreadId → BitVec 5 → BitVec 5 → BitVec 5 → Bool → BitVec 7 → Instr),
       (k, c) ∈ [(0, Instr.tinvPage), (1, Instr.tinvPageany), (2, Instr.tinvSpace), (3, Instr.tinvStage1),
         (4, Instr.tinvGpage), (5, Instr.tinvGuest), (6, Instr.tinvEvery)] →
       ((q.thread t.val).level = .s → k < 4) →
       let req : TlbReq := ⟨k, ((q.thread t.val).gr ra).toNat, ((q.thread t.val).gr rb).toNat % 2 ^ 16,
         decide ((q.thread t.val).level = .s) && (q.thread t.val).vm, (q.thread t.val).vmid⟩
       let u := (r.charge (t.val / 2) 1).tlbInval (t.val / 2) req
       (loc = true ∨ (u.tlbTargets (t.val / 2) = [] ∧ u.sktCnt = 1 ∧ u.sktId = 0)) →
       exec (c t 0 ra rb loc 0) s = s.after (u.retires t.val 1)) ∧
  (∀ (s : State) (q r' r : Part) (t : ThreadId) (ra rb : BitVec 5),
     s.part.fetched t.val q → (q.thread t.val).level ≠ .u → q.performStores t.val true = (r', true) →
     r'.accessesDone (t.val / 2) = (r, true) →
     ∀ (k : Nat) (c : ThreadId → BitVec 5 → BitVec 5 → BitVec 5 → Bool → BitVec 7 → Instr),
       (k, c) ∈ [(0, Instr.tinvPage), (1, Instr.tinvPageany), (2, Instr.tinvSpace), (3, Instr.tinvStage1),
         (4, Instr.tinvGpage), (5, Instr.tinvGuest), (6, Instr.tinvEvery)] →
       ((q.thread t.val).level = .s → k < 4) →
       let req : TlbReq := ⟨k, ((q.thread t.val).gr ra).toNat, ((q.thread t.val).gr rb).toNat % 2 ^ 16,
         decide ((q.thread t.val).level = .s) && (q.thread t.val).vm, (q.thread t.val).vmid⟩
       let u := (r.charge (t.val / 2) 1).tlbInval (t.val / 2) req
       let sockets := (List.range u.sktCnt).filter (· ≠ u.sktId)
       let targets := u.tlbTargets (t.val / 2) ++ sockets.map (· + 1000)
       let dsts : List Agent := (((u.tlbTargets (t.val / 2) ++ sockets.map (· + 1000)).filter (· < nCores)).map tileOfCore).eraseDups.map
         (fun x => ⟨u.sktId, x, 0⟩) ++ sockets.map (fun x => ⟨x, 0, 0⟩)
       let m : Msg := { Msg.blank with opc := .tinv, src := ⟨u.sktId, tileOfThread t.val, initOfThread t.val⟩, txid := u.seq, addr := req.addr, op := k,
                                       aux := req.id + t.val * 2 ^ 16, plb := req.vm, vmid := req.vmid, bc := true }
       targets ≠ [] →
       ∃ w : Part, w.net = u.net ++ dsts.zipIdx.map (fun x => { m with dst := x.1, id := u.fab.next + x.2 }) ∧ w.seq = u.seq + 1 ∧
         w.thr = u.thr.upd Thr.reset t.val (fun th => { th with tlbm := th.tlbm ++ targets.map (fun x => (u.seq, x)) }) ∧
         w.mem = u.mem ∧ w.ctl = u.ctl ∧ w.core = u.core ∧ w.slice = u.slice ∧
         exec (c t 0 ra rb false 0) s = s.after (w.retires t.val 1))

/-- Where a thread goes on after a transfer at `pc` whose slot is next (R82, R132). LOOP (R85, R86, R138, R172): with
the body's last words no transfer, LOOP or RETX, the loop registers take the body and the count; a zero count leaves
LACT clear and goes on behind the body. -/
def Obligations.ControlTransfers : Prop :=
  (∀ (s : State) (q : Part) (t : ThreadId) (cs : BitVec 3) (d22 : BitVec 22) (d26 : BitVec 26) (ra : BitVec 5),
     s.part.fetched t.val q → q.plainSite t.val →
     let pc := (q.thread t.val).pc
     exec (.brt t cs d22) s = s.after (Part.complete t.val 1 (.transfer q
       (if (q.thread t.val).cr cs = true then pc + (d22.signExtend 64 <<< (2 : Nat)) else pc + 8))) ∧
     exec (.brf t cs d22) s = s.after (Part.complete t.val 1 (.transfer q
       (if (q.thread t.val).cr cs = false then pc + (d22.signExtend 64 <<< (2 : Nat)) else pc + 8))) ∧
     (let d := pc + (d26.signExtend 64 <<< (2 : Nat))
      exec (.jmp t d26) s = s.after (Part.complete t.val 1 (.transfer (q.btbPut t.val .jmp pc d) d)) ∧
      exec (.call t d26) s = s.after (Part.complete t.val 1 (.transfer
        (((q.btbPut t.val .call pc d).rasPush t.val (pc + 8)).modThread t.val (fun x => x.setG 1 (pc + 8))) d))) ∧
     (let d := (q.thread t.val).gr ra
      (ra ≠ 1 → q.btbFind t.val pc = some d →
        exec (.jr t 0 ra 0 0) s = s.after (Part.complete t.val 1 (.transfer (q.btbPut t.val .jr pc d) d))) ∧
      (ra ≠ 1 → q.btbFind t.val pc ≠ some d →
        exec (.jr t 0 ra 0 0) s = s.after (Part.complete t.val 1 (.transfer ((q.coreEvent t.val 3 1).btbPut t.val .jr pc d) d))) ∧
      (q.btbFind t.val pc = some d →
        exec (.callr t 0 ra 0 0) s = s.after (Part.complete t.val 1 (.transfer
          (((q.btbPut t.val .callr pc d).rasPush t.val (pc + 8)).modThread t.val (fun x => x.setG 1 (pc + 8))) d))) ∧
      (q.btbFind t.val pc ≠ some d →
        exec (.callr t 0 ra 0 0) s = s.after (Part.complete t.val 1 (.transfer
          ((((q.coreEvent t.val 3 1).btbPut t.val .callr pc d).rasPush t.val (pc + 8)).modThread t.val (fun x => x.setG 1 (pc + 8))) d)))) ∧
     ((q.rasPop t.val).1 = some ((q.thread t.val).gr 1) →
       exec (.jr t 0 1 0 0) s = s.after (Part.complete t.val 1 (.transfer ((q.rasPop t.val).2.btbPut t.val .jr pc ((q.thread t.val).gr 1)) ((q.thread t.val).gr 1)))) ∧
     ((q.rasPop t.val).1 ≠ some ((q.thread t.val).gr 1) →
       exec (.jr t 0 1 0 0) s = s.after (Part.complete t.val 1 (.transfer (((q.rasPop t.val).2.coreEvent t.val 3 1).btbPut t.val .jr pc ((q.thread t.val).gr 1))
         ((q.thread t.val).gr 1))))) ∧
  (∀ (s : State) (q r u : Part) (t : ThreadId) (lv imm : Bool) (cnt len : BitVec 12) (w w2 l l2 : Nat),
     s.part.fetched t.val q → q.plainSite t.val → (imm = true ∨ cnt.toNat < 32) →
     let th := q.thread t.val
     let n : Dword := if imm then cnt.setWidth 64 else th.gr (cnt.setWidth 5)
     let le := th.pc + BitVec.ofNat 64 (4 * (len.toNat + 1))
     let i := if lv then 1 else 0
     ((len = 0 ∧ q.checkWord t.val le none = .val u w l) ∨
       (len ≠ 0 ∧ q.checkWord t.val (le - 4) none = .val r w2 l2 ∧ wordTransfer w2 = false ∧
         r.checkWord t.val le (some l2) = .val u w l)) →
     wordNoLoopEnd w = false →
     let v := u.loopCapture t.val (th.pc + 4) le i n.toNat l
     let regs (x : Thr) : Thr := ((x.setSys (srLS i) (th.pc + 4)).setSys (srLE i) (le + BitVec.ofNat 64 th.level.code)).setSys (srLC i) n
     (n ≠ 0 → exec (.loop t lv imm cnt len) s = s.after ((v.modThread t.val (fun x =>
       let y := regs x
       y.setSys srLACT (y.sys srLACT ||| BitVec.ofNat 64 (2 ^ i)))).retires t.val 2)) ∧
     (n = 0 → exec (.loop t lv imm cnt len) s = s.after (Part.complete t.val 2 (.goto ((v.modThread t.val (fun x =>
       let y := regs x
       y.setSys srLACT (y.sys srLACT &&& ~~~ BitVec.ofNat 64 (2 ^ i)))).modCore (t.val / 2) (fun c => { c with fbuf := none })) (le + 4)))))

/-- A transfer, LOOP, RETX or TRAP in a delay slot raises SLOT_ILLEGAL; a transfer, LOOP or RETX at the end of an
active loop body raises LOOP_ILLEGAL (R86, R100, R129, R133). -/
def Obligations.SlotAndLoopRules : Prop :=
  ∀ (s : State) (r : Part) (t : ThreadId) (cs : BitVec 3) (d22 : BitVec 22) (d26 : BitVec 26) (ra : BitVec 5) (code : BitVec 12)
    (lv : Bool) (cnt len : BitVec 12),
    s.part.startable t.val = true → s.part.fetch t.val = .ok r →
    (∀ c ∈ [Instr.brt t cs d22, .brf t cs d22, .jmp t d26, .call t d26, .jr t 0 ra 0 0, .callr t 0 ra 0 0,
        .loop t lv true cnt len, .retx t 0 0 0, .trap t 0 0 code],
      (r.thread t.val).slot ≠ none → exec c s = s.after (r.raise t.val cSlotIllegal 0 none false)) ∧
    (∀ c ∈ [Instr.brt t cs d22, .brf t cs d22, .jmp t d26, .call t d26, .jr t 0 ra 0 0, .callr t 0 ra 0 0,
        .loop t lv true cnt len, .retx t 0 0 0],
      (r.thread t.val).slot = none → (r.thread t.val).atLoopEnd = true →
      exec c s = s.after (r.raise t.val cLoopIllegal 0 none false))

/-- SRD, SWR, SRSET and SRCLR on a register that the thread may access (R57 to R61, R88, R89, R136). A register whose
Mode column reads yes synchronises the context. What a thread may not access (R57, R59, R61): a register above its
level raises PRIV, a missing or read-only one ILLEGAL, and an H register in a guest raises PRIV to H or F. The rows
that name one system register access (R155, R152, R158): reading ICCLAIM is the SRD of it, writing ICCFG and ICIPI the
SWR of them, at the view's own numbers. -/
def Obligations.SystemRegisters : Prop :=
  (∀ (s : State) (q : Part) (t : ThreadId) (rd ra : BitVec 5) (sr : BitVec 12), s.part.fetched t.val q →
     let n := sr.toNat
     let old := (q.srRead t.val n).2
     let g := (q.thread t.val).gr ra
     ((q.thread t.val).srDenied n false = none →
       exec (.srd t rd 0 sr) s = s.after (((q.srRead t.val n).1.modThread t.val (fun th => th.setG rd old)).retires t.val 2)) ∧
     ((q.thread t.val).srDenied n true = none → srMode n = false →
       exec (.swr t 0 ra sr) s = s.after ((q.srWrite t.val n g).retires t.val 2) ∧
       exec (.srset t rd ra sr) s = s.after (((q.srWrite t.val n (old ||| g)).modThread t.val (fun th => th.setG rd old)).retires t.val 2) ∧
       exec (.srclr t rd ra sr) s = s.after (((q.srWrite t.val n (old &&& ~~~ g)).modThread t.val (fun th => th.setG rd old)).retires t.val 2)) ∧
     ((q.thread t.val).srDenied n true = none → srMode n = true → (q.thread t.val).slot = none →
       exec (.swr t 0 ra sr) s = s.after (((q.srWrite t.val n g).ctxSync t.val).retires t.val 4) ∧
       exec (.srset t rd ra sr) s = s.after ((((q.srWrite t.val n (old ||| g)).modThread t.val (fun th => th.setG rd old)).ctxSync t.val).retires t.val 4) ∧
       exec (.srclr t rd ra sr) s = s.after ((((q.srWrite t.val n (old &&& ~~~ g)).modThread t.val (fun th => th.setG rd old)).ctxSync t.val).retires t.val 4))) ∧
  (∀ (s : State) (q : Part) (t : ThreadId) (rd ra : BitVec 5) (sr : BitVec 12), s.part.fetched t.val q →
     let th := q.thread t.val
     (th.vm = true → sr.toNat / 0x400 = 2 → exec (.srd t rd 0 sr) s = s.after (q.raise t.val cPriv 0 none true)) ∧
     (¬ (th.vm = true ∧ sr.toNat / 0x400 = 2) → sr.toNat / 0x400 > th.level.code →
       exec (.srd t rd 0 sr) s = s.after (q.raise t.val cPriv 0 none false) ∧
       (srMode sr.toNat = false → exec (.swr t 0 ra sr) s = s.after (q.raise t.val cPriv 0 none false))) ∧
     (¬ (th.vm = true ∧ sr.toNat / 0x400 = 2) → sr.toNat / 0x400 ≤ th.level.code → srExists sr.toNat = false →
       exec (.srd t rd 0 sr) s = s.after (q.raise t.val cIllegal 0 none false)) ∧
     (sr.toNat ≤ 2 → exec (.swr t 0 ra sr) s = s.after (q.raise t.val cIllegal 0 none false)) ∧
     (sr.toNat ≤ 2 → th.level = .u → (th.sys 0x411).getLsbD sr.toNat = false →
       exec (.srd t rd 0 sr) s = s.after (q.raise t.val cPriv 0 none false))) ∧
  (∀ (s : State) (q : Part) (t : ThreadId) (w : View) (r : BitVec 5), s.part.fetched t.val q →
     ((q.thread t.val).srDenied w.base.toNat false = none →
       exec (.icclaimRead t w r) s = s.after ((((q.icRead t.val ((q.thread t.val).viewOf w.base.toNat) 0).1.modThread t.val (fun th =>
         th.setG r (q.icRead t.val ((q.thread t.val).viewOf w.base.toNat) 0).2))).retires t.val 2)) ∧
     ((q.thread t.val).srDenied (w.base + 3).toNat true = none →
       exec (.iccfgWrite t w r) s = s.after ((q.icWrite t.val ((q.thread t.val).viewOf (w.base + 3).toNat) 3 ((q.thread t.val).gr r)).retires t.val 2)) ∧
     ((q.thread t.val).srDenied (w.base + 4).toNat true = none →
       exec (.icipiWrite t w r) s = s.after ((q.icWrite t.val ((q.thread t.val).viewOf (w.base + 4).toNat) 4 ((q.thread t.val).gr r)).retires t.val 2)))

/-- TRAP retires and then raises its cause with the next address saved (R90); BREAK raises its own at its address
(R91); RETX restores the level, V, the pc and the slot (R43, R92, R147, R149). -/
def Obligations.TrapBreakReturn : Prop :=
  ∀ (s : State) (q : Part) (t : ThreadId) (code : BitVec 12), s.part.fetched t.val q →
    ((q.thread t.val).slot = none → exec (.trap t 0 0 code) s = s.after (Part.complete t.val 4 (.trap (q.ctxSync t.val)))) ∧
    exec (.brk t 0 0 code) s = s.after (q.raise t.val cBreak (q.thread t.val).pc none false) ∧
    (q.plainSite t.val → (q.thread t.val).retxDenied = true →
      exec (.retx t 0 0 0) s = s.after (q.raise t.val cPriv 0 none false)) ∧
    (q.plainSite t.val → (q.thread t.val).retxDenied = false →
      (q.thread t.val).ret.level = (q.thread t.val).level → (q.thread t.val).ret.vm = (q.thread t.val).vm →
      exec (.retx t 0 0 0) s = s.after (Part.complete t.val 4 (.final ((q.modThread t.val (fun _ => (q.thread t.val).ret)).ctxSync t.val)))) ∧
    (q.plainSite t.val → (q.thread t.val).retxDenied = false →
      ((q.thread t.val).ret.level ≠ (q.thread t.val).level ∨ (q.thread t.val).ret.vm ≠ (q.thread t.val).vm) →
      exec (.retx t 0 0 0) s = s.after (Part.complete t.val 4 (.final
        (((q.modThread t.val (fun _ => (q.thread t.val).ret)).btbDropUS t.val).ctxSync t.val))))

/-- WAIT (R93) retires at once when an event is pending or in a slot, and otherwise suspends the thread, which a
pending event wakes; at U it raises PRIV. The fences (R53, R55, R94, R95, R96): FENCE performs the earlier stores when
P.w and a successor are set, DFENCE makes them persistent, ISYNC synchronises the context, TSYNC waits for the
thread's TLB requests. -/
def Obligations.WaitsAndFences : Prop :=
  (∀ (s : State) (q : Part) (t : ThreadId),
     (s.part.fetched t.val q → (q.thread t.val).level = .u →
       exec (.wait t 0 0 0) s = s.after (q.raise t.val cPriv 0 none false)) ∧
     (s.part.fetched t.val q → (q.thread t.val).level ≠ .u → ((q.thread t.val).slot ≠ none ∨ q.wakeDue t.val = true) →
       exec (.wait t 0 0 0) s = s.after ((q.modThread t.val (fun x => { x with wake := false })).retires t.val 1)) ∧
     (s.part.fetched t.val q → (q.thread t.val).level ≠ .u → (q.thread t.val).slot = none → q.wakeDue t.val = false →
       exec (.wait t 0 0 0) s = s.after ((q.modThread t.val (fun x => { x with run := .waiting })).againAcc (t.val / 2))) ∧
     ((s.part.thread t.val).run = .waiting → s.part.wakeDue t.val = true →
       exec (.waitWake t) s = s.after (let p := s.part.modThread t.val (fun x => { x with run := .running, wake := false })
         p.retires t.val (1 + p.freshNat)))) ∧
  (∀ (s : State) (q r : Part) (t : ThreadId) (sr : BitVec 12), s.part.fetched t.val q →
     (sr.toNat < 64 → sr.getLsbD 1 = false → sr.getLsbD 4 = true → (sr.getLsbD 3 = true ∨ sr.getLsbD 2 = true) →
       q.performStores t.val (sr.getLsbD 0) = (r, true) → exec (.fence t 0 0 sr) s = s.after (r.retires t.val 1)) ∧
     (sr.toNat < 64 → sr.getLsbD 1 = false → (sr.getLsbD 4 = false ∨ (sr.getLsbD 3 = false ∧ sr.getLsbD 2 = false)) →
       exec (.fence t 0 0 sr) s = s.after (q.retires t.val 1)) ∧
     (q.drainThread t.val (fun e => decide (e.ty = .cacheable) || q.isPers e.line) = (r, true) → (r.coreOf (t.val / 2)).pwt = [] →
       exec (.dfence t 0 0 0) s = s.after (r.retires t.val 1)) ∧
     exec (.isync t 0 0 0) s = s.after ((q.ctxSync t.val).retires t.val 1) ∧
     ((q.thread t.val).tlbm = [] → exec (.tsync t 0 0 0) s = s.after ((q.charge (t.val / 2) 1).retires t.val 1)))

/-- A reserved encoding raises ILLEGAL and does nothing else (R63, R64, R144): must-be-zero fields that are not zero,
codes that no table lists. -/
def Obligations.ReservedEncodings : Prop :=
  ∀ (s : State) (r : Part) (t : ThreadId) (rd ra rb : BitVec 5) (fn : BitVec 11) (imm : BitVec 16) (cd : BitVec 3) (cc : BitVec 4)
    (sr : BitVec 12) (loc zx : Bool) (sz : BitVec 2) (z : BitVec 7),
    s.part.startable t.val = true → s.part.fetch t.val = .ok r →
    let bad (c : Instr) : Prop := exec c s = s.after (r.raise t.val cIllegal 0 none false)
    ((∀ a b, aluResult fn rb a b = none) → bad (.alu t rd ra rb fn)) ∧
    (8 ≤ fn.toNat → bad (.sel t rd ra rb fn)) ∧
    (ra ≠ 0 → bad (.lhi t rd ra imm) ∧ bad (.addpc t rd ra imm) ∧ bad (.srd t rd ra sr)) ∧
    (4 ≤ ra.toNat → bad (.insh t rd ra imm)) ∧
    (12 ≤ cc.toNat → bad (.cmp t cd cc ra rb 0) ∧ bad (.clog t cd cc cd cd 0 0) ∧ ∀ i, bad (.cmpi t cd cc ra i)) ∧
    (amoLegal rd rb fn = false → bad (.amo t rd ra rb fn)) ∧
    (z ≠ 0 → bad (.ldAq t rd ra rb sz zx z) ∧ bad (.stl t rd ra rb sz zx z) ∧ bad (.tinvPage t rd ra rb loc z)) ∧
    (rd ≠ 0 → bad (.tsync t rd ra sr) ∧ bad (.isync t rd ra sr) ∧ bad (.dfence t rd ra sr) ∧ bad (.fence t rd ra sr) ∧
      bad (.wait t rd ra sr) ∧ bad (.brk t rd ra sr) ∧ bad (.trap t rd ra sr) ∧ bad (.retx t rd ra sr) ∧
      bad (.swr t rd ra sr) ∧ bad (.jr t rd ra rb fn) ∧ bad (.callr t rd ra rb fn))

/-- A masked result (R104, R105): a selected element takes its result, any other keeps its old value, or becomes zero.
-/
def Obligations.MaskedElements : Prop :=
  ∀ (b j : Nat) (m : Dword) (z : Bool) (old : Vec) (f : Nat → Nat),
    b = 1 ∨ b = 2 ∨ b = 4 ∨ b = 8 → j < 64 / b →
    lane (maskLanes b m z old f) b j =
      if m.getLsbD (b * j) then f j % 2 ^ (8 * b) else if z then 0 else lane old b j

/-- Element operations of VINT (R113), for elements of `n` bits. VINT (R113), VCMP (R119) and MOP (R121) write their
element results, their mask bits and their scalar results. -/
def Obligations.VectorIntegerResults : Prop :=
  (∀ (n a b : Nat), 0 < n → a < 2 ^ n → b < 2 ^ n →
     let A := BitVec.ofNat n a
     let B := BitVec.ofNat n b
     vintOp 0 n a b = some (A + B).toNat ∧ vintOp 1 n a b = some (A - B).toNat ∧
     vintOp 2 n a b = some (A &&& B).toNat ∧ vintOp 3 n a b = some (A ||| B).toNat ∧
     vintOp 4 n a b = some (A ^^^ B).toNat ∧ vintOp 5 n a b = some (A &&& ~~~ B).toNat ∧ vintOp 6 n a b = some (A * B).toNat ∧
     vintOp 7 n a b = some (A.toInt * B.toInt / 2 ^ n % 2 ^ n).toNat ∧ vintOp 8 n a b = some (a * b / 2 ^ n) ∧
     vintOp 9 n a b = some (if A.toInt ≤ B.toInt then a else b) ∧ vintOp 10 n a b = some (if B.toInt ≤ A.toInt then a else b) ∧
     vintOp 11 n a b = some (if A.ule B then a else b) ∧ vintOp 12 n a b = some (if B.ule A then a else b) ∧
     vintOp 13 n a b = some (A <<< (b % n)).toNat ∧ vintOp 14 n a b = some (A >>> (b % n)).toNat ∧
     vintOp 15 n a b = some (A.toInt / 2 ^ (b % n) % 2 ^ n).toNat ∧
     vintOp 16 n a b = some (satS n (A.toInt + B.toInt)) ∧ vintOp 17 n a b = some (min (a + b) (2 ^ n - 1)) ∧
     vintOp 18 n a b = some (satS n (A.toInt - B.toInt)) ∧ vintOp 19 n a b = some (a - b) ∧
     vintOp 20 n a b = some (A.toInt.natAbs % 2 ^ n) ∧ (∀ op, 21 ≤ op → vintOp op n a b = none)) ∧
  (∀ (s : State) (q : Part) (t : ThreadId) (rd ra rb : BitVec 5) (fn : BitVec 11) (cd mk et : BitVec 3) (cc : BitVec 4),
     s.part.fetched t.val q →
     (let op := fn.toNat % 32
      let b := 2 ^ (fn.toNat / 32 % 4)
      op < 20 ∨ (op = 20 ∧ rb = 0) →
      exec (.vint t rd ra rb fn) s = s.after ((q.modThread t.val (fun th =>
        th.setV rd (maskLanes b (th.mr (BitVec.ofNat 3 (fn.toNat / 128))) (fn.getLsbD 10) (th.vr rd) (fun j =>
          (vintOp op (8 * b) (lane (th.vr ra) b j) (lane (th.vr rb) b j)).getD 0)))).retires t.val (if 6 ≤ op ∧ op ≤ 8 then 4 else 1))) ∧
     ((elemCond et.toNat cc.toNat false 0 0).isSome = true →
      let b := etSize et.toNat
      exec (.vcmp t cd cc ra rb et mk 0) s = s.after ((q.modThread t.val (fun th =>
        let el (j : Nat) : Bool × FpFlags := (elemCond et.toNat cc.toNat th.fz (lane (th.vr ra) b j) (lane (th.vr rb) b j)).getD (false, 0)
        (th.setM cd ((List.range (64 / b)).foldl (fun a j =>
          (a &&& ~~~ BitVec.ofNat 64 (2 ^ (b * j))) ||| (if selects (th.mr mk) b j && (el j).1 then BitVec.ofNat 64 (2 ^ (b * j)) else 0))
          (th.mr cd))).addFlags (fpLanes b (th.mr mk) (fun j => (0, (el j).2))))).retires t.val 2)) ∧
     (∀ k < 8, ra.toNat < 8 → rb.toNat < 8 → rd.toNat < 8 →
       exec (.mop t rd ra rb (BitVec.ofNat 11 k)) s = s.after ((q.modThread t.val (fun th =>
         th.setM (rd.setWidth 3) (maskFun k (th.mr (ra.setWidth 3)) (th.mr (rb.setWidth 3))))).retires t.val 1)) ∧
     (rd.toNat < 8 → exec (.mop t rd ra 0 8) s = s.after ((q.modThread t.val (fun th => th.setM (rd.setWidth 3) (th.gr ra))).retires t.val 1)) ∧
     (ra.toNat < 8 → exec (.mop t rd ra 0 9) s = s.after ((q.modThread t.val (fun th => th.setG rd (th.mr (ra.setWidth 3)))).retires t.val 2)) ∧
     (ra.toNat < 8 → ∀ z < 4,
       exec (.mop t rd ra 0 (BitVec.ofNat 11 (10 + 16 * z))) s = s.after ((q.modThread t.val (fun th =>
         th.setG rd (BitVec.ofNat 64 (maskElems (th.mr (ra.setWidth 3)) (2 ^ z)).length))).retires t.val 2) ∧
       exec (.mop t rd ra 0 (BitVec.ofNat 11 (11 + 16 * z))) s = s.after ((q.modThread t.val (fun th =>
         th.setG rd (BitVec.ofNat 64 ((maskElems (th.mr (ra.setWidth 3)) (2 ^ z)).headD (64 / 2 ^ z))))).retires t.val 2) ∧
       (rd.toNat < 8 →
         exec (.mop t rd ra 0 (BitVec.ofNat 11 (12 + 16 * z))) s = s.after ((q.modThread t.val (fun th =>
           th.setC (rd.setWidth 3) (decide ((maskElems (th.mr (ra.setWidth 3)) (2 ^ z)).length > 0)))).retires t.val 1) ∧
         exec (.mop t rd ra 0 (BitVec.ofNat 11 (13 + 16 * z))) s = s.after ((q.modThread t.val (fun th =>
           th.setC (rd.setWidth 3) (decide ((maskElems (th.mr (ra.setWidth 3)) (2 ^ z)).length = 64 / 2 ^ z)))).retires t.val 1))) ∧
     -- the mask functions, and the conditions of VCMP: those of CMP for integers, those of FCMP for floating-point elements
     (∀ a b : Dword, maskFun 0 a b = a &&& b ∧ maskFun 1 a b = a ||| b ∧ maskFun 2 a b = a ^^^ b ∧ maskFun 3 a b = a &&& ~~~ b ∧
       maskFun 4 a b = a ||| ~~~ b ∧ maskFun 5 a b = ~~~ (a &&& b) ∧ maskFun 6 a b = ~~~ (a ||| b) ∧ maskFun 7 a b = ~~~ (a ^^^ b)) ∧
     (∀ (e : Nat) (fz : Bool) (x y : Nat),
       (e < 4 → elemCond e cc.toNat fz x y = (cmpCond cc (BitVec.ofNat (8 * 2 ^ e) x) (BitVec.ofNat (8 * 2 ^ e) y)).map (fun r => (r, 0))) ∧
       (4 ≤ e → elemCond e cc.toNat fz x y = (fpFmt (e - 4)).fcmp fz cc.toNat x y)))

/-- VFP and SFP (R107, R114, R115): element results under the mask, a reduction of the selected elements, or a scalar
in the low element; the flags of the elements that count are added to FPCSR. FMA (R116): scalar, by elements, and the
dot form of two half-width products for each word. VCVT (R117) in its four forms, and FCMP (R120). Model's choices:
IEEE arithmetic as notes/assumptions/71.md says. -/
def Obligations.FloatingResults : Prop :=
  (∀ (s : State) (q : Part) (t : ThreadId) (rd ra rb : BitVec 5) (fn : BitVec 11), s.part.fetched t.val q →
     let op := fn.toNat % 16
     let ft := fn.toNat / 16 % 4
     let f := fpFmt ft
     let b := f.w / 8
     let fld := fn.toNat / 128 % 8
     (fn.getLsbD 6 = false → (op = 4 ∨ op = 7 ∨ op = 8 → rb = 0) → op ≤ 10 →
       (vfpRounds op = true → ((s.part.thread t.val).rmode 7).isSome = true) →
       exec (.vfp t rd ra rb fn) s = s.after ((q.modThread t.val (fun th =>
         let el (j : Nat) : Nat × FpFlags := vfpOp op f ((th.rmode 7).getD 0) th.fz (lane (th.vr ra) b j) (lane (th.vr rb) b j)
         (th.setV rd (maskLanes b (th.mr (BitVec.ofNat 3 (fn.toNat / 128))) (fn.getLsbD 10) (th.vr rd) (fun j => (el j).1))).addFlags
           (fpLanes b (th.mr (BitVec.ofNat 3 (fn.toNat / 128))) el))).retires t.val (vfpCost op ft))) ∧
     (fn.getLsbD 6 = false → fn.getLsbD 10 = false → 11 ≤ op → op ≤ 13 →
       (op = 11 → ((s.part.thread t.val).rmode 7).isSome = true) →
       exec (.vfp t rd ra rb fn) s = s.after ((q.modThread t.val (fun th =>
         let ident := if op = 11 then 2 ^ (f.w - 1) else f.infBits (decide (op = 13))
         let l := (List.range (64 / b)).map (fun i =>
           if selects (th.mr (BitVec.ofNat 3 (fn.toNat / 128))) b i then lane (th.vr ra) b i else ident)
         let r := reducePairs (vfpOp (if op = 11 then 0 else if op = 12 then 5 else 6) f ((th.rmode 7).getD 0) th.fz) (64 / b).log2 l 0
         (th.setV rd (BitVec.ofNat 512 r.1)).addFlags r.2)).retires t.val (vfpCost op ft))) ∧
     (fn.getLsbD 6 = false → fn.getLsbD 10 = false → (op = 4 ∨ op = 7 ∨ op = 8 → rb = 0) → op ≤ 10 → fld ≠ 5 → fld ≠ 6 →
       (vfpRounds op = true → ((s.part.thread t.val).rmode fld).isSome = true) →
       exec (.sfp t rd ra rb fn) s = s.after ((q.modThread t.val (fun th =>
         let e := vfpOp op f ((th.rmode fld).getD 0) th.fz (lane (th.vr ra) b 0) (lane (th.vr rb) b 0)
         (th.setV rd (BitVec.ofNat 512 e.1)).addFlags e.2)).retires t.val (vfpCost op ft)))) ∧
  (∀ (s : State) (q : Part) (t : ThreadId) (rd ra rb : BitVec 5) (fn : BitVec 11), s.part.fetched t.val q →
     let form := fn.toNat % 4
     let ft := fn.toNat / 4 % 4
     let f := fpFmt ft
     let b := f.w / 8
     let fld := fn.toNat / 128 % 8
     let np := decide (form ≥ 2)
     let nd := decide (form = 1) || decide (form = 3)
     (fn.getLsbD 4 = true → fn.getLsbD 5 = false → fn.getLsbD 6 = false → fn.getLsbD 10 = false → fld ≠ 5 → fld ≠ 6 →
       ((s.part.thread t.val).rmode fld).isSome = true →
       exec (.fma t rd ra rb fn) s = s.after (((q.coreEvent t.val 8 1).modThread t.val (fun th =>
         let e := f.fma ((th.rmode fld).getD 0) th.fz (lane (th.vr ra) b 0) (lane (th.vr rb) b 0) (lane (th.vr rd) b 0) np nd
         (th.setV rd (BitVec.ofNat 512 e.1)).addFlags e.2)).retires t.val 4)) ∧
     (fn.getLsbD 4 = false → fn.getLsbD 6 = false → ((s.part.thread t.val).rmode 7).isSome = true → fn.getLsbD 5 = false →
       exec (.fma t rd ra rb fn) s = s.after (((q.coreEvent t.val 8 1).modThread t.val (fun th =>
         let el (j : Nat) : Nat × FpFlags :=
           f.fma ((th.rmode 7).getD 0) th.fz (lane (th.vr ra) b j) (lane (th.vr rb) b j) (lane (th.vr rd) b j) np nd
         (th.setV rd (maskLanes b (th.mr (BitVec.ofNat 3 fld)) (fn.getLsbD 10) (th.vr rd) (fun j => (el j).1))).addFlags
           (fpLanes b (th.mr (BitVec.ofNat 3 fld)) el))).retires t.val 4)) ∧
     (fn.getLsbD 4 = false → fn.getLsbD 6 = false → ((s.part.thread t.val).rmode 7).isSome = true → fn.getLsbD 5 = true → ft < 2 →
       exec (.fma t rd ra rb fn) s = s.after (((q.coreEvent t.val 8 1).modThread t.val (fun th =>
         let el (j : Nat) : Nat × FpFlags :=
           dotLane f ((th.rmode 7).getD 0) th.fz (lane (th.vr ra) 2 (2 * j)) (lane (th.vr rb) 2 (2 * j))
             (lane (th.vr ra) 2 (2 * j + 1)) (lane (th.vr rb) 2 (2 * j + 1)) (lane (th.vr rd) 4 j) np nd
         (th.setV rd (maskLanes 4 (th.mr (BitVec.ofNat 3 fld)) (fn.getLsbD 10) (th.vr rd) (fun j => (el j).1))).addFlags
           (fpLanes 4 (th.mr (BitVec.ofNat 3 fld)) el))).retires t.val 5))) ∧
  (∀ (s : State) (q : Part) (t : ThreadId) (rd ra rb : BitVec 5) (fn : BitVec 11) (cd : BitVec 3) (cc : BitVec 4) (ft : BitVec 2),
     s.part.fetched t.val q →
     let st := fn.toNat % 8
     let dt := fn.toNat / 8 % 8
     let form := fn.toNat / 64 % 4
     let rm := fn.toNat / 256
     let ss := etSize st
     let ds := etSize dt
     let n := 64 / max ss ds
     let high := rb.getLsbD 0
     (cvtLegal st dt form rb = true → rm ≠ 5 → rm ≠ 6 → (4 ≤ st ∨ 4 ≤ dt → ((s.part.thread t.val).rmode rm).isSome = true) →
       (form = 0 → exec (.vcvt t rd ra rb fn) s = s.after ((q.modThread t.val (fun th =>
         let src (j : Nat) : Nat := if ds > ss ∧ high then lane (th.vr ra) ss (j + n) else lane (th.vr ra) ss j
         let e (j : Nat) : Nat × FpFlags := cvtElem st dt ((th.rmode rm).getD 0) th.fz (src j)
         let body := (List.range n).foldl (fun a j => a + (e j).1 * 2 ^ (8 * ds * j)) 0
         let r : Nat := if ss > ds then (if high then body * 2 ^ 256 + (th.vr rd).toNat % 2 ^ 256 else body) else body
         (th.setV rd (BitVec.ofNat 512 r)).addFlags ((List.range n).foldl (fun g j => g ||| (e j).2) 0))).retires t.val 4)) ∧
       (form = 1 → exec (.vcvt t rd ra rb fn) s = s.after ((q.modThread t.val (fun th =>
         let e := cvtElem st dt ((th.rmode rm).getD 0) th.fz (lane (th.vr ra) ss 0)
         (th.setV rd (BitVec.ofNat 512 e.1)).addFlags e.2)).retires t.val 4)) ∧
       (form = 2 → exec (.vcvt t rd ra rb fn) s = s.after ((q.modThread t.val (fun th =>
         let e := cvtElem st dt ((th.rmode rm).getD 0) th.fz ((th.gr ra).toNat % 2 ^ (8 * ss))
         (th.setV rd (BitVec.ofNat 512 e.1)).addFlags e.2)).retires t.val 4)) ∧
       (form = 3 → exec (.vcvt t rd ra rb fn) s = s.after ((q.modThread t.val (fun th =>
         let e := cvtElem st dt ((th.rmode rm).getD 0) th.fz (lane (th.vr ra) ss 0)
         (th.setG rd (sextN (8 * ds) e.1)).addFlags e.2)).retires t.val 4))) ∧
     (let f := fpFmt ft.toNat
      (f.fcmp false cc.toNat 0 0).isSome = true →
       exec (.fcmp t cd cc ra rb ft 0) s = s.after ((q.modThread t.val (fun th =>
         let e := (f.fcmp th.fz cc.toNat (lane (th.vr ra) (f.w / 8) 0) (lane (th.vr rb) (f.w / 8) 0)).getD (false, 0)
         (th.setC cd e.1).addFlags e.2)).retires t.val 3)))

/-- VPERM (R118): broadcast, insert, extract, permutation, compression, moves and reductions. -/
def Obligations.PermuteResults : Prop :=
  ∀ (s : State) (q : Part) (t : ThreadId) (rd ra rb : BitVec 5) (z mk op : Nat), s.part.fetched t.val q → z < 4 → mk < 8 →
    let b := 2 ^ z
    let word (k : Nat) : BitVec 11 := BitVec.ofNat 11 (k + 32 * z)
    let masked (k : Nat) : BitVec 11 := BitVec.ofNat 11 (k + 32 * z + 128 * mk)
    let m (th : Thr) : Dword := th.mr (BitVec.ofNat 3 mk)
    exec (.vperm t rd ra 0 (masked 0)) s = s.after ((q.modThread t.val (fun th =>
      th.setV rd (maskLanes b (m th) false (th.vr rd) (fun _ => (th.gr ra).toNat % 2 ^ (8 * b))))).retires t.val 1) ∧
    exec (.vperm t rd ra rb (word 1)) s = s.after ((q.modThread t.val (fun th =>
      th.setV rd (mkVec b (fun j => if j = (th.gr rb).toNat % (64 / b) then (th.gr ra).toNat % 2 ^ (8 * b) else lane (th.vr rd) b j)))).retires t.val 3) ∧
    exec (.vperm t rd ra rb (word 2)) s = s.after ((q.modThread t.val (fun th =>
      th.setG rd (sextN (8 * b) (lane (th.vr ra) b ((th.gr rb).toNat % (64 / b)))))).retires t.val 3) ∧
    exec (.vperm t rd ra rb (masked 3)) s = s.after ((q.modThread t.val (fun th =>
      th.setV rd (maskLanes b (m th) false (th.vr rd) (fun j => lane (th.vr ra) b (lane (th.vr rb) b j % (64 / b)))))).retires t.val 3) ∧
    exec (.vperm t rd ra rb (masked 4)) s = s.after ((q.modThread t.val (fun th =>
      th.setV rd (mkVec b (fun j => (((List.range (64 / b)).filter (selects (m th) b)).map (lane (th.vr ra) b)).getD j 0)))).retires t.val 3) ∧
    (5 ≤ op → op ≤ 9 → exec (.vperm t rd ra rb (masked op)) s = s.after ((q.modThread t.val (fun th =>
      th.setV rd (BitVec.ofNat 512 (((List.range (64 / b)).filter (selects (m th) b)).foldl
        (fun x j => vredOp op (8 * b) x (lane (th.vr ra) b j)) (vredId op (8 * b)))))).retires t.val (1 + (6 - z)))) ∧
    exec (.vperm t rd ra 0 (word 10)) s = s.after ((q.modThread t.val (fun th => th.setG rd (sextN (8 * b) (lane (th.vr ra) b 0)))).retires t.val 2) ∧
    exec (.vperm t rd ra 0 (word 11)) s = s.after ((q.modThread t.val (fun th =>
      th.setV rd (BitVec.ofNat 512 ((th.gr ra).toNat % 2 ^ (8 * b))))).retires t.val 2) ∧
    exec (.vperm t rd ra 0 (masked 12)) s = s.after ((q.modThread t.val (fun th =>
      th.setV rd (maskLanes b (m th) false (th.vr rd) (lane (th.vr ra) b)))).retires t.val 1)

/-- Vector loads and stores (R122 to R128): with no element selected nothing is accessed; otherwise every element is
checked, then the loaded elements go to the destination, or the stored ones leave together, a later element's bytes
over an earlier one's. -/
def Obligations.VectorMemoryResults : Prop :=
  ∀ (s : State) (q r u : Part) (t : ThreadId) (rd ra rb : BitVec 5) (imm : BitVec 16) (fn : BitVec 11) (l : List (Nat × Nat))
    (k : List (Nat × Dword × List Seg)),
    s.part.fetched t.val q →
    (let a := (q.thread t.val).vldAcc ra imm
     let w := (r.vcharge t.val a [] k).elemEnts t.val a.b ((r.thread t.val).vr rd) k []
     (a.elems = [] → exec (.vst t rd ra imm) s = s.after (q.retires t.val 1) ∧ exec (.vld t rd ra imm) s = s.after (q.retires t.val 1)) ∧
     (a.elems ≠ [] → q.vloadAll t.val a = .inl (.ok r l) →
       exec (.vld t rd ra imm) s = s.after ((r.modThread t.val (fun th => th.setV rd (putElems a.b true (th.vr rd) l))).retires t.val 1)) ∧
     (a.elems ≠ [] → q.storeBegun t.val = none → q.vcheck t.val .store a a.elems [] = .ok r k → wholeDevice k = none →
       w.1.storeOut t.val w.2 = .ok u 0 → exec (.vst t rd ra imm) s = s.after (u.retires t.val 1)) ∧
     (a.elems ≠ [] → q.storeBegun t.val = some true → exec (.vst t rd ra imm) s = s.after (q.retires t.val 1))) ∧
    (vmemLegal fn = true →
     let a := (q.thread t.val).vmemAcc ra rb fn
     let w := (r.vcharge t.val a [] k).elemEnts t.val a.b ((r.thread t.val).vr rd) k []
     (fn.getLsbD 2 = false → a.elems = [] → exec (.vmem t rd ra rb fn) s = s.after ((q.modThread t.val (fun th =>
       th.setV rd (putElems a.b (fn.getLsbD 10) (th.vr rd) []))).retires t.val 1)) ∧
     (fn.getLsbD 2 = false → a.ff = false → a.elems ≠ [] → q.vloadAll t.val a = .inl (.ok r l) →
       exec (.vmem t rd ra rb fn) s = s.after ((r.modThread t.val (fun th =>
         th.setV rd (putElems a.b (fn.getLsbD 10) (th.vr rd) l))).retires t.val 1)) ∧
     (fn.getLsbD 2 = false → a.ff = true → a.elems ≠ [] → q.vloadFF t.val a a.elems [] [] = (.ok r l, none) →
       exec (.vmem t rd ra rb fn) s = s.after ((r.modThread t.val (fun th =>
         th.setV rd (putElems a.b (fn.getLsbD 10) (th.vr rd) l))).retires t.val 1)) ∧
     (fn.getLsbD 2 = false → a.ff = true → ∀ (e : Nat × Dword) (es : List (Nat × Dword)) (i : Nat), a.elems = e :: es → i ≠ e.1 →
       q.vloadFF t.val a a.elems [] [] = (.ok r l, some i) →
       exec (.vmem t rd ra rb fn) s = s.after (((r.modThread t.val (fun th =>
         th.setM (BitVec.ofNat 3 (fn.toNat / 128)) ((List.range (64 / a.b)).foldl (fun m j =>
           if j ≥ i then m &&& ~~~ BitVec.ofNat 64 (2 ^ (a.b * j)) else m) (th.mr (BitVec.ofNat 3 (fn.toNat / 128)))))).modThread t.val (fun th =>
         th.setV rd (putElems a.b (fn.getLsbD 10) (th.vr rd) l))).retires t.val 1)) ∧
     (fn.getLsbD 2 = true → a.elems = [] → exec (.vmem t rd ra rb fn) s = s.after (q.retires t.val 1)) ∧
     (fn.getLsbD 2 = true → a.elems ≠ [] → q.storeBegun t.val = none → q.vcheck t.val .store a a.elems [] = .ok r k →
       wholeDevice k = none → w.1.storeOut t.val w.2 = .ok u 0 → exec (.vmem t rd ra rb fn) s = s.after (u.retires t.val 1)))

/-- An exception entry (R41, R142, R146, R147): what the bank of the target level takes, and where the thread goes on.
Which level takes a cause (R40): F from F or with FDELEG clear; H when HDELEG is clear, for MACHINE_CHECK and for
causes that go to H or F; else H from H, and S from U and S. -/
def Obligations.ExceptionEntry : Prop :=
  (∀ (th : Thr) (l : Level) (sv : Saved) (cause : Dword) (off : Nat),
     let b := bankBase l th.vm
     let e := th.enter l sv cause off
     let st := (e.sys (b + 3)).toNat
     e.sys b = 2 ∧ e.sys (b + 1) = sv.xpc ∧ e.sys (b + 4) = cause ∧ e.sys (b + 5) = sv.xaddr ∧
     (∀ d, sv.xtgt = some d → e.sys (b + 2) = d ∧ st / 16 % 2 = 1 ∧ st / 32 = 0) ∧
     (sv.xtgt = none → e.sys (b + 2) = 0 ∧ st / 16 % 2 = 0) ∧
     st % 4 = th.level.code ∧ st / 4 % 2 = (th.sys b).toNat % 2 ∧ (st / 8 % 2 = 1 ↔ th.vm = true) ∧
     e.level = l ∧ (l ≠ .s → e.vm = false) ∧ (l = .s → e.vm = th.vm) ∧ e.slot = none ∧
     e.pc = (th.sys (b + 7) &&& ~~~ 0xFFF) + BitVec.ofNat 64 off ∧
     (∀ n, n < b ∨ b + 5 < n → e.sys n = th.sys n) ∧
     e.g = th.g ∧ e.v = th.v ∧ e.m = th.m ∧ e.c = th.c ∧ e.run = th.run ∧ e.mce = th.mce ∧ e.instret = th.instret) ∧
  (∀ (th : Thr) (cause : Nat) (toH : Bool),
     (th.level = .f ∨ (th.sys 0xC08).getLsbD cause = false → th.target cause toH = .f) ∧
     (th.level ≠ .f → (th.sys 0xC08).getLsbD cause = true →
       (toH = true ∨ (th.sys 0x808).getLsbD cause = false ∨ cause = 16 ∨ th.level = .h → th.target cause toH = .h) ∧
       (toH = false → (th.sys 0x808).getLsbD cause = true → cause ≠ 16 → th.level ≠ .h → th.target cause toH = .s)))

/-- RETX restores the level, V, the enable, the pc and the slot, and nothing else (R43, R147, R149). -/
def Obligations.ExceptionReturn : Prop :=
  ∀ (th : Thr), th.level ≠ .u →
    let b := bankBase th.level th.vm
    let st := (th.sys (b + 3)).toNat
    let e := th.ret
    e.level.code = st % 4 ∧ e.pc = th.sys (b + 1) ∧
    e.sys b = (if st / 4 % 2 = 1 then 1 else 0) ∧
    (st / 16 % 2 = 1 → e.slot = some ⟨th.sys (b + 2), true⟩) ∧ (st / 16 % 2 = 0 → e.slot = none) ∧
    (th.level = .s → th.vm = true → e.vm = true) ∧
    (¬ (th.level = .s ∧ th.vm = true) → (e.vm = true ↔ st / 8 % 2 = 1)) ∧
    (∀ n, n ≠ b → e.sys n = th.sys n) ∧
    e.g = th.g ∧ e.v = th.v ∧ e.m = th.m ∧ e.c = th.c ∧ e.run = th.run

/-- INTERRUPT_TAKEN and MACHINE_CHECK_TAKEN (R145, R146, R153): a running thread at a boundary takes its best
deliverable vector, or the oldest pending MACHINE_CHECK, which goes first. Doorbells, timers and the IPIs of threads
and of units (R156, R158 to R161). Reading ICCLAIM takes the highest pending and enabled vector of the view at or
above its threshold, and clears its PEND (R155); with none it reads zero. Model's choices: The order of events:
notes/assumptions/15.md. -/
def Obligations.EventsAndVectors : Prop :=
  (∀ (s : State) (t : ThreadId) (v n : Nat) (l : List Nat),
     (s.part.thread t.val).run = .running → (s.part.thread t.val).boundary = true →
     ¬ (t.val % 2 = 0 ∧ s.part.plumbEntering (t.val / 2) = true) →
     let sv : Saved := ⟨(s.part.thread t.val).pc, (s.part.thread t.val).slot.map (·.dest), 0, true⟩
     ((s.part.thread t.val).mce = [] → (s.part.icOf t.val).best (s.part.thread t.val) = some v →
       exec (.interruptTaken t) s = s.after ((s.part.takeInterrupt t.val v sv (Part.plumbFlush (t.val / 2))).tick t.val 6)) ∧
     ((s.part.thread t.val).mce = [] → (s.part.icOf t.val).best (s.part.thread t.val) = none →
       exec (.interruptTaken t) s = s.after s.part) ∧
     ((s.part.thread t.val).mce = n :: l → exec (.interruptTaken t) s = s.after s.part) ∧
     ((s.part.thread t.val).mce = n :: l →
       exec (.machineCheckTaken t) s = s.after (((s.part.modThread t.val (fun x => { x with mce := l })).takeCause t.val 16 false sv
         (Part.plumbFlush (t.val / 2))).tick t.val 6))) ∧
  (∀ (s : State) (t : ThreadId) (data : BitVec 32) (size : Nat) (init : BitVec 4) (k : Timer) (m : Msg)
     (skt : BitVec 4) (vec : BitVec 10) (lvl : Level) (vm : Bool) (vmid : BitVec 12),
     let p := s.part
     let ic := p.icOf t.val
     -- a doorbell of four bytes below 1,024 at a vector whose D is 1
     (p.coreInSvc (t.val / 2) = false → exec (.doorbellWrite t data size init) s = s.after p) ∧
     (p.icPresent t.val = true → size = 4 → data.toNat < 1024 → (ic.vecOf data.toNat).d = true →
       exec (.doorbellWrite t data size init) s = s.after (p.setPend t.val data.toNat true)) ∧
     (p.coreInSvc (t.val / 2) = true → (size ≠ 4 ∨ 1024 ≤ data.toNat ∨ p.icPresent t.val = false) →
       exec (.doorbellWrite t data size init) s = s.after (p.rasLog (tileOfThread t.val) 0xFF 9 0 init.toNat 0 .unstated)) ∧
     -- a timer that is armed moves TIME to its compare value, disarms, and sets its vector pending
     (p.icPresent t.val = true → (ic.get k.vecNum).getLsbD 63 = true →
       let r := ic.get k.vecNum
       let v := r.toNat % 1024
       let q := ({ p with time := max p.time (ic.get k.cmpNum).toNat }).modIc t.val (fun ic => ic.put k.vecNum (r &&& ~~~ BitVec.ofNat 64 (2 ^ 63)))
       (k.view.reaches (r.toNat / 2 ^ 16 % 2 ^ 12) (ic.vecOf v) = true → exec (.timerFire t k) s = s.after (q.setPend t.val v true)) ∧
       (k.view.reaches (r.toNat / 2 ^ 16 % 2 ^ 12) (ic.vecOf v) = false →
         exec (.timerFire t k) s = s.after (q.modIc t.val (fun ic => ic.put (k.view.num 5) (ic.get (k.view.num 5) ||| 1))))) ∧
     -- an IPI of a thread, once its message has landed (R158, R159): a sender in another socket is answered
     (skt.toNat = p.sktId → p.net.find? (fun m => decide (m.opc = .ipi) && !m.bc && decide (m.aux = t.val) && decide (m.op = vec.toNat)
         && decide (m.dst.skt = skt.toNat)) = some m → (p.fabTo m).landed m = true →
       let w := (p.fabTo m).takeOut m
       let u := w.setPend t.val vec.toNat true
       (w.icPresent t.val = true → ipiAccepts (ic.vecOf vec.toNat) m.sz m.plb m.vmid = true →
         exec (.ipi skt t vec lvl vm vmid) s = s.after (if m.src.skt = u.sktId then u else u.send (m.ipiAnswer 0))) ∧
       (w.icPresent t.val = true → ipiAccepts (ic.vecOf vec.toNat) m.sz m.plb m.vmid = false →
         exec (.ipi skt t vec lvl vm vmid) s = s.after (if m.src.skt = w.sktId then
           w.modIc m.addr (fun ic => ic.put m.status (ic.get m.status ||| 1)) else w.send (m.ipiAnswer 2)))) ∧
     -- an IPI of a unit: it asks nothing of the vector, and its rejection is logged in the unit's tile
     (skt.toNat = p.sktId → p.net.find? (fun m => decide (m.opc = .ipi) && m.bc && decide (m.aux = t.val) && decide (m.op = vec.toNat)
         && decide (m.dst.skt = skt.toNat)) = some m → (p.fabTo m).landed m = true →
       let w := (p.fabTo m).takeOut m
       let u := w.setPend t.val vec.toNat true
       (w.icPresent t.val = true → exec (.unitIpi skt t vec) s = s.after (if m.src.skt = u.sktId then u else u.send (m.ipiAnswer 0))) ∧
       (w.coreInSvc (t.val / 2) = false → m.src.skt = w.sktId → exec (.unitIpi skt t vec) s = s.after (w.rasLog m.src.tile 0xFF 13 0 m.src.init 0
         (.named [14, m.src.tile, m.src.init, skt.toNat, t.val, vec.toNat]))))) ∧
  (∀ (p : Part) (t : Nat) (w : IcView),
     (∀ v, (p.icOf t).claimable w (p.thread t).vmid = some v →
       p.icRead t w 0 = (p.modIc t (fun ic => ic.modVec v (fun x => { x with pend := false })), BitVec.ofNat 64 (2 ^ 63 + v)) ∧
       ∀ u x, (u, x) ∈ (p.icOf t).vec → w.reaches (p.thread t).vmid x = true → x.lv = w.lv → x.en = true → x.pend = true →
         ((p.icOf t).get (w.num 1)).toNat ≤ u → u ≤ v) ∧
     ((p.icOf t).claimable w (p.thread t).vmid = none → p.icRead t w 0 = (p, 0)))

/-- How a field takes a written value (R9, R550): RO keeps its value, RW takes it, RWB keeps it back until its
boundary, W1C clears the bits written 1, W1S is not stored. -/
def Obligations.AccessCodes : Prop :=
  ∀ (p : Part) (m : Master) (f : Fld) (u i v : Nat), actionOnly f = false →
    let x := v / 2 ^ f.lo % 2 ^ f.width
    (f.acc = .ro → p.putFld m ⟨f, u, i⟩ v = p) ∧
    (f.acc = .rw → f ≠ F.PERF_GCTL_RUN → p.putFld m ⟨f, u, i⟩ v = p.setRg f x u i) ∧
    (f.acc = .rwb → p.putFld m ⟨f, u, i⟩ v = { p with held := p.held.put (f.key u i) x }) ∧
    (f.acc = .w1c → f ≠ F.PERF_OVF_OVF → p.putFld m ⟨f, u, i⟩ v = p.setRg f (p.rg f u i - (p.rg f u i &&& x)) u i) ∧
    (f.acc = .w1s → f ≠ F.PWR_TCTL_RST → f ≠ F.MC_ILVCTL_COMMIT → p.putFld m ⟨f, u, i⟩ v = p)

/-- REGISTER_WRITE (R9, R540, R541), through any alias of its page: a write of one whole aligned word of a page that
is not switched off, that is no doorbell, is a write of that register; a part of a word is denied with INFO 1; a page
that is switched off takes nothing. A write that is not F's or Easel's to an FO register is denied: one entry of the
log of the page's tile, and no field of the register changes (R544). It is said of CORE_PLUMB, PWR_PL, PWR_BOFF and
CLK_ALLCORE. Model's choices: ADDR and INFO of a denial: notes/assumptions/23.md. -/
def Obligations.RegisterWrites : Prop :=
  (∀ (s : State) (tile : TileId) (page off : BitVec 12) (size : Nat) (v : Vec) (m : Master),
     let p := s.part
     let w := off.toNat / 4 % 256
     (p.pageOff ⟨tile.val, page.toNat⟩ = true → exec (.registerWrite tile page off size v m) s = s.after p) ∧
     (p.pageOff ⟨tile.val, page.toNat⟩ = false → size = 4 → off.toNat % 4 = 0 → bellAt ⟨tile.val, page.toNat⟩ w = none →
       exec (.registerWrite tile page off size v m) s = s.after (p.ctlWrite m ⟨tile.val, page.toNat⟩ w (v.toNat % 2 ^ 32))) ∧
     (p.pageOff ⟨tile.val, page.toNat⟩ = false → size < 4 → off.toNat % 4 = 0 → size ≠ 0 → bellAt ⟨tile.val, page.toNat⟩ w = none →
       p.answering ⟨tile.val, page.toNat⟩ w ≠ [] →
       exec (.registerWrite tile page off size v m) s = s.after (p.denied m ⟨tile.val, page.toNat⟩ w true))) ∧
  (∀ (s : State) (c : CoreId) (v : BitVec 32) (b : BitVec 27) (x y : BitVec 8) (m : Master), m.top = false →
     let p := s.part
     (p.opens F.CORE_PLUMB_EN c.val 0 [F.CORE_PLUMB_EN, F.CORE_PLUMB_OVRIE, F.CORE_PLUMB_OVRVEC, F.CORE_PLUMB_MEMLAT] →
       exec (.corePlumbWrite c v m) s = s.after (p.denied m (Blk.place .core c.val) 4 false)) ∧
     exec (.pwrPlWrite v m) s = s.after (p.denied m (Blk.place .spwr 0) 0 false) ∧
     exec (.pwrBoffWrite b m) s = s.after (p.denied m (Blk.place .spwr 0) 7 false) ∧
     exec (.clkAllcoreWrite x y m) s = s.after (p.denied m (Blk.place .sclk 0) 1 false))

/-- The registers of a core, of a tile's power and of the socket's power and clocks (R170, R177, R185, R488, R493,
R494, R496, R505), written from F or by Easel. A reseed gives the level an open secret and drops its entries. Model's
choices: Effective frequencies: notes/assumptions/32.md. -/
def Obligations.CoreAndPowerWrites : Prop :=
  ∀ (s : State) (c : CoreId) (t : TileId) (v : BitVec 32) (off : Bool) (mode : BitVec 2) (idlet : BitVec 16) (b : BitVec 27)
    (fmax fmin : BitVec 8) (m : Master), m.top = true →
    let p := s.part
    let k := c.val
    let ct := tileOfCore k
    let drops (x : CoreSt) (l : Level) (f : CoreSt → CoreSt) : CoreSt := f { x with
      btb := x.btb.filter (fun e => e.level ≠ l)
      ras0 := x.ras0.filter (fun e => e.level ≠ l)
      ras1 := x.ras1.filter (fun e => e.level ≠ l) }
    (p.opens F.CORE_BTBCTL_FLUSH k 0 [F.CORE_BTBCTL_RESEED_F, F.CORE_BTBCTL_RESEED_H, F.CORE_BTBCTL_FLUSH] →
      exec (.reseedF c m) s = s.after (p.used.used.modCore k (fun x => drops x .f (fun y => { y with secretF := p.drawn }))) ∧
      exec (.reseedH c m) s = s.after (p.used.used.modCore k (fun x => drops x .h (fun y => { y with secretH := p.drawn }))) ∧
      exec (.btbFlush c m) s = s.after (p.modCore k (fun x => { x with btb := [], ras0 := [], ras1 := [] }))) ∧
    (p.opens F.CORE_CFG_T1EN k 0 [F.CORE_CFG_ROBMAX, F.CORE_CFG_ICGATE, F.CORE_CFG_LBEN, F.CORE_CFG_RASEN, F.CORE_CFG_BTBEN,
        F.CORE_CFG_FPOL, F.CORE_CFG_T1EN] →
      exec (.coreCfgWrite c v m) s = s.after (p.buffers k 0 [(F.CORE_CFG_ROBMAX, v.toNat / 2 ^ 16 % 512), (F.CORE_CFG_ICGATE, v.toNat / 2 ^ 8 % 2),
        (F.CORE_CFG_LBEN, v.toNat / 2 ^ 7 % 2), (F.CORE_CFG_RASEN, v.toNat / 2 ^ 6 % 2), (F.CORE_CFG_BTBEN, v.toNat / 2 ^ 5 % 2),
        (F.CORE_CFG_FPOL, v.toNat / 2 ^ 4 % 2), (F.CORE_CFG_T1EN, v.toNat % 2)])) ∧
    (p.opens F.CORE_PLUMB_EN k 0 [F.CORE_PLUMB_EN, F.CORE_PLUMB_OVRIE, F.CORE_PLUMB_OVRVEC, F.CORE_PLUMB_MEMLAT] →
      exec (.corePlumbWrite c v m) s = s.after (p.buffers k 0 [(F.CORE_PLUMB_EN, v.toNat / 2 ^ 31 % 2), (F.CORE_PLUMB_OVRIE, v.toNat / 2 ^ 30 % 2),
        (F.CORE_PLUMB_OVRVEC, v.toNat / 2 ^ 20 % 1024), (F.CORE_PLUMB_MEMLAT, v.toNat % 2 ^ 14)])) ∧
    (p.opens F.PWR_C_MODE ct (k % 2) [F.PWR_C_RST, F.PWR_C_MODE, F.PWR_C_IDLET] →
      let rst := p.rg F.PWR_C_RST ct (k % 2)
      let old := p.rg F.PWR_C_MODE ct (k % 2)
      exec (.pwrCModeWrite c mode idlet m) s = s.after ((p.takes ct (k % 2) [(F.PWR_C_RST, rst), (F.PWR_C_MODE, mode.toNat),
        (F.PWR_C_IDLET, idlet.toNat)]).pwrCore k (p.rgOn F.PWR_C_RST ct (k % 2)) old) ∧
      (m.easel = false → exec (.coreReset c m) s = s.after ((p.takes ct (k % 2) [(F.PWR_C_RST, 1), (F.PWR_C_MODE, old),
        (F.PWR_C_IDLET, p.rg F.PWR_C_IDLET ct (k % 2))]).pwrCore k (p.rgOn F.PWR_C_RST ct (k % 2)) old))) ∧
    (m.easel = true → exec (.coreReset c m) s = s.after ((p.testAbort k).coreAim k .reset)) ∧
    (p.opens F.PWR_TCTL_OFF t.val 0 [F.PWR_TCTL_RST, F.PWR_TCTL_OFF] →
      exec (.tileOffRequest t off m) s = s.after ((p.takes t.val 0 [(F.PWR_TCTL_OFF, off.toNat)]).tileOff t.val (p.rgOn F.PWR_TCTL_OFF t.val)) ∧
      exec (.tileReset t m) s = s.after (((p.takes t.val 0 [(F.PWR_TCTL_RST, 1), (F.PWR_TCTL_OFF, p.rg F.PWR_TCTL_OFF t.val)]).tileOff t.val
        (p.rgOn F.PWR_TCTL_OFF t.val)).tileRst t.val)) ∧
    exec (.pwrPlWrite v m) s = s.after (p.takes 0 0 [(F.PWR_PL_W, v.toNat % 1024)]) ∧
    exec (.pwrBoffWrite b m) s = s.after ((p.takes 0 0 [(F.PWR_BOFF_OFF, b.toNat)]).boffWritten (p.rg F.PWR_BOFF_OFF)) ∧
    exec (.clkAllcoreWrite fmax fmin m) s = s.after (p.clkAllCore fmax.toNat fmin.toNat)

/-- The registers of slices, fabric, memory, links and ports (R215, R238, R242, R280, R323, R336, R356, R394, R397,
R398). -/
def Obligations.UnitRegisterWrites : Prop :=
  ∀ (s : State) (k : SliceId) (on groups : BitVec 4) (tile : TileId) (freeze arm en rst : Bool) (i g : Fin 8) (d : Fin 4)
    (n : PortId) (v : BitVec 32) (m : Master),
    let p := s.part
    -- way groups and maintenance of a slice
    (m.top = true → p.opens F.LLC_WAYPWR_ON k.val 0 [F.LLC_WAYPWR_ON] →
      exec (.llcWaypwrWrite k on m) s =
        s.after ((p.takes k.val 0 [(F.LLC_WAYPWR_ON, on.toNat)]).llcWaypwr k.val (p.rg F.LLC_WAYPWR_ON k.val) on.toNat)) ∧
    (p.opens F.LLC_MAINT_GO k.val 0 [F.LLC_MAINT_GO, F.LLC_MAINT_GROUPS, F.LLC_MAINT_OP] →
      ∀ (op : Nat) (c : Instr), (op, c) ∈ [(0, Instr.llcMaintClean k groups m), (1, Instr.llcMaintFlush k groups m)] →
      let q := p.takes k.val 0 [(F.LLC_MAINT_GROUPS, groups.toNat), (F.LLC_MAINT_OP, op)]
      (q.rgOn F.LLC_MSTAT_BUSY k.val = true → exec c s = s.after (q.setRg F.LLC_MSTAT_REJ 1 k.val)) ∧
      (q.rgOn F.LLC_MSTAT_BUSY k.val = false → exec c s = s.after ((q.setRg F.LLC_MSTAT_BUSY 1 k.val).modSlice k.val
        (fun x => { x with sweep := some ⟨decide (op = 1), q.rg F.LLC_MAINT_GROUPS k.val⟩ })))) ∧
    -- FAB_STATSTAT
    (p.opens F.FAB_STATSTAT_CLR tile.val 0 [F.FAB_STATSTAT_CLR, F.FAB_STATSTAT_FREEZE, F.FAB_STATSTAT_OVF] →
      exec (.fabStatClear tile freeze m) s = s.after (((p.takes tile.val 0 [(F.FAB_STATSTAT_FREEZE, freeze.toNat)]).setRg
        F.FAB_STATSTAT_OVF (p.rg F.FAB_STATSTAT_OVF tile.val) tile.val).fabStatClear tile.val)) ∧
    -- the interleave table, Varnish
    (m.top = true → p.opens F.MC_ILVCTL_COMMIT 0 0 [F.MC_ILVCTL_COMMIT] →
      exec (.ilvCommit m) s = s.after (p.setRg F.MC_ILVCTL_COMMIT 1)) ∧
    (m.top = true → p.opens F.VAR_CTL_ARM i.val 0 [F.VAR_CTL_ARM] →
      exec (.varCtlWrite i arm m) s = s.after (p.varCtl i.val arm)) ∧
    -- a link
    (p.opens F.DVT_CTL_EN d.val 0 [F.DVT_CTL_RETRAIN, F.DVT_CTL_MAXW, F.DVT_CTL_EN] →
      let w := p.rg F.DVT_CTL_MAXW d.val
      (w < 4 → p.rg F.DVT_CTL_EN d.val < 2 →
        exec (.dvtCtlRetrain d m) s = s.after (((p.takes d.val 0 [(F.DVT_CTL_MAXW, w), (F.DVT_CTL_EN, p.rg F.DVT_CTL_EN d.val)])).dvtRetrain d.val)) ∧
      (w < 4 → exec (.dvtCtlEnWrite d en m) s = s.after ((p.takes d.val 0 [(F.DVT_CTL_MAXW, w), (F.DVT_CTL_EN, en.toNat)]).dvtEnable d.val
        (p.rgOn F.DVT_CTL_EN d.val) en))) ∧
    -- a port, a group, the endpoint
    (p.opens F.PCI_PORT_CTL_EN n.val 0 [F.PCI_PORT_CTL_RELEASE, F.PCI_PORT_CTL_RETRAIN, F.PCI_PORT_CTL_MAXSPEED, F.PCI_PORT_CTL_ECRC,
        F.PCI_PORT_CTL_EN] →
      let sp := p.rg F.PCI_PORT_CTL_MAXSPEED n.val
      let ec := p.rg F.PCI_PORT_CTL_ECRC n.val
      let e := p.rg F.PCI_PORT_CTL_EN n.val
      let same := p.takes n.val 0 [(F.PCI_PORT_CTL_MAXSPEED, sp), (F.PCI_PORT_CTL_ECRC, ec), (F.PCI_PORT_CTL_EN, e)]
      sp < 4 → ec < 2 → e < 2 →
        exec (.pciPortRelease n m) s = s.after (same.portRelease n.val) ∧
        exec (.pciPortRetrain n m) s = s.after (same.portRetrain n.val) ∧
        exec (.pciPortEnWrite n en m) s = s.after ((p.takes n.val 0 [(F.PCI_PORT_CTL_MAXSPEED, sp), (F.PCI_PORT_CTL_ECRC, ec),
          (F.PCI_PORT_CTL_EN, en.toNat)]).portEnable n.val (p.rgOn F.PCI_PORT_CTL_EN n.val) en)) ∧
    (p.opens F.PCI_GRP_CTL_RST g.val 0 [F.PCI_GRP_CTL_RST] →
      exec (.pciGrpRstWrite g rst m) s = s.after ((p.takes g.val 0 [(F.PCI_GRP_CTL_RST, rst.toNat)]).grpRst g.val
        (p.rgOn F.PCI_GRP_CTL_RST g.val) rst)) ∧
    (p.opens F.EP_HINT_VEC 0 0 [F.EP_HINT_VEC] → exec (.epHintWrite v m) s = s.after (p.epHint (v.toNat % 2 ^ 11)))

/-- The packet engine's and the crypto engine's command registers (R401, R417, R419, R438, R445): the fields are
taken, a command while another runs sets REJ and changes nothing else, and every other command starts. A read of the
selected entry of a tile's log (R514), the counters of a tile (R559) and the collector (R560, R562), from VMID 0.
Model's choices: The phase of a snapshot period: notes/assumptions/43.md. -/
def Obligations.NetworkAndCounterWrites : Prop :=
  (∀ (s : State) (k : Fin 16) (v : BitVec 32) (qn : BitVec 14) (clr rst : Bool) (b : BitVec 16) (ks : BitVec 13) (m : Master),
     let p := s.part
     (p.opens F.NET_MAC_CFG_SPEED k.val 0 [F.NET_MAC_CFG_AN, F.NET_MAC_CFG_MAXLEN, F.NET_MAC_CFG_SPEED] →
       exec (.netMacCfgWrite k v m) s = s.after ((p.takes k.val 0 [(F.NET_MAC_CFG_AN, v.toNat / 2 ^ 18 % 2), (F.NET_MAC_CFG_MAXLEN, v.toNat / 2 ^ 4 % 2 ^ 14),
         (F.NET_MAC_CFG_SPEED, v.toNat % 4)]).macWritten k.val (p.rg F.NET_MAC_CFG_SPEED k.val) (p.rg F.NET_MAC_CFG_AN k.val))) ∧
     (p.opens F.NET_QCMD_GO 0 0 [F.NET_QCMD_GO, F.NET_QCMD_OP, F.NET_QCMD_CLR, F.NET_QCMD_QUEUE] →
       ∀ (op : Nat) (c : Instr), (op, c) ∈ [(0, Instr.queueEnable qn clr m), (1, Instr.queueDisable qn clr m), (2, Instr.queueRead qn clr m),
         (3, Instr.queueAbort qn clr m)] →
       let q := p.takes 0 0 [(F.NET_QCMD_OP, op), (F.NET_QCMD_CLR, clr.toNat), (F.NET_QCMD_QUEUE, qn.toNat)]
       exec c s = s.after q.qCmd ∧
       (q.netOn = true → q.pkt.qcmd.isSome = true → exec c s = s.after (q.setRg F.NET_QCMDSTAT_REJ 1)) ∧
       (q.netOn = true → q.pkt.qcmd = none → op = 2 → clr = false →
         exec c s = s.after (((q.queueRead qn.toNat).setRg F.NET_QCMDSTAT_ERRCODE 0).setRg F.NET_QCMDSTAT_DONE 1)) ∧
       (q.netOn = true → q.pkt.qcmd = none → (op = 1 ∨ op = 3) → (q.queueOf qn.toNat).state ≠ .disabled →
         exec c s = s.after (((q.setRg F.NET_QCMDSTAT_BUSY 1).modPkt (fun x => { x with qcmd := some (.direct, qn.toNat) })).queueDrain
           qn.toNat (decide (op = 3))))) ∧
     (p.opens F.NET_FLOWCMD_GO 0 0 [F.NET_FLOWCMD_GO, F.NET_FLOWCMD_ALL, F.NET_FLOWCMD_BUCKET] →
       ∀ (all : Nat) (bk : Nat) (c : Instr), (all, bk, c) ∈ [(0, b.toNat, Instr.flowcmdBucket b m), (1, 0, Instr.flowcmdAll m)] →
       let q := p.takes 0 0 [(F.NET_FLOWCMD_ALL, all), (F.NET_FLOWCMD_BUCKET, bk)]
       (q.netOn = true → q.pkt.flowcmd.isSome = true → exec c s = s.after (q.setRg F.NET_FLOWSTAT_REJ 1)) ∧
       (q.netOn = true → q.pkt.flowcmd = none → exec c s = s.after ((q.setRg F.NET_FLOWSTAT_BUSY 1).flowStart .direct (decide (all = 1)) bk))) ∧
     (p.opens F.NET_CTL_RST 0 0 [F.NET_CTL_RST] →
       exec (.netCtlRst rst m) s = s.after ((p.takes 0 0 [(F.NET_CTL_RST, rst.toNat)]).netRstAll (p.rg F.NET_CTL_RST))) ∧
     (p.opens F.KEY_CMD_GO 0 0 [F.KEY_CMD_GO, F.KEY_CMD_OP, F.KEY_CMD_SLOT] →
       ∀ (op sl : Nat) (c : Instr), (op, sl, c) ∈ [(0, ks.toNat, Instr.keyLoad ks m), (1, ks.toNat, Instr.keyErase ks m), (2, 0, Instr.keyEraseAll m)] →
       let q := p.takes 0 0 [(F.KEY_CMD_OP, op), (F.KEY_CMD_SLOT, sl)]
       let r := q.setRg F.KEY_CMDSTAT_ERRCODE 0
       (q.key.cmd.isSome = true → exec c s = s.after (q.setRg F.KEY_CMDSTAT_REJ 1)) ∧
       (q.key.cmd = none → op = 0 → r.keyLoadError sl r.keyStaged = 0 →
         exec c s = s.after (((r.keyUnstage.keyLoad sl r.keyStaged).setRg F.KEY_CMDSTAT_BUSY 1).keyStart .direct [sl])) ∧
       (q.key.cmd = none → op = 0 → r.keyLoadError sl r.keyStaged ≠ 0 →
         exec c s = s.after (((r.keyUnstage.setRg F.KEY_CMDSTAT_ERR 1).setRg F.KEY_CMDSTAT_ERRCODE (r.keyLoadError sl r.keyStaged)).setRg F.KEY_CMDSTAT_DONE 1)) ∧
       (q.key.cmd = none → op = 1 → exec c s = s.after (((r.keyErase sl).setRg F.KEY_CMDSTAT_BUSY 1).keyStart .direct [sl])) ∧
       (q.key.cmd = none → op = 2 → exec c s = s.after ((((List.range 8192).foldl (fun (x : Part) (i : Nat) => x.keyErase i) r).setRg
         F.KEY_CMDSTAT_BUSY 1).keyStart .direct [])))) ∧
  (∀ (s : State) (tile : TileId) (idx : BitVec 3) (freeze run clrall snap : Bool) (b : BitVec 4) (v : BitVec 32) (m : Master), m.vm = 0 →
     let p := s.part
     (p.opens F.RAS_LOGD_DATA tile.val idx.toNat [F.RAS_LOGD_DATA] → exec (.rasLogRead tile idx m) s = s.after (p.rasRead tile.val)) ∧
     (p.opens F.PERF_CTL_CLR tile.val 0 [F.PERF_CTL_CLR, F.PERF_CTL_FREEZE, F.PERF_CTL_RUN] →
       exec (.perfCtlClr tile freeze m) s = s.after ((p.takes tile.val 0 [(F.PERF_CTL_FREEZE, freeze.toNat)]).perfClear tile.val)) ∧
     (let q : Part := { p with held := p.held.put (F.PERF_GCTL_RUN.key 0 0) run.toNat }
      exec (.perfGctlWrite run clrall snap m) s = s.after (if clrall || snap then q.gctlHold clrall snap else q)) ∧
     exec (.bwSelectWrite b v m) s = s.after ((p.takes 0 b.toNat [(F.PERF_BWSEL_EN, v.toNat / 2 ^ 31 % 2), (F.PERF_BWSEL_KIND, v.toNat / 2 ^ 28 % 8),
       (F.PERF_BWSEL_DIR, v.toNat / 2 ^ 27 % 2), (F.PERF_BWSEL_WEXP, v.toNat / 2 ^ 22 % 32), (F.PERF_BWSEL_INDEX, v.toNat / 2 ^ 14 % 256),
       (F.PERF_BWSEL_SUB, v.toNat / 2 ^ 11 % 8)]).bwSelect b.toNat))

/-- The manager's commands and quotas of an instance (R461, R462, R464, R474, R478), from VMID 0. The tenant's
commands (R467, R469, R470), from the owner's VMID: outside ACTIVE, while another command of the instance runs, or
while a manager command runs, only REJ is set; else the command starts or waits. The mailbox of an instance (R476):
OUTSEND and INACK are the owner's, OUTACK and INSEND the manager's. Model's choices: Who writes which half:
notes/assumptions/52.md. -/
def Obligations.VeneerRegisterWrites : Prop :=
  (∀ (s : State) (idx : BitVec 10) (res : BitVec 3) (v : BitVec 32) (m : Master), m.vm = 0 →
     let p := s.part
     let i := idx.toNat
     (p.opens F.VEN_MCMD_GO i 0 [F.VEN_MCMD_GO, F.VEN_MCMD_OP, F.VEN_MCMD_RES] →
       ∀ (op rs : Nat) (c : Instr), (op, rs, c) ∈ [(0, 0, Instr.venCreate idx m), (1, 0, Instr.venReset idx m), (2, 0, Instr.venDestroy idx m),
         (3, res.toNat, Instr.venRevoke idx res m)] →
       let q := p.takes i 0 [(F.VEN_MCMD_OP, op), (F.VEN_MCMD_RES, rs)]
       let r := (q.setRg F.VEN_MSTAT_BUSY 1 i).modInst i (fun x => { x with mcmd := some { op := op, res := rs, started := false, time := q.time } })
       ((q.instOf i).mcmd.isSome = true → exec c s = s.after (q.setRg F.VEN_MSTAT_REJ 1 i)) ∧
       ((q.instOf i).mcmd = none → (q.instOf i).cmd = none → exec c s = s.after (r.mgrStart i)) ∧
       ((q.instOf i).mcmd = none → (q.instOf i).cmd.isSome = true → exec c s = s.after r)) ∧
     (p.opens F.VEN_QUOTA_QK_QMAX i 0 [F.VEN_QUOTA_QK_QMAX, F.VEN_QUOTA_QK_KMAX] →
       exec (.venQuotaWrite idx .qk v m) s = s.after ((p.takes i 0 [(F.VEN_QUOTA_QK_QMAX, v.toNat / 2 ^ 16 % 2 ^ 15), (F.VEN_QUOTA_QK_KMAX, v.toNat % 2 ^ 14)]).venQuota i)) ∧
     (p.opens F.VEN_QUOTA_F_FMAX i 0 [F.VEN_QUOTA_F_FMAX] →
       (p.poolRefuses i 0x224 v.toNat = true → exec (.venQuotaWrite idx .f v m) s = s.after (p.setRg F.VEN_MSTAT_POOLREJ 1 i)) ∧
       (p.poolRefuses i 0x224 v.toNat = false →
         exec (.venQuotaWrite idx .f v m) s = s.after ((p.takes i 0 [(F.VEN_QUOTA_F_FMAX, v.toNat % 2 ^ 19)]).venQuota i))) ∧
     (p.opens F.VEN_QUOTA_D_DMAX i 0 [F.VEN_QUOTA_D_DMAX] →
       exec (.venQuotaWrite idx .d v m) s = s.after ((p.takes i 0 [(F.VEN_QUOTA_D_DMAX, v.toNat % 2 ^ 13)]).venQuota i)) ∧
     (p.opens F.VEN_BW_EN i 0 [F.VEN_BW_EN, F.VEN_BW_BURST, F.VEN_BW_RATE] →
       (p.poolRefuses i 0x22C v.toNat = true → exec (.venQuotaWrite idx .bw v m) s = s.after (p.setRg F.VEN_MSTAT_POOLREJ 1 i)) ∧
       (p.poolRefuses i 0x22C v.toNat = false →
         let f := if p.rgOn F.VEN_BW_EN i then p.tokenFill i else p
         exec (.venQuotaWrite idx .bw v m) s = s.after (((f.takes i 0 [(F.VEN_BW_EN, v.toNat / 2 ^ 31 % 2), (F.VEN_BW_BURST, v.toNat / 2 ^ 16 % 2 ^ 15),
           (F.VEN_BW_RATE, v.toNat % 2 ^ 14)]).bwWritten i (p.rgOn F.VEN_BW_EN i)).venQuota i)))) ∧
  (∀ (s : State) (idx : BitVec 10) (index : BitVec 18) (m : Master), m.vm = s.part.ownerOf idx.toNat →
     let p := s.part
     let i := idx.toNat
     p.opens F.VEN_CMD_GO i 0 [F.VEN_CMD_GO, F.VEN_CMD_OP, F.VEN_CMD_INDEX] →
     ∀ (op : Nat) (c : Instr), (op, c) ∈ [(0, Instr.venQueueEnable idx index m), (1, Instr.venQueueDisable idx index m), (2, Instr.venQueueRead idx index m),
       (3, Instr.venQueueAbort idx index m), (4, Instr.venFlowInstall idx index m), (5, Instr.venFlowRemove idx index m), (6, Instr.venKeyLoad idx index m),
       (7, Instr.venKeyErase idx index m), (8, Instr.venCounterBind idx index m), (9, Instr.venCounterUnbind idx index m)] →
     let q := p.takes i 0 [(F.VEN_CMD_OP, op), (F.VEN_CMD_INDEX, index.toNat)]
     ((q.instOf i).cmd.isSome = true ∨ q.venState i ≠ 1 ∨ (q.instOf i).mcmd.isSome = true → exec c s = s.after (q.setRg F.VEN_CMDSTAT_REJ 1 i)) ∧
     ((q.instOf i).cmd = none → q.venState i = 1 → (q.instOf i).mcmd = none →
       exec c s = s.after (((q.setRg F.VEN_CMDSTAT_BUSY 1 i).modInst i (fun x => { x with cmd := some (op, index.toNat, false) })).venTry i))) ∧
  (∀ (s : State) (idx : BitVec 10) (m : Master),
     let p := s.part
     let i := idx.toNat
     let q := p.takes i 0 [(F.VEN_MBCTL_OUTOVR, p.rg F.VEN_MBCTL_OUTOVR i), (F.VEN_MBCTL_INOVR, p.rg F.VEN_MBCTL_INOVR i)]
     p.opens F.VEN_MBCTL_OUTSEND i 0 [F.VEN_MBCTL_OUTSEND, F.VEN_MBCTL_OUTACK, F.VEN_MBCTL_INSEND, F.VEN_MBCTL_INACK, F.VEN_MBCTL_OUTOVR,
       F.VEN_MBCTL_INOVR, F.VEN_MBCTL_OUTFULL, F.VEN_MBCTL_INFULL] →
     (m.vm = p.ownerOf i →
       (p.rgOn F.VEN_MBCTL_OUTFULL i = true → exec (.outsend idx m) s = s.after (q.setRg F.VEN_MBCTL_OUTOVR 1 i)) ∧
       (p.rgOn F.VEN_MBCTL_OUTFULL i = false → exec (.outsend idx m) s = s.after ((q.setRg F.VEN_MBCTL_OUTFULL 1 i).venEvtM i F.VEN_MEVT_MBOUT)) ∧
       (p.rgOn F.VEN_MBCTL_INFULL i = true → exec (.inack idx m) s = s.after ((q.setRg F.VEN_MBCTL_INFULL 0 i).venEvtM i F.VEN_MEVT_INACK)) ∧
       (p.rgOn F.VEN_MBCTL_INFULL i = false → exec (.inack idx m) s = s.after q)) ∧
     (m.vm = 0 →
       (p.rgOn F.VEN_MBCTL_INFULL i = true → exec (.insend idx m) s = s.after (q.setRg F.VEN_MBCTL_INOVR 1 i)) ∧
       (p.rgOn F.VEN_MBCTL_INFULL i = false → exec (.insend idx m) s = s.after ((q.setRg F.VEN_MBCTL_INFULL 1 i).venEvtT i F.VEN_TEVT_MBIN)) ∧
       (p.rgOn F.VEN_MBCTL_OUTFULL i = true → exec (.outack idx m) s = s.after ((q.setRg F.VEN_MBCTL_OUTFULL 0 i).venEvtT i F.VEN_TEVT_OUTACK)) ∧
       (p.rgOn F.VEN_MBCTL_OUTFULL i = false → exec (.outack idx m) s = s.after q)))

/-- Easel's mailbox (R506) and Primer's (R525, R527, R528, R530, R535, R538), from F or Easel with neither busy.
Model's choices: Commands without a wait complete within the write: notes/assumptions/25.md. -/
def Obligations.EaselAndPrimerCommands : Prop :=
  ∀ (s : State) (t : ThreadId) (pc : Dword) (n : BitVec 32) (whole : Bool) (target : BitVec 9) (m : Master), m.top = true →
    let p := s.part
    let u := target.toNat
    (p.rgOn F.EAS_CMDSTAT_BUSY = false →
      let a := (((p.setRg F.EAS_ARG_ARG t.val 0 0).setRg F.EAS_ARG_ARG (pc.toNat % 2 ^ 32) 0 1).setRg F.EAS_ARG_ARG (pc.toNat / 2 ^ 32) 0 2).setRg F.EAS_CMD_OP 1
      -- CORE_START: a thread in reset of a core in service that nothing holds starts at the address given
      (p.coreInSvc (t.val / 2) = true → p.runOf t.val = .inReset → p.rgOn F.PWR_C_RST (tileOfCore (t.val / 2)) (t.val / 2 % 2) = false →
        p.sys.pwr.entering.find? (t.val / 2) = none → exec (.coreStart t pc m) s = s.after ((a.startThread t.val pc).easEnd 0)) ∧
      (p.coreInSvc (t.val / 2) = false ∨ p.runOf t.val ≠ .inReset → exec (.coreStart t pc m) s = s.after (a.easEnd 3)) ∧
      exec (.logRead n m) s = s.after ((p.setRg F.EAS_ARG_ARG n.toNat 0 0).setRg F.EAS_CMD_OP 2).easLogRead ∧
      (whole = false → exec (.warmReset whole m) s = s.after ((((p.setRg F.EAS_ARG_ARG 0 0 0).setRg F.EAS_CMD_OP 3).warmReset).easEnd 0)) ∧
      (whole = true → p.rgOn F.DVT_ENUM_MASTER = false →
        exec (.warmReset whole m) s = s.after (((p.setRg F.EAS_ARG_ARG 1 0 0).setRg F.EAS_CMD_OP 3).easEnd 5))) ∧
    (p.rgOn F.PRM_CMDSTAT_BUSY = false →
      let q (op : Nat) : Part := p.takes 0 0 [(F.PRM_CMD_OP, op), (F.PRM_CMD_TARGET, u)]
      let z (op : Nat) : Part := p.takes 0 0 [(F.PRM_CMD_OP, op), (F.PRM_CMD_TARGET, 0)]
      (p.lcs ≠ 4 → p.coreInSvc u = true → p.coreBusy u = false →
        exec (.prmTestCore target m) s = s.after ((q 0).testStart false u true) ∧
        exec (.prmSpareCore target m) s = s.after (((q 2).setRg F.PRM_CMDSTAT_BUSY 1).coreAim u (.spare tileD 0xFF true))) ∧
      (p.lcs ≠ 4 → p.coreInSvc u = false →
        exec (.prmTestCore target m) s = s.after ((q 0).prmEnd 2) ∧ exec (.prmSpareCore target m) s = s.after ((q 2).prmEnd 2)) ∧
      (p.lcs ≠ 4 → p.sliceInSvc u = true →
        exec (.prmTestSlice target m) s = s.after ((q 1).testStart true u true) ∧ exec (.prmSliceOut target m) s = s.after (((q 3).sliceOut u).prmEnd 0)) ∧
      (p.lcs ≠ 4 → p.sliceInSvc u = false →
        exec (.prmTestSlice target m) s = s.after ((q 1).prmEnd 2) ∧ exec (.prmSliceOut target m) s = s.after ((q 3).prmEnd 2)) ∧
      (p.lcs ≠ 2 → p.lcs ≠ 4 →
        (u < nCores → exec (.prmRestoreCore target m) s = s.after (((q 5).restore false u).prmEnd 0)) ∧
        (u < nSlices → exec (.prmRestoreSlice target m) s = s.after (((q 6).restore true u).prmEnd 0)) ∧
        exec (.prmFullTest m) s = s.after ((z 4).used.fullTest (z 4).openFails)) ∧
      (p.lcs = 2 ∨ p.lcs = 4 →
        exec (.prmRestoreCore target m) s = s.after ((q 5).prmEnd 1) ∧ exec (.prmRestoreSlice target m) s = s.after ((q 6).prmEnd 1) ∧
        exec (.prmFullTest m) s = s.after ((z 4).prmEnd 1)) ∧
      exec (.prmAudit m) s = s.after (((z 7).setRg F.PRM_CMDSTAT_BUSY 1).modPrm (fun x => { x with audit := some p.time })))

/-- IOT_INV_CMD (R215): with BUSY it sets REJ and starts nothing; else it sets BUSY, drops what its scope names from
the translation caches, and awaits the devices whose grants the scope covers. A translation request is answered from
the device's tables, and a grant is kept; a refused one is answered with neither read nor write, and so is one whose
source its port refuses (R385); an invalidation ends when every device has answered or timed out and no earlier
request is in flight (R212, R213, R215). -/
def Obligations.IoTranslation : Prop :=
  (∀ (s : State) (u : Fin 2) (rid : BitVec 16) (dom : BitVec 12) (psid : BitVec 20) (addr : Dword) (m : Master),
     let p := s.part
     p.opens F.IOT_INV_PSID_PSID u.val 0 [F.IOT_INV_PSID_PSID] → p.opens F.IOT_INV_ADDR_LO_ADDR u.val 0 [F.IOT_INV_ADDR_LO_ADDR] →
     p.opens F.IOT_INV_ADDR_HI_ADDR u.val 0 [F.IOT_INV_ADDR_HI_ADDR] →
     p.opens F.IOT_INV_CMD_GO u.val 0 [F.IOT_INV_CMD_GO, F.IOT_INV_CMD_SCOPE, F.IOT_INV_CMD_DOMAIN, F.IOT_INV_CMD_RID] →
     ∀ (sc d r ps a : Nat) (c : Instr), (sc, d, r, ps, a, c) ∈ [(0, 0, 0, 0, 0, Instr.iotInvAll u m), (1, 0, rid.toNat, 0, 0, Instr.iotInvDevice u rid m),
       (2, dom.toNat, 0, 0, 0, Instr.iotInvDomain u dom m), (3, dom.toNat, 0, psid.toNat, 0, Instr.iotInvPsid u dom psid m),
       (4, dom.toNat, 0, psid.toNat, addr.toNat, Instr.iotInvPsidAddr u dom psid addr m),
       (5, dom.toNat, 0, 0, addr.toNat, Instr.iotInvDomainAddr u dom addr m)] →
     let q := (((p.takes u.val 0 [(F.IOT_INV_PSID_PSID, ps)]).takes u.val 0 [(F.IOT_INV_ADDR_LO_ADDR, a / 2 ^ 12 % 2 ^ 20)]).takes u.val 0
       [(F.IOT_INV_ADDR_HI_ADDR, a / 2 ^ 32)]).takes u.val 0 [(F.IOT_INV_CMD_SCOPE, sc), (F.IOT_INV_CMD_DOMAIN, d), (F.IOT_INV_CMD_RID, r)]
     let i : IoInv := { scope := sc, domain := d, rid := r, psid := ps, addr := a / 2 ^ 12 * 2 ^ 12, wait := [], time := p.time }
     (p.rgOn F.IOT_INV_STAT_BUSY u.val = true → exec c s = s.after (q.setRg F.IOT_INV_STAT_REJ 1 u.val)) ∧
     (p.rgOn F.IOT_INV_STAT_BUSY u.val = false → exec c s = s.after ((q.setRg F.IOT_INV_STAT_BUSY 1 u.val).modIot u.val (fun x =>
       let y := (x.purge i).pardon i
       let j : IoInv := { i with wait := (((x.ats.filter (fun g => i.covers g)).map (fun g => g.rid)).eraseDups) }
       { y with inv := some j, ats := y.ats.filter (fun g => !i.covers g) })))) ∧
  (∀ (s : State) (n : PortId) (u : Fin 2) (rid : BitVec 16) (psid : Option (BitVec 20)) (priv : Bool) (addr : Dword),
     let p := s.part
     let r : IoReq := { rid := some rid.toNat, dom := 0, psid := psid.map BitVec.toNat, priv := priv, addr := addr.toNat, kind := .ats, len := 0, translated := false }
     (p.portUp n.val = true → p.fromHost n.val = false → u.val = (if n.val < 32 then 0 else 1) →
       (∀ q, p.sourceBad n.val rid.toNat = some q →
         exec (.atsTranslationRequest n rid psid priv addr) s = s.after (q.atsComplete u.val ⟨rid.toNat, 0, 0, false, false⟩))) ∧
     (p.portUp n.val = true → p.fromHost n.val = false → u.val = (if n.val < 32 then 0 else 1) →
      p.sourceBad n.val rid.toNat = none → (u = 0 ∨ p.rgOn F.PAL_UNITS_P1 = true) →
       (∀ (q : Part) (pa dom size : Nat) (perm : BitVec 8), p.ioTranslate u.val r = .ok q pa dom size perm →
         let g : AtsGrant := { rid := rid.toNat, domain := dom, psid := psid.map BitVec.toNat, va := addr.toNat / max 1 size * max 1 size, size := size }
         exec (.atsTranslationRequest n rid psid priv addr) s = s.after ((q.modIot u.val (fun x =>
           { x with ats := if x.ats.contains g then x.ats else x.ats ++ [g] })).atsComplete u.val
             ⟨rid.toNat, pa, size, atsGrants perm priv .read, atsGrants perm priv .write⟩)) ∧
       (∀ (q t : Part) (rec : Bool) (dom cause : Nat), p.ioTranslate u.val r = .refused q rec dom cause → q.ioRefuse u.val r rec dom cause = (t, true) →
         exec (.atsTranslationRequest n rid psid priv addr) s = s.after (t.atsComplete u.val ⟨rid.toNat, 0, 0, false, false⟩))) ∧
     (∀ i : IoInv, (p.iotOf u.val).inv = some i →
       (i.wait = [] → (∀ a ∈ p.pci.iow.map (fun w => w.agent) ++ p.pci.ior.map (fun w => w.agent),
           a.tile ≠ iotTile u.val ∧ (u = 0 → a.tile ≠ tileN)) →
         exec (.iotInvComplete u) s = s.after (((p.modIot u.val (fun x => (fun y : IotSt => { y with inv := none }) (x.purge i))).setRg F.IOT_INV_STAT_BUSY 0 u.val).setRg
           F.IOT_INV_STAT_DONE 1 u.val)) ∧
       (i.wait ≠ [] → exec (.iotInvComplete u) s = s.after p) ∧
       (rid.toNat ∈ i.wait →
         let q : Part := { p with time := max p.time (i.time + max 1 (p.rg F.IOT_ATSTMO_MS u.val) * 1000000) }
         exec (.atsTimeout u rid) s = s.after (Part.atsCompletion u.val rid.toNat ((q.modIot u.val (fun x =>
           { x with revoked := if x.revoked.contains rid.toNat then x.revoked else rid.toNat :: x.revoked })).setRg F.IOT_INV_STAT_ATSTMO 1 u.val)))) ∧
     exec (.atsInvalidationCompletion u rid) s = s.after (p.modIot u.val (fun x => { x with inv := x.inv.map (fun i =>
       { i with wait := i.wait.filter (· ≠ rid.toNat) }) })))

/-- The L1 and L2 caches: the merging buffer drains an entry, unless it has been sent or older entries of its thread
go first, and then takes from the store queue (R222, R223, R225); a prefetcher that is on fetches a line that its
trackers reach and that an entry of the TLBs translates, and it starts no walk (R201, R243). Way groups of a slice and
its maintenance sweep end (R238, R239, R242). -/
def Obligations.CacheEvents : Prop :=
  (∀ (s : State) (c : CoreId) (idx : Nat) (t : ThreadId) (va : Dword) (l2 : Bool) (e : MbEnt),
     let p := s.part
     ((p.coreOf c.val).mb[idx]? = some e →
       exec (.mergeDrain c idx) s = s.after ((p.drainEntry c.val e).2.sqPump c.val) ∧
       (e.sent = true ∨ p.mbBehind c.val e = true → p.drainEntry c.val e = (none, p))) ∧
     (∀ (q : Part) (pa : Nat) (x : Line), p.pfOn (t.val / 2) l2 = true → p.plumb (t.val / 2) = false → (p.thread t.val).run ≠ .inReset →
       p.pfReaches t.val va.toNat l2 = true → p.tlbPeek t.val va.toNat = some pa →
       p.heard (p.threadAgent t.val) (pa / 64) (p.coreAsks (t.val / 2) (pa / 64) false false) (p.cohRead (t.val / 2) (pa / 64) t.val) = .done q x →
       exec (.hwPrefetch t va l2) s = s.after (if l2 = true ∨ (q.l2Get (t.val / 2) (pa / 64)).isNone = true then q
         else q.modCore (t.val / 2) (fun y => y.l1dUse (pa / 64)))) ∧
     (p.pfOn (t.val / 2) l2 = false ∨ p.pfReaches t.val va.toNat l2 = false ∨ p.tlbPeek t.val va.toNat = none →
       exec (.hwPrefetch t va l2) s = s.after p)) ∧
  (∀ (s : State) (k : SliceId) (g : Fin 4) (w : Sweep),
     let p := s.part
     ((p.rg F.LLC_WAYSTAT_CLEANING k.val).testBit g.val = true →
       let q := p.sweepLines k.val (fun y => y / 4 = g.val) true
       exec (.wayGroupCleaned k g) s = s.after (q.setRg F.LLC_WAYSTAT_CLEANING (setBit (q.rg F.LLC_WAYSTAT_CLEANING k.val) g.val false) k.val)) ∧
     ((p.rg F.LLC_WAYSTAT_WAKING k.val).testBit g.val = true →
       let q := p.setRg F.LLC_WAYSTAT_WAKING (setBit (p.rg F.LLC_WAYSTAT_WAKING k.val) g.val false) k.val
       let r := q.setRg F.LLC_WAYSTAT_POWERED (setBit (p.rg F.LLC_WAYSTAT_POWERED k.val) g.val true) k.val
       ((p.rg F.LLC_WAYPWR_ON k.val).testBit g.val = true → exec (.wayGroupWoken k g) s = s.after r) ∧
       ((p.rg F.LLC_WAYPWR_ON k.val).testBit g.val = false → exec (.wayGroupWoken k g) s = s.after (r.wayGroupSet k.val g.val false))) ∧
     ((p.sliceOf k.val).sweep = some w →
       exec (.llcSweepDone k) s = s.after (((((p.homeGrant k.val 3).sweepLines k.val (fun y => w.groups.testBit (y / 4)) w.flush).modSlice k.val
         (fun x => { x with sweep := none })).setRg F.LLC_MSTAT_BUSY 0 k.val).setRg F.LLC_MSTAT_DONE 1 k.val)))

/-- The fabric's events: an epoch tick ends the routers' frame, numbers the next one and moves TIME by the length of
the frame (106 or 107 ns); a lost tick and a CRC error are recorded; a flit that fails its CRC is sent again from the
replay buffer, and eight replays are a MACHINE_CHECK of the socket (R253, R263, R270, R280). A request that waited for
its line starts when its home's pipeline grants it; a deferral of a line ends; a home whose answers are late records
them, poisons the line and has a silent core reset, or tells the socket of a remote agent; a core that does not drain
is taken down after 100 µs (R258, R282, R304, R306 to R309, R368). Model's choices: The length of a frame in
nanoseconds: notes/assumptions/8.md. -/
def Obligations.FabricAndHomeTimers : Prop :=
  (∀ (s : State) (tile : TileId) (port : Fin 4) (times : Nat) (w : Wire) (b : Bool) (l : List (Wire × Bool)),
     let p := s.part
     (p.sys.pwr.refLoss = false → p.sys.boot ≠ .off → p.sys.gperf.hold = none →
       let n := match p.sys.epoch with | none => 0 | some k => (k + 1) % 2 ^ 32
       let q := (p.fabFrame.advance (if n % 3 = 0 then 106 else 107)).modSys (fun x => { x with epoch := some n })
       let r := (List.range nTiles).foldl (fun (y : Part) (t : Nat) =>
         (if y.rgOn F.FAB_STNCTL_EN t ∧ y.rg F.CLK_UNC_FEFF t < 96 then y.setRg F.FAB_STNSTAT_SHORT 1 t else y).stencilFrame t n) q
       let u := r.applyHeld (inPage gperfPage)
       u.sys.gperf.hold = none → exec .epochTick s = s.after (u.modDvt (fun x => { x with ticks := x.ticks + 1 }))) ∧
     (p.sys.pwr.refLoss = true → exec .epochTick s = s.after p) ∧
     (p.sys.epoch ≠ none →
       let q := p.fabRun (p.fab.frame + 512 * 96 / max 1 (p.rg F.CLK_UNC_FEFF tile.val) - p.fab.now)
       exec (.tickLost tile) s = s.after ((q.setRg F.FAB_STNSTAT_TICKLOST 1 tile.val).rasLog tile.val 0xFF 13 0 0xFF 0 (.named [10]))) ∧
     -- a link without a flit under way counts the error
     (times ≠ 0 → (p.linkEnd tile.val port.val 0).cross = [] → (p.linkEnd tile.val port.val 1).cross = [] →
       (∀ x ∈ (p.tileFab tile.val).wire, x.inp ≠ port.val) →
       let q := p.count F.FAB_LINKERR_REPLAYS F.FAB_STATSTAT_OVF tile.val port.val
       let r := (q.rasCount tile.val 11 1 1 0xFF 0 .unstated port.val 0).perfEvent tile.val 20 4 5 1 none none
       (times < 8 → exec (.torusCrcError tile port times) s = s.after r) ∧
       (8 ≤ times → exec (.torusCrcError tile port times) s = s.after (((r.modLinkEnd tile.val port.val 0 (fun e => { e with dead := true })).modLinkEnd
         tile.val port.val 1 (fun e => { e with dead := true })).socketCheck tile.val [1, tile.val, port.val]))) ∧
     -- the flit that has crossed is refused, and sent again
     (times ≠ 0 → (p.linkEnd tile.val port.val 0).cross = (w, b) :: l →
       exec (.torusCrcError tile port times) s = s.after ((p.modLinkEnd tile.val port.val 0 (fun e => { e with fails := times - 1 })).replay
         tile.val port.val 0 w.seq times))) ∧
  (∀ (s : State) (k : SliceId) (c : CoreId) (line : BitVec 46) (t : Trk) (x : L2Line) (a : AimSt),
     let p := s.part
     let l := line.toNat
     (p.lineBusy k.val l = false → (p.sliceOf k.val).trk.find? (fun t => decide (t.req.line = l)) = some t →
       (∀ r : Part, p.homeTurn k.val 2 = some r → exec (.waitListStart k line) s = s.after
         ((r.modSlice k.val (fun y => { y with trk := y.trk.erase t })).homeBegin k.val t.req t.time t.tmo)) ∧
       (p.homeTurn k.val 2 = none → exec (.waitListStart k line) s = s.after p)) ∧
     (p.l2Get c.val l = some x →
       exec (.deferralEnd c line) s = s.after (p.modCore c.val (fun y => { y with l2 := y.l2.put l { x with held := false, hold := 0 } }))) ∧
     (p.oldestOf k.val l = some t →
       let q0 : Part := { p with time := max p.time (t.time + t.tmo * 1000) }
       let w := q0.waitsFor k.val t
       let v := (q0.homeGrant k.val 4).takes k.val 0 [(F.COH_TMOADDR_LO_ADDR, l % 2 ^ 26), (F.COH_TMOADDR_HI_ADDR, l / 2 ^ 26),
         (F.COH_TMOHOLD_VALID, 1), (F.COH_TMOHOLD_SOCKET, w.2 / 256), (F.COH_TMOHOLD_TILE, w.2 % 256)]
       let core := if w.1 = 2 then t.req.src.init / 2 % 2 else match v.tileCopy (w.2 % 256) l with | some (c, _) => c % 2 | none => 0
       let q := v.takes k.val 0 [(F.COH_TMOHOLD_CORE, core), (F.COH_TMOHOLD_WHAT, w.1)]
       let r := ((((q.count F.COH_TMOCNT_COUNT F.COH_STAT_OVF k.val).setRg F.COH_STAT_TMO 1 k.val).rasCount
         (coreTile k.val) 12 11 2 4 (l * 64) (.named [18, w.1, w.2, core]) k.val l).poisonLine k.val l).perfEvent (coreTile k.val) 16 4 8 1 (some t.req.vmid) none
       (w.1 ≠ 1 → w.1 ≠ 2 → w.2 / 256 = r.sktId → exec (.homeTimeout k line) s = s.after r) ∧
       (w.2 / 256 ≠ r.sktId → exec (.homeTimeout k line) s = s.after (r.modDvt (fun y =>
         { y with mail := y.mail ++ [(w.2 / 256, .report r.sktId (w.2 / 256) l (w.2 % 256) (2 * core))] }))) ∧
       (∀ n, (w.1 = 1 ∨ w.1 = 2) → w.2 / 256 = r.sktId → coreOrd (w.2 % 256) = some n →
         exec (.homeTimeout k line) s = s.after (r.easelResets (2 * n + core)))) ∧
     (p.sys.pwr.entering.find? c.val = some a →
       let q : Part := { p with time := max p.time (a.since + 100000) }
       (a.held = none → exec (.coreDrainTimeout c) s = s.after q) ∧
       (a.held ≠ none → exec (.coreDrainTimeout c) s = s.after (((q.coreDark c.val).modCore c.val (fun y => { y with draining := true })).aimEnd c.val a))))

/-- A request at its home (R258, R282, R289 to R291, R293, R294, R297): with every tracker used, or the pipeline at
another's turn, it stays; while its line has a request it is queued behind it; else the home begins to serve it. A
line of no home is answered with poison and STATUS 3 (R19). The snoops with which a home serves a request, by the
line's directory entry (R285, R289, R293, R294): a broadcast reaches every core tile of a socket that is listed, and
tile D of each other. -/
def Obligations.HomeRequests : Prop :=
  (∀ (s : State) (q m : Msg) (r : Part) (o : Opc) (c : Instr),
     (o, c) ∈ [(Opc.rds, Instr.rds q), (Opc.rdo, Instr.rdo q), (Opc.upg, Instr.upg q), (Opc.own, Instr.own q), (Opc.rdna, Instr.rdna q),
       (Opc.wrna, Instr.wrna q), (Opc.wrnap, Instr.wrnap q), (Opc.amof, Instr.amof q), (Opc.cmoc, Instr.cmoc q), (Opc.cmof, Instr.cmof q),
       (Opc.cmoi, Instr.cmoi q), (Opc.cmoii, Instr.cmoii q), (Opc.wbm, Instr.wbm q), (Opc.wbc, Instr.wbc q)] →
     s.part.receives { q with opc := o } m r →
     (∀ k, r.homeHere m.line = some k →
       (64 ≤ r.trkUsed k ∨ r.homeTurn k 0 = none → exec c s = s.after (s.part.stays m r)) ∧
       (∀ g : Part, r.trkUsed k < 64 → r.homeTurn k 0 = some g →
         let a := g.homeEvent k 1 m.vmid
         ((a.sliceOf k).trk.any (fun t => t.req.line = m.line) = false → exec c s = s.after (a.homeBegin k m a.time (a.homeTmo k))) ∧
         ((a.sliceOf k).trk.any (fun t => t.req.line = m.line) = true →
           let w : Trk := ⟨m, false, [], false, false, false, false, false, false, none, 0, a.time, a.homeTmo k⟩
           exec c s = s.after ((a.modSlice k (fun x => { x with trk := x.trk ++ [w] })).homeEvent k 6 m.vmid)))) ∧
     (r.homeHere m.line = none → r.homeSkt m.line = none →
       let d : Msg := { Msg.blank with opc := .dna, src := ⟨r.sktId, m.dst.tile, 4⟩, dst := m.src, txid := m.txid, addr := m.line * 64, pois := 0xF }
       exec c s = s.after (r.send (d.withStat 3)))) ∧
  (∀ (me : Nat) (q : Msg) (d : DirEnt),
     let inval (l : List Nat) : List (Opc × Nat) := l.map (fun t => (Opc.snpi, t))
     let all := inval (d.snoopTiles me)
     let em : Prop := d.st = .e ∨ d.st = .m
     (q.opc = .rds → (d.st = .s → startSnoops me q d = []) ∧ (d.st ≠ .s → startSnoops me q d = [(.snps, d.ownerTile)])) ∧
     (q.opc = .rdo → (d.st = .s → startSnoops me q d = all) ∧ (em → startSnoops me q d = [(.snpo, d.ownerTile)]) ∧
       (d.st = .o → startSnoops me q d = inval d.sharers)) ∧
     (q.opc = .upg ∨ q.opc = .own ∨ q.opc = .wrna ∨ q.opc = .cmoi → startSnoops me q d = all) ∧
     (q.opc = .rdna → (d.st = .s → startSnoops me q d = []) ∧ (d.st ≠ .s → startSnoops me q d = [(.snpna, d.ownerTile)])) ∧
     (q.opc = .cmoc → (d.st = .s → startSnoops me q d = []) ∧ (d.st ≠ .s → startSnoops me q d = [(.snpc, d.ownerTile)])) ∧
     (q.opc = .cmoii → startSnoops me q d = []) ∧
     (q.opc = .wrnap ∨ q.opc = .amof ∨ q.opc = .cmof ∨ q.opc = .pwt → (d.st = .s → startSnoops me q d = all) ∧
       (d.st ≠ .s → d.fmt = .bcast → startSnoops me q d = (.snpf, d.ownerTile) :: all) ∧
       (d.st ≠ .s → d.fmt ≠ .bcast → startSnoops me q d = (.snpf, d.ownerTile) :: inval (d.sharers.filter (· ≠ d.ownerTile)))) ∧
     (d.fmt ≠ .bcast → d.snoopTiles me = d.tiles) ∧
     (d.fmt = .bcast → ∀ n, n ∈ d.snoopTiles me ↔
       ((∃ t ∈ d.tiles, t / 256 = me) ∧ (∃ k < nSlices, n = me * 256 + coreTile k)) ∨ (∃ t ∈ d.tiles, t / 256 ≠ me ∧ n = t / 256 * 256 + tileD)))

/-- Write-backs and persistent writes at the home (R229, R290, R292): a WBM of the owner fills the slice and ends its
entry, one of another is discarded and counted, and CMP answers both; a WBC takes its sender off the entry, and its
line may enter the slice; a PWT that the buffer takes is answered with PACK, another goes to memory by MPWT. -/
def Obligations.WriteBacks : Prop :=
  ∀ (s : State) (q m : Msg) (r g : Part) (k : Nat), r.homeHere m.line = some k → r.homeTurn k 0 = some g →
    let a := g.homeEvent k 1 m.vmid
    (r.trkUsed k < 64 → (a.sliceOf k).trk.any (fun t => t.req.line = m.line) = false →
      (s.part.receives { q with opc := .wbm } m r →
        let done (w : Part) : Part := w.send { w.answerMsg k .cmp m Line.zero 0 with hint := true }
        (∀ d, a.dirGet k m.line = some d → d.st ≠ .s → d.owner = m.src.ocode →
          exec (.wbm q) s = s.after (done ((a.homeWriteBack k m.line m.partNo ⟨m.data, m.pois⟩).dirLeave k m.line m.src))) ∧
        (a.dirGet k m.line = none → exec (.wbm q) s = s.after (done (a.homeLate k)))) ∧
      (s.part.receives { q with opc := .wbc } m r →
        let b := a.wbTaken m.src m.line
        (a.dirGet k m.line = none → exec (.wbc q) s = s.after b) ∧
        (∀ d, a.dirGet k m.line = some d → d.lists m.src = true →
          let e := b.dirLeave k m.line m.src
          (m.mask = 0 ∨ e.rgOn F.LLC_CFG_CLEANVICT k = false ∨ ((e.sliceOf k).llc.find? m.line).isSome = true → exec (.wbc q) s = s.after e) ∧
          (m.mask ≠ 0 → e.rgOn F.LLC_CFG_CLEANVICT k = true → (e.sliceOf k).llc.find? m.line = none →
            exec (.wbc q) s = s.after (e.sliceAlloc k m.line m.partNo ⟨m.data, m.pois⟩ false))))) ∧
    (s.part.receives { q with opc := .pwt } m r → m.bc = false →
      (∀ t u : Part, g.persist k m.line m.data m.mask m.pois = (some t, u) → exec (.pwt q) s = s.after (t.answer k .pack m Line.zero 0)) ∧
      (∀ u : Part, g.persist k m.line m.data m.mask m.pois = (none, u) →
        exec (.pwt q) s = s.after ((u.sliceMerge k m.line m.data m.mask m.pois).mpwtSend k m m.data m.mask m.pois))) ∧
    (s.part.receives { q with opc := .pwt } m r → m.bc = true → r.trkUsed k < 64 → (a.sliceOf k).trk.any (fun t => t.req.line = m.line) = false →
      exec (.pwt q) s = s.after (a.homeBegin k m a.time (a.homeTmo k)))

/-- Snoops at a core tile that holds the line (x, of core c) or does not (R276, R285, R289, R292, R303): what the tile
keeps, forwards and answers. A snoop that a deferral or an unanswered persistent write holds up stays on the way; a
tile with an absent core and no copy is answered for by the stand-in. Answers at the home (R289, R307, R308): an
answer that the line's request awaits changes the directory as its kind says, and the request goes on; one that
nothing awaits is counted as late; one of a stand-in for the owner fails the line. -/
def Obligations.SnoopsAndAnswers : Prop :=
  (∀ (s : State) (q m : Msg) (r : Part) (c : Nat) (x : L2Line) (o : Opc), s.part.receives { q with opc := o } m r → m.dst.skt = r.sktId →
     let t := m.dst.tile
     let l := m.line
     let cores := snoopCores t
     let held := cores.any (fun c => r.coreKeeps c l)
     let away : Prop := t ≠ tileD ∧ cores.any r.coreAway = true
     let gone := r.dropTile t l
     let standIn := (r.standInLog t m).snoopAns m .acki Line.zero 2
     (held = true → ∀ d, (o, d) ∈ [(Opc.snps, Instr.snps q), (Opc.snpo, Instr.snpo q), (Opc.snpc, Instr.snpc q),
         (Opc.snpf, Instr.snpf q), (Opc.snpbi, Instr.snpbi q)] → exec d s = s.after (s.part.stays m r)) ∧
     (held = false → r.tileCopy t l = none → ∀ d, (o, d) ∈ [(Opc.snps, Instr.snps q), (Opc.snpc, Instr.snpc q), (Opc.snpo, Instr.snpo q),
         (Opc.snpf, Instr.snpf q), (Opc.snpna, Instr.snpna q)] →
       (away → exec d s = s.after standIn) ∧ (¬ away → exec d s = s.after (r.snoopAns m .acki Line.zero))) ∧
     (held = false → r.tileCopy t l = some (c, x) →
       (o = .snps → exec (.snps q) s = s.after (if x.modified then ((r.l2SetState c l .o).forwardTo m .ds x.line).snoopAns m .acko Line.zero
         else ((r.l2SetState c l .s).forwardTo m .ds x.line).snoopAns m .acks Line.zero)) ∧
       (o = .snpo → exec (.snpo q) s = s.after ((gone.forwardTo m .dm x.line).snoopAns m .acki Line.zero)) ∧
       (o = .snpc → exec (.snpc q) s = s.after ((r.l2SetState c l (if x.st = .o then .s else .e)).snoopAns m (if x.modified then .sdat else .acke) x.line)) ∧
       (o = .snpf → exec (.snpf q) s = s.after (if x.modified then gone.snoopAns m .sdat x.line else gone.snoopAns m .acki Line.zero))) ∧
     (o = .snpbi → held = false →
       (r.modifiedIn t l = some x → exec (.snpbi q) s = s.after (gone.snoopAns m .sdat x.line)) ∧
       (r.modifiedIn t l = none → exec (.snpbi q) s = s.after (gone.snoopAns m .acki Line.zero))) ∧
     (o = .snpi →
       let goes (c : Nat) : Bool := match r.copyGet c l with | some x => !m.snpiKeeps r.sktId c x | none => false
       let absent : Prop := t ≠ tileD ∧ cores.all (fun c => (r.copyGet c l).isNone) = true ∧ cores.any r.coreAway = true
       (cores.any (fun c => goes c && r.coreKeeps c l) = true → exec (.snpi q) s = s.after (s.part.stays m r)) ∧
       (cores.any (fun c => goes c && r.coreKeeps c l) = false → absent → exec (.snpi q) s = s.after standIn) ∧
       (cores.any (fun c => goes c && r.coreKeeps c l) = false → ¬ absent →
         exec (.snpi q) s = s.after ((r.dropCopies t l (m.snpiKeeps r.sktId)).snoopAns m .acki Line.zero))) ∧
     (o = .snpna → r.tileCopy t l = some (c, x) →
       exec (.snpna q) s = s.after ((r.forwardTo m .dna x.line).snoopAns m (if x.st = .o then .acko else .acke) Line.zero)) ∧
     (o = .snpii → exec (.snpii q) s = s.after ((r.iinvAll l).snoopAns m .acki Line.zero))) ∧
  (∀ (s : State) (q m : Msg) (r g : Part) (k : Nat) (t : Trk) (o : Opc), s.part.receives { q with opc := o } m r → r.homeHere m.line = some k →
     r.homeTurn k 1 = some g →
     let l := m.line
     let me := m.src.tcode
     let u : Trk := { t with ans := t.ans.erase me }
     let ud : Trk := { t with ans := t.ans.erase me, data := some ⟨m.data, m.pois⟩ }
     let on (p : Part) (v : Trk) := (p.trkPut k v).homeNext k v
     let kinds : List (Opc × Instr) := [(Opc.acki, Instr.acki q), (Opc.acks, Instr.acks q), (Opc.acko, Instr.acko q), (Opc.acke, Instr.acke q)]
     (g.trkFind k l = none → ∀ d, (o, d) ∈ kinds → exec d s = s.after (g.homeLate k)) ∧
     (g.trkFind k l = some t → t.ans.contains me = false → ∀ d, (o, d) ∈ kinds → exec d s = s.after (g.homeLate k)) ∧
     (g.trkFind k l = some t → t.ans.contains me = true → m.status = 2 → t.req.opc ≠ .cmoii →
       ∀ e : DirEnt, g.dirGet k l = some e → e.st ≠ .s → e.ownerTile = me → ∀ d, (o, d) ∈ kinds → exec d s = s.after (g.lineFails k l t)) ∧
     (g.trkFind k l = some t → t.ans.contains me = true → m.status ≠ 2 →
       (o = .acki → exec (.acki q) s = s.after (on (if t.req.opc = .cmoii ∨ (t.req.opc = .upg ∧ me = t.req.src.tcode) then g
         else g.dirGone k l me (!(decide (spareOf t.req.opc = .owner) && decide (t.step = 0)))) u)) ∧
       (o = .acks → exec (.acks q) s = s.after (on (g.dirPut k l (g.withReader t (g.addSharer ⟨.s, 0, .loc, []⟩ me))) u)) ∧
       (∀ d : DirEnt, o = .acko → g.dirGet k l = some d →
         exec (.acko q) s = s.after (on (if t.req.opc = .rdna then g else g.dirPut k l (g.withReader t { d with st := .o })) u)) ∧
       (o = .acke → exec (.acke q) s = s.after (on g u)) ∧
       (o = .sdat → m.hint = false → t.req.opc ≠ .cmoc → exec (.sdat q) s = s.after (on (g.dirGone k l me true) ud)) ∧
       (∀ d : DirEnt, o = .sdat → m.hint = false → t.req.opc = .cmoc → g.dirGet k l = some d →
         exec (.sdat q) s = s.after (on (g.dirPut k l (if d.st = .o then g.addSharer { d with st := .s, owner := 0 } me else { d with st := .e })) ud))) ∧
     (o = .sdat → m.hint = true →
       (g.trkFind k l = none → exec (.sdat q) s = s.after (g.homeLate k)) ∧
       (g.trkFind k l = some t → t.fill = false → exec (.sdat q) s = s.after (g.homeLate k)) ∧
       (g.trkFind k l = some t → t.fill = true →
         let a := if g.rgOn F.LLC_CFG_MEMFILL k = true ∧ m.stat = 0 then g.sliceAlloc k l { m with src := agentOf m.aux }.partNo ⟨m.data, m.pois⟩ false
           else g
         exec (.sdat q) s = s.after (if t.cacked then a.trkDel k l else a.trkPut k { t with memw := false, fill := false }))))

/-- Data, grants and completions at a core (R276, R287, R289, R291, R293, R294, R297, R303), and at an I/O agent. CACK
and VIS at the home (R283, R287, R291, R294, R296): the request that awaits one ends, and its line is free; a CACK
that comes before the last snoop answer, or before the copy of memory's line (R302), is kept; another is counted as
late. -/
def Obligations.ResponsesAndCompletions : Prop :=
  (∀ (s : State) (q m : Msg) (r : Part) (o : Opc), s.part.receives { q with opc := o } m r →
     let c := m.dst.coreNo
     let t := m.dst.threadNo
     let l := m.line
     let ans : Vec × BitVec 4 × Nat := (m.data, m.pois, m.stat)
     let answers (f : DevAcc → Bool) (x : Vec × BitVec 4 × Nat) : Part := r.modThread t (fun th =>
       { th with dev := th.dev.map (fun d => if f d = true ∧ d.ans = none then { d with ans := some x } else d) })
     (m.dst.isThread r.sktId = true → r.coreAway c = true → ∀ d, (o, d) ∈ [(Opc.ds, Instr.ds q), (Opc.de, Instr.de q), (Opc.dm, Instr.dm q),
         (Opc.dna, Instr.dna q), (Opc.gnt, Instr.gnt q), (Opc.amor, Instr.amor q), (Opc.drdr, Instr.drdr q), (Opc.pack, Instr.pack q)] →
       exec d s = s.after (r.standInLog m.dst.tile m)) ∧
     (m.dst.isThread r.sktId = true → r.coreAway c = false →
       (∀ (st : L2St) (d : Instr), (o, st, d) ∈ [(Opc.ds, L2St.s, Instr.ds q), (Opc.de, L2St.e, Instr.de q), (Opc.dm, L2St.m, Instr.dm q)] →
         exec d s = s.after ((((r.missEnd c l).l2Install c l t st ⟨m.data, m.pois⟩).wonLine c l m.bc).sendCack m (r.homeOfData m) 0)) ∧
       (o = .dna → (r.coreOf c).miss.find? (fun x => decide (x.1 = l)) = none → exec (.dna q) s = s.after (r.devFill t (l * 64) 64 ans)) ∧
       (∀ x : Nat × Bool, o = .dna → (r.coreOf c).miss.find? (fun x => decide (x.1 = l)) = some x →
         let waits (e : MbEnt) : Bool := decide (e.line = l) && decide (e.ty = MemType.cacheable)
         let a := r.missEnd c l
         let b := if m.stat ≥ 2 then a.sendCack m (a.homeOfData m) m.stat else a
         (x.2 = false ∨ (r.coreOf c).mb.any waits = false → exec (.dna q) s = s.after ((b.devNote t (l * 64) 64).devFill t (l * 64) 64 ans)) ∧
         (x.2 = true → (r.coreOf c).mb.any waits = true → exec (.dna q) s = s.after (((b.modCore c (fun x =>
           { x with mb := x.mb.filter (fun e => !waits e) })).lostStore t l).devFill t (l * 64) 64 ans))) ∧
       (o = .gnt → m.hint = true → exec (.gnt q) s =
         s.after (r.send { Msg.blank with opc := .vis, src := m.dst, dst := m.src, txid := m.txid, addr := l * 64 })) ∧
       (o = .gnt → m.hint = false →
         let a := r.missEnd c l
         let b := match a.l2Get c l with
           | some _ => a.l2SetState c l .m
           | none => a.l2Install c l t .m Line.zero
         exec (.gnt q) s = s.after (((b.wonLine c l m.bc).drainWhole c l).sendCack m m.src 0)) ∧
       (o = .amor → exec (.amor q) s = s.after (answers (fun d => decide (d.addr / 64 = l) && decide (d.size ≤ 16))
         (m.data, m.pois, m.stat + (if m.hint then 8 else 0)))) ∧
       (o = .drdr → exec (.drdr q) s = s.after (answers (fun d => decide (d.addr = m.addr)) ans)) ∧
       (o = .pack → exec (.pack q) s = s.after ((r.modCore c (fun x => { x with pwt := x.pwt.erase l })).storeSeen m.dst l)) ∧
       (o = .cmp → (coreOrd m.dst.tile = none ∨ m.dst.init ≠ 4) → m.bc = false → m.plb = false → m.hint = false → m.stat = 0 →
         m.dst.skt = s.part.sktId → exec (.cmpResponse q) s = s.after ((r.devFill t (l * 64) 66 (0, 0, 0)).storeSeen m.dst l))) ∧
     (m.dst.isThread r.sktId = false →
       (∀ k g w, o = .dna → m.dst.init = 4 → coreOrd m.dst.tile ≠ none → r.homeHere l = some k → r.homeTurn k 1 = some g →
         g.trkFind k l = some w → w.req.opc = .amof → w.memw = true →
         (m.stat ≥ 2 → exec (.dna q) s = s.after ((g.answer k .amor w.req ⟨0, 1⟩ m.stat).trkDel k l)) ∧
         (m.stat < 2 → exec (.dna q) s = s.after (g.amofServe k w (some ⟨m.data, m.pois⟩)))) ∧
       (∀ d, (m.dst.init ≠ 4 ∨ coreOrd m.dst.tile = none) → (o, d) ∈ [(Opc.dna, Instr.dna q), (Opc.drdr, Instr.drdr q)] →
         exec d s = s.after (r.modPci (fun x => { x with ior := fillRead x.ior m.dst l ans }))) ∧
       (o = .gnt → exec (.gnt q) s = s.after ((r.modPci (fun x => { x with iow := markGranted x.iow m.dst l m.src })).visPump m.dst)))) ∧
  (∀ (s : State) (q m : Msg) (r g : Part) (k : Nat) (t : Trk) (o : Opc), s.part.receives { q with opc := o } m r → r.homeHere m.line = some k →
     r.homeTurn k 1 = some g →
     (o = .cack → g.trkFind k m.line = some t → t.req.opc ∈ [Opc.rds, Opc.rdo, Opc.upg, Opc.own] → t.req.src = m.src →
       let a := if m.stat = 0 then g else g.dirLeave k m.line m.src
       (t.cack = true → t.fill = false → exec (.cack q) s = s.after (a.trkDel k m.line)) ∧
       (t.cack = false ∨ t.fill = true → exec (.cack q) s = s.after (a.trkPut k { t with cack := false, cacked := true }))) ∧
     (o = .cack → g.trkFind k m.line = none → exec (.cack q) s = s.after (g.homeLate k)) ∧
     (o = .vis → g.trkFind k m.line = none → exec (.vis q) s = s.after (g.homeLate k)) ∧
     (o = .vis → g.trkFind k m.line = some t → t.vis = true → t.req.src = m.src →
       let d := withOwner t.data t.req.data t.req.mask t.req.pois
       (t.req.pers = false ∨ t.req.plb = false → exec (.vis q) s = s.after
         (((g.naPut k t.req.line d.1 d.2.1 d.2.2 (!t.req.fromThread)).trkDel k t.req.line).storeSeen m.src m.line)) ∧
       (t.req.pers = true → t.req.plb = true →
         (∀ a b : Part, g.persist k t.req.line d.1 d.2.1 d.2.2 = (some a, b) →
           exec (.vis q) s = s.after ((a.answer k .cmp t.req Line.zero 0).trkDel k t.req.line)) ∧
         (∀ b : Part, g.persist k t.req.line d.1 d.2.1 d.2.2 = (none, b) →
           exec (.vis q) s = s.after (((b.sliceMerge k t.req.line d.1 d.2.1 d.2.2).mpwtSend k t.req d.1 d.2.1 d.2.2).trkPut k
             { t with vis := false, memw := true })))))

/-- Reads and writes at a memory tile (R324, R325, R327, R335, R19): a request of no channel is answered with STATUS
3; a channel that is there and powered queues a read and takes a write, which is answered with CMP; one that is off
answers by its stand-in. A device access reaches the socket of its control window or of its aperture, by its address;
one of no socket is answered as unassigned. An invalidation is performed at a core and taken off the sender's list
(R19, R206, R380). Model's choices: The status of an unassigned answer: notes/assumptions/45.md. -/
def Obligations.MemoryAndDeviceRequests : Prop :=
  (∀ (s : State) (q m : Msg) (r : Part) (o : Opc), s.part.receives { q with opc := o } m r →
     (r.target m = none →
       (o = .mrd → exec (.mrd q) s = s.after (r.mrdAnswer m.dst m ⟨0, 0xF⟩ 3)) ∧
       (o = .mwr → exec (.mwr q) s = s.after (r.memCmp m.dst m 3)) ∧ (o = .mpwt → exec (.mpwt q) s = s.after (r.memCmp m.dst m 3))) ∧
     (∀ t : Target, r.target m = some t → t.cxl = false →
       let ch := t.chan
       let e : WqEnt := ⟨t.ca, m.data, m.mask, m.pois⟩
       (r.overCap ch t.ca = true →
         (o = .mrd → exec (.mrd q) s = s.after ((r.setRg F.MC_STAT_OVERCAP 1 ch).mrdAnswer (r.chanAgent ch) m ⟨0, 0xF⟩ 3)) ∧
         (o = .mwr → exec (.mwr q) s = s.after ((r.setRg F.MC_STAT_OVERCAP 1 ch).memCmp (r.chanAgent ch) m 3))) ∧
       (r.overCap ch t.ca = false → (r.chanOf ch).off = true →
         (o = .mrd → exec (.mrd q) s = s.after ((r.standInLog (tileOfChan ch) m).mrdAnswer (r.chanAgent ch) m ⟨0, 0xF⟩ 2)) ∧
         (o = .mwr → exec (.mwr q) s = s.after ((r.standInLog (tileOfChan ch) m).memCmp (r.chanAgent ch) m 2))) ∧
       (r.overCap ch t.ca = false → (r.chanOf ch).off = false →
         (o = .mrd → (r.chanOf ch).rq.length < 64 →
           exec (.mrd q) s = s.after (r.modChan ch (fun x => { x with rq := x.rq ++ [{ m with data := BitVec.ofNat 512 t.ca }] }))) ∧
         (o = .mrd → 64 ≤ (r.chanOf ch).rq.length → exec (.mrd q) s = s.after (s.part.stays m r)) ∧
         (o = .mwr → (r.chanOf ch).wq.length < 64 →
           exec (.mwr q) s = s.after (((r.chanWrite ch e).chanServed ch true (some m.vmid)).memCmp (r.chanAgent ch) m 0)) ∧
         (∀ a b : Part, o = .mpwt → r.pwbAccept ch e = (some a, b) →
           exec (.mpwt q) s = s.after ((a.perfEvent (tileOfChan ch) 16 4 1 1 none none).memCmp ⟨a.sktId, tileOfChan ch, 2⟩ m 0))))) ∧
  (∀ (s : State) (q m : Msg) (r : Part) (c : CoreId) (off k : Nat) (o : Opc) (i : Instr),
     (((o, i) ∈ [(Opc.drd, Instr.drd q), (Opc.dwr, Instr.dwr q)]) → s.part.receives { q with opc := o } m r →
       (regionOf m.addr = .ctl r.sktId off → exec i s = s.after (r.ctlAccess m off)) ∧
       (regionOf m.addr = .loc off → exec i s = s.after (r.ctlAccess m off)) ∧
       (regionOf m.addr = .pcieWin → (aperture m.addr).1 = r.sktId → exec i s = s.after (r.pcieAccess m)) ∧
       (regionOf m.addr = .ctl k off → k ≠ r.sktId → r.sktCnt ≤ k → exec i s = s.after (r.devUnassigned ⟨r.sktId, tileD, 0⟩ m)) ∧
       (regionOf m.addr = .mem → exec i s = s.after (r.devUnassigned ⟨r.sktId, tileD, 0⟩ m))) ∧
     (q.src.skt = s.part.sktId → exec (.tinv q c) s = s.after (s.part.tinvAt (q.aux / 2 ^ 16) q.txid c.val)) ∧
     (q.src.skt ≠ s.part.sktId → s.part.receives { q with opc := .tinv } m r →
       let b := (r.tlbTargets nCores).foldl (fun (x : Part) (n : Nat) => x.tlbInval n m.tlbReq) r
       let a : Msg := { Msg.blank with opc := .cmp, src := ⟨b.sktId, tileD, 0⟩, dst := m.src, txid := m.txid, bc := true }
       exec (.tinv q c) s = s.after (b.send a)))

/-- Training, scrubbing, retraining and sparing of a channel, and its refresh boundary (R320, R323, R327, R331 to
R333, R551). A scrub whose turn another requester has does nothing. Reads that complete, writes that drain and entries
of the persistence buffer that reach DRAM (R324, R327, R329, R334, R335): a chunk with an error that cannot be
corrected is answered poisoned with STATUS 1. One that loses the round of its channel's arbiter waits. -/
def Obligations.ChannelMaintenance : Prop :=
  (∀ (s : State) (c : ChanId) (speed ranks dpc gb retries rank device : Nat) (ce ue : BitVec 4) (errs : List (Nat × DramErr)),
     let p := s.part
     let k := c.val
     (p.memTilePresent (k / 2) = true → p.rgOn F.MC_STAT_TRAINED k = false → (p.sys.boot = .configured ∨ p.sys.boot = .released) →
       (p.rg F.PWR_BOFF_OFF).testBit k = false →
       let q := p.setRg F.MC_STAT_TRAINING 0 k
       let r := q.modChan k (fun x => { x with off := false, gb := min 512 gb })
       exec (.channelTrained c false speed ranks dpc gb) s = s.after (q.modChan k (fun x => { x with off := true })) ∧
       exec (.channelTrained c true speed ranks dpc gb) s = s.after (((r.takes k 0 [(F.MC_STAT_SPEED, r.trainRate dpc speed), (F.MC_STAT_RANKS, ranks),
         (F.MC_STAT_DPC, dpc), (F.MC_STAT_SELFREF, 0), (F.MC_STAT_TRAINED, 1)]).capUpdate k).setRg F.MC_RANKOFF_OFF
         (p.sys.prm.record.get 0 (146 + k / 4) / 2 ^ (8 * (k % 4)) % 256) k)) ∧
     (p.memTilePresent (k / 2) = true → p.rgOn F.MC_STAT_TRAINED k = false → k ≠ 0 → exec (.refreshBoundary c) s = s.after (p.applyHeld (mcCfgKey k))) ∧
     (p.memTilePresent 0 = true → p.rgOn F.MC_STAT_TRAINED 0 = false → p.rgOn F.MC_ILVCTL_COMMIT = true →
       (p.applyHeld (mcCfgKey 0)).rgOn F.MC_STAT_TRAINED 0 = false → (p.applyHeld (mcCfgKey 0)).rgOn F.MC_ILVCTL_COMMIT = true →
       exec .ilvApply s = s.after (((p.applyHeld (mcCfgKey 0)).applyHeld ilvKey).setRg F.MC_ILVCTL_COMMIT 0)) ∧
     (p.rgOn F.MC_ILVCTL_COMMIT = false → exec .ilvApply s = s.after p) ∧
     (p.rgOn F.MC_SCRUB_EN k = true → p.rgOn F.MC_STAT_TRAINED k = true → (p.chanOf k).off = false → p.rgOn F.MC_STAT_SELFREF k = false → p.flushOn = false →
       0 < p.rg F.MC_CAP_GB k →
       (p.chanTurn k 3 = none → exec (.scrubStep c ce ue rank device) s = s.after p) ∧
       (∀ g : Part, p.chanTurn k 3 = some g → (g.chanOf k).wq = [] → (g.mtOf (k / 2)).pwb = [] → (g.chanOf k).scrub / 2 ^ 24 < p.rg F.MC_CAP_GB k →
         let n := (g.chanOf k).scrub
         let ok := ~~~ ((g.dramLine k (n * 64)).pois ||| fullChunks (g.queuedMask k (n * 64)))
         let bad := ue &&& ok
         let q := g.dramErrors k (n * 64) 1 (ce &&& ok) bad rank device
         let r : Part := { q with pois := (List.range 4).foldl (fun x j => if bad.getLsbD j then Tab.put x (dramKey k (n * 64) / 16 + j) 1 else x) q.pois }
         exec (.scrubStep c ce ue rank device) s =
           s.after ((r.modChan k (fun x => { x with scrub := n + 1 })).setRg F.MC_SCRUBPOS_GB ((n + 1) / 2 ^ 24) k))) ∧
     (p.rgOn F.MC_STAT_TRAINED k = true → p.rgOn F.MC_CFG_WRCRC k = true →
       let q (n : Nat) := (List.range n).foldl (fun (r : Part) (_ : Nat) =>
         (r.count F.MC_LINKERR_COUNT F.MC_STAT_OVF k).rasCount (tileOfChan k) (4 + k % 2) 1 1 0xFF 0 .unstated k 0) p
       let r := ((q 3).setRg F.MC_STAT_RETRAIN 1 k).setRg F.MC_STAT_TRAINING 0 k
       (retries < 3 → exec (.retrainDone c retries true) s = s.after (q retries)) ∧
       (3 ≤ retries → exec (.retrainDone c retries true) s = s.after r) ∧
       exec (.retrainDone c retries false) s = s.after (((r.chanFinish k).setRg F.MC_STAT_TRAINED 0 k).modChan k (fun x => { x with off := true }))) ∧
     (p.rg F.MC_SPARE_STATE k = 1 →
       let f := p.rg F.MC_SPARE_FROM k
       let v := errs.foldl (fun (x : Part) (a : Nat × DramErr) => x.spareCopied k f a.1 a.2) p
       let q := (v.chanGrant k 4).takes k 0 [(F.MC_SPARE_STATE, 2), (F.MC_SPARE_PCT, 100), (F.MC_RANKOFF_OFF, setBit (v.rg F.MC_RANKOFF_OFF k) f true)]
       let j := 146 + k / 4
       let d : Part := q.modPrm (fun x => { x with record := x.record.put j (setBit (x.record.get 0 j) (8 * (k % 4) + f) true) })
       exec (.sparingCopyDone ⟨c, errs⟩) s = s.after (d.rasPut (tileOfChan k) 0xFF 5 0 0xFF 0 .unstated))) ∧
  (∀ (s : State) (c : ChanId) (ce ue : BitVec 4) (rank device : Nat) (i g : Fin 8) (q : Msg) (rest : List Msg) (e : WqEnt) (n : Nat) (x : DramErr)
     (data : Vec) (pois : Bool),
     let p := s.part
     let k := c.val
     ((p.chanOf k).rq = q :: rest → p.flushOn = false →
       (p.chanTurn k 0 = none → exec (.channelReadDone c ce ue rank device) s = s.after p) ∧
       (∀ g : Part, p.chanTurn k 0 = some g →
         let ca := q.data.toNat
         let l := g.chanRead k ca
         let ok := ~~~ ((g.dramLine k ca).pois ||| fullChunks (g.queuedMask k ca))
         let bad := ue &&& ok
         let b := ((g.modChan k (fun x => { x with rq := rest })).dramErrors k ca 0 (ce &&& ok) bad rank device).chanServed k false (some q.vmid)
         exec (.channelReadDone c ce ue rank device) s = s.after (b.mrdAnswer (b.chanAgent k) q ⟨l.data, l.pois ||| bad⟩ (if bad = 0 then 0 else 1)))) ∧
     (p.wqWants k = true →
       (p.chanTurn k 1 = none → exec (.writeQueueDrain c) s = s.after p) ∧
       (∀ g : Part, p.chanTurn k 1 = some g →
         let high := (g.chanOf k).high || decide ((g.chanOf k).wq.length ≥ g.whwm k)
         let a := g.wqDrain k
         exec (.writeQueueDrain c) s = s.after (a.modChan k (fun x => { x with high := high && decide (x.wq.length > a.wlwm k) })))) ∧
     (p.wqWants k = false → exec (.writeQueueDrain c) s = s.after p) ∧
     ((p.mtOf i.val).pwb.find? (fun x => !(p.chanOf x.1).off) = some (n, e) →
       (p.chanTurn n 2 = none → exec (.pwbDrain ⟨i, x⟩) s = s.after p) ∧
       (∀ g : Part, p.chanTurn n 2 = some g →
         exec (.pwbDrain ⟨i, x⟩) s = s.after ((((g.pwbRead i.val n e x).pwbDrain i.val).perfEvent (memTile i.val) 16 4 2 1 none none).chanServed n true none))) ∧
     (∀ g : Part, let m := someChunks e.mask &&& ~~~ fullChunks e.mask &&& ~~~ (g.dramLine n e.ca).pois
       g.pwbRead i.val n e x = (g.dramErrors n e.ca 2 (x.ce &&& m) (x.ue &&& m) x.rank.val x.device.val).modMt i.val (fun y =>
         { y with pwb := y.pwb.map (fun z => if z = (n, e) then (n, { e with pois := e.pois ||| (x.ue &&& m) }) else z) })) ∧
     (∀ g : Part, (g.mtOf i.val).pwb.find? (fun x => !(g.chanOf x.1).off) = some (n, e) →
       g.pwbDrain i.val = ((g.modMt i.val (fun x => { x with pwb := x.pwb.erase (n, e) })).wqLine n e.ca).dramWrite n e) ∧
     (p.pci.cxl.get [] g.val = q :: rest → p.cxlUp g.val = true →
       let a := p.modPci (fun x => { x with cxl := x.cxl.put g.val rest })
       (q.opc = .mrd → exec (.cxlMemResponse g data pois) s = s.after (a.mrdAnswer (a.grpAgent g.val) q ⟨data, if pois then 0xF else 0⟩ 0)) ∧
       (q.opc ≠ .mrd → exec (.cxlMemResponse g data pois) s = s.after (a.memCmp (a.grpAgent g.val) q 0))))

/-- A power failure and the flush that it starts (R337 to R340, R578): PWRFAIL_N starts it when Varnish is armed and
the supply of the flush domain is on; phase 1, phase 2 or its time limit, then the last entry drained ends it; a flush
that makes no progress ends in a cold reset. Model's choices: Orders of pins: notes/assumptions/31.md and
notes/assumptions/50.md. -/
def Obligations.FlushEvents : Prop :=
  ∀ (s : State) (groups : BitVec 8) (f : Flush),
    let p := s.part
    (p.sys.pins.stbyOk = true → p.sys.pins.pwrfailLow = false →
      exec .pwrfailNFall s = s.after ((p.modPins (fun x => { x with pwrfailLow := true })).advance 200).powerFall) ∧
    (p.sys.pins.stbyOk = false ∨ p.sys.pins.pwrfailLow = true → exec .pwrfailNFall s = s.after p) ∧
    (p.sys.pins.stbyOk = true → exec .pwrfailNRise s = s.after (p.modPins (fun x => { x with pwrfailLow := false })).flushReset) ∧
    (p.sys.pins.stbyOk = true → p.sys.pins.rstLow = false → exec .vddBaseLow s = s.after ((p.advance 1000).easelLog 8 0 0 0).powerFall) ∧
    (p.sys.varn.flush = some f → p.sys.varn.flushdone = false →
      (f.phase1 = false → exec .gpfPhase1Ack s = s.after (p.setFlush { f with phase1 := true, start := p.time })) ∧
      (f.phase1 = true → f.phase2 = false →
        (p.gpfLost = 0 → exec .gpfPhase2Done s = s.after (p.setFlush { f with phase2 := true })) ∧
        (p.gpfLost ≠ 0 → exec .gpfPhase2Done s = s.after p) ∧
        (let late := (groups.toNat &&& p.gpfGroups) ||| p.gpfLost
         late ≠ 0 → exec (.gpfTimeout groups) s =
          s.after (({ p with time := max p.time (f.start + p.gpfTmo * 1000) } : Part).setFlush { f with phase2 := true, fails := late }))) ∧
      exec .flushProgressReport s = s.after ((p.advance 10000).setFlush { f with report := (p.advance 10000).armedLeft }) ∧
      (f.phase2 = true → p.armed.any (fun i => (p.mtOf i).pwb.any (fun x => !(p.chanOf x.1).off)) = false → p.sys.pins.coldWaits = false →
        let tiles := p.armed.foldl (fun a i => if p.pwbUsed i = 0 then a else a + 2 ^ i) 0
        let q := p.armed.foldl (fun (r : Part) (i : Nat) => (r.setRg F.VAR_STAT_FLUSHING 0 i).setRg F.VAR_STAT_DONE 1 i) p.selfRefresh
        let r := (q.flushLog (flushCode f.fails p.armedLeft) f.fails tiles p.armedLeft).modVarn (fun v => { v with flushdone := true })
        exec .flushdone s = s.after r.flushReset) ∧
      (f.phase2 = false → exec .flushdone s = s.after p) ∧
      (let q := p.flushLog 3 f.fails 0 f.report
       exec .flushDomainSilent s = s.after ((q.armed.foldl (fun (r : Part) (i : Nat) => r.drainOpen i) q).selfRefresh.socketReset .cold)))

/-- Enumeration (R344 to R346): the master assigns ID 0 and starts the ring, a socket takes the ID of the frame and
passes the next one on, the master commits the count with an open tag, and every socket commits; a wrong frame and a
time limit end it in failure. The states of a link (R349, R350, R356, R359): detect (1), train (2), check (3), up (4),
retrain (5), mismatch (6). -/
def Obligations.Enumeration : Prop :=
  (∀ (s : State) (frame : BitVec 28) (f : EnumFrame),
     let p := s.part
     let d := p.sys.dvt
     let up := p.sys.fuses.variant.maxl
     (p.sys.pins.master = true → d.phase = .wait →
       exec .enumStart s = s.after ((({ p with time := max p.time 100000 } : Part).modDvt (fun x => { x with phase := .assigned, id := 0 })).enumSend
         ⟨false, 1, up, 0⟩)) ∧
     (d.phase = .done ∨ d.phase = .failed → exec (.enumAssign frame) s = s.after p.enumLate ∧ exec (.enumCommit frame) s = s.after p.enumLate) ∧
     (d.phase = .wait ∨ d.phase = .assigned ∨ d.phase = .committed → EnumFrame.read frame.toNat = none →
       exec (.enumAssign frame) s = s.after (p.enumFail false) ∧ exec (.enumCommit frame) s = s.after (p.enumFail false)) ∧
     (EnumFrame.read frame.toNat = some f → f.commit = false →
       (p.sys.pins.master = false → d.phase = .wait → f.val ≤ 15 →
         exec (.enumAssign frame) s = s.after ((p.modDvt (fun x => { x with phase := .assigned, id := f.val })).enumSend ⟨false, f.val + 1, min f.maxl up, 0⟩)) ∧
       (p.sys.pins.master = false → d.phase = .wait → 15 < f.val → exec (.enumAssign frame) s = s.after (p.enumFail false)) ∧
       (p.sys.pins.master = true → d.phase = .assigned → f.val ∈ [1, 2, 4, 8, 16] → f.val ≤ 2 ^ f.maxl →
         let tag := p.freshNat % 2 ^ 16
         exec (.enumAssign frame) s = s.after ((p.used.modDvt (fun x => { x with phase := .committed, count := f.val, tag := tag })).enumSend ⟨true, f.val, 0, tag⟩))) ∧
     (EnumFrame.read frame.toNat = some f → f.commit = true →
       (p.sys.pins.master = false → d.phase = .assigned → f.val ≠ 0 →
         exec (.enumCommit frame) s = s.after ((p.modDvt (fun x => { x with phase := .committed, count := f.val, tag := f.tag })).enumSend f).enumDone) ∧
       (p.sys.pins.master = true → d.phase = .committed → f.val = d.count → f.tag = d.tag →
         exec (.enumCommit frame) s = s.after (p.modDvt (fun x => { x with phase := .done })).enumDone) ∧
       (p.sys.pins.master = true → d.phase = .committed → f.tag ≠ d.tag → exec (.enumCommit frame) s = s.after (p.enumFail false))) ∧
     (d.phase = .wait ∨ d.phase = .assigned → exec .enumTimeout s = s.after (({ p with time := max p.time 10000000 } : Part).enumFail false))) ∧
  (∀ (s : State) (d : Fin 4) (own partner : BitVec 12) (id link cnt tag : Nat) (last : CheckEnd) (w g : BitVec 2) (pid : BitVec 4),
     let p := s.part
     let k := d.val
     (p.linkState k = 1 → exec (.receiverDetect d) s = s.after (p.setLink k 2)) ∧
     (p.linkState k ≠ 1 → exec (.receiverDetect d) s = s.after p) ∧
     (p.linkState k = 2 → exec (.linkTrained d own partner) s = s.after (p.linkLocked k own.toNat partner.toNat)) ∧
     (p.linkState k = 5 → exec (.retrainLock d own partner) s = s.after (p.linkLocked k own.toNat partner.toNat)) ∧
     (p.linkState k = 1 ∨ p.linkState k = 2 → exec (.linkTrainTimeout d) s =
       s.after ((({ p with time := max p.time ((p.linkOf k).time + 2000000) } : Part).setRg F.DVT_STAT_WIDTH 3 k).setLink k 0)) ∧
     (p.linkState k = 5 → exec (.retrainFail d) s = s.after (({ p with time := max p.time ((p.linkOf k).time + 16000) } : Part).linkFail k)) ∧
     exec (.dvtLaneLockLoss d) s = s.after (p.retrainStart k) ∧
     (p.linkState k = 3 →
       let q := p.takes k 0 [(F.DVT_PEER_TAG, tag), (F.DVT_PEER_ID, id), (F.DVT_PEER_LINK, link), (F.DVT_PEER_SKTCNT, cnt)]
       (id = p.sktId ^^^ 2 ^ k → link = k → cnt = p.sktCnt → tag = p.rg F.DVT_ENUM_TAG →
         let r := q.setRg F.DVT_STAT_REASON 0 k
         let before := (List.range p.sktCnt).map (fun x => r.route x false)
         let u := (r.setLink k 4).modLink k (fun x =>
           { x with tx := ackTx x.tx last.last.toNat, nak := false, nakDue := false, resends := 0, prop := none, rtt := last.rtt, wire := [] })
         let v := (u.linkOf k).tx.foldl (fun (r : Part) (f : DFlit) => r.driveAgain k f) u
         exec (.linkCheck d id link cnt tag last) s = s.after (v.startDrains before).linkChanged) ∧
       (id ≠ p.sktId ^^^ 2 ^ k → exec (.linkCheck d id link cnt tag last) s =
         s.after (((q.setRg F.DVT_STAT_REASON 1 k).setRg F.DVT_STAT_WIDTH 3 k).setLink k 6))) ∧
     (p.linkUp k = true →
       ((p.linkOf k).prop = none → exec (.propose d pid w g) s = s.after ((p.modLink k (fun x => { x with prop := some (w.toNat, g.toNat) })).linkRetrain k)) ∧
       ((p.linkOf k).prop ≠ none → pid.toNat < p.sktId → exec (.propose d pid w g) s =
         s.after (((p.setRg F.DVT_STAT_YIELD 1 k).modLink k (fun x => { x with prop := some (w.toNat, g.toNat) })).linkRetrain k)) ∧
       ((p.linkOf k).prop ≠ none → p.sktId ≤ pid.toNat → exec (.propose d pid w g) s = s.after p)))

/-- Flits of a link that is up (R352 to R354, R364): a flit with an error or out of order asks for a replay, one in
order delivers its messages and owes a credit for each slot; a replay sends the unacknowledged flits again and the
eighth without progress retrains; a reinjected message for another socket goes on, one already seen is dropped. What
sockets tell each other (R361 to R363, R367 to R369, R372): link states, drains, TIME, timeouts and interleave sums.
Model's choices: A flit time: notes/assumptions/37.md. -/
def Obligations.LinkTraffic : Prop :=
  (∀ (s : State) (d : Fin 4) (f : RxFlit) (ack seq : BitVec 12) (q : Msg) (cls : Fin 3) (src dst : BitVec 4),
     let p := s.part
     let k := d.val
     let w := p.modLink k (fun x => { x with wire := [] })
     (p.linkState k = 4 →
       (f.crcOk = false ∨ f.seq ≠ ((w.linkOf k).rxSeq + 1) % 4096 →
         exec (.dvtFlit d f) s = s.after ((w.modLink k (fun x => { x with nak := true, nakDue := !x.nak })).transmit k).sweepLost) ∧
       (f.crcOk = true → f.ty = 0 → f.seq = ((w.linkOf k).rxSeq + 1) % 4096 → f.ack = none → f.nak = false →
         let a := ((w.creditAdd k f.credits).bwCount 4 0 k 0 (16 * f.slotVcs.length)).modLink k (fun x =>
           { x with rxSeq := f.seq, nak := false, owed := f.slotVcs.foldl (fun o v => Tab.upd 0 o v (fun n => min 511 (n + 1))) x.owed })
         let b := f.msgs.foldl (fun (r : Part) (m : Nat × Msg) =>
           (r.received k { m.2 with detour := decide (m.1 ≥ 4) }).fwdEvent 2 (if m.2.opc.cls = 0 then some m.2.vmid else none)) a
         exec (.dvtFlit d f) s = s.after (b.transmit k).sweepLost) ∧
       (let l := ackTx (w.linkOf k).tx ack.toNat
        let n := if l.length < (w.linkOf k).tx.length then 1 else (w.linkOf k).resends + 1
        let a := (((w.modLink k (fun x => { x with tx := l, resends := n })).count F.DVT_REPLAYS_COUNT F.DVT_STAT_OVF k).linkEvent k 2 1).rasCount
          tileD k 1 1 k 0 .unstated k 0
        (n < 8 → exec (.nak d ack) s = s.after (l.foldl (fun (r : Part) (y : DFlit) => r.driveAgain k y) a)) ∧
        (8 ≤ n → exec (.nak d ack) s = s.after (a.retrainStart k)))) ∧
     (p.linkState k ≠ 4 → exec (.dvtFlit d f) s = s.after p ∧ exec (.nak d ack) s = s.after p) ∧
     (dst.toNat ≠ p.sktId →
       exec (.reinjectedMessage ⟨src, dst, d⟩ seq q) s = s.after (p.modDvt (fun v =>
         { v with again := v.again ++ [⟨src.toNat, dst.toNat, k, .msg (seq.toNat % 4096) { q with detour := true }⟩] })) ∧
       exec (.reinjend ⟨src, dst, d⟩ cls) s = s.after (p.modDvt (fun v => { v with again := v.again ++ [⟨src.toNat, dst.toNat, k, .stop cls.val⟩] }))) ∧
     (dst.toNat = p.sktId → p.rgOn F.DVT_REINJ_ACTIVE k = true →
       ((p.rg F.DVT_REINJ_ALAST k + 4096 - seq.toNat % 4096) % 4096 < 1024 →
         exec (.reinjectedMessage ⟨src, dst, d⟩ seq q) s = s.after ((p.count F.DVT_DUPS_COUNT F.DVT_STAT_OVF k).fwdEvent 4 none)) ∧
       (1024 ≤ (p.rg F.DVT_REINJ_ALAST k + 4096 - seq.toNat % 4096) % 4096 →
         exec (.reinjectedMessage ⟨src, dst, d⟩ seq q) s =
           s.after ((p.received k { q with detour := true }).fwdEvent 2 (if q.opc.cls = 0 then some q.vmid else none))) ∧
       (let a := p.modLink k (fun x => { x with ends := x.ends.filter (· ≠ cls.val) })
        ((a.linkOf k).ends ≠ [] → exec (.reinjend ⟨src, dst, d⟩ cls) s = s.after a) ∧
        ((a.linkOf k).ends = [] →
          exec (.reinjend ⟨src, dst, d⟩ cls) s =
            s.after (((a.setRg F.DVT_REINJ_DONE 1 k).modLink k (fun x => { x with rxSeq := 4095 })).reinjOver k)))) ∧
     (dst.toNat = p.sktId → p.rgOn F.DVT_REINJ_ACTIVE k = false → exec (.reinjectedMessage ⟨src, dst, d⟩ seq q) s = s.after p)) ∧
  (∀ (s : State) (d : Fin 4) (skt up init : BitVec 4) (weight : Nat) (sum : BitVec 32) (cls : Fin 3) (ref : Dword) (line : BitVec 46) (tile : TileId)
     (shares : List Nat)
     (dst : BitVec 4) (n : Nat) (q : Part),
     let p := s.part
     let k := skt.toNat
     (p.linkState d.val = 4 → k ≠ p.sktId → (p.rg (if k < 8 then F.DVT_MAP_LO_UP else F.DVT_MAP_HI_UP) / 2 ^ (4 * (k % 8)) % 16 = up.toNat) → sum.toNat = p.ilvSum →
       p.sys.dvt.weight.get 1 k = max 1 weight → p.sys.dvt.sum.find? k = some sum.toNat →
       let a := p.modDvt (fun x => { x with weight := x.weight.put k (max 1 weight), sum := x.sum.put k sum.toNat, differ := x.differ.del k })
       exec (.linkStateMessage d skt up weight sum) s = s.after (a.setRg F.DVT_ILVMIS_SKT (setBit (a.rg F.DVT_ILVMIS_SKT) k false))) ∧
     (p.isolationDue = some q → exec .isolationHold s =
       s.after ((List.range nCores).foldl (fun (r : Part) (c : Nat) => if r.coreInSvc c then (r.testAbort c).coreAim c .reset else r) q)) ∧
     (p.isolationDue = none → exec .isolationHold s = s.after p) ∧
     (dst.toNat = p.sktId → exec (.drain ⟨skt, dst⟩ cls) s = s.after (p.mailTo k (.drainAck dst.toNat k cls.val (p.markerVc k 2)))) ∧
     (dst.toNat ≠ p.sktId → exec (.drain ⟨skt, dst⟩ cls) s = s.after (p.mailTo dst.toNat (.drain k dst.toNat cls.val (p.markerVc dst.toNat cls.val)))) ∧
     (dst.toNat ≠ p.sktId → exec (.drainack ⟨skt, dst⟩ cls) s = s.after (p.mailTo dst.toNat (.drainAck k dst.toNat cls.val (p.markerVc dst.toNat 2)))) ∧
     (dst.toNat = p.sktId → exec (.drainack ⟨skt, dst⟩ cls) s = s.after (p.modDvt (fun x =>
       let l := x.drain.map (fun y => if y.dst = k then { y with left := y.left.filter (· ≠ cls.val) } else y)
       { x with drain := l.filter (fun y => !y.left.isEmpty) }))) ∧
     (p.sktId = 0 → p.rgOn F.DVT_ENUM_DONE = true → 1024 ≤ p.sys.dvt.ticks → p.rgOn F.DVT_GPWR_EN = false →
       exec .timeBroadcast s = s.after ((List.range 4).foldl (fun (r : Part) (x : Nat) => if r.linkState x = 4 then r.mgmt x (.time r.time []) else r)
         ((p.modDvt (fun x => { x with ticks := 0 })).modDvt (fun x => { x with capOn := false }))).tellState) ∧
     (p.linkState d.val = 4 → p.timeParent = some d.val → p.time ≤ ref.toNat → p.rgOn F.DVT_TSYNC_LOCKED = false → shares = [] →
       let now := ref.toNat + (p.linkOf d.val).rtt / 2
       let a := (({ p.setRg F.DVT_TSYNC_OFFSET (min (now - p.time) 32767) with time := now } : Part).setRg F.DVT_TSYNC_LOCKED 1).modDvt
         (fun x => { x with capOn := false })
       exec (.timeMessage d ref shares) s = s.after ((List.range 4).foldl (fun (r : Part) (x : Nat) =>
         if x ≠ d.val ∧ r.linkState x = 4 then r.mgmt x (.time r.time []) else r) a).tellState) ∧
     (dst.toNat ≠ p.sktId → exec (.timeoutReport ⟨skt, dst⟩ line tile init) s =
       s.after (p.mailTo dst.toNat (.report k dst.toNat line.toNat tile.val init.toNat))) ∧
     (dst.toNat = p.sktId → coreOrd tile.val = some n → init.toNat < 4 → exec (.timeoutReport ⟨skt, dst⟩ line tile init) s =
       s.after ((p.easelLog 14 2 (line.toNat * 64) (k % 16 * 2 ^ 8 + tile.val % 256 * 2 ^ 12)).easelResets (2 * n + init.toNat / 2))) ∧
     (p.sktId = 0 → p.sktCnt ≠ 1 → ∀ t, p.sys.dvt.differ.find? k = some t → p.sys.dvt.sum.get 0 k ≠ p.ilvSum →
       let a : Part := { p with time := max p.time (t + 1000000) }
       exec (.ilvMismatch skt) s = s.after (((a.setRg F.DVT_ILVMIS_SKT (setBit (a.rg F.DVT_ILVMIS_SKT) k true)).setRg F.DVT_GSTAT_ILVMIS 1).easEvent F.EAS_EVT_LOG)))

/-- Requests that a port sent and that come back, and those that do not (R381, R388): a completion ends its request,
and only it; a request without an answer ends with all ones. Requests that arrive at a root port (R209, R211, R377,
R382): read data of the address translated; UR where the source or the translation refuses; an AtomicOp is answered
UR; a malformed request is the containment's. A host's requests of the endpoint (R392, R393) reach its windows.
Model's choices: Malformed requests: notes/assumptions/40.md. -/
def Obligations.PortTraffic : Prop :=
  (∀ (s : State) (n : PortId) (tag : BitVec 8) (data : Vec) (pois : Bool) (o : OutReq),
     let p := s.part
     let k := n.val
     let find := (p.portOf k).out.find? (fun x => decide (x.tag = tag.toNat))
     let fin (q : Part) : Part := (q.modPort k (fun x => { x with out := x.out.erase o })).portPump k 300
     let got := p.bwCount 2 0 k 0 (if o.cfgWrite = true then 0 else 8 * 2 ^ o.msg.sz / 8)
     (find = some o → p.portUp k = true →
       (pois = false → exec (.pcieCompletion n tag .success data pois) s = s.after (fin (got.endRead k o (data.toNat % 2 ^ (8 * 2 ^ o.msg.sz)) false 0))) ∧
       (pois = true → exec (.pcieCompletion n tag .success data pois) s =
         s.after ((fin (got.endRead k o (data.toNat % 2 ^ (8 * 2 ^ o.msg.sz)) true 0)).portErr k [F.PCI_PORT_ERR_POISON])) ∧
       exec (.pcieCompletion n tag .ur data pois) s = s.after ((fin (p.endRead k o (allOnes o.msg) false 0)).portErr k [F.PCI_PORT_ERR_UR]) ∧
       exec (.pcieCompletion n tag .ca data pois) s = s.after ((fin (p.endRead k o (allOnes o.msg) false 0)).portErr k [F.PCI_PORT_ERR_CA])) ∧
     (find = some o →
       let q : Part := { p with time := max p.time (o.time + max 1 (p.rg F.PCI_PORT_CTO_MS k) * 1000000) }
       let r := (q.modPort k (fun x => { x with out := x.out.erase o })).endRead k o (allOnes o.msg) false 0
       (r.rgOn F.PCI_PORT_STAT_CMODE k = true → exec (.completionTimeout n tag) s = s.after (r.contain k [F.PCI_PORT_ERR_CTO])) ∧
       (r.rgOn F.PCI_PORT_STAT_CMODE k = false → exec (.completionTimeout n tag) s = s.after ((r.portPump k 300).portErr k [F.PCI_PORT_ERR_CTO]))) ∧
     (find = none → exec (.completionTimeout n tag) s = s.after p ∧ exec (.pcieCompletion n tag .success data pois) s = s.after p)) ∧
  (∀ (s : State) (r : InReq) (len addr : Nat) (data : List (Option Byte)) (pois : Bool) (n : PortId),
     let p := s.part
     let k := r.port
     let u := if k < 32 then 0 else 1
     let a := p.grpAgent (k / 8)
     (p.portUp k = true → r.addr.badSpan len 4096 = true → exec (.inboundMemoryRead r len) s = s.after (Part.containmentTrigger k .malformed p)) ∧
     (p.portUp k = true → r.addr.badSpan data.length 512 = true → exec (.inboundMemoryWrite r data pois) s = s.after (Part.containmentTrigger k .malformed p)) ∧
     (p.portUp k = true → p.fromHost k = false → r.addr = .mem addr → r.addr.badSpan len 4096 = false →
       (∀ q, p.sourceBad k r.rid = some q → exec (.inboundMemoryRead r len) s = s.after ((q.grpEvent (k / 8) 1 none).answerTlp k .ur [] false)) ∧
       (p.sourceBad k r.rid = none → p.pci.iow.any (fun w => decide (w.agent = a) && decide (w.port = k)) = false →
         ∀ (q t : Part) (pa x y v : Nat) (pe : BitVec 8) (b : Bool), p.ioTranslate u (r.toIo addr (if r.exec then .exec else .read) len) = .ok q pa x y pe →
           regionOf pa ≠ .pcieWin → q.ioBytes a k pa len (lineFuel len) = .got t v b →
           exec (.inboundMemoryRead r len) s = s.after ((t.grpEvent (k / 8) 1 none).answerTlp k .success (natBytes len v) b addr))) ∧
     (p.portUp k = true → p.fromHost k = false → r.addr = .mem addr → r.addr.badSpan data.length 512 = false →
       let took (q : Part) : Part := (q.grpEvent (k / 8) 1 none).bwCount 2 0 k 0 data.length
       (∀ q, p.sourceBad k r.rid = some q → exec (.inboundMemoryWrite r data pois) s = s.after (took q)) ∧
       (p.sourceBad k r.rid = none →
         let runs := runsAt 0 data
         ∀ (q t : Part) (pa x y : Nat) (pe : BitVec 8), p.ioTranslate u (r.toIo addr .write (match runs with | [(0, l)] => l.length | _ => 0)) = .ok q pa x y pe →
           q.storeTlp a k pa pois data = some t → exec (.inboundMemoryWrite r data pois) s = s.after (took t))) ∧
     (p.portUp k = true → p.fromHost k = true →
       (r.addr.badSpan len 4096 = false → exec (.inboundMemoryRead r len) s = s.after (p.hostRead r len)) ∧
       (r.addr.badSpan data.length 512 = false → exec (.inboundMemoryWrite r data pois) s = s.after ((p.bwCount 2 0 k 0 data.length).hostWrite r data))) ∧
     (p.portUp n.val = true → exec (.inboundAtomicop n) s = s.after (p.answerTlp n.val .ur [] false)) ∧
     (p.portUp n.val = false → exec (.inboundAtomicop n) s = s.after p))

/-- The states of a port (R386 to R388, R398): detect (1), polling (2), L0 (3), recovery (4), L1 (5). The endpoint
(R394 to R396, R575): host doorbells, bus-master enable, FLR, hot reset and PERST_N; a queue of the host's is stopped
with STATUS 12 by BME and 11 by FLR, and an FLR or a reset does not end before the group's posted writes are done
(R295). -/
def Obligations.PortStates : Prop :=
  (∀ (s : State) (n : PortId) (speed width : Nat) (flit : Bool) (c : ContainCause),
     let p := s.part
     let k := n.val
     let fits : Prop := (if p.rg F.PCI_GRP_EFF_MODE (k / 8) = 1 then 5 else 1) ≤ speed ∧ speed ≤ 6 - p.rg F.PCI_PORT_CTL_MAXSPEED k ∧ width ≤ p.rg F.PCI_PORT_ID_WIDTH k ∧ width ∈ [1, 2, 4, 8, 16]
     (p.portExists k = true →
       (p.portState k = 1 → exec (.portReceiverDetect n) s = s.after ((p.setPortState k 2).setRg F.PCI_PORT_STAT_PRESENT 1 k)) ∧
       (p.portState k = 2 → fits →
         exec (.portTrained n speed width flit) s = s.after ((((p.setPortState k 3).modPort k (fun x => { x with active := true })).takes k 0
           [(F.PCI_PORT_STAT_SPEED, speed), (F.PCI_PORT_STAT_WIDTH, width), (F.PCI_PORT_STAT_FLIT, if flit = true ∨ speed = 6 then 1 else 0)]).portErr k
             [F.PCI_PORT_ERR_LUP])) ∧
       (p.portState k = 3 → exec (.portRecovery n) s = s.after (p.setPortState k 4) ∧ exec (.portL1Entry n) s = s.after (p.setPortState k 5)) ∧
       (p.portState k = 5 → exec (.portL1Exit n) s = s.after (p.setPortState k 4)) ∧
       (p.portState k = 4 → fits → exec (.recoveryDone n true speed width) s =
         s.after ((p.setPortState k 3).takes k 0 ([(F.PCI_PORT_STAT_SPEED, speed), (F.PCI_PORT_STAT_WIDTH, width)] ++
           (if speed = 6 then [(F.PCI_PORT_STAT_FLIT, 1)] else [])))) ∧
       (p.portState k ≠ 3 → exec (.portL1Entry n) s = s.after p)) ∧
     (p.portUp k = true → k ≠ 0 →
       exec (.portLinkDown n) s = s.after (p.withHostStop (fun q => q.linkDown k)) ∧
       (p.portState k = 4 → exec (.recoveryDone n false speed width) s = s.after (p.withHostStop (fun q => q.linkDown k)))) ∧
     (p.portUp k = true → (c = .ecrc → p.rgOn F.PCI_PORT_CTL_ECRC k = true) →
       let e := match c with | .malformed => [F.PCI_PORT_ERR_MALF] | .ecrc => [F.PCI_PORT_ERR_ECRC] | _ => []
       (p.rgOn F.PCI_PORT_STAT_CMODE k = true → exec (.containmentTrigger n c) s = s.after (p.contain k e)) ∧
       (p.rgOn F.PCI_PORT_STAT_CMODE k = false → exec (.containmentTrigger n c) s = s.after (p.portErr k e))) ∧
     (p.portUp k = false → exec (.containmentTrigger n c) s = s.after p)) ∧
  (∀ (s : State) (v : BitVec 10),
     let p := s.part
     let h := p.pci.ep.hdr.get 0 1
     (p.epMode = true →
       (p.rgOn F.EP_STAT_FLR = false →
         (p.rgOn F.EP_HDBTGT_EN = true → exec (.epHdbWrite v) s =
           s.after (p.signal tileP0 0 p.sktId (p.rg F.EP_HDBTGT_CORE) (p.rg F.EP_HDBTGT_THREAD) v.toNat)) ∧
         (p.rgOn F.EP_HDBTGT_EN = false → exec (.epHdbWrite v) s = s.after (p.count F.PCI_PORT_DROPS_COUNT F.PCI_PORT_STAT_OVF 0)) ∧
         exec .flrInitiate s = s.after (p.flrStart.hostStop 11) ∧
         (p.epBme = false →
           let q := p.hostStop 12
           exec .bmeSet s = s.after (q.modEp (fun e => { e with hdr := e.hdr.put 1 (setBit h 2 true) })).msixPump)) ∧
       (p.epBme = true → exec .bmeClear s =
         s.after (((p.modEp (fun e => { e with hdr := e.hdr.put 1 (setBit h 2 false) })).setRg F.EP_EVT_BME 1).hostStop 12)) ∧
       exec .hotReset s = s.after (p.withHostStop (fun q => q.flrStart.portIdle 0 1)) ∧
       (p.pci.ep.perst = false → exec (.perstChange true) s =
         s.after (p.withHostStop (fun q => (q.modEp (fun e => { e with perst := true })).flrStart.portIdle 0 0))) ∧
       (p.pci.ep.perst = true → exec (.perstChange false) s =
         s.after (p.withHostStop (fun q => ((q.modEp (fun e => { e with perst := false })).setPortState 0 1).flrComplete)))) ∧
     (p.rgOn F.EP_STAT_FLR = true → p.pci.ep.perst = false → p.grpBusy 0 = false → exec .flrComplete s =
       s.after ((p.modEp (fun e => { e with hdr := [], msix := [], pba := [] })).takes 0 0 [(F.EP_ROMPAGE_TGT, 0), (F.EP_ROMPAGE_PAGE, 0), (F.EP_HDBTGT_EN, 0),
         (F.EP_STAT_READY, 0), (F.EP_STAT_FLR, 0)])) ∧
     (p.grpBusy 0 = true → exec .flrComplete s = s.after p) ∧
     (p.epMode = false → exec .hotReset s = s.after p))

/-- The states of a MAC (R402, R403): signal (1), auto-negotiation (2), training (3), up (4); PAUSE. A frame at a MAC
(R403, R407, R408): codewords in error, length and FCS decide first; a frame of a good length that a logical port
claims goes on to it with its time of arrival. Model's choices: Readings: notes/assumptions/61.md. -/
def Obligations.FramesReceived : Prop :=
  (∀ (s : State) (m : Fin 16) (rate : Nat) (quanta : BitVec 16) (t : Nat),
     let p := s.part
     let k := m.val
     (p.netOn = true →
       (p.macState k = 1 → exec (.macSignalDetect m) s = s.after (p.macTo k (if p.rgOn F.NET_MAC_CFG_AN k then 2 else 3))) ∧
       (p.macState k = 2 → rate = p.rg F.NET_MAC_CFG_SPEED k → exec (.anResolved m rate) s = s.after (p.macTo k 3)) ∧
       (p.macState k = 2 → rate ≠ p.rg F.NET_MAC_CFG_SPEED k → exec (.anResolved m rate) s = s.after p) ∧
       (p.macState k = 3 → exec (.macTrained m) s = s.after ((p.macTo k 4).setRg F.NET_MAC_STAT_LUP 1 k)) ∧
       (p.macUp k = true →
         exec (.macLockLost m) s = s.after (p.macTo k 1) ∧
         (let a := (p.netCount F.NET_MAC_PAUSERX_COUNT k).macEvent 4
          let ns := 512 * quanta.toNat / (match p.rg F.NET_MAC_CFG_SPEED k with | 1 => 100 | 2 => 200 | _ => 400)
          exec (.pauseReceived m quanta) s = s.after (a.modPkt (fun x => { x with pause := if quanta.toNat = 0 then x.pause.del k else x.pause.put k (a.time + ns) }))))) ∧
     (p.pkt.pause.find? k = some t → exec (.pauseQuantaExpiry m) s = s.after ((p.advance (t - p.time)).modPkt (fun x => { x with pause := x.pause.del k })))) ∧
  (∀ (s : State) (m : Fin 16) (data : List Byte) (unc corr lp : Nat),
     let p := s.part
     let k := m.val
     let n := data.length
     let q := (p.netBoundary.netCount F.NET_MAC_FECCORR_COUNT k corr).bwCount 3 0 k 0 n
     let g := q.modPkt (fun x => { x with bad := x.bad.del k })
     let body := data.take (n - 4)
     (p.hasPe = true → p.macUp k = true →
       (unc ≠ 0 → exec (.frameReceived m data unc corr) s = s.after (((q.netCount F.NET_MAC_FCSERR_COUNT k).macEvent 1).fecUnc k unc)) ∧
       (unc = 0 → 16384 ≤ n → exec (.frameReceived m data unc corr) s = s.after (g.netCount F.NET_MAC_JABBER_COUNT k)) ∧
       (unc = 0 → n ≤ 17 → exec (.frameReceived m data unc corr) s = s.after (g.netCount F.NET_MAC_FRAG_COUNT k)) ∧
       (unc = 0 → 17 < n → n < 16384 → data.drop (n - 4) ≠ fcsBytes body →
         exec (.frameReceived m data unc corr) s = s.after ((g.netCount F.NET_MAC_FCSERR_COUNT k).macEvent 1)) ∧
       (unc = 0 → 64 ≤ n → n < 16384 → n ≤ g.maxLen k → data.drop (n - 4) = fcsBytes body → g.netOn = true → g.pkt.resetAt = none →
         let a := (g.netCount F.NET_MAC_RXOK_COUNT k).netCount48 F.NET_MAC_RXBYTES_LO_COUNT F.NET_MAC_RXBYTES_HI_COUNT k n
         let adj := a.rg F.NET_MAC_TSADJ_NS k
         let ts := (a.time + 2 ^ 64 + adj - (if adj ≥ 32768 then 65536 else 0)) % 2 ^ 64
         (a.lpFor k body = none → exec (.frameReceived m data unc corr) s = s.after (a.netCount F.NET_MAC_NOLP_COUNT k)) ∧
         (∀ t : Part, a.lpFor k body = some lp → a.rxFrame lp body (if a.rgOn F.NET_LP_CFG_FCSCT lp then data.drop (n - 4) else []) n ts = (t, true) →
           exec (.frameReceived m data unc corr) s = s.after t))) ∧
     (p.macUp k = false → exec (.frameReceived m data unc corr) s = s.after p))

/-- Receive queues (R421, R422, R426, R433): the frame at the head is delivered when it is ready, into buffers, with a
completion record; one that no buffer waits for is dropped, at once or after RXWAIT. A departure of a logical port
(R434, R435): the queue whose turn it is sends its first frame, unless the port is held up or no queue may send. Queue
doorbells (R420, R426): a write of 4 bytes from the owner moves the producer or the consumer index; an index beyond
the ring stops the queue in error; any other write is discarded and logged. Model's choices: Readings:
notes/assumptions/61.md. -/
def Obligations.QueuesAndDepartures : Prop :=
  (∀ (s : State) (qn : BitVec 14) (f : RxFrame) (rest : List RxFrame) (t u : Part) (c n : Nat) (bad : Bool) (tm : Nat),
     let p := s.part
     let k := qn.toNat
     let x := p.queueOf k
     (x.rxq = f :: rest → p.netOn = true → x.state = .enabled →
       (x.ready f = true → Part.fillBuffers k (x.need f) f.data 0 0 false p = (t, some (c, n, bad)) →
         let st := higher (higher f.status (if f.data.length > 16 * x.bufBytes then 9 else 0)) (higher (if f.dly then 2 else 0) (if bad then 10 else 0))
         let r : NetRec := { ts := f.ts, cookie := c, mark := f.mark, hash := f.hash, status := st, lp := f.lp, nbuf := n, fhit := f.fhit, len := f.len, flow := f.flow, parse := f.parse, dly := f.dly, mcrep := f.job.isSome, moved := !bad }
         (t.rxPop k f).netRecord k r = (u, true) → exec (.rxDelivery qn) s = s.after (u.jobStep f.job (!bad))) ∧
       (x.ready f = false → ctxField x.ctx 3 19 10 = 0 → (p.rxPop k f).rxDrop k f 1 = (t, true) → exec (.rxDelivery qn) s = s.after t) ∧
       (x.ready f = false → (((p.advance (f.time + 1000 * ctxField x.ctx 3 19 10 - p.time)).rxPop k f).rxDrop k f 1 = (t, true)) →
         exec (.rxwaitExpiry qn) s = s.after t)) ∧
     (x.rxq = [] → exec (.rxDelivery qn) s = s.after p ∧ exec (.rxwaitExpiry qn) s = s.after p) ∧
     (x.times.head? = some tm → x.armed = true → exec (.coalesceTimer qn) s = s.after ((p.advance (tm + 1000 * ctxField x.ctx 4 36 27 - p.time)).netIrq k)) ∧
     (x.armed = false → exec (.coalesceTimer qn) s = s.after p) ∧
     (p.netOn = true → p.pkt.resetAt = none → x.state = .enabled → x.stop = none → (x.host = true → p.epBme = true) →
       (x.isTx = true → exec (.descriptorFetch qn) s = s.after (p.netBoundary.txFetch k)) ∧
       (x.isTx = false → x.posted ≠ 0 → x.rxd.length < 8 → p.descUsed < 4096 → exec (.descriptorFetch qn) s = s.after (p.rxFetch k).1))) ∧
  (∀ (s : State) (n : Fin 32) (r t : Part) (q : Nat) (f : TxFrame) (rest : List TxFrame), s.part.netOn = true → s.part.pkt.resetAt = none →
     let b := s.part.txPrepare n.val
     (b.txHeld n.val = true → exec (.txFrameDepart n) s = s.after b) ∧
     (b.txHeld n.val = false → b.txTurn n.val = (r, none) → exec (.txFrameDepart n) s = s.after r) ∧
     (b.txHeld n.val = false → b.txTurn n.val = (r, some q) → (r.queueOf q).txq = f :: rest → r.txDepart n.val q f = (t, true) →
       exec (.txFrameDepart n) s = s.after ((t.txFlushAll q).venQuota (r.queueOf q).inst))) ∧
  (∀ (s : State) (qn : BitVec 14) (v : BitVec 32) (size : Nat) (vmid : BitVec 12) (host : Bool) (init : BitVec 4), s.part.hasPe = true →
     let p := s.part
     let k := qn.toNat
     let x := p.queueOf k
     let i := v.toNat % 65536
     let left := (x.cpidx + 65536 - i) % 65536
     (p.bellOk k size vmid.toNat host = false →
       exec (.producerDoorbell qn v size vmid host init) s = s.after (p.bellDiscard k init.toNat) ∧
       exec (.completionDoorbell qn v size vmid host init) s = s.after (p.bellDiscard k init.toNat)) ∧
     (p.bellOk k size vmid.toNat host = true →
       (x.dsize < x.ahead i → exec (.producerDoorbell qn v size vmid host init) s = s.after ((p.bellDiscard k init.toNat).netError k)) ∧
       (x.ahead i ≤ x.dsize → exec (.producerDoorbell qn v size vmid host init) s =
         s.after (p.modQueue k (fun y => y.rung i p.time))) ∧
       (x.csize < left → exec (.completionDoorbell qn v size vmid host init) s = s.after ((p.bellDiscard k init.toNat).netError k)) ∧
       (left ≤ x.csize → exec (.completionDoorbell qn v size vmid host init) s = s.after ((p.modQueue k (fun y =>
         { y with ccidx := i, times := y.times.drop (y.times.length - left), armed := y.armed || v.toNat.testBit 31 })).netIrq k))))

/-- The end of queue, flow, key and instance commands (R417, R427, R438, R447, R475, R478): BUSY falls and DONE is set
for a direct command, and a waiting tenant command may start. -/
def Obligations.CommandsEnd : Prop :=
  ∀ (s : State) (qn : BitVec 14) (idx : BitVec 10) (c : FlowCmd) (w : Waiter) (l : List Nat) (m : MgrCmd) (t : Nat),
    let p := s.part
    let k := qn.toNat
    (p.hasPe = true → p.pkt.resetAt = none → exec (.queueDisabled qn) s = s.after ((p.queueSettle k).queueDone k).venNext) ∧
    (p.hasPe = true → p.pkt.resetAt = some t → exec (.queueDisabled qn) s = s.after p.netResetOn) ∧
    (p.pkt.flowcmd = some c → c.who = .direct →
      let q := (p.flowDrop c.all c.bucket).modPkt (fun x => { x with flowcmd := none })
      exec .flowcmdDone s = s.after ((q.setRg F.NET_FLOWSTAT_BUSY 0).setRg F.NET_FLOWSTAT_DONE 1).venNext) ∧
    (p.pkt.flowcmd = none → exec .flowcmdDone s = s.after p) ∧
    (p.key.cmd = some (w, l) → w = .direct → exec .keyCmdDone s =
      s.after (((p.modKey (fun x => { x with cmd := none })).setRg F.KEY_CMDSTAT_BUSY 0).setRg F.KEY_CMDSTAT_DONE 1).venNext) ∧
    ((p.instOf idx.toNat).mcmd = some m → m.started = true → exec (.venMcmdDone idx) s = s.after (p.mgrStep idx.toNat).venNext) ∧
    ((p.instOf idx.toNat).mcmd = none → exec (.venMcmdDone idx) s = s.after p) ∧
    (p.pkt.resetAt = some t →
      let q := (p.advance (t + 1000000 - p.time)).netAbandon k
      (q.netQuiet = true → exec (.descriptorAbandon qn) s = s.after q.netEnterReset.netEnded) ∧ (q.netQuiet = false → exec (.descriptorAbandon qn) s = s.after q)) ∧
    (p.pkt.resetAt = none → (p.instOf (p.queueOf k).inst).mcmd = some m → m.started = true → (m.op = 1 ∨ m.op = 2) → (p.queueOf k).state ≠ .disabled →
      exec (.descriptorAbandon qn) s = s.after (((p.advance (m.time + 1000000 - p.time)).netAbandon k).mgrStep (p.queueOf k).inst).venNext)

/-- Standby supplies, REFCLK, VRHOT and thermal readings (R484, R487, R489, R491, R577, R581). A core whose threads
both wait is switched off after its idle time; one that is off wakes for the reason that it has (R494, R495). Model's
choices: TIME moved by an event and idle cores: notes/assumptions/8.md and notes/assumptions/29.md. -/
def Obligations.SupplyEvents : Prop :=
  (∀ (s : State) (bak : Bool) (power avg steps : Nat) (readings : List Nat) (d : Fin 4),
     let p := s.part
     let pins := p.sys.pins
     (pins.stbyOk = false →
       let q := (p.socketReset .standby).modPins (fun x => { x with stbyOk := true, mainOk := !bak, bakOk := bak })
       (q.sys.pins.rstLow = true → exec (.standbyPowerOn bak) s = s.after q) ∧ (q.sys.pins.rstLow = false → exec (.standbyPowerOn bak) s = s.after q.rstRise) ∧
       exec .standbyLoss s = s.after p) ∧
     (pins.stbyOk = true →
       exec (.standbyPowerOn true) s = s.after (p.modPins (fun x => { x with bakOk := true })) ∧
       exec .standbyLoss s = s.after ((p.socketReset .standby).modPins (fun x => { x with stbyOk := false, mainOk := false, bakOk := false })) ∧
       (pins.mainOk = true → pins.bakOk = true → exec .stbySwitchToBak s = s.after (p.stbySwitch true)) ∧
       (pins.mainOk = false → exec .stbySwitchBack s = s.after ((p.advance 10000000).stbySwitch false)) ∧
       (p.sys.pwr.refLoss = false →
         let q := ((p.setRg F.CLK_REF_LOSS 1).easelLog 6 0 0 0).modPwr (fun x => { x with refLoss := true })
         exec .refclkLoss s = s.after (if q.coreInSvc (q.socketThread / 2) then q.socketCheck tileD [6] else q))) ∧
     (p.sys.pwr.refLoss = false → exec .refclkReturn s = s.after p) ∧
     (p.sys.pwr.refLoss = true →
       let q := (List.range nCores).foldl (fun (r : Part) (c : Nat) => if r.coreHot c then r.setCoreFreq c r.hotF else r.clkCore c)
         (p.modPwr (fun x => { x with refLoss := false }))
       exec .refclkReturn s = s.after ((List.range nTiles).foldl (fun (r : Part) (t : Nat) => r.clkUnc t) q)) ∧
     exec .vrhotRelease s = s.after (p.modPins (fun x => { x with vrhot := false })) ∧
     (pins.vrhot = false → p.sys.boot ≠ .off → p.sys.pwr.refLoss = false →
       let q := (p.modPins (fun x => { x with vrhot := true })).setRg F.PWR_STAT_VRHOT 1
       exec .vrhotAssert s = s.after ((List.range nCores).foldl (fun (r : Part) (c : Nat) => r.setCoreFreq c r.hotF) q)) ∧
     (p.sys.boot ≠ .off → p.sys.boot ≠ .held → p.sys.pwr.refLoss = false →
       let q := (p.advance 50000).setRg F.PWR_PLSTAT_AVG (min 1023 avg)
       (q.sys.pins.vrhot = false → steps ≠ 0 → q.effLimit < power → exec (.cappingIteration power avg steps) s = s.after (q.capDown (min 4 steps))) ∧
       (q.sys.pins.vrhot = false → steps ≠ 0 → power ≤ q.effLimit → exec (.cappingIteration power avg steps) s = s.after (q.capUp (min 4 steps))) ∧
       (q.sys.pins.vrhot = true → exec (.cappingIteration power avg steps) s = s.after q)) ∧
     (p.sys.boot ≠ .off →
       let q := (List.range 4).foldl (fun (r : Part) (x : Nat) => if dieTemp readings x ≥ 105 ∧ ¬ r.sys.pwr.hot.contains x then r.dieHot x else r) (p.advance 50000)
       exec (.thermalSample readings) s = s.after ((List.range 4).foldl (fun (r : Part) (x : Nat) => if dieTemp readings x ≥ 125 then r.thermalTrip x else r) q)) ∧
     (p.sys.pwr.hot.contains d.val = true → exec (.thermalRecover d) s = s.after ((p.advance 1000000).modPwr (fun x => { x with hot := x.hot.erase d.val })))) ∧
  (∀ (s : State) (c : CoreId) (o : OffSt),
     let p := s.part
     let k := c.val
     let on (q : Part) : Part := (q.modPwr (fun x => { x with off := x.off.del k })).release k (o.r0, o.r1)
     (p.coreMode k = 1 → p.coreOff k = false → p.sys.pwr.entering.find? k = none → (p.thread (2 * k)).run = .waiting → (p.thread (2 * k + 1)).run = .waiting →
       exec (.coreIdleOff c) s = s.after ((p.used.advance (p.freshNat % (p.coreIdle k * 1000 + 1))).coreAim k (.off .idle))) ∧
     (p.coreMode k ≠ 1 → exec (.coreIdleOff c) s = s.after p) ∧
     (p.sys.pwr.off.find? k = some o →
       let q := p.used.advance (p.freshNat % 40001)
       (o.by_ = .idle → (p.wakes (2 * k) o.r0 || p.wakes (2 * k + 1) o.r1) = true → (on q).coreMode k ≠ 2 → exec (.coreWake c) s = s.after (on q)) ∧
       (o.by_ = .idle → (p.wakes (2 * k) o.r0 || p.wakes (2 * k + 1) o.r1) = false → exec (.coreWake c) s = s.after p) ∧
       (o.by_ = .forced → p.coreMode k = 2 → exec (.coreWake c) s = s.after p)))

/-- RSTIN_N and the start of boot (R340, R496, R497, R580): a fall of a millisecond is a cold reset, a shorter one is
logged; the rise starts boot, which PWRFAIL_N low holds up. Boot (R497, R498, R524): the primary image, then the
backup, then recovery; the boot checks take out what failed, the Palette is filled and the channels of a cold boot
train (R320); the boot core starts from the image. Model's choices: Pins and recovery: notes/assumptions/31.md,
notes/assumptions/56.md and notes/assumptions/57.md. -/
def Obligations.ResetAndBoot : Prop :=
  (∀ (s : State) (master : Bool),
     let p := s.part
     let q := p.modVarn (fun x => { x with rstHigh := false })
     (p.sys.pins.rstLow = false → p.sys.pins.stbyOk = true →
       exec (.rstinNFall false) s = s.after (q.easelLog 12 0 0 0) ∧
       exec (.rstinNFall true) s = s.after ((q.advance 1000000).modPins (fun x => { x with rstLow := true, thermtrip := false })).coldReset) ∧
     (p.sys.pins.rstLow = true →
       exec (.rstinNFall true) s = s.after p ∧
       (let r := p.modPins (fun x => { x with rstLow := false, master := master })
        (p.sys.pins.coldWaits = false → p.sys.pins.stbyOk = true → exec (.rstinNRise master) s = s.after r.rstRise) ∧
        (p.sys.pins.stbyOk = false → exec (.rstinNRise master) s = s.after r))) ∧
     (p.sys.boot = .held → p.sys.pins.pwrfailLow = false → exec .bootHoldRelease s = s.after ((p.advance 10000000).bootStart false)) ∧
     (p.sys.pins.pwrfailLow = true → exec .bootHoldRelease s = s.after p)) ∧
  (∀ (s : State) (primary backup : FlashRead) (i j : Image) (cores slices : List Nat),
     let p := s.part
     let fails (n : List Nat) (b : Bool) (r : Part) : Part := n.foldl (fun (x : Part) (y : Nat) => x.bootFail b y) r
     (p.sys.boot = .started → p.enumOver = true → p.lcs ≠ 4 →
       let a := p.imageFails (p.readCode primary) false false
       (p.readCode (.image i) = 0 → exec (.bootImageChecked (.image i) backup) s = s.after (p.imageTaken i false 0 false)) ∧
       (p.readCode primary ≠ 0 → a.readCode (.image j) = 0 →
         exec (.bootImageChecked primary (.image j)) s = s.after (a.imageTaken j true (p.readCode primary) false)) ∧
       (p.readCode primary ≠ 0 → a.readCode backup ≠ 0 → exec (.bootImageChecked primary backup) s =
         s.after ((((a.imageFails (a.readCode backup) true false).modSys (fun x => { x with boot := .recovery })).setRg F.EAS_BOOT_FAILP (p.readCode primary)).setRg
           F.EAS_BOOT_RECOVERY 1))) ∧
     (p.sys.boot = .recovery →
       (p.imageCode i = 0 → exec (.recoveryImage i) s = s.after (p.imageTaken i (p.rgOn F.EAS_BOOT_BACKUP) (p.rg F.EAS_BOOT_FAILP) true)) ∧
       (p.imageCode i ≠ 0 → exec (.recoveryImage i) s = s.after (p.imageFails (p.imageCode i) false true))) ∧
     (p.sys.boot = .verified →
       let a := fails slices true (fails cores false p)
       (a.sys.image = some i → a.populate.wantsFull i = false →
         let b := a.populate.applySections i
         let retired := i.sections.any (fun y => decide (y.kind = 5) && decide (y.target = 4))
         let c := if b.sys.warm then b else (List.range 16).foldl (fun (r : Part) (n : Nat) => r.trains n) b
         exec (.primerBootChecksDone cores slices) s =
           s.after (if retired then b.modSys (fun x => { x with boot := .stopped }) else c.modSys (fun x => { x with boot := .configured })))) ∧
     (∀ (r : Part) (n : Nat), r.trains n = if r.memTilePresent (n / 2) ∧ ¬ r.rgOn F.MC_STAT_TRAINED n ∧ ¬ (r.rg F.PWR_BOFF_OFF).testBit n
       then r.setRg F.MC_STAT_TRAINING 1 n else r) ∧
     (p.sys.boot = .configured → p.sys.image = some i →
       let a := (List.range 16).foldl (fun (r : Part) (c : Nat) => Part.refreshBoundary c r) p
       let b := if a.sys.warm then a else a.eccInit
       ∀ r : Part, b.destsOk i = true → b.copyFirmware (i.sections.filter (fun x => x.kind = 1)) = (r, true) →
         exec .bootCoreRelease s = s.after (r.bootCoreStart i)) ∧
     (p.sys.boot ≠ .configured → exec .bootCoreRelease s = s.after p))

/-- Error windows and actions (R515, R519): a window that ends clears its count; the first action whose unit is free
is taken. Model's choices: The end of a window: notes/assumptions/59.md. -/
def Obligations.ErrorWindows : Prop :=
  ∀ (s : State) (tile : TileId) (src : Fin 16) (e : Nat) (a : WaitAct),
    let p := s.part
    let t := tile.val
    ((p.rasOf t).win.find? src.val = some e → exec (.windowExpiry tile src) s =
      s.after ((({ p with time := max p.time e } : Part).modRas t (fun r => { r with win := r.win.del src.val })).setRg F.RAS_WCNT_COUNT 0 t src.val)) ∧
    ((p.rasOf t).win.find? src.val = none → exec (.windowExpiry tile src) s = s.after p) ∧
    ((p.rasOf t).acts.find? (fun a => !p.actBusy a) = some a →
      let q := p.modRas t (fun r => { r with acts := r.acts.erase a })
      (a.act = 1 → q.coreInSvc a.unit = true → ((q.coreOf a.unit).l2ret.length < 2 ∨ (q.coreOf a.unit).l2ret.contains a.detail = true) →
        exec (.escalationStart tile) s = s.after ((q.retireL2Way a.unit a.detail).actEnd t a.src a.unit true)) ∧
      (a.act = 1 → q.coreInSvc a.unit = true → 2 ≤ (q.coreOf a.unit).l2ret.length → (q.coreOf a.unit).l2ret.contains a.detail = false →
        exec (.escalationStart tile) s = s.after ((q.actEnd t a.src a.unit false).spareStart a.unit t 0xFF)) ∧
      (a.act = 2 → q.sliceInSvc a.unit = true → exec (.escalationStart tile) s =
        s.after ((q.retireSliceWay a.unit a.detail).actEnd t a.src a.unit (!decide (q.retiredWays a.unit ≥ 4)))) ∧
      (a.act = 3 → q.coreInSvc a.unit = true → exec (.escalationStart tile) s = s.after (q.spareStart a.unit t a.src)) ∧
      (a.act = 4 → q.sliceInSvc a.unit = true → exec (.escalationStart tile) s = s.after ((q.sliceOut a.unit).actEnd t a.src a.unit true)) ∧
      (a.act = 5 → exec (.escalationStart tile) s = s.after ((q.downshift a.unit a.detail).1.actEnd t a.src a.unit (q.downshift a.unit a.detail).2))) ∧
    ((p.rasOf t).acts.find? (fun a => !p.actBusy a) = none → exec (.escalationStart tile) s = s.after p)

/-- Field tests (R526 to R528): a round takes the units in turn; a core that passes goes on as it was, one that fails
is replaced or loses a way of its L2; a slice that fails loses the ways; a way that a test retires has its record in
the tile's log too (R241). Audits, voted registers, snapshots and bandwidth windows (R535, R548, R561, R562). Model's
choices: Codes of failures: notes/assumptions/49.md; the count of an audit: notes/assumptions/48.md. -/
def Obligations.FieldTestsAndAudits : Prop :=
  (∀ (s : State) (c : CoreId) (k : SliceId) (bad : BitVec 16) (t : UnitTest) (w : Nat),
     let p := s.part
     let units := p.roundUnits
     (p.sys.boot = .released → p.lcs ≠ 4 → p.rgOn F.PRM_FCFG_HOLD = false → p.rgOn F.PRM_CMDSTAT_BUSY = false → units ≠ [] →
       let a : Part := { p with time := max p.time p.sys.prm.nextTest }
       let gap := max 1 (a.rg F.PRM_FCFG_PERIOD) * 3600000000000 / units.length
       let b := a.modPrm (fun x => { x with nextTest := a.time + gap, round := (if units.all (fun u => x.round.contains u) then [] else x.round) })
       let left := units.filter (fun u => !b.sys.prm.round.contains u)
       let skip (u : Nat) : Bool := decide (u < 1000) && b.coreSkipped u
       let d := b.modPrm (fun x => { x with round := x.round ++ left.takeWhile skip })
       ∀ (u : Nat) (rest : List Nat), left.dropWhile skip = u :: rest →
         let e := d.modPrm (fun x => { x with round := x.round ++ [u] })
         exec .fieldTestStart s = s.after (if u < 1000 then e.testStart false u false else e.testStart true (u - 1000) false)) ∧
     (p.rgOn F.PRM_FCFG_HOLD = true → exec .fieldTestStart s = s.after p) ∧
     (p.sys.prm.test = some t → t.full = false →
       let q := p.used.advance (p.freshNat % 10000001)
       (t.slice = false → t.target = c.val → p.sys.pwr.entering.find? c.val = none →
         exec (.coreTestDone c .pass) s = s.after ((q.release c.val (t.r0, t.r1)).testEnd t false 0) ∧
         (∀ r : Part, q.spareCore c.val t.r0 t.r1 = (r, true) → exec (.coreTestDone c .fail) s = s.after (r.testEnd t true 5)) ∧
         (∀ r : Part, q.spareCore c.val t.r0 t.r1 = (r, false) → exec (.coreTestDone c .fail) s = s.after ((r.release c.val (t.r0, t.r1)).testEnd t true 7)) ∧
         ((q.coreOf c.val).l2ret.length < 2 → exec (.coreTestDone c (.way w)) s =
           s.after ((((q.retireL2Way c.val (w % 8)).rasLog (tileOfCore c.val) 0xFF 5 0 0xFF 0 (.named [16, c.val, w % 8])).release c.val
             (t.r0, t.r1)).testEnd t true 5))) ∧
       (t.slice = true → t.target = k.val → t.grpOff = 0 → t.grpOn = 0 →
         let a := (q.sweepLines k.val (fun _ => true) true).modPrm (fun x => { x with test := none })
         let b := (List.range 16).foldl (fun (r : Part) (y : Nat) => if bad.getLsbD y then r.retireSliceWay k.val y else r) a
         exec (.sliceTestDone k bad) s = s.after (b.testEnd t (decide (bad ≠ 0)) (if bad = 0 then 0 else 5)))) ∧
     (p.sys.prm.test = none → exec (.coreTestDone c .pass) s = s.after p ∧ exec (.sliceTestDone k bad) s = s.after p)) ∧
  (∀ (s : State) (tile : TileId) (page : BitVec 12) (word : BitVec 10) (copy : Fin 3) (diff : BitVec 32) (b : BitVec 4) (n bytes w tm : Nat) (sn : Snap),
     let p := s.part
     -- an audit that finds every ledger right, and one that cannot run in time
     (p.sys.prm.audit = some tm → p.net = [] →
       let q := (p.fabUntil (fun _ => false) 4096).advance 10000
       q.audit.filter (fun c => !c.ok) = [] → exec .auditQuiescent s =
         s.after ((((q.setRg F.PRM_AUDIT_CHECKED q.audit.length).setRg F.PRM_AUDIT_MISMATCH 0).modPrm (fun y => { y with audit := none })).prmEnd 0 tm)) ∧
     (p.sys.prm.audit = some tm → p.net ≠ [] → exec .auditQuiescent s = s.after p) ∧
     (p.sys.prm.audit = some tm → exec .auditTimeout s =
       s.after ((({ p with time := max p.time (tm + 10000000) } : Part).modPrm (fun y => { y with audit := none })).prmEnd 6 tm)) ∧
     -- a copy of a voted register that differs
     ((votedAt ⟨tile.val, page.toNat⟩ word.toNat).any (fun f => diff.toNat / 2 ^ f.lo % 2 ^ f.width ≠ 0) = true →
       let bit := ((List.range 32).find? (fun i => diff.getLsbD i)).getD 0
       exec (.voteScrub tile page word copy diff) s = s.after ((((p.incWrap F.PERF_VOTECNT_COUNT 1 tile.val).1.takes tile.val 0
         [(F.PERF_VOTELAST_VALID, 1), (F.PERF_VOTELAST_COPY, copy.val), (F.PERF_VOTELAST_PAGE, page.toNat), (F.PERF_VOTELAST_WORD, word.toNat),
          (F.PERF_VOTELAST_BIT, bit)]).rasLog tile.val 0xFF 1 1 0xFF 0 .unstated))) ∧
     ((votedAt ⟨tile.val, page.toNat⟩ word.toNat).any (fun f => diff.toNat / 2 ^ f.lo % 2 ^ f.width ≠ 0) = false →
       exec (.voteScrub tile page word copy diff) s = s.after p) ∧
     -- snapshots
     (p.snapPeriod = some n → exec .snapshotDue s = s.after ((({ p with time := max p.time p.sys.gperf.nextSnap } : Part).modGperf (fun y =>
       { y with nextSnap := max p.time p.sys.gperf.nextSnap + n })).snapDue)) ∧
     (p.snapPeriod = none → exec .snapshotDue s = s.after p) ∧
     (p.sys.gperf.snap = some sn →
       let base := p.addrOf F.PERF_SNAPB_LO_PA F.PERF_SNAPB_HI_PA + sn.seq % 2 ^ min 10 (p.rg F.PERF_SNAPB_LO_SIZE) * 0x8000
       (∀ q : Part, p.snapLines sn base (List.range 433) = (q, true) → exec .snapshotDone s =
         s.after ((((q.modGperf (fun g => { g with snap := none })).setRg F.PERF_GSTAT_SNAPBUSY 0).setRg F.PERF_SNAPSEQ_SEQ sn.seq).signalReg tileD 4 F.PERF_SNAPIRQ_EN
           F.PERF_SNAPIRQ_SOCKET F.PERF_SNAPIRQ_CORE F.PERF_SNAPIRQ_THREAD F.PERF_SNAPIRQ_VEC))) ∧
     -- the first of the windows that end gives its bytes to the peak, unless it began before the selection, and the last its bytes and
     -- its rate; an idle one gives zero
     (∀ written : Bool, p.rgOn F.PERF_BWSEL_EN 0 b.toNat = true → p.sys.gperf.bw.find? b.toNat = some (w, bytes, written) → p.time / p.bwLen b.toNat = w →
       let q := ({ p with time := (w + 1 + n) * p.bwLen b.toNat } : Part).modGperf (fun y => { y with bw := y.bw.put b.toNat (w + 1 + n, 0, false) })
       let e := min 20 (p.rg F.PERF_BWSEL_WEXP 0 b.toNat)
       let first := if written then 0 else bytes
       let last := if n = 0 then first else 0
       let r := q.takes 0 b.toNat [(F.PERF_BWBYTES_LO_BYTES, last), (F.PERF_BWBYTES_HI_BYTES, last / 2 ^ 32), (F.PERF_BWRATE_MBS, last / 2 ^ e)]
       (written = true → n = 0 → exec (.bwWindowEnd b n) s = s.after q) ∧
       (written = false ∨ n ≠ 0 → exec (.bwWindowEnd b n) s = s.after ((if r.rg F.PERF_BWPEAK_MBS 0 b.toNat < first / 2 ^ e
         then r.setRg F.PERF_BWPEAK_MBS (first / 2 ^ e) 0 b.toNat else r).incWrap F.PERF_BWWIN_COUNT (if written then n else n + 1) 0 b.toNat).1)) ∧
     (p.rgOn F.PERF_BWSEL_EN 0 b.toNat = false → exec (.bwWindowEnd b n) s = s.after p))

/-- A step takes the command at the front of the queue and is exec of it with the queue's rest; on an empty queue the
block idles (the model's choice, notes/assumptions/1.md). -/
def Obligations.StepTakesFrontCommand : Prop :=
  (∀ (c : Instr) (s : State), step { s with pending := c :: s.pending } = exec c s) ∧
  (∀ s : State, s.pending = [] → step s = .next s)

/-- Every command answers a next state and leaves the queue as it found it: no command of the table stops the block.
-/
def Obligations.EveryCommandAnswersNext : Prop :=
  ∀ (c : Instr) (s : State), ∃ p : Part, exec c s = .next { s with part := p }

/-- No step leaves the boot core halted in a socket that runs: the warm reset of R496 is part of the step. Model's
choices: That the reset is part of the same step is the model's reading, notes/assumptions/27.md. -/
def Obligations.HaltedBootCoreIsReset : Prop :=
  ∀ s t : State, s.part.bootCoreLives → step s = .next t → t.part.bootCoreLives

/-- The state after reset meets the invariant, lists no memory, and holds every thread in reset. Model's choices:
Values that no rule gives: notes/assumptions/6.md. -/
def Obligations.ResetState : Prop :=
  State.reset.part.bootCoreLives ∧ State.reset.memWf = true ∧ State.reset.queueWf = true ∧ State.reset.pending = [] ∧
  State.reset.part.sys.boot = .off ∧
  (∀ t : Nat, (State.reset.part.thread t).run = .inReset ∧ (State.reset.part.thread t).level = .f ∧
    (State.reset.part.thread t).vm = false ∧ (∀ i : BitVec 5, (State.reset.part.thread t).gr i = 0) ∧
    (∀ i : BitVec 5, (State.reset.part.thread t).vr i = 0) ∧
    (∀ i : BitVec 3, (State.reset.part.thread t).cr i = decide (i = 0)) ∧
    (∀ i : BitVec 3, i ≠ 0 → (State.reset.part.thread t).mr i = 0) ∧
    (∀ n : Fin 2, (State.reset.part.thread t).lact n.val = false)) ∧
  (∀ (f : Fld) (u i : Nat), State.reset.part.rg f u i = f.resetVal u i)

/-- g0, c0 and m0 (R32): writes are discarded, reads return zero, true and all ones; every other register keeps what
was written, and no write reaches another register. -/
def Obligations.ConstantRegisters : Prop :=
  ∀ (th : Thr) (g : BitVec 5) (c m : BitVec 3) (x y : Dword) (b : Bool),
    th.setG 0 x = th ∧ th.setC 0 b = th ∧ th.setM 0 y = th ∧ th.gr 0 = 0 ∧ th.cr 0 = true ∧ th.mr 0 = BitVec.allOnes 64 ∧
    (∀ h : BitVec 5, (th.setG g x).gr h = if h = 0 then 0 else if h = g then x else th.gr h) ∧
    (∀ d : BitVec 3, (th.setC c b).cr d = if d = 0 then true else if d = c then b else th.cr d) ∧
    (∀ n : BitVec 3, (th.setM m y).mr n = if n = 0 then BitVec.allOnes 64 else if n = m then y else th.mr n)

/-- What an instruction leaves unchanged when it writes registers of its own thread and retires: every byte of memory
and its poison, the caches, the queues, the channels and the units, every other thread and every other core, and on
its own thread every system register but the loop counters and LACT; among the control registers only the tile
counters (R555) and the Plumb overrun record (R182) may change. -/
def Obligations.RetiringFrame : Prop :=
  ∀ (q : Part) (t cost : Nat) (f : Thr → Thr),
    let r := (q.modThread t f).retires t cost
    (∀ k, Memory.get r.mem k = Memory.get q.mem k) ∧ r.pois = q.pois ∧ r.slice = q.slice ∧ r.chan = q.chan ∧
    r.mt = q.mt ∧ r.ras = q.ras ∧ r.elog = q.elog ∧ r.pci = q.pci ∧ r.pkt = q.pkt ∧ r.key = q.key ∧ r.ven = q.ven ∧
    r.held = q.held ∧ (∀ u, u ≠ t → r.thread u = q.thread u) ∧
    (∀ c, c ≠ t / 2 → r.coreOf c = q.coreOf c) ∧
    (∀ c, (r.coreOf c).l1d = (q.coreOf c).l1d ∧ (r.coreOf c).l2 = (q.coreOf c).l2 ∧ (r.coreOf c).mb = (q.coreOf c).mb ∧
      (r.coreOf c).tlb = (q.coreOf c).tlb ∧ (r.coreOf c).btb = (q.coreOf c).btb) ∧
    (∀ i, (r.thread t).gr i = (f (q.thread t)).gr i) ∧ (∀ i, (r.thread t).cr i = (f (q.thread t)).cr i) ∧
    (∀ i, (r.thread t).vr i = (f (q.thread t)).vr i) ∧ (∀ i, (r.thread t).mr i = (f (q.thread t)).mr i) ∧
    (r.thread t).level = (f (q.thread t)).level ∧ (r.thread t).vm = (f (q.thread t)).vm ∧
    (∀ n, n ≠ srLC 0 → n ≠ srLC 1 → n ≠ srLACT → (r.thread t).sys n = (f (q.thread t)).sys n) ∧
    (∀ k, (∀ tile, inPage ⟨tile, 0x004⟩ k = false) →
      (∀ g ∈ [F.CORE_PLUMB_OVR_OVR, F.CORE_PLUMB_OVR_COUNT, F.CORE_PLUMB_OVR_MAXEX], k ≠ g.key (t / 2) 0) →
      r.ctl.find? k = q.ctl.find? k)

/-- A fetch at level F or H, from a line that the core's L2 holds, raises nothing and changes nothing but the order of
use of the two caches and what a loop buffer has captured (R172, R187, R218, R227): what the other statements assume
of a thread is met whenever its code is held. Model's choices: The word is the command's operand:
notes/assumptions/20.md. -/
def Obligations.HeldLineFetch : Prop :=
  ∀ (p : Part) (t : Nat) (x : L2Line),
    ((p.thread t).level = .f ∨ (p.thread t).level = .h) → (p.thread t).pc.toNat % 4 = 0 →
    (p.thread t).pc.toNat < 2 ^ 52 → regionType (p.thread t).pc.toNat = .cacheable → p.plumb (t / 2) = false →
    p.fromLoopBuf t = false → (p.thread t).dev = [] → p.l2Get (t / 2) ((p.thread t).pc.toNat / 64) = some x →
    x.line.poisoned ((p.thread t).pc.toNat % 64) 4 = false →
    let line := (p.thread t).pc.toNat / 64
    p.fetch t = .ok (((p.l2Touch (t / 2) line).modCore (t / 2) (fun s => s.l1iUse line)).capture t line)

/-- DRAM bytes: a byte written reads back and no write reaches another byte; a line written reads back as the old line
with the bytes of the mask replaced; and two memories in canonical form that read alike are equal. Model's choices:
The value of a byte never written: notes/assumptions/3.md. -/
def Obligations.MemoryLaws : Prop :=
  (∀ (m : List (Nat × Byte)) (k j : Nat) (b : Byte), Memory.get (Memory.put m k b) j = if j = k then b else Memory.get m j) ∧
  (∀ (m : List (Nat × Byte)) (k j : Nat) (d : Vec) (mask : Dword),
    Memory.get (Memory.putLine m k d mask) j =
      if k ≤ j ∧ j < k + 64 ∧ mask.getLsbD (j - k) = true then vecByte d (j - k) else Memory.get m j) ∧
  (∀ (m : List (Nat × Byte)) (k : Nat) (d : Vec) (mask : Dword),
    Memory.line (Memory.putLine m k d mask) k = mergeVec (Memory.line m k) d mask) ∧
  (∀ (m n : List (Nat × Byte)), Memory.wf m = true → Memory.wf n = true → (∀ k, Memory.get m k = Memory.get n k) → m = n)

/-- A read of a channel returns every byte that an earlier accepted write of the line wrote (R325), an MWR
(`chanWrite`) or an MPWT (`pwbAccept`), wherever the write waits. A write just accepted replaces exactly the bytes of
its mask in its own line; an MWR for a line of the persistent write buffer merges into that entry; and an entry that
leaves the write queue or the persistent write buffer for DRAM changes no line that a read returns, so that an older
write never overwrites a newer one. -/
def Obligations.ChannelReturnsWrites : Prop :=
  ∀ (p : Part) (c d ca i : Nat) (e : WqEnt), p.wqAligned → ca % 64 = 0 → ca < 2 ^ 44 → e.ca % 64 = 0 → e.ca < 2 ^ 44 →
    (p.wqDrain c).chanRead d ca = p.chanRead d ca ∧ (p.pwbDrain i).chanRead d ca = p.chanRead d ca ∧
    ((p.chanWrite c e).chanRead c e.ca).data = mergeVec (p.chanRead c e.ca).data e.data e.mask ∧
    (d ≠ c ∨ ca ≠ e.ca → (p.chanWrite c e).chanRead d ca = p.chanRead d ca) ∧
    ((p.mtOf (c / 2)).pwb.any (fun x => decide (x.1 = c ∧ x.2.ca = e.ca)) = true →
      ((p.chanWrite c e).mtOf (c / 2)).pwb =
        (p.mtOf (c / 2)).pwb.map (fun x => if x.1 = c ∧ x.2.ca = e.ca then (c, x.2.merge e) else x) ∧
      ((p.chanWrite c e).chanOf c).wq = (p.chanOf c).wq) ∧
    (∀ q r : Part, (p.chanOf c).off = false → p.pwbAccept c e = (some q, r) →
      (q.chanRead c e.ca).data = mergeVec (p.chanRead c e.ca).data e.data e.mask ∧
      (d ≠ c ∨ ca ≠ e.ca → q.chanRead d ca = p.chanRead d ca))

/-- The interleave decode of R321 is one to one: two addresses of one valid range never share a byte of a channel. -/
def Obligations.InterleaveOneToOne : Prop :=
  ∀ (g : Ilv) (a b : Nat), 0 < g.targets → g.base * 2 ^ 30 ≤ a → g.base * 2 ^ 30 ≤ b → g.decode a = g.decode b → a = b

/-- VINT (R113), VCMP (R119) and MOP (R121, R112), once the word is fetched: an operation of the tables retires, with
the cost of R182, from the part in which its destination took the result; any other encoding raises ILLEGAL. Nothing
else can happen. -/
def Obligations.VectorMaskInstructionsEnd : Prop :=
  ∀ (s : State) (q : Part) (t : ThreadId) (rd ra rb : BitVec 5) (fn : BitVec 11) (cd mk et z : BitVec 3) (cc : BitVec 4),
    s.part.fetched t.val q →
    let illegal : Part := q.raise t.val cIllegal 0 none false
    let small (r : BitVec 5) : Prop := r.toNat < 8
    let op := fn.toNat % 32
    let mop := fn.toNat % 16
    exec (.vint t rd ra rb fn) s = .next { s with part := (if op < 20 ∨ (op = 20 ∧ rb = 0) then
        (q.modThread t.val (fun th => th.setV rd (maskLanes (2 ^ (fn.toNat / 32 % 4)) (th.mr (BitVec.ofNat 3 (fn.toNat / 128))) (fn.getLsbD 10)
          (th.vr rd) (fun j => (vintOp op (8 * 2 ^ (fn.toNat / 32 % 4)) (lane (th.vr ra) (2 ^ (fn.toNat / 32 % 4)) j)
            (lane (th.vr rb) (2 ^ (fn.toNat / 32 % 4)) j)).getD 0)))).retires t.val (if 6 ≤ op ∧ op ≤ 8 then 4 else 1)
      else illegal).settle } ∧
    (∃ f : Thr → Thr, (∀ th, (f th).g = th.g ∧ (f th).v = th.v ∧ (f th).c = th.c ∧ (f th).pc = th.pc) ∧
      exec (.vcmp t cd cc ra rb et mk z) s = .next { s with part := (if z = 0 ∧ (if et.toNat < 4 then cc.toNat < 12
          else cc.toNat < 4 ∨ cc = 6 ∨ cc = 7 ∨ cc = 12 ∨ cc = 13) then (q.modThread t.val f).retires t.val 2 else illegal).settle }) ∧
    (∃ f : Thr → Thr, (∀ th, (f th).v = th.v ∧ (f th).sr = th.sr ∧ (f th).pc = th.pc) ∧
      exec (.mop t rd ra rb fn) s = .next { s with part := (if fn.toNat < 64 ∧ mop ≤ 13 ∧ (10 ≤ mop ∨ fn.toNat < 16) ∧
          (mop ≤ 8 ∨ 12 ≤ mop → small rd) ∧ (mop ≠ 8 → small ra) ∧ (if mop ≤ 7 then small rb else rb = 0)
        then (q.modThread t.val f).retires t.val (if 9 ≤ mop ∧ mop ≤ 11 then 2 else 1) else illegal).settle })

/-- Routes of the torus (R248, R249): the packet goes along x until its column is right and then along y, no way round
the shorter half of a ring is longer than six links, each router's output leads to a neighbour one link closer to the
destination, and only the destination's router delivers; a packet is on the upper VC of its class exactly from the
dateline of a ring to the end of that ring. The shared-resource arbiter (R258, R259): a round in which a requester
asks grants one that asks and has the highest priority; and a requester of base priority B among n that keeps asking
is granted after at most (15 − B) + (n − 1) lost rounds, whatever the others ask. -/
def Obligations.TorusRoutesAndArbiters : Prop :=
  (let gap (a b : Nat) : Nat := min ((a + 12 - b) % 12) ((b + 12 - a) % 12)
   let left (a b : Nat) : Nat := gap (a % 12) (b % 12) + gap (a / 12) (b / 12)
   ∀ (src dst cur inp : Nat) (up : Bool), src < 144 → dst < 144 → cur < 144 →
     let o := torusOut src dst cur
     (o = 4 ↔ cur = dst) ∧ o ≤ 4 ∧ torusNext cur o < 144 ∧
     (cur ≠ dst → left (torusNext cur o) dst + 1 = left cur dst) ∧
     (cur % 12 ≠ dst % 12 → o < 2 ∧ torusNext cur o / 12 = cur / 12) ∧
     (cur % 12 = dst % 12 → cur ≠ dst → (o = 2 ∨ o = 3) ∧ torusNext cur o % 12 = cur % 12) ∧
     ((dst % 12 + 12 - cur % 12) % 12 = 6 → (o = 0 ↔ src % 12 % 2 = 0)) ∧
     (cur % 12 = dst % 12 → (dst / 12 + 12 - cur / 12) % 12 = 6 → (o = 2 ↔ src / 12 % 2 = 0)) ∧
     (o < 4 → (torusUp cur inp o up = true ↔ torusWraps cur o = true ∨ up = true ∧ inp < 4 ∧ inp / 2 = o / 2))) ∧
  (∀ (base : List Nat) (prio : Nat → List Nat) (ptr won : Nat → Nat) (req : Nat → List Nat) (i : Nat),
     i < base.length → (prio 0).length = base.length → (∀ j, base.getD j 0 ≤ 15 ∧ (prio 0).getD j 0 ≤ 15) → base.getD i 0 ≤ (prio 0).getD i 0 →
     (∀ k, i ∈ req k) →
     (∀ k, arbitrate (prio k) base (ptr k) (req k) = some (won k, prio (k + 1), ptr (k + 1))) →
     (∀ k, won k ∈ req k ∧ won k < base.length ∧ ∀ j ∈ req k, (prio k).getD j 0 ≤ (prio k).getD (won k) 0) ∧
     (∀ m, ∃ k, k ≤ (15 - base.getD i 0) + (base.length - 1) ∧ won (m + k) = i))

end
end

