-- ==== Sys2Proof/Laws/Tab.lean ====
section
/-!
SUPPORT. The laws of sparse tables: a read after a write, and the rising-key form.
-/
namespace Sys2Proof.Machine.Tab
variable {α : Type}

theorem find_del_self (t : Tab α) (k : Nat) : find? (del t k) k = none := by
  induction t with
  | nil => rfl
  | cons p t ih =>
    obtain ⟨j, v⟩ := p
    by_cases h : j = k
    · simpa [del, h] using ih
    · simpa [del, find?, h] using ih

theorem find_del_other (t : Tab α) {k j : Nat} (h : j ≠ k) : find? (del t k) j = find? t j := by
  induction t with
  | nil => rfl
  | cons p t ih =>
    obtain ⟨i, v⟩ := p
    by_cases hi : i = k
    · subst hi
      simp only [del, List.filter, ne_eq, not_true_eq_false, decide_false, find?, Ne.symm h, if_false]
      exact ih
    · by_cases hj : i = j
      · subst hj; simp [del, find?, hi]
      · simp only [del, List.filter, ne_eq, hi, not_false_eq_true, decide_true, find?, hj, if_false]
        exact ih

theorem find_ins_self (t : Tab α) (k : Nat) (v : α) (h : find? t k = none) :
    find? (ins k v t) k = some v := by
  induction t with
  | nil => simp [ins, find?]
  | cons p t ih =>
    obtain ⟨j, w⟩ := p
    by_cases hj : j = k
    · simp [find?, hj] at h
    · simp only [find?, hj, if_false] at h
      by_cases hlt : k < j
      · simp [ins, hlt, find?]
      · simp [ins, hlt, find?, hj, ih h]

theorem find_ins_other (t : Tab α) {k j : Nat} (v : α) (h : j ≠ k) :
    find? (ins k v t) j = find? t j := by
  induction t with
  | nil => simp [ins, find?, Ne.symm h]
  | cons p t ih =>
    obtain ⟨i, w⟩ := p
    by_cases hlt : k < i
    · simp [ins, hlt, find?, Ne.symm h]
    · simp [ins, hlt, find?, ih]

/-- A key just written reads as the value written. -/
@[simp] theorem get_put_self (d : α) (t : Tab α) (k : Nat) (v : α) : get d (put t k v) k = v := by
  simp [get, put, find_ins_self _ _ _ (find_del_self t k)]

/-- A write leaves every other key alone. -/
@[simp] theorem get_put_other (d : α) (t : Tab α) {k j : Nat} (v : α) (h : j ≠ k) :
    get d (put t k v) j = get d t j := by
  simp [get, put, find_ins_other _ _ h, find_del_other _ h]

/-- Both cases of a read after a write. -/
theorem get_put (d : α) (t : Tab α) (k j : Nat) (v : α) :
    get d (put t k v) j = if j = k then v else get d t j := by
  by_cases h : j = k
  · subst h; simp
  · simp [h]

@[simp] theorem get_nil (d : α) (k : Nat) : get d ([] : Tab α) k = d := rfl

/-- An unlisted key reads as the default. -/
@[simp] theorem get_del_self (d : α) (t : Tab α) (k : Nat) : get d (del t k) k = d := by
  simp [get, find_del_self]

@[simp] theorem get_del_other (d : α) (t : Tab α) {k j : Nat} (h : j ≠ k) :
    get d (del t k) j = get d t j := by
  simp [get, find_del_other _ h]

@[simp] theorem get_upd_self (d : α) (t : Tab α) (k : Nat) (f : α → α) :
    get d (upd d t k f) k = f (get d t k) := by
  simp [upd]

@[simp] theorem get_upd_other (d : α) (t : Tab α) {k j : Nat} (f : α → α) (h : j ≠ k) :
    get d (upd d t k f) j = get d t j := by
  simp [upd, h]

/-- The rising-key form says that the keys form a strictly rising chain. -/
theorem sorted_iff (t : Tab α) : sorted t = true ↔ (t.map Prod.fst).Pairwise (· < ·) := by
  induction t with
  | nil => simp [sorted]
  | cons p t ih =>
    obtain ⟨j, v⟩ := p
    cases t with
    | nil => simp [sorted]
    | cons q t =>
      obtain ⟨k, w⟩ := q
      simp only [sorted, Bool.and_eq_true, decide_eq_true_eq, ih, List.map_cons,
        List.pairwise_cons, List.mem_cons]
      constructor
      · rintro ⟨h, h1, h2⟩
        refine ⟨fun a ha => ?_, h1, h2⟩
        rcases ha with rfl | ha
        · exact h
        · exact Nat.lt_trans h (h1 a ha)
      · rintro ⟨h, h1, h2⟩
        exact ⟨h k (Or.inl rfl), h1, h2⟩

theorem sorted_del (t : Tab α) (k : Nat) (h : sorted t = true) : sorted (del t k) = true := by
  rw [sorted_iff] at h ⊢
  exact h.sublist ((List.filter_sublist).map _)

theorem mem_ins_fst (t : Tab α) (k : Nat) (v : α) (a : Nat) :
    a ∈ (ins k v t).map Prod.fst ↔ a = k ∨ a ∈ t.map Prod.fst := by
  induction t with
  | nil => simp [ins]
  | cons p t ih =>
    obtain ⟨j, w⟩ := p
    by_cases hlt : k < j
    · simp [ins, hlt]
    · simp only [ins, hlt, if_false, List.map_cons, List.mem_cons, ih]
      constructor <;> (intro hh; rcases hh with h1 | h1 | h1 <;> simp [h1])

theorem sorted_ins (t : Tab α) (k : Nat) (v : α) (h : sorted t = true) (hk : k ∉ t.map Prod.fst) :
    sorted (ins k v t) = true := by
  induction t with
  | nil => rfl
  | cons p t ih =>
    obtain ⟨j, w⟩ := p
    rw [sorted_iff] at h ⊢
    simp only [List.map_cons, List.mem_cons, not_or] at hk
    simp only [List.map_cons, List.pairwise_cons] at h
    by_cases hlt : k < j
    · simp only [ins, hlt, if_true, List.map_cons, List.pairwise_cons, List.mem_cons]
      refine ⟨fun a ha => ?_, h.1, h.2⟩
      rcases ha with rfl | ha
      · exact hlt
      · exact Nat.lt_trans hlt (h.1 a ha)
    · simp only [ins, hlt, if_false, List.map_cons, List.pairwise_cons]
      refine ⟨fun a ha => ?_, ?_⟩
      · rcases (mem_ins_fst t k v a).1 ha with rfl | ha
        · omega
        · exact h.1 a ha
      · exact (sorted_iff _).1 (ih ((sorted_iff t).2 h.2) hk.2)

theorem not_mem_del (t : Tab α) (k : Nat) : k ∉ (del t k).map Prod.fst := by
  simp [del]

/-- Writing keeps the rising-key form. -/
theorem sorted_put (t : Tab α) (k : Nat) (v : α) (h : sorted t = true) :
    sorted (put t k v) = true :=
  sorted_ins _ _ _ (sorted_del t k h) (not_mem_del t k)

theorem sorted_upd (d : α) (t : Tab α) (k : Nat) (f : α → α) (h : sorted t = true) :
    sorted (upd d t k f) = true :=
  sorted_put _ _ _ h

end Sys2Proof.Machine.Tab
end

