-- ==== Sys2Proof/Laws/State.lean ====
section
/-!
SUPPORT. One lemma for each field of the part under each update of it: the field that the update is for takes the new value, and
every other field and every reader of it is as it was. With them no proof unfolds a record update.
-/
namespace Sys2Proof.Machine
variable (p : Part)

/-! ### used -/
@[simp] theorem Part.used_free : (p.used).free = p.free + 1 := rfl
@[simp] theorem Part.used_seq : (p.used).seq = p.seq := rfl
@[simp] theorem Part.used_time : (p.used).time = p.time := rfl
@[simp] theorem Part.used_ctl : (p.used).ctl = p.ctl := rfl
@[simp] theorem Part.used_held : (p.used).held = p.held := rfl
@[simp] theorem Part.used_thr : (p.used).thr = p.thr := rfl
@[simp] theorem Part.used_ic : (p.used).ic = p.ic := rfl
@[simp] theorem Part.used_core : (p.used).core = p.core := rfl
@[simp] theorem Part.used_slice : (p.used).slice = p.slice := rfl
@[simp] theorem Part.used_net : (p.used).net = p.net := rfl
@[simp] theorem Part.used_fab : (p.used).fab = p.fab := rfl
@[simp] theorem Part.used_mem : (p.used).mem = p.mem := rfl
@[simp] theorem Part.used_pois : (p.used).pois = p.pois := rfl
@[simp] theorem Part.used_chan : (p.used).chan = p.chan := rfl
@[simp] theorem Part.used_mt : (p.used).mt = p.mt := rfl
@[simp] theorem Part.used_ras : (p.used).ras = p.ras := rfl
@[simp] theorem Part.used_elog : (p.used).elog = p.elog := rfl
@[simp] theorem Part.used_pci : (p.used).pci = p.pci := rfl
@[simp] theorem Part.used_pkt : (p.used).pkt = p.pkt := rfl
@[simp] theorem Part.used_key : (p.used).key = p.key := rfl
@[simp] theorem Part.used_ven : (p.used).ven = p.ven := rfl
@[simp] theorem Part.used_sys : (p.used).sys = p.sys := rfl
@[simp] theorem Part.used_rg (g : Fld) (x y : Nat) : (p.used).rg g x y = p.rg g x y := rfl
@[simp] theorem Part.used_thread (x : Nat) : (p.used).thread x = p.thread x := rfl
@[simp] theorem Part.used_icOf (x : Nat) : (p.used).icOf x = p.icOf x := rfl
@[simp] theorem Part.used_coreOf (x : Nat) : (p.used).coreOf x = p.coreOf x := rfl
@[simp] theorem Part.used_sliceOf (x : Nat) : (p.used).sliceOf x = p.sliceOf x := rfl
@[simp] theorem Part.used_chanOf (x : Nat) : (p.used).chanOf x = p.chanOf x := rfl
@[simp] theorem Part.used_mtOf (x : Nat) : (p.used).mtOf x = p.mtOf x := rfl
@[simp] theorem Part.used_rasOf (x : Nat) : (p.used).rasOf x = p.rasOf x := rfl
@[simp] theorem Part.used_tileFab (x : Nat) : (p.used).tileFab x = p.tileFab x := rfl

/-! ### setRg -/
@[simp] theorem Part.setRg_ctl (f : Fld) (v u i : Nat) : (p.setRg f v u i).ctl = p.ctl.put (f.key u i) (v % 2 ^ f.width) := rfl
@[simp] theorem Part.setRg_free (f : Fld) (v u i : Nat) : (p.setRg f v u i).free = p.free := rfl
@[simp] theorem Part.setRg_seq (f : Fld) (v u i : Nat) : (p.setRg f v u i).seq = p.seq := rfl
@[simp] theorem Part.setRg_time (f : Fld) (v u i : Nat) : (p.setRg f v u i).time = p.time := rfl
@[simp] theorem Part.setRg_held (f : Fld) (v u i : Nat) : (p.setRg f v u i).held = p.held := rfl
@[simp] theorem Part.setRg_thr (f : Fld) (v u i : Nat) : (p.setRg f v u i).thr = p.thr := rfl
@[simp] theorem Part.setRg_ic (f : Fld) (v u i : Nat) : (p.setRg f v u i).ic = p.ic := rfl
@[simp] theorem Part.setRg_core (f : Fld) (v u i : Nat) : (p.setRg f v u i).core = p.core := rfl
@[simp] theorem Part.setRg_slice (f : Fld) (v u i : Nat) : (p.setRg f v u i).slice = p.slice := rfl
@[simp] theorem Part.setRg_net (f : Fld) (v u i : Nat) : (p.setRg f v u i).net = p.net := rfl
@[simp] theorem Part.setRg_fab (f : Fld) (v u i : Nat) : (p.setRg f v u i).fab = p.fab := rfl
@[simp] theorem Part.setRg_mem (f : Fld) (v u i : Nat) : (p.setRg f v u i).mem = p.mem := rfl
@[simp] theorem Part.setRg_pois (f : Fld) (v u i : Nat) : (p.setRg f v u i).pois = p.pois := rfl
@[simp] theorem Part.setRg_chan (f : Fld) (v u i : Nat) : (p.setRg f v u i).chan = p.chan := rfl
@[simp] theorem Part.setRg_mt (f : Fld) (v u i : Nat) : (p.setRg f v u i).mt = p.mt := rfl
@[simp] theorem Part.setRg_ras (f : Fld) (v u i : Nat) : (p.setRg f v u i).ras = p.ras := rfl
@[simp] theorem Part.setRg_elog (f : Fld) (v u i : Nat) : (p.setRg f v u i).elog = p.elog := rfl
@[simp] theorem Part.setRg_pci (f : Fld) (v u i : Nat) : (p.setRg f v u i).pci = p.pci := rfl
@[simp] theorem Part.setRg_pkt (f : Fld) (v u i : Nat) : (p.setRg f v u i).pkt = p.pkt := rfl
@[simp] theorem Part.setRg_key (f : Fld) (v u i : Nat) : (p.setRg f v u i).key = p.key := rfl
@[simp] theorem Part.setRg_ven (f : Fld) (v u i : Nat) : (p.setRg f v u i).ven = p.ven := rfl
@[simp] theorem Part.setRg_sys (f : Fld) (v u i : Nat) : (p.setRg f v u i).sys = p.sys := rfl
@[simp] theorem Part.setRg_thread (f : Fld) (v u i : Nat) (x : Nat) : (p.setRg f v u i).thread x = p.thread x := rfl
@[simp] theorem Part.setRg_icOf (f : Fld) (v u i : Nat) (x : Nat) : (p.setRg f v u i).icOf x = p.icOf x := rfl
@[simp] theorem Part.setRg_coreOf (f : Fld) (v u i : Nat) (x : Nat) : (p.setRg f v u i).coreOf x = p.coreOf x := rfl
@[simp] theorem Part.setRg_sliceOf (f : Fld) (v u i : Nat) (x : Nat) : (p.setRg f v u i).sliceOf x = p.sliceOf x := rfl
@[simp] theorem Part.setRg_chanOf (f : Fld) (v u i : Nat) (x : Nat) : (p.setRg f v u i).chanOf x = p.chanOf x := rfl
@[simp] theorem Part.setRg_mtOf (f : Fld) (v u i : Nat) (x : Nat) : (p.setRg f v u i).mtOf x = p.mtOf x := rfl
@[simp] theorem Part.setRg_rasOf (f : Fld) (v u i : Nat) (x : Nat) : (p.setRg f v u i).rasOf x = p.rasOf x := rfl
@[simp] theorem Part.setRg_tileFab (f : Fld) (v u i : Nat) (x : Nat) : (p.setRg f v u i).tileFab x = p.tileFab x := rfl

/-! ### modThread -/
@[simp] theorem Part.modThread_thr (t : Nat) (f : Thr → Thr) : (p.modThread t f).thr = p.thr.upd Thr.reset t f := rfl
@[simp] theorem Part.modThread_free (t : Nat) (f : Thr → Thr) : (p.modThread t f).free = p.free := rfl
@[simp] theorem Part.modThread_seq (t : Nat) (f : Thr → Thr) : (p.modThread t f).seq = p.seq := rfl
@[simp] theorem Part.modThread_time (t : Nat) (f : Thr → Thr) : (p.modThread t f).time = p.time := rfl
@[simp] theorem Part.modThread_ctl (t : Nat) (f : Thr → Thr) : (p.modThread t f).ctl = p.ctl := rfl
@[simp] theorem Part.modThread_held (t : Nat) (f : Thr → Thr) : (p.modThread t f).held = p.held := rfl
@[simp] theorem Part.modThread_ic (t : Nat) (f : Thr → Thr) : (p.modThread t f).ic = p.ic := rfl
@[simp] theorem Part.modThread_core (t : Nat) (f : Thr → Thr) : (p.modThread t f).core = p.core := rfl
@[simp] theorem Part.modThread_slice (t : Nat) (f : Thr → Thr) : (p.modThread t f).slice = p.slice := rfl
@[simp] theorem Part.modThread_net (t : Nat) (f : Thr → Thr) : (p.modThread t f).net = p.net := rfl
@[simp] theorem Part.modThread_fab (t : Nat) (f : Thr → Thr) : (p.modThread t f).fab = p.fab := rfl
@[simp] theorem Part.modThread_mem (t : Nat) (f : Thr → Thr) : (p.modThread t f).mem = p.mem := rfl
@[simp] theorem Part.modThread_pois (t : Nat) (f : Thr → Thr) : (p.modThread t f).pois = p.pois := rfl
@[simp] theorem Part.modThread_chan (t : Nat) (f : Thr → Thr) : (p.modThread t f).chan = p.chan := rfl
@[simp] theorem Part.modThread_mt (t : Nat) (f : Thr → Thr) : (p.modThread t f).mt = p.mt := rfl
@[simp] theorem Part.modThread_ras (t : Nat) (f : Thr → Thr) : (p.modThread t f).ras = p.ras := rfl
@[simp] theorem Part.modThread_elog (t : Nat) (f : Thr → Thr) : (p.modThread t f).elog = p.elog := rfl
@[simp] theorem Part.modThread_pci (t : Nat) (f : Thr → Thr) : (p.modThread t f).pci = p.pci := rfl
@[simp] theorem Part.modThread_pkt (t : Nat) (f : Thr → Thr) : (p.modThread t f).pkt = p.pkt := rfl
@[simp] theorem Part.modThread_key (t : Nat) (f : Thr → Thr) : (p.modThread t f).key = p.key := rfl
@[simp] theorem Part.modThread_ven (t : Nat) (f : Thr → Thr) : (p.modThread t f).ven = p.ven := rfl
@[simp] theorem Part.modThread_sys (t : Nat) (f : Thr → Thr) : (p.modThread t f).sys = p.sys := rfl
@[simp] theorem Part.modThread_rg (t : Nat) (f : Thr → Thr) (g : Fld) (x y : Nat) : (p.modThread t f).rg g x y = p.rg g x y := rfl
@[simp] theorem Part.modThread_icOf (t : Nat) (f : Thr → Thr) (x : Nat) : (p.modThread t f).icOf x = p.icOf x := rfl
@[simp] theorem Part.modThread_coreOf (t : Nat) (f : Thr → Thr) (x : Nat) : (p.modThread t f).coreOf x = p.coreOf x := rfl
@[simp] theorem Part.modThread_sliceOf (t : Nat) (f : Thr → Thr) (x : Nat) : (p.modThread t f).sliceOf x = p.sliceOf x := rfl
@[simp] theorem Part.modThread_chanOf (t : Nat) (f : Thr → Thr) (x : Nat) : (p.modThread t f).chanOf x = p.chanOf x := rfl
@[simp] theorem Part.modThread_mtOf (t : Nat) (f : Thr → Thr) (x : Nat) : (p.modThread t f).mtOf x = p.mtOf x := rfl
@[simp] theorem Part.modThread_rasOf (t : Nat) (f : Thr → Thr) (x : Nat) : (p.modThread t f).rasOf x = p.rasOf x := rfl
@[simp] theorem Part.modThread_tileFab (t : Nat) (f : Thr → Thr) (x : Nat) : (p.modThread t f).tileFab x = p.tileFab x := rfl

/-! ### modIc -/
@[simp] theorem Part.modIc_ic (t : Nat) (f : Ic → Ic) : (p.modIc t f).ic = p.ic.upd Ic.reset t f := rfl
@[simp] theorem Part.modIc_free (t : Nat) (f : Ic → Ic) : (p.modIc t f).free = p.free := rfl
@[simp] theorem Part.modIc_seq (t : Nat) (f : Ic → Ic) : (p.modIc t f).seq = p.seq := rfl
@[simp] theorem Part.modIc_time (t : Nat) (f : Ic → Ic) : (p.modIc t f).time = p.time := rfl
@[simp] theorem Part.modIc_ctl (t : Nat) (f : Ic → Ic) : (p.modIc t f).ctl = p.ctl := rfl
@[simp] theorem Part.modIc_held (t : Nat) (f : Ic → Ic) : (p.modIc t f).held = p.held := rfl
@[simp] theorem Part.modIc_thr (t : Nat) (f : Ic → Ic) : (p.modIc t f).thr = p.thr := rfl
@[simp] theorem Part.modIc_core (t : Nat) (f : Ic → Ic) : (p.modIc t f).core = p.core := rfl
@[simp] theorem Part.modIc_slice (t : Nat) (f : Ic → Ic) : (p.modIc t f).slice = p.slice := rfl
@[simp] theorem Part.modIc_net (t : Nat) (f : Ic → Ic) : (p.modIc t f).net = p.net := rfl
@[simp] theorem Part.modIc_fab (t : Nat) (f : Ic → Ic) : (p.modIc t f).fab = p.fab := rfl
@[simp] theorem Part.modIc_mem (t : Nat) (f : Ic → Ic) : (p.modIc t f).mem = p.mem := rfl
@[simp] theorem Part.modIc_pois (t : Nat) (f : Ic → Ic) : (p.modIc t f).pois = p.pois := rfl
@[simp] theorem Part.modIc_chan (t : Nat) (f : Ic → Ic) : (p.modIc t f).chan = p.chan := rfl
@[simp] theorem Part.modIc_mt (t : Nat) (f : Ic → Ic) : (p.modIc t f).mt = p.mt := rfl
@[simp] theorem Part.modIc_ras (t : Nat) (f : Ic → Ic) : (p.modIc t f).ras = p.ras := rfl
@[simp] theorem Part.modIc_elog (t : Nat) (f : Ic → Ic) : (p.modIc t f).elog = p.elog := rfl
@[simp] theorem Part.modIc_pci (t : Nat) (f : Ic → Ic) : (p.modIc t f).pci = p.pci := rfl
@[simp] theorem Part.modIc_pkt (t : Nat) (f : Ic → Ic) : (p.modIc t f).pkt = p.pkt := rfl
@[simp] theorem Part.modIc_key (t : Nat) (f : Ic → Ic) : (p.modIc t f).key = p.key := rfl
@[simp] theorem Part.modIc_ven (t : Nat) (f : Ic → Ic) : (p.modIc t f).ven = p.ven := rfl
@[simp] theorem Part.modIc_sys (t : Nat) (f : Ic → Ic) : (p.modIc t f).sys = p.sys := rfl
@[simp] theorem Part.modIc_rg (t : Nat) (f : Ic → Ic) (g : Fld) (x y : Nat) : (p.modIc t f).rg g x y = p.rg g x y := rfl
@[simp] theorem Part.modIc_thread (t : Nat) (f : Ic → Ic) (x : Nat) : (p.modIc t f).thread x = p.thread x := rfl
@[simp] theorem Part.modIc_coreOf (t : Nat) (f : Ic → Ic) (x : Nat) : (p.modIc t f).coreOf x = p.coreOf x := rfl
@[simp] theorem Part.modIc_sliceOf (t : Nat) (f : Ic → Ic) (x : Nat) : (p.modIc t f).sliceOf x = p.sliceOf x := rfl
@[simp] theorem Part.modIc_chanOf (t : Nat) (f : Ic → Ic) (x : Nat) : (p.modIc t f).chanOf x = p.chanOf x := rfl
@[simp] theorem Part.modIc_mtOf (t : Nat) (f : Ic → Ic) (x : Nat) : (p.modIc t f).mtOf x = p.mtOf x := rfl
@[simp] theorem Part.modIc_rasOf (t : Nat) (f : Ic → Ic) (x : Nat) : (p.modIc t f).rasOf x = p.rasOf x := rfl
@[simp] theorem Part.modIc_tileFab (t : Nat) (f : Ic → Ic) (x : Nat) : (p.modIc t f).tileFab x = p.tileFab x := rfl

/-! ### modCore -/
@[simp] theorem Part.modCore_core (c : Nat) (f : CoreSt → CoreSt) : (p.modCore c f).core = p.core.upd CoreSt.reset c f := rfl
@[simp] theorem Part.modCore_free (c : Nat) (f : CoreSt → CoreSt) : (p.modCore c f).free = p.free := rfl
@[simp] theorem Part.modCore_seq (c : Nat) (f : CoreSt → CoreSt) : (p.modCore c f).seq = p.seq := rfl
@[simp] theorem Part.modCore_time (c : Nat) (f : CoreSt → CoreSt) : (p.modCore c f).time = p.time := rfl
@[simp] theorem Part.modCore_ctl (c : Nat) (f : CoreSt → CoreSt) : (p.modCore c f).ctl = p.ctl := rfl
@[simp] theorem Part.modCore_held (c : Nat) (f : CoreSt → CoreSt) : (p.modCore c f).held = p.held := rfl
@[simp] theorem Part.modCore_thr (c : Nat) (f : CoreSt → CoreSt) : (p.modCore c f).thr = p.thr := rfl
@[simp] theorem Part.modCore_ic (c : Nat) (f : CoreSt → CoreSt) : (p.modCore c f).ic = p.ic := rfl
@[simp] theorem Part.modCore_slice (c : Nat) (f : CoreSt → CoreSt) : (p.modCore c f).slice = p.slice := rfl
@[simp] theorem Part.modCore_net (c : Nat) (f : CoreSt → CoreSt) : (p.modCore c f).net = p.net := rfl
@[simp] theorem Part.modCore_fab (c : Nat) (f : CoreSt → CoreSt) : (p.modCore c f).fab = p.fab := rfl
@[simp] theorem Part.modCore_mem (c : Nat) (f : CoreSt → CoreSt) : (p.modCore c f).mem = p.mem := rfl
@[simp] theorem Part.modCore_pois (c : Nat) (f : CoreSt → CoreSt) : (p.modCore c f).pois = p.pois := rfl
@[simp] theorem Part.modCore_chan (c : Nat) (f : CoreSt → CoreSt) : (p.modCore c f).chan = p.chan := rfl
@[simp] theorem Part.modCore_mt (c : Nat) (f : CoreSt → CoreSt) : (p.modCore c f).mt = p.mt := rfl
@[simp] theorem Part.modCore_ras (c : Nat) (f : CoreSt → CoreSt) : (p.modCore c f).ras = p.ras := rfl
@[simp] theorem Part.modCore_elog (c : Nat) (f : CoreSt → CoreSt) : (p.modCore c f).elog = p.elog := rfl
@[simp] theorem Part.modCore_pci (c : Nat) (f : CoreSt → CoreSt) : (p.modCore c f).pci = p.pci := rfl
@[simp] theorem Part.modCore_pkt (c : Nat) (f : CoreSt → CoreSt) : (p.modCore c f).pkt = p.pkt := rfl
@[simp] theorem Part.modCore_key (c : Nat) (f : CoreSt → CoreSt) : (p.modCore c f).key = p.key := rfl
@[simp] theorem Part.modCore_ven (c : Nat) (f : CoreSt → CoreSt) : (p.modCore c f).ven = p.ven := rfl
@[simp] theorem Part.modCore_sys (c : Nat) (f : CoreSt → CoreSt) : (p.modCore c f).sys = p.sys := rfl
@[simp] theorem Part.modCore_rg (c : Nat) (f : CoreSt → CoreSt) (g : Fld) (x y : Nat) : (p.modCore c f).rg g x y = p.rg g x y := rfl
@[simp] theorem Part.modCore_thread (c : Nat) (f : CoreSt → CoreSt) (x : Nat) : (p.modCore c f).thread x = p.thread x := rfl
@[simp] theorem Part.modCore_icOf (c : Nat) (f : CoreSt → CoreSt) (x : Nat) : (p.modCore c f).icOf x = p.icOf x := rfl
@[simp] theorem Part.modCore_sliceOf (c : Nat) (f : CoreSt → CoreSt) (x : Nat) : (p.modCore c f).sliceOf x = p.sliceOf x := rfl
@[simp] theorem Part.modCore_chanOf (c : Nat) (f : CoreSt → CoreSt) (x : Nat) : (p.modCore c f).chanOf x = p.chanOf x := rfl
@[simp] theorem Part.modCore_mtOf (c : Nat) (f : CoreSt → CoreSt) (x : Nat) : (p.modCore c f).mtOf x = p.mtOf x := rfl
@[simp] theorem Part.modCore_rasOf (c : Nat) (f : CoreSt → CoreSt) (x : Nat) : (p.modCore c f).rasOf x = p.rasOf x := rfl
@[simp] theorem Part.modCore_tileFab (c : Nat) (f : CoreSt → CoreSt) (x : Nat) : (p.modCore c f).tileFab x = p.tileFab x := rfl

/-! ### modSlice -/
@[simp] theorem Part.modSlice_slice (k : Nat) (f : SliceSt → SliceSt) : (p.modSlice k f).slice = p.slice.upd SliceSt.reset k f := rfl
@[simp] theorem Part.modSlice_free (k : Nat) (f : SliceSt → SliceSt) : (p.modSlice k f).free = p.free := rfl
@[simp] theorem Part.modSlice_seq (k : Nat) (f : SliceSt → SliceSt) : (p.modSlice k f).seq = p.seq := rfl
@[simp] theorem Part.modSlice_time (k : Nat) (f : SliceSt → SliceSt) : (p.modSlice k f).time = p.time := rfl
@[simp] theorem Part.modSlice_ctl (k : Nat) (f : SliceSt → SliceSt) : (p.modSlice k f).ctl = p.ctl := rfl
@[simp] theorem Part.modSlice_held (k : Nat) (f : SliceSt → SliceSt) : (p.modSlice k f).held = p.held := rfl
@[simp] theorem Part.modSlice_thr (k : Nat) (f : SliceSt → SliceSt) : (p.modSlice k f).thr = p.thr := rfl
@[simp] theorem Part.modSlice_ic (k : Nat) (f : SliceSt → SliceSt) : (p.modSlice k f).ic = p.ic := rfl
@[simp] theorem Part.modSlice_core (k : Nat) (f : SliceSt → SliceSt) : (p.modSlice k f).core = p.core := rfl
@[simp] theorem Part.modSlice_net (k : Nat) (f : SliceSt → SliceSt) : (p.modSlice k f).net = p.net := rfl
@[simp] theorem Part.modSlice_fab (k : Nat) (f : SliceSt → SliceSt) : (p.modSlice k f).fab = p.fab := rfl
@[simp] theorem Part.modSlice_mem (k : Nat) (f : SliceSt → SliceSt) : (p.modSlice k f).mem = p.mem := rfl
@[simp] theorem Part.modSlice_pois (k : Nat) (f : SliceSt → SliceSt) : (p.modSlice k f).pois = p.pois := rfl
@[simp] theorem Part.modSlice_chan (k : Nat) (f : SliceSt → SliceSt) : (p.modSlice k f).chan = p.chan := rfl
@[simp] theorem Part.modSlice_mt (k : Nat) (f : SliceSt → SliceSt) : (p.modSlice k f).mt = p.mt := rfl
@[simp] theorem Part.modSlice_ras (k : Nat) (f : SliceSt → SliceSt) : (p.modSlice k f).ras = p.ras := rfl
@[simp] theorem Part.modSlice_elog (k : Nat) (f : SliceSt → SliceSt) : (p.modSlice k f).elog = p.elog := rfl
@[simp] theorem Part.modSlice_pci (k : Nat) (f : SliceSt → SliceSt) : (p.modSlice k f).pci = p.pci := rfl
@[simp] theorem Part.modSlice_pkt (k : Nat) (f : SliceSt → SliceSt) : (p.modSlice k f).pkt = p.pkt := rfl
@[simp] theorem Part.modSlice_key (k : Nat) (f : SliceSt → SliceSt) : (p.modSlice k f).key = p.key := rfl
@[simp] theorem Part.modSlice_ven (k : Nat) (f : SliceSt → SliceSt) : (p.modSlice k f).ven = p.ven := rfl
@[simp] theorem Part.modSlice_sys (k : Nat) (f : SliceSt → SliceSt) : (p.modSlice k f).sys = p.sys := rfl
@[simp] theorem Part.modSlice_rg (k : Nat) (f : SliceSt → SliceSt) (g : Fld) (x y : Nat) : (p.modSlice k f).rg g x y = p.rg g x y := rfl
@[simp] theorem Part.modSlice_thread (k : Nat) (f : SliceSt → SliceSt) (x : Nat) : (p.modSlice k f).thread x = p.thread x := rfl
@[simp] theorem Part.modSlice_icOf (k : Nat) (f : SliceSt → SliceSt) (x : Nat) : (p.modSlice k f).icOf x = p.icOf x := rfl
@[simp] theorem Part.modSlice_coreOf (k : Nat) (f : SliceSt → SliceSt) (x : Nat) : (p.modSlice k f).coreOf x = p.coreOf x := rfl
@[simp] theorem Part.modSlice_chanOf (k : Nat) (f : SliceSt → SliceSt) (x : Nat) : (p.modSlice k f).chanOf x = p.chanOf x := rfl
@[simp] theorem Part.modSlice_mtOf (k : Nat) (f : SliceSt → SliceSt) (x : Nat) : (p.modSlice k f).mtOf x = p.mtOf x := rfl
@[simp] theorem Part.modSlice_rasOf (k : Nat) (f : SliceSt → SliceSt) (x : Nat) : (p.modSlice k f).rasOf x = p.rasOf x := rfl
@[simp] theorem Part.modSlice_tileFab (k : Nat) (f : SliceSt → SliceSt) (x : Nat) : (p.modSlice k f).tileFab x = p.tileFab x := rfl

/-! ### modChan -/
@[simp] theorem Part.modChan_chan (c : Nat) (f : ChanSt → ChanSt) : (p.modChan c f).chan = p.chan.upd ChanSt.reset c f := rfl
@[simp] theorem Part.modChan_free (c : Nat) (f : ChanSt → ChanSt) : (p.modChan c f).free = p.free := rfl
@[simp] theorem Part.modChan_seq (c : Nat) (f : ChanSt → ChanSt) : (p.modChan c f).seq = p.seq := rfl
@[simp] theorem Part.modChan_time (c : Nat) (f : ChanSt → ChanSt) : (p.modChan c f).time = p.time := rfl
@[simp] theorem Part.modChan_ctl (c : Nat) (f : ChanSt → ChanSt) : (p.modChan c f).ctl = p.ctl := rfl
@[simp] theorem Part.modChan_held (c : Nat) (f : ChanSt → ChanSt) : (p.modChan c f).held = p.held := rfl
@[simp] theorem Part.modChan_thr (c : Nat) (f : ChanSt → ChanSt) : (p.modChan c f).thr = p.thr := rfl
@[simp] theorem Part.modChan_ic (c : Nat) (f : ChanSt → ChanSt) : (p.modChan c f).ic = p.ic := rfl
@[simp] theorem Part.modChan_core (c : Nat) (f : ChanSt → ChanSt) : (p.modChan c f).core = p.core := rfl
@[simp] theorem Part.modChan_slice (c : Nat) (f : ChanSt → ChanSt) : (p.modChan c f).slice = p.slice := rfl
@[simp] theorem Part.modChan_net (c : Nat) (f : ChanSt → ChanSt) : (p.modChan c f).net = p.net := rfl
@[simp] theorem Part.modChan_fab (c : Nat) (f : ChanSt → ChanSt) : (p.modChan c f).fab = p.fab := rfl
@[simp] theorem Part.modChan_mem (c : Nat) (f : ChanSt → ChanSt) : (p.modChan c f).mem = p.mem := rfl
@[simp] theorem Part.modChan_pois (c : Nat) (f : ChanSt → ChanSt) : (p.modChan c f).pois = p.pois := rfl
@[simp] theorem Part.modChan_mt (c : Nat) (f : ChanSt → ChanSt) : (p.modChan c f).mt = p.mt := rfl
@[simp] theorem Part.modChan_ras (c : Nat) (f : ChanSt → ChanSt) : (p.modChan c f).ras = p.ras := rfl
@[simp] theorem Part.modChan_elog (c : Nat) (f : ChanSt → ChanSt) : (p.modChan c f).elog = p.elog := rfl
@[simp] theorem Part.modChan_pci (c : Nat) (f : ChanSt → ChanSt) : (p.modChan c f).pci = p.pci := rfl
@[simp] theorem Part.modChan_pkt (c : Nat) (f : ChanSt → ChanSt) : (p.modChan c f).pkt = p.pkt := rfl
@[simp] theorem Part.modChan_key (c : Nat) (f : ChanSt → ChanSt) : (p.modChan c f).key = p.key := rfl
@[simp] theorem Part.modChan_ven (c : Nat) (f : ChanSt → ChanSt) : (p.modChan c f).ven = p.ven := rfl
@[simp] theorem Part.modChan_sys (c : Nat) (f : ChanSt → ChanSt) : (p.modChan c f).sys = p.sys := rfl
@[simp] theorem Part.modChan_rg (c : Nat) (f : ChanSt → ChanSt) (g : Fld) (x y : Nat) : (p.modChan c f).rg g x y = p.rg g x y := rfl
@[simp] theorem Part.modChan_thread (c : Nat) (f : ChanSt → ChanSt) (x : Nat) : (p.modChan c f).thread x = p.thread x := rfl
@[simp] theorem Part.modChan_icOf (c : Nat) (f : ChanSt → ChanSt) (x : Nat) : (p.modChan c f).icOf x = p.icOf x := rfl
@[simp] theorem Part.modChan_coreOf (c : Nat) (f : ChanSt → ChanSt) (x : Nat) : (p.modChan c f).coreOf x = p.coreOf x := rfl
@[simp] theorem Part.modChan_sliceOf (c : Nat) (f : ChanSt → ChanSt) (x : Nat) : (p.modChan c f).sliceOf x = p.sliceOf x := rfl
@[simp] theorem Part.modChan_mtOf (c : Nat) (f : ChanSt → ChanSt) (x : Nat) : (p.modChan c f).mtOf x = p.mtOf x := rfl
@[simp] theorem Part.modChan_rasOf (c : Nat) (f : ChanSt → ChanSt) (x : Nat) : (p.modChan c f).rasOf x = p.rasOf x := rfl
@[simp] theorem Part.modChan_tileFab (c : Nat) (f : ChanSt → ChanSt) (x : Nat) : (p.modChan c f).tileFab x = p.tileFab x := rfl

/-! ### modMt -/
@[simp] theorem Part.modMt_mt (i : Nat) (f : MtSt → MtSt) : (p.modMt i f).mt = p.mt.upd MtSt.reset i f := rfl
@[simp] theorem Part.modMt_free (i : Nat) (f : MtSt → MtSt) : (p.modMt i f).free = p.free := rfl
@[simp] theorem Part.modMt_seq (i : Nat) (f : MtSt → MtSt) : (p.modMt i f).seq = p.seq := rfl
@[simp] theorem Part.modMt_time (i : Nat) (f : MtSt → MtSt) : (p.modMt i f).time = p.time := rfl
@[simp] theorem Part.modMt_ctl (i : Nat) (f : MtSt → MtSt) : (p.modMt i f).ctl = p.ctl := rfl
@[simp] theorem Part.modMt_held (i : Nat) (f : MtSt → MtSt) : (p.modMt i f).held = p.held := rfl
@[simp] theorem Part.modMt_thr (i : Nat) (f : MtSt → MtSt) : (p.modMt i f).thr = p.thr := rfl
@[simp] theorem Part.modMt_ic (i : Nat) (f : MtSt → MtSt) : (p.modMt i f).ic = p.ic := rfl
@[simp] theorem Part.modMt_core (i : Nat) (f : MtSt → MtSt) : (p.modMt i f).core = p.core := rfl
@[simp] theorem Part.modMt_slice (i : Nat) (f : MtSt → MtSt) : (p.modMt i f).slice = p.slice := rfl
@[simp] theorem Part.modMt_net (i : Nat) (f : MtSt → MtSt) : (p.modMt i f).net = p.net := rfl
@[simp] theorem Part.modMt_fab (i : Nat) (f : MtSt → MtSt) : (p.modMt i f).fab = p.fab := rfl
@[simp] theorem Part.modMt_mem (i : Nat) (f : MtSt → MtSt) : (p.modMt i f).mem = p.mem := rfl
@[simp] theorem Part.modMt_pois (i : Nat) (f : MtSt → MtSt) : (p.modMt i f).pois = p.pois := rfl
@[simp] theorem Part.modMt_chan (i : Nat) (f : MtSt → MtSt) : (p.modMt i f).chan = p.chan := rfl
@[simp] theorem Part.modMt_ras (i : Nat) (f : MtSt → MtSt) : (p.modMt i f).ras = p.ras := rfl
@[simp] theorem Part.modMt_elog (i : Nat) (f : MtSt → MtSt) : (p.modMt i f).elog = p.elog := rfl
@[simp] theorem Part.modMt_pci (i : Nat) (f : MtSt → MtSt) : (p.modMt i f).pci = p.pci := rfl
@[simp] theorem Part.modMt_pkt (i : Nat) (f : MtSt → MtSt) : (p.modMt i f).pkt = p.pkt := rfl
@[simp] theorem Part.modMt_key (i : Nat) (f : MtSt → MtSt) : (p.modMt i f).key = p.key := rfl
@[simp] theorem Part.modMt_ven (i : Nat) (f : MtSt → MtSt) : (p.modMt i f).ven = p.ven := rfl
@[simp] theorem Part.modMt_sys (i : Nat) (f : MtSt → MtSt) : (p.modMt i f).sys = p.sys := rfl
@[simp] theorem Part.modMt_rg (i : Nat) (f : MtSt → MtSt) (g : Fld) (x y : Nat) : (p.modMt i f).rg g x y = p.rg g x y := rfl
@[simp] theorem Part.modMt_thread (i : Nat) (f : MtSt → MtSt) (x : Nat) : (p.modMt i f).thread x = p.thread x := rfl
@[simp] theorem Part.modMt_icOf (i : Nat) (f : MtSt → MtSt) (x : Nat) : (p.modMt i f).icOf x = p.icOf x := rfl
@[simp] theorem Part.modMt_coreOf (i : Nat) (f : MtSt → MtSt) (x : Nat) : (p.modMt i f).coreOf x = p.coreOf x := rfl
@[simp] theorem Part.modMt_sliceOf (i : Nat) (f : MtSt → MtSt) (x : Nat) : (p.modMt i f).sliceOf x = p.sliceOf x := rfl
@[simp] theorem Part.modMt_chanOf (i : Nat) (f : MtSt → MtSt) (x : Nat) : (p.modMt i f).chanOf x = p.chanOf x := rfl
@[simp] theorem Part.modMt_rasOf (i : Nat) (f : MtSt → MtSt) (x : Nat) : (p.modMt i f).rasOf x = p.rasOf x := rfl
@[simp] theorem Part.modMt_tileFab (i : Nat) (f : MtSt → MtSt) (x : Nat) : (p.modMt i f).tileFab x = p.tileFab x := rfl

/-! ### modRas -/
@[simp] theorem Part.modRas_ras (t : Nat) (f : RasSt → RasSt) : (p.modRas t f).ras = p.ras.upd RasSt.reset t f := rfl
@[simp] theorem Part.modRas_free (t : Nat) (f : RasSt → RasSt) : (p.modRas t f).free = p.free := rfl
@[simp] theorem Part.modRas_seq (t : Nat) (f : RasSt → RasSt) : (p.modRas t f).seq = p.seq := rfl
@[simp] theorem Part.modRas_time (t : Nat) (f : RasSt → RasSt) : (p.modRas t f).time = p.time := rfl
@[simp] theorem Part.modRas_ctl (t : Nat) (f : RasSt → RasSt) : (p.modRas t f).ctl = p.ctl := rfl
@[simp] theorem Part.modRas_held (t : Nat) (f : RasSt → RasSt) : (p.modRas t f).held = p.held := rfl
@[simp] theorem Part.modRas_thr (t : Nat) (f : RasSt → RasSt) : (p.modRas t f).thr = p.thr := rfl
@[simp] theorem Part.modRas_ic (t : Nat) (f : RasSt → RasSt) : (p.modRas t f).ic = p.ic := rfl
@[simp] theorem Part.modRas_core (t : Nat) (f : RasSt → RasSt) : (p.modRas t f).core = p.core := rfl
@[simp] theorem Part.modRas_slice (t : Nat) (f : RasSt → RasSt) : (p.modRas t f).slice = p.slice := rfl
@[simp] theorem Part.modRas_net (t : Nat) (f : RasSt → RasSt) : (p.modRas t f).net = p.net := rfl
@[simp] theorem Part.modRas_fab (t : Nat) (f : RasSt → RasSt) : (p.modRas t f).fab = p.fab := rfl
@[simp] theorem Part.modRas_mem (t : Nat) (f : RasSt → RasSt) : (p.modRas t f).mem = p.mem := rfl
@[simp] theorem Part.modRas_pois (t : Nat) (f : RasSt → RasSt) : (p.modRas t f).pois = p.pois := rfl
@[simp] theorem Part.modRas_chan (t : Nat) (f : RasSt → RasSt) : (p.modRas t f).chan = p.chan := rfl
@[simp] theorem Part.modRas_mt (t : Nat) (f : RasSt → RasSt) : (p.modRas t f).mt = p.mt := rfl
@[simp] theorem Part.modRas_elog (t : Nat) (f : RasSt → RasSt) : (p.modRas t f).elog = p.elog := rfl
@[simp] theorem Part.modRas_pci (t : Nat) (f : RasSt → RasSt) : (p.modRas t f).pci = p.pci := rfl
@[simp] theorem Part.modRas_pkt (t : Nat) (f : RasSt → RasSt) : (p.modRas t f).pkt = p.pkt := rfl
@[simp] theorem Part.modRas_key (t : Nat) (f : RasSt → RasSt) : (p.modRas t f).key = p.key := rfl
@[simp] theorem Part.modRas_ven (t : Nat) (f : RasSt → RasSt) : (p.modRas t f).ven = p.ven := rfl
@[simp] theorem Part.modRas_sys (t : Nat) (f : RasSt → RasSt) : (p.modRas t f).sys = p.sys := rfl
@[simp] theorem Part.modRas_rg (t : Nat) (f : RasSt → RasSt) (g : Fld) (x y : Nat) : (p.modRas t f).rg g x y = p.rg g x y := rfl
@[simp] theorem Part.modRas_thread (t : Nat) (f : RasSt → RasSt) (x : Nat) : (p.modRas t f).thread x = p.thread x := rfl
@[simp] theorem Part.modRas_icOf (t : Nat) (f : RasSt → RasSt) (x : Nat) : (p.modRas t f).icOf x = p.icOf x := rfl
@[simp] theorem Part.modRas_coreOf (t : Nat) (f : RasSt → RasSt) (x : Nat) : (p.modRas t f).coreOf x = p.coreOf x := rfl
@[simp] theorem Part.modRas_sliceOf (t : Nat) (f : RasSt → RasSt) (x : Nat) : (p.modRas t f).sliceOf x = p.sliceOf x := rfl
@[simp] theorem Part.modRas_chanOf (t : Nat) (f : RasSt → RasSt) (x : Nat) : (p.modRas t f).chanOf x = p.chanOf x := rfl
@[simp] theorem Part.modRas_mtOf (t : Nat) (f : RasSt → RasSt) (x : Nat) : (p.modRas t f).mtOf x = p.mtOf x := rfl
@[simp] theorem Part.modRas_tileFab (t : Nat) (f : RasSt → RasSt) (x : Nat) : (p.modRas t f).tileFab x = p.tileFab x := rfl

/-! ### modPci -/
@[simp] theorem Part.modPci_pci (f : PciSt → PciSt) : (p.modPci f).pci = f p.pci := rfl
@[simp] theorem Part.modPci_free (f : PciSt → PciSt) : (p.modPci f).free = p.free := rfl
@[simp] theorem Part.modPci_seq (f : PciSt → PciSt) : (p.modPci f).seq = p.seq := rfl
@[simp] theorem Part.modPci_time (f : PciSt → PciSt) : (p.modPci f).time = p.time := rfl
@[simp] theorem Part.modPci_ctl (f : PciSt → PciSt) : (p.modPci f).ctl = p.ctl := rfl
@[simp] theorem Part.modPci_held (f : PciSt → PciSt) : (p.modPci f).held = p.held := rfl
@[simp] theorem Part.modPci_thr (f : PciSt → PciSt) : (p.modPci f).thr = p.thr := rfl
@[simp] theorem Part.modPci_ic (f : PciSt → PciSt) : (p.modPci f).ic = p.ic := rfl
@[simp] theorem Part.modPci_core (f : PciSt → PciSt) : (p.modPci f).core = p.core := rfl
@[simp] theorem Part.modPci_slice (f : PciSt → PciSt) : (p.modPci f).slice = p.slice := rfl
@[simp] theorem Part.modPci_net (f : PciSt → PciSt) : (p.modPci f).net = p.net := rfl
@[simp] theorem Part.modPci_fab (f : PciSt → PciSt) : (p.modPci f).fab = p.fab := rfl
@[simp] theorem Part.modPci_mem (f : PciSt → PciSt) : (p.modPci f).mem = p.mem := rfl
@[simp] theorem Part.modPci_pois (f : PciSt → PciSt) : (p.modPci f).pois = p.pois := rfl
@[simp] theorem Part.modPci_chan (f : PciSt → PciSt) : (p.modPci f).chan = p.chan := rfl
@[simp] theorem Part.modPci_mt (f : PciSt → PciSt) : (p.modPci f).mt = p.mt := rfl
@[simp] theorem Part.modPci_ras (f : PciSt → PciSt) : (p.modPci f).ras = p.ras := rfl
@[simp] theorem Part.modPci_elog (f : PciSt → PciSt) : (p.modPci f).elog = p.elog := rfl
@[simp] theorem Part.modPci_pkt (f : PciSt → PciSt) : (p.modPci f).pkt = p.pkt := rfl
@[simp] theorem Part.modPci_key (f : PciSt → PciSt) : (p.modPci f).key = p.key := rfl
@[simp] theorem Part.modPci_ven (f : PciSt → PciSt) : (p.modPci f).ven = p.ven := rfl
@[simp] theorem Part.modPci_sys (f : PciSt → PciSt) : (p.modPci f).sys = p.sys := rfl
@[simp] theorem Part.modPci_rg (f : PciSt → PciSt) (g : Fld) (x y : Nat) : (p.modPci f).rg g x y = p.rg g x y := rfl
@[simp] theorem Part.modPci_thread (f : PciSt → PciSt) (x : Nat) : (p.modPci f).thread x = p.thread x := rfl
@[simp] theorem Part.modPci_icOf (f : PciSt → PciSt) (x : Nat) : (p.modPci f).icOf x = p.icOf x := rfl
@[simp] theorem Part.modPci_coreOf (f : PciSt → PciSt) (x : Nat) : (p.modPci f).coreOf x = p.coreOf x := rfl
@[simp] theorem Part.modPci_sliceOf (f : PciSt → PciSt) (x : Nat) : (p.modPci f).sliceOf x = p.sliceOf x := rfl
@[simp] theorem Part.modPci_chanOf (f : PciSt → PciSt) (x : Nat) : (p.modPci f).chanOf x = p.chanOf x := rfl
@[simp] theorem Part.modPci_mtOf (f : PciSt → PciSt) (x : Nat) : (p.modPci f).mtOf x = p.mtOf x := rfl
@[simp] theorem Part.modPci_rasOf (f : PciSt → PciSt) (x : Nat) : (p.modPci f).rasOf x = p.rasOf x := rfl
@[simp] theorem Part.modPci_tileFab (f : PciSt → PciSt) (x : Nat) : (p.modPci f).tileFab x = p.tileFab x := rfl

/-! ### modPkt -/
@[simp] theorem Part.modPkt_pkt (f : PktSt → PktSt) : (p.modPkt f).pkt = f p.pkt := rfl
@[simp] theorem Part.modPkt_free (f : PktSt → PktSt) : (p.modPkt f).free = p.free := rfl
@[simp] theorem Part.modPkt_seq (f : PktSt → PktSt) : (p.modPkt f).seq = p.seq := rfl
@[simp] theorem Part.modPkt_time (f : PktSt → PktSt) : (p.modPkt f).time = p.time := rfl
@[simp] theorem Part.modPkt_ctl (f : PktSt → PktSt) : (p.modPkt f).ctl = p.ctl := rfl
@[simp] theorem Part.modPkt_held (f : PktSt → PktSt) : (p.modPkt f).held = p.held := rfl
@[simp] theorem Part.modPkt_thr (f : PktSt → PktSt) : (p.modPkt f).thr = p.thr := rfl
@[simp] theorem Part.modPkt_ic (f : PktSt → PktSt) : (p.modPkt f).ic = p.ic := rfl
@[simp] theorem Part.modPkt_core (f : PktSt → PktSt) : (p.modPkt f).core = p.core := rfl
@[simp] theorem Part.modPkt_slice (f : PktSt → PktSt) : (p.modPkt f).slice = p.slice := rfl
@[simp] theorem Part.modPkt_net (f : PktSt → PktSt) : (p.modPkt f).net = p.net := rfl
@[simp] theorem Part.modPkt_fab (f : PktSt → PktSt) : (p.modPkt f).fab = p.fab := rfl
@[simp] theorem Part.modPkt_mem (f : PktSt → PktSt) : (p.modPkt f).mem = p.mem := rfl
@[simp] theorem Part.modPkt_pois (f : PktSt → PktSt) : (p.modPkt f).pois = p.pois := rfl
@[simp] theorem Part.modPkt_chan (f : PktSt → PktSt) : (p.modPkt f).chan = p.chan := rfl
@[simp] theorem Part.modPkt_mt (f : PktSt → PktSt) : (p.modPkt f).mt = p.mt := rfl
@[simp] theorem Part.modPkt_ras (f : PktSt → PktSt) : (p.modPkt f).ras = p.ras := rfl
@[simp] theorem Part.modPkt_elog (f : PktSt → PktSt) : (p.modPkt f).elog = p.elog := rfl
@[simp] theorem Part.modPkt_pci (f : PktSt → PktSt) : (p.modPkt f).pci = p.pci := rfl
@[simp] theorem Part.modPkt_key (f : PktSt → PktSt) : (p.modPkt f).key = p.key := rfl
@[simp] theorem Part.modPkt_ven (f : PktSt → PktSt) : (p.modPkt f).ven = p.ven := rfl
@[simp] theorem Part.modPkt_sys (f : PktSt → PktSt) : (p.modPkt f).sys = p.sys := rfl
@[simp] theorem Part.modPkt_rg (f : PktSt → PktSt) (g : Fld) (x y : Nat) : (p.modPkt f).rg g x y = p.rg g x y := rfl
@[simp] theorem Part.modPkt_thread (f : PktSt → PktSt) (x : Nat) : (p.modPkt f).thread x = p.thread x := rfl
@[simp] theorem Part.modPkt_icOf (f : PktSt → PktSt) (x : Nat) : (p.modPkt f).icOf x = p.icOf x := rfl
@[simp] theorem Part.modPkt_coreOf (f : PktSt → PktSt) (x : Nat) : (p.modPkt f).coreOf x = p.coreOf x := rfl
@[simp] theorem Part.modPkt_sliceOf (f : PktSt → PktSt) (x : Nat) : (p.modPkt f).sliceOf x = p.sliceOf x := rfl
@[simp] theorem Part.modPkt_chanOf (f : PktSt → PktSt) (x : Nat) : (p.modPkt f).chanOf x = p.chanOf x := rfl
@[simp] theorem Part.modPkt_mtOf (f : PktSt → PktSt) (x : Nat) : (p.modPkt f).mtOf x = p.mtOf x := rfl
@[simp] theorem Part.modPkt_rasOf (f : PktSt → PktSt) (x : Nat) : (p.modPkt f).rasOf x = p.rasOf x := rfl
@[simp] theorem Part.modPkt_tileFab (f : PktSt → PktSt) (x : Nat) : (p.modPkt f).tileFab x = p.tileFab x := rfl

/-! ### modKey -/
@[simp] theorem Part.modKey_key (f : KeySt → KeySt) : (p.modKey f).key = f p.key := rfl
@[simp] theorem Part.modKey_free (f : KeySt → KeySt) : (p.modKey f).free = p.free := rfl
@[simp] theorem Part.modKey_seq (f : KeySt → KeySt) : (p.modKey f).seq = p.seq := rfl
@[simp] theorem Part.modKey_time (f : KeySt → KeySt) : (p.modKey f).time = p.time := rfl
@[simp] theorem Part.modKey_ctl (f : KeySt → KeySt) : (p.modKey f).ctl = p.ctl := rfl
@[simp] theorem Part.modKey_held (f : KeySt → KeySt) : (p.modKey f).held = p.held := rfl
@[simp] theorem Part.modKey_thr (f : KeySt → KeySt) : (p.modKey f).thr = p.thr := rfl
@[simp] theorem Part.modKey_ic (f : KeySt → KeySt) : (p.modKey f).ic = p.ic := rfl
@[simp] theorem Part.modKey_core (f : KeySt → KeySt) : (p.modKey f).core = p.core := rfl
@[simp] theorem Part.modKey_slice (f : KeySt → KeySt) : (p.modKey f).slice = p.slice := rfl
@[simp] theorem Part.modKey_net (f : KeySt → KeySt) : (p.modKey f).net = p.net := rfl
@[simp] theorem Part.modKey_fab (f : KeySt → KeySt) : (p.modKey f).fab = p.fab := rfl
@[simp] theorem Part.modKey_mem (f : KeySt → KeySt) : (p.modKey f).mem = p.mem := rfl
@[simp] theorem Part.modKey_pois (f : KeySt → KeySt) : (p.modKey f).pois = p.pois := rfl
@[simp] theorem Part.modKey_chan (f : KeySt → KeySt) : (p.modKey f).chan = p.chan := rfl
@[simp] theorem Part.modKey_mt (f : KeySt → KeySt) : (p.modKey f).mt = p.mt := rfl
@[simp] theorem Part.modKey_ras (f : KeySt → KeySt) : (p.modKey f).ras = p.ras := rfl
@[simp] theorem Part.modKey_elog (f : KeySt → KeySt) : (p.modKey f).elog = p.elog := rfl
@[simp] theorem Part.modKey_pci (f : KeySt → KeySt) : (p.modKey f).pci = p.pci := rfl
@[simp] theorem Part.modKey_pkt (f : KeySt → KeySt) : (p.modKey f).pkt = p.pkt := rfl
@[simp] theorem Part.modKey_ven (f : KeySt → KeySt) : (p.modKey f).ven = p.ven := rfl
@[simp] theorem Part.modKey_sys (f : KeySt → KeySt) : (p.modKey f).sys = p.sys := rfl
@[simp] theorem Part.modKey_rg (f : KeySt → KeySt) (g : Fld) (x y : Nat) : (p.modKey f).rg g x y = p.rg g x y := rfl
@[simp] theorem Part.modKey_thread (f : KeySt → KeySt) (x : Nat) : (p.modKey f).thread x = p.thread x := rfl
@[simp] theorem Part.modKey_icOf (f : KeySt → KeySt) (x : Nat) : (p.modKey f).icOf x = p.icOf x := rfl
@[simp] theorem Part.modKey_coreOf (f : KeySt → KeySt) (x : Nat) : (p.modKey f).coreOf x = p.coreOf x := rfl
@[simp] theorem Part.modKey_sliceOf (f : KeySt → KeySt) (x : Nat) : (p.modKey f).sliceOf x = p.sliceOf x := rfl
@[simp] theorem Part.modKey_chanOf (f : KeySt → KeySt) (x : Nat) : (p.modKey f).chanOf x = p.chanOf x := rfl
@[simp] theorem Part.modKey_mtOf (f : KeySt → KeySt) (x : Nat) : (p.modKey f).mtOf x = p.mtOf x := rfl
@[simp] theorem Part.modKey_rasOf (f : KeySt → KeySt) (x : Nat) : (p.modKey f).rasOf x = p.rasOf x := rfl
@[simp] theorem Part.modKey_tileFab (f : KeySt → KeySt) (x : Nat) : (p.modKey f).tileFab x = p.tileFab x := rfl

/-! ### modVen -/
@[simp] theorem Part.modVen_ven (f : VeneerSt → VeneerSt) : (p.modVen f).ven = f p.ven := rfl
@[simp] theorem Part.modVen_free (f : VeneerSt → VeneerSt) : (p.modVen f).free = p.free := rfl
@[simp] theorem Part.modVen_seq (f : VeneerSt → VeneerSt) : (p.modVen f).seq = p.seq := rfl
@[simp] theorem Part.modVen_time (f : VeneerSt → VeneerSt) : (p.modVen f).time = p.time := rfl
@[simp] theorem Part.modVen_ctl (f : VeneerSt → VeneerSt) : (p.modVen f).ctl = p.ctl := rfl
@[simp] theorem Part.modVen_held (f : VeneerSt → VeneerSt) : (p.modVen f).held = p.held := rfl
@[simp] theorem Part.modVen_thr (f : VeneerSt → VeneerSt) : (p.modVen f).thr = p.thr := rfl
@[simp] theorem Part.modVen_ic (f : VeneerSt → VeneerSt) : (p.modVen f).ic = p.ic := rfl
@[simp] theorem Part.modVen_core (f : VeneerSt → VeneerSt) : (p.modVen f).core = p.core := rfl
@[simp] theorem Part.modVen_slice (f : VeneerSt → VeneerSt) : (p.modVen f).slice = p.slice := rfl
@[simp] theorem Part.modVen_net (f : VeneerSt → VeneerSt) : (p.modVen f).net = p.net := rfl
@[simp] theorem Part.modVen_fab (f : VeneerSt → VeneerSt) : (p.modVen f).fab = p.fab := rfl
@[simp] theorem Part.modVen_mem (f : VeneerSt → VeneerSt) : (p.modVen f).mem = p.mem := rfl
@[simp] theorem Part.modVen_pois (f : VeneerSt → VeneerSt) : (p.modVen f).pois = p.pois := rfl
@[simp] theorem Part.modVen_chan (f : VeneerSt → VeneerSt) : (p.modVen f).chan = p.chan := rfl
@[simp] theorem Part.modVen_mt (f : VeneerSt → VeneerSt) : (p.modVen f).mt = p.mt := rfl
@[simp] theorem Part.modVen_ras (f : VeneerSt → VeneerSt) : (p.modVen f).ras = p.ras := rfl
@[simp] theorem Part.modVen_elog (f : VeneerSt → VeneerSt) : (p.modVen f).elog = p.elog := rfl
@[simp] theorem Part.modVen_pci (f : VeneerSt → VeneerSt) : (p.modVen f).pci = p.pci := rfl
@[simp] theorem Part.modVen_pkt (f : VeneerSt → VeneerSt) : (p.modVen f).pkt = p.pkt := rfl
@[simp] theorem Part.modVen_key (f : VeneerSt → VeneerSt) : (p.modVen f).key = p.key := rfl
@[simp] theorem Part.modVen_sys (f : VeneerSt → VeneerSt) : (p.modVen f).sys = p.sys := rfl
@[simp] theorem Part.modVen_rg (f : VeneerSt → VeneerSt) (g : Fld) (x y : Nat) : (p.modVen f).rg g x y = p.rg g x y := rfl
@[simp] theorem Part.modVen_thread (f : VeneerSt → VeneerSt) (x : Nat) : (p.modVen f).thread x = p.thread x := rfl
@[simp] theorem Part.modVen_icOf (f : VeneerSt → VeneerSt) (x : Nat) : (p.modVen f).icOf x = p.icOf x := rfl
@[simp] theorem Part.modVen_coreOf (f : VeneerSt → VeneerSt) (x : Nat) : (p.modVen f).coreOf x = p.coreOf x := rfl
@[simp] theorem Part.modVen_sliceOf (f : VeneerSt → VeneerSt) (x : Nat) : (p.modVen f).sliceOf x = p.sliceOf x := rfl
@[simp] theorem Part.modVen_chanOf (f : VeneerSt → VeneerSt) (x : Nat) : (p.modVen f).chanOf x = p.chanOf x := rfl
@[simp] theorem Part.modVen_mtOf (f : VeneerSt → VeneerSt) (x : Nat) : (p.modVen f).mtOf x = p.mtOf x := rfl
@[simp] theorem Part.modVen_rasOf (f : VeneerSt → VeneerSt) (x : Nat) : (p.modVen f).rasOf x = p.rasOf x := rfl
@[simp] theorem Part.modVen_tileFab (f : VeneerSt → VeneerSt) (x : Nat) : (p.modVen f).tileFab x = p.tileFab x := rfl

/-! ### modSys -/
@[simp] theorem Part.modSys_sys (f : SysSt → SysSt) : (p.modSys f).sys = f p.sys := rfl
@[simp] theorem Part.modSys_free (f : SysSt → SysSt) : (p.modSys f).free = p.free := rfl
@[simp] theorem Part.modSys_seq (f : SysSt → SysSt) : (p.modSys f).seq = p.seq := rfl
@[simp] theorem Part.modSys_time (f : SysSt → SysSt) : (p.modSys f).time = p.time := rfl
@[simp] theorem Part.modSys_ctl (f : SysSt → SysSt) : (p.modSys f).ctl = p.ctl := rfl
@[simp] theorem Part.modSys_held (f : SysSt → SysSt) : (p.modSys f).held = p.held := rfl
@[simp] theorem Part.modSys_thr (f : SysSt → SysSt) : (p.modSys f).thr = p.thr := rfl
@[simp] theorem Part.modSys_ic (f : SysSt → SysSt) : (p.modSys f).ic = p.ic := rfl
@[simp] theorem Part.modSys_core (f : SysSt → SysSt) : (p.modSys f).core = p.core := rfl
@[simp] theorem Part.modSys_slice (f : SysSt → SysSt) : (p.modSys f).slice = p.slice := rfl
@[simp] theorem Part.modSys_net (f : SysSt → SysSt) : (p.modSys f).net = p.net := rfl
@[simp] theorem Part.modSys_fab (f : SysSt → SysSt) : (p.modSys f).fab = p.fab := rfl
@[simp] theorem Part.modSys_mem (f : SysSt → SysSt) : (p.modSys f).mem = p.mem := rfl
@[simp] theorem Part.modSys_pois (f : SysSt → SysSt) : (p.modSys f).pois = p.pois := rfl
@[simp] theorem Part.modSys_chan (f : SysSt → SysSt) : (p.modSys f).chan = p.chan := rfl
@[simp] theorem Part.modSys_mt (f : SysSt → SysSt) : (p.modSys f).mt = p.mt := rfl
@[simp] theorem Part.modSys_ras (f : SysSt → SysSt) : (p.modSys f).ras = p.ras := rfl
@[simp] theorem Part.modSys_elog (f : SysSt → SysSt) : (p.modSys f).elog = p.elog := rfl
@[simp] theorem Part.modSys_pci (f : SysSt → SysSt) : (p.modSys f).pci = p.pci := rfl
@[simp] theorem Part.modSys_pkt (f : SysSt → SysSt) : (p.modSys f).pkt = p.pkt := rfl
@[simp] theorem Part.modSys_key (f : SysSt → SysSt) : (p.modSys f).key = p.key := rfl
@[simp] theorem Part.modSys_ven (f : SysSt → SysSt) : (p.modSys f).ven = p.ven := rfl
@[simp] theorem Part.modSys_rg (f : SysSt → SysSt) (g : Fld) (x y : Nat) : (p.modSys f).rg g x y = p.rg g x y := rfl
@[simp] theorem Part.modSys_thread (f : SysSt → SysSt) (x : Nat) : (p.modSys f).thread x = p.thread x := rfl
@[simp] theorem Part.modSys_icOf (f : SysSt → SysSt) (x : Nat) : (p.modSys f).icOf x = p.icOf x := rfl
@[simp] theorem Part.modSys_coreOf (f : SysSt → SysSt) (x : Nat) : (p.modSys f).coreOf x = p.coreOf x := rfl
@[simp] theorem Part.modSys_sliceOf (f : SysSt → SysSt) (x : Nat) : (p.modSys f).sliceOf x = p.sliceOf x := rfl
@[simp] theorem Part.modSys_chanOf (f : SysSt → SysSt) (x : Nat) : (p.modSys f).chanOf x = p.chanOf x := rfl
@[simp] theorem Part.modSys_mtOf (f : SysSt → SysSt) (x : Nat) : (p.modSys f).mtOf x = p.mtOf x := rfl
@[simp] theorem Part.modSys_rasOf (f : SysSt → SysSt) (x : Nat) : (p.modSys f).rasOf x = p.rasOf x := rfl
@[simp] theorem Part.modSys_tileFab (f : SysSt → SysSt) (x : Nat) : (p.modSys f).tileFab x = p.tileFab x := rfl

/-! ### modFab -/
@[simp] theorem Part.modFab_fab (f : FabSt → FabSt) : (p.modFab f).fab = f p.fab := rfl
@[simp] theorem Part.modFab_free (f : FabSt → FabSt) : (p.modFab f).free = p.free := rfl
@[simp] theorem Part.modFab_seq (f : FabSt → FabSt) : (p.modFab f).seq = p.seq := rfl
@[simp] theorem Part.modFab_time (f : FabSt → FabSt) : (p.modFab f).time = p.time := rfl
@[simp] theorem Part.modFab_ctl (f : FabSt → FabSt) : (p.modFab f).ctl = p.ctl := rfl
@[simp] theorem Part.modFab_held (f : FabSt → FabSt) : (p.modFab f).held = p.held := rfl
@[simp] theorem Part.modFab_thr (f : FabSt → FabSt) : (p.modFab f).thr = p.thr := rfl
@[simp] theorem Part.modFab_ic (f : FabSt → FabSt) : (p.modFab f).ic = p.ic := rfl
@[simp] theorem Part.modFab_core (f : FabSt → FabSt) : (p.modFab f).core = p.core := rfl
@[simp] theorem Part.modFab_slice (f : FabSt → FabSt) : (p.modFab f).slice = p.slice := rfl
@[simp] theorem Part.modFab_net (f : FabSt → FabSt) : (p.modFab f).net = p.net := rfl
@[simp] theorem Part.modFab_mem (f : FabSt → FabSt) : (p.modFab f).mem = p.mem := rfl
@[simp] theorem Part.modFab_pois (f : FabSt → FabSt) : (p.modFab f).pois = p.pois := rfl
@[simp] theorem Part.modFab_chan (f : FabSt → FabSt) : (p.modFab f).chan = p.chan := rfl
@[simp] theorem Part.modFab_mt (f : FabSt → FabSt) : (p.modFab f).mt = p.mt := rfl
@[simp] theorem Part.modFab_ras (f : FabSt → FabSt) : (p.modFab f).ras = p.ras := rfl
@[simp] theorem Part.modFab_elog (f : FabSt → FabSt) : (p.modFab f).elog = p.elog := rfl
@[simp] theorem Part.modFab_pci (f : FabSt → FabSt) : (p.modFab f).pci = p.pci := rfl
@[simp] theorem Part.modFab_pkt (f : FabSt → FabSt) : (p.modFab f).pkt = p.pkt := rfl
@[simp] theorem Part.modFab_key (f : FabSt → FabSt) : (p.modFab f).key = p.key := rfl
@[simp] theorem Part.modFab_ven (f : FabSt → FabSt) : (p.modFab f).ven = p.ven := rfl
@[simp] theorem Part.modFab_sys (f : FabSt → FabSt) : (p.modFab f).sys = p.sys := rfl
@[simp] theorem Part.modFab_rg (f : FabSt → FabSt) (g : Fld) (x y : Nat) : (p.modFab f).rg g x y = p.rg g x y := rfl
@[simp] theorem Part.modFab_thread (f : FabSt → FabSt) (x : Nat) : (p.modFab f).thread x = p.thread x := rfl
@[simp] theorem Part.modFab_icOf (f : FabSt → FabSt) (x : Nat) : (p.modFab f).icOf x = p.icOf x := rfl
@[simp] theorem Part.modFab_coreOf (f : FabSt → FabSt) (x : Nat) : (p.modFab f).coreOf x = p.coreOf x := rfl
@[simp] theorem Part.modFab_sliceOf (f : FabSt → FabSt) (x : Nat) : (p.modFab f).sliceOf x = p.sliceOf x := rfl
@[simp] theorem Part.modFab_chanOf (f : FabSt → FabSt) (x : Nat) : (p.modFab f).chanOf x = p.chanOf x := rfl
@[simp] theorem Part.modFab_mtOf (f : FabSt → FabSt) (x : Nat) : (p.modFab f).mtOf x = p.mtOf x := rfl
@[simp] theorem Part.modFab_rasOf (f : FabSt → FabSt) (x : Nat) : (p.modFab f).rasOf x = p.rasOf x := rfl

/-! ### modTileFab -/
@[simp] theorem Part.modTileFab_fab (t : Nat) (f : TileFab → TileFab) : (p.modTileFab t f).fab = { p.fab with tile := p.fab.tile.upd TileFab.reset t f } := rfl
@[simp] theorem Part.modTileFab_free (t : Nat) (f : TileFab → TileFab) : (p.modTileFab t f).free = p.free := rfl
@[simp] theorem Part.modTileFab_seq (t : Nat) (f : TileFab → TileFab) : (p.modTileFab t f).seq = p.seq := rfl
@[simp] theorem Part.modTileFab_time (t : Nat) (f : TileFab → TileFab) : (p.modTileFab t f).time = p.time := rfl
@[simp] theorem Part.modTileFab_ctl (t : Nat) (f : TileFab → TileFab) : (p.modTileFab t f).ctl = p.ctl := rfl
@[simp] theorem Part.modTileFab_held (t : Nat) (f : TileFab → TileFab) : (p.modTileFab t f).held = p.held := rfl
@[simp] theorem Part.modTileFab_thr (t : Nat) (f : TileFab → TileFab) : (p.modTileFab t f).thr = p.thr := rfl
@[simp] theorem Part.modTileFab_ic (t : Nat) (f : TileFab → TileFab) : (p.modTileFab t f).ic = p.ic := rfl
@[simp] theorem Part.modTileFab_core (t : Nat) (f : TileFab → TileFab) : (p.modTileFab t f).core = p.core := rfl
@[simp] theorem Part.modTileFab_slice (t : Nat) (f : TileFab → TileFab) : (p.modTileFab t f).slice = p.slice := rfl
@[simp] theorem Part.modTileFab_net (t : Nat) (f : TileFab → TileFab) : (p.modTileFab t f).net = p.net := rfl
@[simp] theorem Part.modTileFab_mem (t : Nat) (f : TileFab → TileFab) : (p.modTileFab t f).mem = p.mem := rfl
@[simp] theorem Part.modTileFab_pois (t : Nat) (f : TileFab → TileFab) : (p.modTileFab t f).pois = p.pois := rfl
@[simp] theorem Part.modTileFab_chan (t : Nat) (f : TileFab → TileFab) : (p.modTileFab t f).chan = p.chan := rfl
@[simp] theorem Part.modTileFab_mt (t : Nat) (f : TileFab → TileFab) : (p.modTileFab t f).mt = p.mt := rfl
@[simp] theorem Part.modTileFab_ras (t : Nat) (f : TileFab → TileFab) : (p.modTileFab t f).ras = p.ras := rfl
@[simp] theorem Part.modTileFab_elog (t : Nat) (f : TileFab → TileFab) : (p.modTileFab t f).elog = p.elog := rfl
@[simp] theorem Part.modTileFab_pci (t : Nat) (f : TileFab → TileFab) : (p.modTileFab t f).pci = p.pci := rfl
@[simp] theorem Part.modTileFab_pkt (t : Nat) (f : TileFab → TileFab) : (p.modTileFab t f).pkt = p.pkt := rfl
@[simp] theorem Part.modTileFab_key (t : Nat) (f : TileFab → TileFab) : (p.modTileFab t f).key = p.key := rfl
@[simp] theorem Part.modTileFab_ven (t : Nat) (f : TileFab → TileFab) : (p.modTileFab t f).ven = p.ven := rfl
@[simp] theorem Part.modTileFab_sys (t : Nat) (f : TileFab → TileFab) : (p.modTileFab t f).sys = p.sys := rfl
@[simp] theorem Part.modTileFab_rg (t : Nat) (f : TileFab → TileFab) (g : Fld) (x y : Nat) : (p.modTileFab t f).rg g x y = p.rg g x y := rfl
@[simp] theorem Part.modTileFab_thread (t : Nat) (f : TileFab → TileFab) (x : Nat) : (p.modTileFab t f).thread x = p.thread x := rfl
@[simp] theorem Part.modTileFab_icOf (t : Nat) (f : TileFab → TileFab) (x : Nat) : (p.modTileFab t f).icOf x = p.icOf x := rfl
@[simp] theorem Part.modTileFab_coreOf (t : Nat) (f : TileFab → TileFab) (x : Nat) : (p.modTileFab t f).coreOf x = p.coreOf x := rfl
@[simp] theorem Part.modTileFab_sliceOf (t : Nat) (f : TileFab → TileFab) (x : Nat) : (p.modTileFab t f).sliceOf x = p.sliceOf x := rfl
@[simp] theorem Part.modTileFab_chanOf (t : Nat) (f : TileFab → TileFab) (x : Nat) : (p.modTileFab t f).chanOf x = p.chanOf x := rfl
@[simp] theorem Part.modTileFab_mtOf (t : Nat) (f : TileFab → TileFab) (x : Nat) : (p.modTileFab t f).mtOf x = p.mtOf x := rfl
@[simp] theorem Part.modTileFab_rasOf (t : Nat) (f : TileFab → TileFab) (x : Nat) : (p.modTileFab t f).rasOf x = p.rasOf x := rfl

/-! ### send -/
@[simp] theorem Part.send_net (m : Msg) : (p.send m).net = p.net ++ [{ m with id := p.fab.next }] := rfl
@[simp] theorem Part.send_free (m : Msg) : (p.send m).free = p.free := rfl
@[simp] theorem Part.send_seq (m : Msg) : (p.send m).seq = p.seq := rfl
@[simp] theorem Part.send_time (m : Msg) : (p.send m).time = p.time := rfl
@[simp] theorem Part.send_ctl (m : Msg) : (p.send m).ctl = p.ctl := rfl
@[simp] theorem Part.send_held (m : Msg) : (p.send m).held = p.held := rfl
@[simp] theorem Part.send_thr (m : Msg) : (p.send m).thr = p.thr := rfl
@[simp] theorem Part.send_ic (m : Msg) : (p.send m).ic = p.ic := rfl
@[simp] theorem Part.send_core (m : Msg) : (p.send m).core = p.core := rfl
@[simp] theorem Part.send_slice (m : Msg) : (p.send m).slice = p.slice := rfl
@[simp] theorem Part.send_mem (m : Msg) : (p.send m).mem = p.mem := rfl
@[simp] theorem Part.send_pois (m : Msg) : (p.send m).pois = p.pois := rfl
@[simp] theorem Part.send_chan (m : Msg) : (p.send m).chan = p.chan := rfl
@[simp] theorem Part.send_mt (m : Msg) : (p.send m).mt = p.mt := rfl
@[simp] theorem Part.send_ras (m : Msg) : (p.send m).ras = p.ras := rfl
@[simp] theorem Part.send_elog (m : Msg) : (p.send m).elog = p.elog := rfl
@[simp] theorem Part.send_pci (m : Msg) : (p.send m).pci = p.pci := rfl
@[simp] theorem Part.send_pkt (m : Msg) : (p.send m).pkt = p.pkt := rfl
@[simp] theorem Part.send_key (m : Msg) : (p.send m).key = p.key := rfl
@[simp] theorem Part.send_ven (m : Msg) : (p.send m).ven = p.ven := rfl
@[simp] theorem Part.send_sys (m : Msg) : (p.send m).sys = p.sys := rfl
@[simp] theorem Part.send_rg (m : Msg) (g : Fld) (x y : Nat) : (p.send m).rg g x y = p.rg g x y := rfl
@[simp] theorem Part.send_thread (m : Msg) (x : Nat) : (p.send m).thread x = p.thread x := rfl
@[simp] theorem Part.send_icOf (m : Msg) (x : Nat) : (p.send m).icOf x = p.icOf x := rfl
@[simp] theorem Part.send_coreOf (m : Msg) (x : Nat) : (p.send m).coreOf x = p.coreOf x := rfl
@[simp] theorem Part.send_sliceOf (m : Msg) (x : Nat) : (p.send m).sliceOf x = p.sliceOf x := rfl
@[simp] theorem Part.send_chanOf (m : Msg) (x : Nat) : (p.send m).chanOf x = p.chanOf x := rfl
@[simp] theorem Part.send_mtOf (m : Msg) (x : Nat) : (p.send m).mtOf x = p.mtOf x := rfl
@[simp] theorem Part.send_rasOf (m : Msg) (x : Nat) : (p.send m).rasOf x = p.rasOf x := rfl
@[simp] theorem Part.send_tileFab (m : Msg) (x : Nat) : (p.send m).tileFab x = p.tileFab x := rfl
@[simp] theorem Part.send_fab (m : Msg) : (p.send m).fab = { p.fab with next := p.fab.next + 1 } := rfl

/-! ### Reading back -/
@[simp] theorem Part.modThread_thread_self (x : Nat) (f : Thr → Thr) : (p.modThread x f).thread x = f (p.thread x) := by simp [Part.modThread, Part.thread]
@[simp] theorem Part.modThread_thread_other (x y : Nat) (f : Thr → Thr) (h : y ≠ x) : (p.modThread x f).thread y = p.thread y := by simp [Part.modThread, Part.thread, h]
@[simp] theorem Part.modIc_icOf_self (x : Nat) (f : Ic → Ic) : (p.modIc x f).icOf x = f (p.icOf x) := by simp [Part.modIc, Part.icOf]
@[simp] theorem Part.modIc_icOf_other (x y : Nat) (f : Ic → Ic) (h : y ≠ x) : (p.modIc x f).icOf y = p.icOf y := by simp [Part.modIc, Part.icOf, h]
@[simp] theorem Part.modCore_coreOf_self (x : Nat) (f : CoreSt → CoreSt) : (p.modCore x f).coreOf x = f (p.coreOf x) := by simp [Part.modCore, Part.coreOf]
@[simp] theorem Part.modCore_coreOf_other (x y : Nat) (f : CoreSt → CoreSt) (h : y ≠ x) : (p.modCore x f).coreOf y = p.coreOf y := by simp [Part.modCore, Part.coreOf, h]
@[simp] theorem Part.modSlice_sliceOf_self (x : Nat) (f : SliceSt → SliceSt) : (p.modSlice x f).sliceOf x = f (p.sliceOf x) := by simp [Part.modSlice, Part.sliceOf]
@[simp] theorem Part.modSlice_sliceOf_other (x y : Nat) (f : SliceSt → SliceSt) (h : y ≠ x) : (p.modSlice x f).sliceOf y = p.sliceOf y := by simp [Part.modSlice, Part.sliceOf, h]
@[simp] theorem Part.modChan_chanOf_self (x : Nat) (f : ChanSt → ChanSt) : (p.modChan x f).chanOf x = f (p.chanOf x) := by simp [Part.modChan, Part.chanOf]
@[simp] theorem Part.modChan_chanOf_other (x y : Nat) (f : ChanSt → ChanSt) (h : y ≠ x) : (p.modChan x f).chanOf y = p.chanOf y := by simp [Part.modChan, Part.chanOf, h]
@[simp] theorem Part.modMt_mtOf_self (x : Nat) (f : MtSt → MtSt) : (p.modMt x f).mtOf x = f (p.mtOf x) := by simp [Part.modMt, Part.mtOf]
@[simp] theorem Part.modMt_mtOf_other (x y : Nat) (f : MtSt → MtSt) (h : y ≠ x) : (p.modMt x f).mtOf y = p.mtOf y := by simp [Part.modMt, Part.mtOf, h]
@[simp] theorem Part.modRas_rasOf_self (x : Nat) (f : RasSt → RasSt) : (p.modRas x f).rasOf x = f (p.rasOf x) := by simp [Part.modRas, Part.rasOf]
@[simp] theorem Part.modRas_rasOf_other (x y : Nat) (f : RasSt → RasSt) (h : y ≠ x) : (p.modRas x f).rasOf y = p.rasOf y := by simp [Part.modRas, Part.rasOf, h]
@[simp] theorem Part.modTileFab_tileFab_self (x : Nat) (f : TileFab → TileFab) : (p.modTileFab x f).tileFab x = f (p.tileFab x) := by simp [Part.modTileFab, Part.tileFab]
@[simp] theorem Part.modTileFab_tileFab_other (x y : Nat) (f : TileFab → TileFab) (h : y ≠ x) : (p.modTileFab x f).tileFab y = p.tileFab y := by simp [Part.modTileFab, Part.tileFab, h]
@[simp] theorem Part.setRg_rg_self (f : Fld) (v u i : Nat) : (p.setRg f v u i).rg f u i = v % 2 ^ f.width := by simp [Part.setRg, Part.rg]
theorem Part.setRg_rg_other (f g : Fld) (v u i x y : Nat) (h : g.key x y ≠ f.key u i) : (p.setRg f v u i).rg g x y = p.rg g x y := by
  simp [Part.setRg, Part.rg, h]
theorem Part.modThread_congr (t : Nat) (f g : Thr → Thr) (h : f (p.thread t) = g (p.thread t)) : p.modThread t f = p.modThread t g := by
  simp only [Part.modThread, Tab.upd, Part.thread] at h ⊢; rw [h]

/-! ### Registers of a thread (R31, R32) -/
variable (th : Thr)

@[simp] theorem Thr.setG_v (i : BitVec 5) (x : Dword) : (th.setG i x).v = th.v := by unfold Thr.setG; split <;> rfl
@[simp] theorem Thr.setG_m (i : BitVec 5) (x : Dword) : (th.setG i x).m = th.m := by unfold Thr.setG; split <;> rfl
@[simp] theorem Thr.setG_c (i : BitVec 5) (x : Dword) : (th.setG i x).c = th.c := by unfold Thr.setG; split <;> rfl
@[simp] theorem Thr.setG_sr (i : BitVec 5) (x : Dword) : (th.setG i x).sr = th.sr := by unfold Thr.setG; split <;> rfl
@[simp] theorem Thr.setG_level (i : BitVec 5) (x : Dword) : (th.setG i x).level = th.level := by unfold Thr.setG; split <;> rfl
@[simp] theorem Thr.setG_vm (i : BitVec 5) (x : Dword) : (th.setG i x).vm = th.vm := by unfold Thr.setG; split <;> rfl
@[simp] theorem Thr.setG_pc (i : BitVec 5) (x : Dword) : (th.setG i x).pc = th.pc := by unfold Thr.setG; split <;> rfl
@[simp] theorem Thr.setG_blk (i : BitVec 5) (x : Dword) : (th.setG i x).blk = th.blk := by unfold Thr.setG; split <;> rfl
@[simp] theorem Thr.setG_slot (i : BitVec 5) (x : Dword) : (th.setG i x).slot = th.slot := by unfold Thr.setG; split <;> rfl
@[simp] theorem Thr.setG_run (i : BitVec 5) (x : Dword) : (th.setG i x).run = th.run := by unfold Thr.setG; split <;> rfl
@[simp] theorem Thr.setG_wake (i : BitVec 5) (x : Dword) : (th.setG i x).wake = th.wake := by unfold Thr.setG; split <;> rfl
@[simp] theorem Thr.setG_instret (i : BitVec 5) (x : Dword) : (th.setG i x).instret = th.instret := by unfold Thr.setG; split <;> rfl
@[simp] theorem Thr.setG_mce (i : BitVec 5) (x : Dword) : (th.setG i x).mce = th.mce := by unfold Thr.setG; split <;> rfl
@[simp] theorem Thr.setG_dev (i : BitVec 5) (x : Dword) : (th.setG i x).dev = th.dev := by unfold Thr.setG; split <;> rfl
@[simp] theorem Thr.setG_tlbm (i : BitVec 5) (x : Dword) : (th.setG i x).tlbm = th.tlbm := by unfold Thr.setG; split <;> rfl
@[simp] theorem Thr.setG_ipis (i : BitVec 5) (x : Dword) : (th.setG i x).ipis = th.ipis := by unfold Thr.setG; split <;> rfl
@[simp] theorem Thr.setG_cr (i : BitVec 5) (x : Dword) (j : BitVec 3) : (th.setG i x).cr j = th.cr j := by unfold Thr.setG; split <;> rfl
@[simp] theorem Thr.setG_vr (i : BitVec 5) (x : Dword) (j : BitVec 5) : (th.setG i x).vr j = th.vr j := by unfold Thr.setG; split <;> rfl
@[simp] theorem Thr.setG_mr (i : BitVec 5) (x : Dword) (j : BitVec 3) : (th.setG i x).mr j = th.mr j := by unfold Thr.setG; split <;> rfl
@[simp] theorem Thr.setG_sys (i : BitVec 5) (x : Dword) (j : Nat) : (th.setG i x).sys j = th.sys j := by unfold Thr.setG; split <;> rfl
@[simp] theorem Thr.setC_g (i : BitVec 3) (b : Bool) : (th.setC i b).g = th.g := by unfold Thr.setC; split <;> rfl
@[simp] theorem Thr.setC_v (i : BitVec 3) (b : Bool) : (th.setC i b).v = th.v := by unfold Thr.setC; split <;> rfl
@[simp] theorem Thr.setC_m (i : BitVec 3) (b : Bool) : (th.setC i b).m = th.m := by unfold Thr.setC; split <;> rfl
@[simp] theorem Thr.setC_sr (i : BitVec 3) (b : Bool) : (th.setC i b).sr = th.sr := by unfold Thr.setC; split <;> rfl
@[simp] theorem Thr.setC_level (i : BitVec 3) (b : Bool) : (th.setC i b).level = th.level := by unfold Thr.setC; split <;> rfl
@[simp] theorem Thr.setC_vm (i : BitVec 3) (b : Bool) : (th.setC i b).vm = th.vm := by unfold Thr.setC; split <;> rfl
@[simp] theorem Thr.setC_pc (i : BitVec 3) (b : Bool) : (th.setC i b).pc = th.pc := by unfold Thr.setC; split <;> rfl
@[simp] theorem Thr.setC_blk (i : BitVec 3) (b : Bool) : (th.setC i b).blk = th.blk := by unfold Thr.setC; split <;> rfl
@[simp] theorem Thr.setC_slot (i : BitVec 3) (b : Bool) : (th.setC i b).slot = th.slot := by unfold Thr.setC; split <;> rfl
@[simp] theorem Thr.setC_run (i : BitVec 3) (b : Bool) : (th.setC i b).run = th.run := by unfold Thr.setC; split <;> rfl
@[simp] theorem Thr.setC_wake (i : BitVec 3) (b : Bool) : (th.setC i b).wake = th.wake := by unfold Thr.setC; split <;> rfl
@[simp] theorem Thr.setC_instret (i : BitVec 3) (b : Bool) : (th.setC i b).instret = th.instret := by unfold Thr.setC; split <;> rfl
@[simp] theorem Thr.setC_mce (i : BitVec 3) (b : Bool) : (th.setC i b).mce = th.mce := by unfold Thr.setC; split <;> rfl
@[simp] theorem Thr.setC_dev (i : BitVec 3) (b : Bool) : (th.setC i b).dev = th.dev := by unfold Thr.setC; split <;> rfl
@[simp] theorem Thr.setC_tlbm (i : BitVec 3) (b : Bool) : (th.setC i b).tlbm = th.tlbm := by unfold Thr.setC; split <;> rfl
@[simp] theorem Thr.setC_ipis (i : BitVec 3) (b : Bool) : (th.setC i b).ipis = th.ipis := by unfold Thr.setC; split <;> rfl
@[simp] theorem Thr.setC_gr (i : BitVec 3) (b : Bool) (j : BitVec 5) : (th.setC i b).gr j = th.gr j := by unfold Thr.setC; split <;> rfl
@[simp] theorem Thr.setC_vr (i : BitVec 3) (b : Bool) (j : BitVec 5) : (th.setC i b).vr j = th.vr j := by unfold Thr.setC; split <;> rfl
@[simp] theorem Thr.setC_mr (i : BitVec 3) (b : Bool) (j : BitVec 3) : (th.setC i b).mr j = th.mr j := by unfold Thr.setC; split <;> rfl
@[simp] theorem Thr.setC_sys (i : BitVec 3) (b : Bool) (j : Nat) : (th.setC i b).sys j = th.sys j := by unfold Thr.setC; split <;> rfl
@[simp] theorem Thr.setV_g (i : BitVec 5) (x : Vec) : (th.setV i x).g = th.g := rfl
@[simp] theorem Thr.setV_m (i : BitVec 5) (x : Vec) : (th.setV i x).m = th.m := rfl
@[simp] theorem Thr.setV_c (i : BitVec 5) (x : Vec) : (th.setV i x).c = th.c := rfl
@[simp] theorem Thr.setV_sr (i : BitVec 5) (x : Vec) : (th.setV i x).sr = th.sr := rfl
@[simp] theorem Thr.setV_level (i : BitVec 5) (x : Vec) : (th.setV i x).level = th.level := rfl
@[simp] theorem Thr.setV_vm (i : BitVec 5) (x : Vec) : (th.setV i x).vm = th.vm := rfl
@[simp] theorem Thr.setV_pc (i : BitVec 5) (x : Vec) : (th.setV i x).pc = th.pc := rfl
@[simp] theorem Thr.setV_blk (i : BitVec 5) (x : Vec) : (th.setV i x).blk = th.blk := rfl
@[simp] theorem Thr.setV_slot (i : BitVec 5) (x : Vec) : (th.setV i x).slot = th.slot := rfl
@[simp] theorem Thr.setV_run (i : BitVec 5) (x : Vec) : (th.setV i x).run = th.run := rfl
@[simp] theorem Thr.setV_wake (i : BitVec 5) (x : Vec) : (th.setV i x).wake = th.wake := rfl
@[simp] theorem Thr.setV_instret (i : BitVec 5) (x : Vec) : (th.setV i x).instret = th.instret := rfl
@[simp] theorem Thr.setV_mce (i : BitVec 5) (x : Vec) : (th.setV i x).mce = th.mce := rfl
@[simp] theorem Thr.setV_dev (i : BitVec 5) (x : Vec) : (th.setV i x).dev = th.dev := rfl
@[simp] theorem Thr.setV_tlbm (i : BitVec 5) (x : Vec) : (th.setV i x).tlbm = th.tlbm := rfl
@[simp] theorem Thr.setV_ipis (i : BitVec 5) (x : Vec) : (th.setV i x).ipis = th.ipis := rfl
@[simp] theorem Thr.setV_gr (i : BitVec 5) (x : Vec) (j : BitVec 5) : (th.setV i x).gr j = th.gr j := rfl
@[simp] theorem Thr.setV_cr (i : BitVec 5) (x : Vec) (j : BitVec 3) : (th.setV i x).cr j = th.cr j := rfl
@[simp] theorem Thr.setV_mr (i : BitVec 5) (x : Vec) (j : BitVec 3) : (th.setV i x).mr j = th.mr j := rfl
@[simp] theorem Thr.setV_sys (i : BitVec 5) (x : Vec) (j : Nat) : (th.setV i x).sys j = th.sys j := rfl
@[simp] theorem Thr.setM_g (i : BitVec 3) (x : Dword) : (th.setM i x).g = th.g := by unfold Thr.setM; split <;> rfl
@[simp] theorem Thr.setM_v (i : BitVec 3) (x : Dword) : (th.setM i x).v = th.v := by unfold Thr.setM; split <;> rfl
@[simp] theorem Thr.setM_c (i : BitVec 3) (x : Dword) : (th.setM i x).c = th.c := by unfold Thr.setM; split <;> rfl
@[simp] theorem Thr.setM_sr (i : BitVec 3) (x : Dword) : (th.setM i x).sr = th.sr := by unfold Thr.setM; split <;> rfl
@[simp] theorem Thr.setM_level (i : BitVec 3) (x : Dword) : (th.setM i x).level = th.level := by unfold Thr.setM; split <;> rfl
@[simp] theorem Thr.setM_vm (i : BitVec 3) (x : Dword) : (th.setM i x).vm = th.vm := by unfold Thr.setM; split <;> rfl
@[simp] theorem Thr.setM_pc (i : BitVec 3) (x : Dword) : (th.setM i x).pc = th.pc := by unfold Thr.setM; split <;> rfl
@[simp] theorem Thr.setM_blk (i : BitVec 3) (x : Dword) : (th.setM i x).blk = th.blk := by unfold Thr.setM; split <;> rfl
@[simp] theorem Thr.setM_slot (i : BitVec 3) (x : Dword) : (th.setM i x).slot = th.slot := by unfold Thr.setM; split <;> rfl
@[simp] theorem Thr.setM_run (i : BitVec 3) (x : Dword) : (th.setM i x).run = th.run := by unfold Thr.setM; split <;> rfl
@[simp] theorem Thr.setM_wake (i : BitVec 3) (x : Dword) : (th.setM i x).wake = th.wake := by unfold Thr.setM; split <;> rfl
@[simp] theorem Thr.setM_instret (i : BitVec 3) (x : Dword) : (th.setM i x).instret = th.instret := by unfold Thr.setM; split <;> rfl
@[simp] theorem Thr.setM_mce (i : BitVec 3) (x : Dword) : (th.setM i x).mce = th.mce := by unfold Thr.setM; split <;> rfl
@[simp] theorem Thr.setM_dev (i : BitVec 3) (x : Dword) : (th.setM i x).dev = th.dev := by unfold Thr.setM; split <;> rfl
@[simp] theorem Thr.setM_tlbm (i : BitVec 3) (x : Dword) : (th.setM i x).tlbm = th.tlbm := by unfold Thr.setM; split <;> rfl
@[simp] theorem Thr.setM_ipis (i : BitVec 3) (x : Dword) : (th.setM i x).ipis = th.ipis := by unfold Thr.setM; split <;> rfl
@[simp] theorem Thr.setM_gr (i : BitVec 3) (x : Dword) (j : BitVec 5) : (th.setM i x).gr j = th.gr j := by unfold Thr.setM; split <;> rfl
@[simp] theorem Thr.setM_cr (i : BitVec 3) (x : Dword) (j : BitVec 3) : (th.setM i x).cr j = th.cr j := by unfold Thr.setM; split <;> rfl
@[simp] theorem Thr.setM_vr (i : BitVec 3) (x : Dword) (j : BitVec 5) : (th.setM i x).vr j = th.vr j := by unfold Thr.setM; split <;> rfl
@[simp] theorem Thr.setM_sys (i : BitVec 3) (x : Dword) (j : Nat) : (th.setM i x).sys j = th.sys j := by unfold Thr.setM; split <;> rfl
@[simp] theorem Thr.setSys_g (n : Nat) (x : Dword) : (th.setSys n x).g = th.g := rfl
@[simp] theorem Thr.setSys_v (n : Nat) (x : Dword) : (th.setSys n x).v = th.v := rfl
@[simp] theorem Thr.setSys_m (n : Nat) (x : Dword) : (th.setSys n x).m = th.m := rfl
@[simp] theorem Thr.setSys_c (n : Nat) (x : Dword) : (th.setSys n x).c = th.c := rfl
@[simp] theorem Thr.setSys_level (n : Nat) (x : Dword) : (th.setSys n x).level = th.level := rfl
@[simp] theorem Thr.setSys_vm (n : Nat) (x : Dword) : (th.setSys n x).vm = th.vm := rfl
@[simp] theorem Thr.setSys_pc (n : Nat) (x : Dword) : (th.setSys n x).pc = th.pc := rfl
@[simp] theorem Thr.setSys_blk (n : Nat) (x : Dword) : (th.setSys n x).blk = th.blk := rfl
@[simp] theorem Thr.setSys_slot (n : Nat) (x : Dword) : (th.setSys n x).slot = th.slot := rfl
@[simp] theorem Thr.setSys_run (n : Nat) (x : Dword) : (th.setSys n x).run = th.run := rfl
@[simp] theorem Thr.setSys_wake (n : Nat) (x : Dword) : (th.setSys n x).wake = th.wake := rfl
@[simp] theorem Thr.setSys_instret (n : Nat) (x : Dword) : (th.setSys n x).instret = th.instret := rfl
@[simp] theorem Thr.setSys_mce (n : Nat) (x : Dword) : (th.setSys n x).mce = th.mce := rfl
@[simp] theorem Thr.setSys_dev (n : Nat) (x : Dword) : (th.setSys n x).dev = th.dev := rfl
@[simp] theorem Thr.setSys_tlbm (n : Nat) (x : Dword) : (th.setSys n x).tlbm = th.tlbm := rfl
@[simp] theorem Thr.setSys_ipis (n : Nat) (x : Dword) : (th.setSys n x).ipis = th.ipis := rfl
@[simp] theorem Thr.setSys_gr (n : Nat) (x : Dword) (j : BitVec 5) : (th.setSys n x).gr j = th.gr j := rfl
@[simp] theorem Thr.setSys_cr (n : Nat) (x : Dword) (j : BitVec 3) : (th.setSys n x).cr j = th.cr j := rfl
@[simp] theorem Thr.setSys_vr (n : Nat) (x : Dword) (j : BitVec 5) : (th.setSys n x).vr j = th.vr j := rfl
@[simp] theorem Thr.setSys_mr (n : Nat) (x : Dword) (j : BitVec 3) : (th.setSys n x).mr j = th.mr j := rfl

@[simp] theorem Thr.setG_zero (x : Dword) : th.setG 0 x = th := by simp [Thr.setG]
@[simp] theorem Thr.gr_zero : th.gr 0 = 0 := by simp [Thr.gr]
@[simp] theorem Thr.cr_zero : th.cr 0 = true := by simp [Thr.cr]
@[simp] theorem Thr.mr_zero : th.mr 0 = BitVec.allOnes 64 := by simp [Thr.mr]
theorem Thr.setG_gr_self (i : BitVec 5) (x : Dword) (h : i ≠ 0) : (th.setG i x).gr i = x := by
  simp only [Thr.setG, Thr.gr, if_neg h, Tab.get_put_self]
@[simp] theorem Thr.setV_vr_self (i : BitVec 5) (x : Vec) : (th.setV i x).vr i = x := by simp [Thr.setV, Thr.vr]
@[simp] theorem Thr.setSys_sys_self (n : Nat) (x : Dword) : (th.setSys n x).sys n = x := by simp [Thr.setSys, Thr.sys]
theorem Thr.setSys_sys_other (n m : Nat) (x : Dword) (h : m ≠ n) : (th.setSys n x).sys m = th.sys m := by simp [Thr.setSys, Thr.sys, h]

end Sys2Proof.Machine
end

