-- ==== Sys2Proof/Laws/Exec.lean ====
section
/-!
SUPPORT. What each shared operation of an instruction can do, said once: how a command acts on the state, how a thread's
instruction starts, stops or retires, and how lanes of a vector are put together.
-/
namespace Sys2Proof.Machine

/-- A meaning that is one effect on the part ends in the state after that effect. -/
theorem exec_run {s : State} {o : Host.Outcome State Fault Refusal} {f : Part → Part} {e : Part}
    (h : o = s.run f) (he : f s.part = e) : o = s.after e := by subst h; subst he; rfl


/-- Messages sent one after the other are numbered in turn. -/
theorem sends_all (m : Msg) (l : List Agent) (q : Part) :
    l.foldl (fun (r : Part) (d : Agent) => r.send { m with dst := d }) q
      = { q with net := q.net ++ (l.zipIdx.map (fun x => { m with dst := x.1, id := q.fab.next + x.2 })),
                 fab := { q.fab with next := q.fab.next + l.length } } := by
  induction l generalizing q with
  | nil => simp
  | cons a l ih =>
    rw [List.foldl_cons, ih]
    simp only [Part.send, List.zipIdx_cons, List.map_cons, List.length_cons, List.append_assoc, List.cons_append, List.nil_append, Nat.add_zero, Nat.zero_add]
    rw [List.zipIdx_succ]
    simp [Function.comp_def, Nat.add_comm, Nat.add_left_comm]

/-- An instruction that is legal here runs its body on the part with its word fetched. -/
theorem runInstr_ok {p q : Part} {t : Nat} (h : p.fetched t q) (i : Info) (body : Part → Res)
    (hl : i.legal = true) (hs : (q.thread t).slot = none ∨ i.slotOk = true)
    (he : (q.thread t).atLoopEnd = false ∨ i.loopEnd = true) :
    p.runInstr t i body = Part.complete t i.cost (body q) := by
  obtain ⟨h1, h2⟩ := h
  have a : ((q.thread t).slot.isSome && !i.slotOk) = false := by rcases hs with h | h <;> simp [h]
  have b : ((q.thread t).atLoopEnd && !i.loopEnd) = false := by rcases he with h | h <;> simp [h]
  simp [Part.runInstr, h1, h2, hl, a, b]

/-- In a delay slot, an instruction that may not stand there raises SLOT_ILLEGAL (R129). -/
theorem runInstr_slot {p r : Part} {t : Nat} (h1 : p.startable t = true) (h2 : p.fetch t = .ok r) (i : Info) (body : Part → Res)
    (hl : i.legal = true) (hs : (r.thread t).slot ≠ none) (hi : i.slotOk = false) :
    p.runInstr t i body = r.raise t cSlotIllegal 0 none false := by
  have : (r.thread t).slot.isSome = true := by rw [Option.isSome_iff_ne_none]; exact hs
  simp [Part.runInstr, h1, h2, hl, this, hi]

/-- On the last instruction of an active loop body, one that may not end it raises LOOP_ILLEGAL (R100). -/
theorem runInstr_loop {p r : Part} {t : Nat} (h1 : p.startable t = true) (h2 : p.fetch t = .ok r) (i : Info) (body : Part → Res)
    (hl : i.legal = true) (hs : (r.thread t).slot = none) (he : (r.thread t).atLoopEnd = true) (hi : i.loopEnd = false) :
    p.runInstr t i body = r.raise t cLoopIllegal 0 none false := by
  simp [Part.runInstr, h1, h2, hl, hs, hi, he]

/-- A reserved encoding raises ILLEGAL (R64). -/
theorem runInstr_bad {p r : Part} {t : Nat} (h1 : p.startable t = true) (h2 : p.fetch t = .ok r) (i : Info) (body : Part → Res)
    (hl : i.legal = false) :
    p.runInstr t i body = r.raise t cIllegal 0 none false := by
  simp [Part.runInstr, h1, h2, hl]

/-- An instruction that changes its own thread and retires. -/
theorem runInstr_thread {p q : Part} {t : Nat} (h : p.fetched t q) (i : Info) (f g : Thr → Thr) (k : Nat) (hl : i.legal = true)
    (hs : i.slotOk = true) (he : i.loopEnd = true) (hk : i.cost = k) (hf : f = g) :
    p.runInstr t i (fun q => .retire (q.modThread t f)) = (q.modThread t g).retires t k := by
  rw [runInstr_ok h i _ hl (Or.inr hs) (Or.inr he)]; subst hk hf; rfl

/-- An instruction that writes one g register. -/
theorem gInstr_ok {p q : Part} {t : Nat} (h : p.fetched t q) (cost : Nat) (rd : BitVec 5) (f : Thr → Option Dword)
    (v : Dword) (hv : f (q.thread t) = some v) (hl : ∀ a b, (f a).isSome = (f b).isSome) :
    p.gInstr t cost rd f = (q.modThread t (fun th => th.setG rd v)).retires t cost := by
  unfold Part.gInstr
  rw [runInstr_ok h]
  · rw [Part.modThread_congr q t _ (fun th => th.setG rd v) (by simp [hv])]; rfl
  · rw [hl _ (q.thread t), hv]; rfl
  · simp
  · simp

theorem gInstr_fun {p q : Part} {t : Nat} (h : p.fetched t q) (cost : Nat) (rd : BitVec 5) (g : Thr → Dword) :
    p.gInstr t cost rd (fun th => some (g th)) = (q.modThread t (fun th => th.setG rd (g th))).retires t cost := by
  rw [gInstr_ok h cost rd _ (g (q.thread t)) rfl (fun _ _ => rfl)]
  rw [Part.modThread_congr q t (fun th => th.setG rd (g (q.thread t))) (fun th => th.setG rd (g th)) rfl]

/-- An instruction that writes one c register. -/
theorem cInstr_ok {p q : Part} {t : Nat} (h : p.fetched t q) (cd : BitVec 3) (f : Thr → Option Bool)
    (v : Bool) (hv : f (q.thread t) = some v) (hl : ∀ a b, (f a).isSome = (f b).isSome) :
    p.cInstr t cd f = (q.modThread t (fun th => th.setC cd v)).retires t 1 := by
  unfold Part.cInstr
  rw [runInstr_ok h]
  · rw [Part.modThread_congr q t _ (fun th => th.setC cd v) (by simp [hv])]; rfl
  · rw [hl _ (q.thread t), hv]; rfl
  · simp
  · simp

/-- A scalar load that raises nothing, and a scalar store. -/
theorem ldInstr_ok {p q r : Part} {t n : Nat} {rd ra : BitVec 5} {imm : BitVec 16} {sx : Bool} {v : Nat} (h : p.fetched t q)
    (hv : q.load t ((q.thread t).gr ra + imm.signExtend 64) n = .ok r v) :
    p.ldInstr t n sx rd ra imm = (r.modThread t (fun th => th.setG rd (if sx then sextN (8 * n) v else dw v))).retires t 1 := by
  unfold Part.ldInstr
  rw [runInstr_ok h _ _ rfl (Or.inr rfl) (Or.inr rfl)]
  simp only [Thr.ea, sextImm, hv, MRes.res]; rfl

theorem stInstr_ok {p q r : Part} {t n : Nat} {rd ra : BitVec 5} {imm : BitVec 16} {v : Nat} (h : p.fetched t q)
    (hv : q.store t ((q.thread t).gr ra + imm.signExtend 64) n (((q.thread t).gr rd).toNat % 2 ^ (8 * n)) = .ok r v) :
    p.stInstr t n rd ra imm = r.retires t 1 := by
  unfold Part.stInstr
  rw [runInstr_ok h _ _ rfl (Or.inr rfl) (Or.inr rfl)]
  simp only [Thr.ea, sextImm, hv, MRes.res]; rfl

/-! ### What follows every command (R308, R309, R496) -/

/-- Outside a running socket no halt of the boot core is acted on. -/
theorem haltCheck_stopped {p : Part} (h : p.sys.boot ≠ .released) : p.haltCheck = p := by simp [Part.haltCheck, h]

/-- With no bandwidth monitor selected no window ends (R562), and with TIME where the cycles have been counted to none is added (R555). -/
theorem bwRolls_none {p : Part} (h : p.sys.gperf.bw = []) : p.bwRolls = p := by simp [Part.bwRolls, h]
theorem foldl_still {α β : Type} (f : α → β → α) (l : List β) (a : α) (h : ∀ x y, f x y = x) : l.foldl f a = a := by
  induction l with
  | nil => rfl
  | cons b l ih => rw [List.foldl_cons, h, ih]
theorem perfCycles_now {p : Part} (h : p.time ≤ p.sys.gperf.cyc) : p.perfCycles = p := by
  have hn (f : Nat) : p.time * f / 40 - p.sys.gperf.cyc * f / 40 = 0 :=
    Nat.sub_eq_zero_of_le (Nat.div_le_div_right (Nat.mul_le_mul_right f h))
  unfold Part.perfCycles
  rw [foldl_still _ _ _ fun r t => foldl_still _ _ _ fun s c => by simp [hn]]
  show { p with sys := { p.sys with gperf := { p.sys.gperf with cyc := max p.sys.gperf.cyc p.time } } } = p
  rw [Nat.max_eq_left h]

/-- With no core state, no IPI or timeout report to move on, no lane group closing and no core on its way through R309, only the halt of
the boot core is looked at. -/
theorem settle_idle {p : Part} (hb : p.sys.gperf.bw = []) (ht : p.time ≤ p.sys.gperf.cyc) (hc : p.core = []) (hi : p.ipiNowhere.mailPump = p)
    (hg : p.pci.closing = []) (he : p.sys.pwr.entering = []) : p.settle = p.haltCheck := by
  simp [Part.settle, bwRolls_none hb, perfCycles_now ht, hc, hi, hg, he]

/-! Whether a word is legal depends on its fields alone. -/

theorem alu64_isSome (op : Nat) (a b c d : Dword) (z : Bool) : (alu64 op a b z).isSome = (alu64 op c d z).isSome := by
  cases z <;> simp only [alu64] <;> split <;> simp
theorem alu32_isSome (op : Nat) (a b c d : BitVec 32) (z : Bool) : (alu32 op a b z).isSome = (alu32 op c d z).isSome := by
  cases z <;> simp only [alu32] <;> split <;> simp
theorem aluResult_isSome (fn : BitVec 11) (rb : BitVec 5) (a b c d : Dword) :
    (aluResult fn rb a b).isSome = (aluResult fn rb c d).isSome := by
  unfold aluResult
  split
  · rfl
  · simp only []
    split
    · simp only [Option.isSome_map]
      exact alu32_isSome ..
    · exact alu64_isSome ..

theorem cmpCond_isSome (cc : BitVec 4) {w : Nat} (a b c d : BitVec w) : (cmpCond cc a b).isSome = (cmpCond cc c d).isSome := by
  unfold cmpCond; split <;> rfl
theorem clogFun_isSome (n : Nat) (a b c d : Bool) : (clogFun n a b).isSome = (clogFun n c d).isSome := by
  unfold clogFun; split <;> rfl
theorem shiResult_isSome (i : BitVec 16) (a b : Dword) : (shiResult i a).isSome = (shiResult i b).isSome := by
  unfold shiResult; simp only []
  split
  · rfl
  · split
    · simp only [Option.isSome_map]; exact alu32_isSome ..
    · exact alu64_isSome ..

/-! ### Lanes of a vector -/

theorem mkVec_sum (B : Nat) (f : Nat → Nat) (n : Nat) (a : Nat) :
    (List.range n).foldl (fun a j => a + f j % 2 ^ B * 2 ^ (B * j)) a
      = a + (List.range n).foldl (fun a j => a + f j % 2 ^ B * 2 ^ (B * j)) 0 := by
  induction n with
  | zero => simp
  | succ n ih => rw [List.range_succ, List.foldl_append, List.foldl_append, ih]; simp; omega
/-- A sum of digits is below the next power, and each digit is found again. -/
theorem digits (B : Nat) (f : Nat → Nat) (n : Nat) :
    let S := fun n => (List.range n).foldl (fun a j => a + f j % 2 ^ B * 2 ^ (B * j)) 0
    S n < 2 ^ (B * n) ∧ ∀ j, j < n → S n / 2 ^ (B * j) % 2 ^ B = f j % 2 ^ B := by
  induction n with
  | zero => simp
  | succ n ih =>
    obtain ⟨h1, h2⟩ := ih
    intro S
    have e : S (n + 1) = S n + f n % 2 ^ B * 2 ^ (B * n) := by
      simp only [S, List.range_succ, List.foldl_append, List.foldl_cons, List.foldl_nil]
    have hm : f n % 2 ^ B < 2 ^ B := Nat.mod_lt _ (Nat.pow_pos (by omega))
    refine ⟨?_, ?_⟩
    · rw [e]
      have : 2 ^ (B * (n + 1)) = 2 ^ B * 2 ^ (B * n) := by rw [← Nat.pow_add]; congr 1; rw [Nat.mul_add]; omega
      rw [this]
      have h1' : S n < 2 ^ (B * n) := h1
      calc S n + f n % 2 ^ B * 2 ^ (B * n) < 2 ^ (B * n) + f n % 2 ^ B * 2 ^ (B * n) := by omega
        _ = (f n % 2 ^ B + 1) * 2 ^ (B * n) := by rw [Nat.add_mul]; omega
        _ ≤ 2 ^ B * 2 ^ (B * n) := Nat.mul_le_mul_right _ hm
    · intro j hj
      rw [e]
      by_cases hjn : j = n
      · subst hjn
        have h1' : S j < 2 ^ (B * j) := h1
        rw [Nat.add_mul_div_right _ _ (Nat.pow_pos (by omega)), Nat.div_eq_of_lt h1']; simp
      · have hlt : j < n := by omega
        have := h2 j hlt
        obtain ⟨d, rfl⟩ : ∃ d, n = j + 1 + d := ⟨n - (j + 1), by omega⟩
        have e2 : 2 ^ (B * (j + 1 + d)) = 2 ^ (B * d) * 2 ^ B * 2 ^ (B * j) := by
          rw [← Nat.pow_add, ← Nat.pow_add]; congr 1
          rw [Nat.mul_add, Nat.mul_add]; omega
        rw [e2]
        rw [show f (j + 1 + d) % 2 ^ B * (2 ^ (B * d) * 2 ^ B * 2 ^ (B * j)) = (f (j + 1 + d) % 2 ^ B * 2 ^ (B * d) * 2 ^ B) * 2 ^ (B * j) by simp only [Nat.mul_assoc]]
        rw [Nat.add_mul_div_right _ _ (Nat.pow_pos (by omega))]
        rw [Nat.add_mul_mod_self_right]
        exact this

/-- Lane `j` of a vector made lane by lane. -/
theorem lane_mkVec (b j : Nat) (f : Nat → Nat) (hb : b = 1 ∨ b = 2 ∨ b = 4 ∨ b = 8) (hj : j < 64 / b) :
    lane (mkVec b f) b j = f j % 2 ^ (8 * b) := by
  obtain ⟨h1, h2⟩ := digits (8 * b) f (64 / b)
  have hlt : 8 * b * (64 / b) = 512 := by rcases hb with rfl | rfl | rfl | rfl <;> rfl
  rw [hlt] at h1
  unfold lane mkVec
  rw [BitVec.toNat_ofNat, Nat.mod_eq_of_lt h1]
  exact h2 j hj

/-! ### Messages -/

/-- A command's message that is not under way is acted on at once. -/
theorem onArrival_now {q : Msg} {f : Part → Part} {p : Part} (h : p.underway q = false) : Part.onArrival q f p = f p := by
  have e : p.fabUntil (fun r => !r.underway q) 4096 = p := by
    show (if (!p.underway q || p.fabQuiet) = true then p else _) = p
    simp [h]
  unfold Part.onArrival
  simp only [e, h]
  simp

/-- A message command ends as its meaning says, once the message is received. -/
theorem exec_receives {s : State} {o : Host.Outcome State Fault Refusal} {q m : Msg} {r e : Part} {f : Part → Part}
    (h1 : o = s.run (Part.onArrival q f)) (h2 : s.part.receives q m r) (h3 : f s.part = e) : o = s.after e := by
  subst h3; rw [h1]; show Host.Outcome.next _ = _; rw [onArrival_now h2.1]; rfl

/-- The message received has the command's code. -/
theorem receives_opc {p r : Part} {q m : Msg} (h : p.receives q m r) : m.opc = q.opc := by
  have key : ∀ (l : List Msg) (x : Msg × List Msg), takeMsg q.same l = some x → x.1.opc = q.opc := by
    intro l
    induction l with
    | nil => intro x h; cases h
    | cons a l ih =>
      intro x h
      unfold takeMsg at h
      by_cases ha : q.same a = true
      · rw [if_pos ha] at h; cases h
        unfold Msg.same at ha; simp at ha; exact ha.1.1.1.1.symm
      · rw [if_neg ha] at h
        cases hx : takeMsg q.same l with
        | none => rw [hx] at h; cases h
        | some y => rw [hx] at h; cases h; exact ih y hx
  obtain ⟨_, h⟩ := h
  unfold Part.arrive at h
  split at h
  · rename_i x rest e; cases h; exact key _ _ e
  · cases h; rfl

/-! ### Control registers -/

/-- A write of a control register that answers with the fields `l` puts the word into each of them, and then acts as its page says. -/
theorem ctl_open {p : Part} {m : Master} {f : Fld} {u i : Nat} {l : List Fld} (h : p.opens f u i l) (v : BitVec 32)
    (hf : m.top = true ∨ ∀ g ∈ l, g.fo = false) (hb : ∀ g ∈ l, g.blk = f.blk) (hn : l ≠ [])
    (h1 : f.blk ≠ .perf) (h2 : f.blk ≠ .gperf) (h3 : f.blk ≠ .ven) (hw : ∀ g ∈ l, g ≠ F.VEN_BW_EN) :
    p.regPut m f u i v = (l.foldl (fun (r : Part) (g : Fld) => r.putFld m ⟨g, u, i⟩ v.toNat) p).regHook p m f.blk u (f.word i) v.toNat (l.map (fun g => At.mk g u i)) := by
  obtain ⟨a, b⟩ := h
  have hw : wrote (l.map (fun g => At.mk g u i)) F.VEN_BW_EN = false := by
    simp only [wrote, List.any_map, List.any_eq_false, Function.comp]; intro g hg; simp [hw g hg]
  have hfil : (l.map (fun g => At.mk g u i)).filter (fun a => m.top || !a.f.fo) = l.map (fun g => At.mk g u i) := by
    rw [List.filter_eq_self]; intro x hx; simp at hx; obtain ⟨g, hg, rfl⟩ := hx
    rcases hf with h | h <;> simp [h]; right; exact h g hg
  have hfo : (!m.top && (l.map (fun g => At.mk g u i)).any (fun a => a.f.fo)) = false := by
    rcases hf with h | h <;> simp [h]; intro _ g hg; simp [h g hg]
  have hbc : p.blockCheck m (f.blk.place u) (f.word i) v.toNat (l.map (fun g => At.mk g u i)) = (p, l.map (fun g => At.mk g u i)) := by
    cases l with
    | nil => simp at hn
    | cons g l =>
      have := hb g (by simp)
      simp only [List.map_cons, Part.blockCheck, this]
  have hd : ((l.map (fun g => At.mk g u i)).map (fun a => (a.f.blk, a.u))).eraseDups = [(f.blk, u)] := by
    have : (l.map (fun g => At.mk g u i)).map (fun a => (a.f.blk, a.u)) = List.replicate l.length (f.blk, u) := by
      rw [List.map_map, List.eq_replicate_iff]; simp; intro g hg; exact hb g hg
    rw [this]
    have hl : l.length ≠ 0 := by simpa using hn
    obtain ⟨n, hn⟩ := Nat.exists_eq_succ_of_ne_zero hl
    rw [hn]
    simp [List.replicate_succ, List.eraseDups_cons]
  have hbl : (l.map (fun g => At.mk g u i)).filter (fun a => a.f.blk = f.blk) = l.map (fun g => At.mk g u i) := by
    rw [List.filter_eq_self]; intro x hx; simp at hx; obtain ⟨g, hg, rfl⟩ := hx; simp [hb g hg]
  simp only [Part.regPut, a, b, Part.ctlWrite, hfo, hfil, Bool.false_eq_true, if_false, hbc, hw, hd, List.foldl_cons, List.foldl_nil, hbl, List.foldl_map]

end Sys2Proof.Machine
end

