-- ==== Sys2Proof/Laws/Memory.lean ====
section
/-!
SUPPORT. The laws of DRAM bytes: reads after writes, and every operation that writes memory keeps its canonical form.
-/
namespace Sys2Proof.Machine

theorem Memory.wf_iff (m : List (Nat × Byte)) :
    Memory.wf m = true ↔ Tab.sorted m = true ∧ ∀ e ∈ m, e.2 ≠ Config.dramReset := by
  simp [Memory.wf]

theorem Memory.wf_filter (m : List (Nat × Byte)) (f : Nat × Byte → Bool) (h : Memory.wf m = true) :
    Memory.wf (m.filter f) = true := by
  rw [Memory.wf_iff, Tab.sorted_iff] at *
  exact ⟨h.1.sublist (List.filter_sublist.map _), fun e he => h.2 e (List.mem_filter.1 he).1⟩

theorem Tab.mem_ins {α : Type} (k : Nat) (v : α) (t : Tab α) (e : Nat × α) : e ∈ Tab.ins k v t → e = (k, v) ∨ e ∈ t := by
  induction t with
  | nil => simp [Tab.ins]
  | cons p t ih =>
    simp only [Tab.ins]; split
    · simp
    · intro h; rcases List.mem_cons.1 h with h | h
      · simp [h]
      · rcases ih h with h | h <;> simp [h]

/-- A read after a write of one byte. -/
theorem Memory.get_put (m : List (Nat × Byte)) (k j : Nat) (b : Byte) :
    Memory.get (Memory.put m k b) j = if j = k then b else Memory.get m j := by
  unfold Memory.put Memory.get
  split
  · subst b; by_cases h : j = k
    · subst h; simp
    · simp [h]
  · rw [Tab.get_put]

/-- Writing a byte keeps the canonical form. -/
theorem Memory.wf_put (m : List (Nat × Byte)) (k : Nat) (b : Byte) (h : Memory.wf m = true) :
    Memory.wf (Memory.put m k b) = true := by
  unfold Memory.put; split
  · exact Memory.wf_filter _ _ h
  · rename_i hb
    rw [Memory.wf_iff] at *
    refine ⟨Tab.sorted_put _ _ _ h.1, fun e he => ?_⟩
    rcases Tab.mem_ins _ _ _ _ he with rfl | he
    · exact hb
    · exact h.2 e (List.mem_filter.1 he).1

/-- A property that every step of a fold keeps. -/
theorem foldl_keeps {α β : Type} (P : β → Prop) (f : β → α → β) (l : List α) (b : β) (hb : P b)
    (hf : ∀ b a, P b → P (f b a)) : P (l.foldl f b) := by
  induction l generalizing b with
  | nil => exact hb
  | cons a l ih => exact ih _ (hf _ _ hb)

/-- Writing a line keeps the canonical form. -/
theorem Memory.wf_putLine (m : List (Nat × Byte)) (k : Nat) (d : Vec) (mask : Dword) (h : Memory.wf m = true) :
    Memory.wf (Memory.putLine m k d mask) = true := by
  refine foldl_keeps (fun m => Memory.wf m = true) _ _ _ h (fun b a hb => ?_)
  split
  · exact Memory.wf_put _ _ _ hb
  · exact hb

/-- A write queue entry that goes to DRAM keeps the form. -/
theorem Part.wf_dramWrite (p : Part) (c : Nat) (e : WqEnt) (h : Memory.wf p.mem = true) :
    Memory.wf (p.dramWrite c e).mem = true := Memory.wf_putLine _ _ _ _ h

/-- Draining the oldest entry of a write queue keeps the form. -/
theorem Part.wf_wqDrain (p : Part) (c : Nat) (h : Memory.wf p.mem = true) : Memory.wf (p.wqDrain c).mem = true := by
  unfold Part.wqDrain; split
  · exact h
  · exact Part.wf_dramWrite _ _ _ h

/-- Draining the entries of one line keeps the form. -/
theorem Part.wf_wqLine (p : Part) (c ca : Nat) (h : Memory.wf p.mem = true) : Memory.wf (p.wqLine c ca).mem = true :=
  foldl_keeps (fun (r : Part) => Memory.wf r.mem = true) _ _ _ h (fun b a hb => Part.wf_dramWrite b c a hb)

/-- What becomes of the queued entries at a reset keeps the form. -/
theorem Part.wf_wqEnd (p : Part) (b : Bool) (c : Nat) (h : Memory.wf p.mem = true) : Memory.wf (p.wqEnd b c).mem = true := by
  unfold Part.wqEnd; simp only []; split
  · exact h
  · refine foldl_keeps (fun (r : Part) => Memory.wf r.mem = true) _ _ _ h (fun r a hr => ?_)
    split
    · exact Part.wf_dramWrite _ _ _ hr
    · split
      · exact Part.wf_dramWrite _ _ _ hr
      · exact hr

/-- Accepting a write in a channel keeps the form. -/
theorem Part.wf_chanWrite (p : Part) (c : Nat) (e : WqEnt) (h : Memory.wf p.mem = true) :
    Memory.wf (p.chanWrite c e).mem = true := by
  unfold Part.chanWrite; split
  · exact h
  · simp only [Part.modChan]; split
    · exact Part.wf_wqDrain _ _ h
    · exact h

/-- Draining the oldest entry of a persistent write buffer keeps the form. -/
theorem Part.wf_pwbDrain (p : Part) (i : Nat) (h : Memory.wf p.mem = true) : Memory.wf (p.pwbDrain i).mem = true := by
  unfold Part.pwbDrain; split
  · exact h
  · exact Part.wf_dramWrite _ _ _ (Part.wf_wqLine _ _ _ h)

/-- Entries left when supplies fail keep the form. -/
theorem Part.wf_drainOpen (p : Part) (i : Nat) (h : Memory.wf p.mem = true) : Memory.wf (p.drainOpen i).mem = true := by
  refine foldl_keeps (fun (r : Part) => Memory.wf r.mem = true) _ _ _ h (fun r a hr => ?_)
  split
  · exact Part.wf_dramWrite _ _ _ hr
  · exact hr

/-- The initialisation of check bits keeps the form. -/
theorem Part.wf_eccInit (p : Part) (h : Memory.wf p.mem = true) : Memory.wf p.eccInit.mem = true :=
  Memory.wf_filter _ _ h

/-- A reset of the socket keeps the form. -/
theorem Part.wf_socketReset (p : Part) (k : ResetKind) (h : Memory.wf p.mem = true) :
    Memory.wf (p.socketReset k).mem = true := by
  unfold Part.socketReset
  refine foldl_keeps (fun (r : Part) => Memory.wf r.mem = true) _ _ _ ?_ (fun r a hr => hr)
  refine Memory.wf_filter _ _ ?_
  split
  · exact h
  · exact foldl_keeps (fun (r : Part) => Memory.wf r.mem = true) _ _ _ h (fun r a hr => Part.wf_wqEnd _ _ _ hr)

theorem State.reset_memWf : State.reset.memWf = true := rfl

end Sys2Proof.Machine
end

