-- ==== Sys2Proof/Machine/Package.lean ====
section
/-!
DEFINITION. The contacts of the package: regions, groups, signals, and which contacts a variant leaves reserved (R564 to R568).
-/
namespace Sys2Proof.Machine

/-- What a contact belongs to (R565). -/
inductive Contact where
  | ddr (c : Nat) | pe (g : Nat) | eth | dvt (d : Nat) | management | vddCd (n : Nat) | vddBase | vddMphy | vddSerdes | vddaSerdes
  | vstbyMain | vstbyBak | sense | reserved | vss
  deriving DecidableEq, Repr

inductive PadRegion where | west | east | south | north | centre
  deriving DecidableEq, Repr

/-- Columns and rows of a region (R566). -/
def PadRegion.bounds : PadRegion → Nat × Nat × Nat × Nat
  | .west => (1, 24, 1, 72) | .east => (63, 86, 1, 72) | .south => (25, 62, 1, 12) | .north => (25, 62, 57, 72) | .centre => (25, 62, 13, 56)

def PadRegion.has (r : PadRegion) (col row : Nat) : Bool :=
  let (c0, c1, r0, r1) := r.bounds
  decide (c0 ≤ col) && decide (col ≤ c1) && decide (r0 ≤ row) && decide (row ≤ r1)

/-- A contact is fitted at a position of the 86 × 72 array: none in the four corner blocks (R564). -/
def fitted (col row : Nat) : Bool :=
  decide (1 ≤ col) && decide (col ≤ 86) && decide (1 ≤ row) && decide (row ≤ 72)
    && !((decide (col ≤ 4) || decide (83 ≤ col)) && (decide (row ≤ 6) || decide (67 ≤ row)))

/-- The region of a fitted position. -/
def regionAt (col row : Nat) : Option PadRegion :=
  if fitted col row then [PadRegion.west, .east, .south, .north, .centre].find? (fun r => r.has col row) else none

/-- The groups of a region in fill order, with their contacts (R566). -/
def PadRegion.fill : PadRegion → List (Contact × Nat)
  | .west => (List.range 8).map (fun c => (.ddr c, 152)) ++ [(.vddMphy, 30), (.vss, 434)]
  | .east => (List.range 8).map (fun c => (.ddr (c + 8), 152)) ++ [(.vddMphy, 30), (.vss, 434)]
  | .south => (List.range 4).map (fun g => (.pe g, 74)) ++ [(.eth, 66), (.reserved, 2), (.vss, 92)]
  | .north => (List.range 4).map (fun g => (.pe (g + 4), 74)) ++ (List.range 4).map (fun d => (.dvt d, 48)) ++ [(.management, 40), (.vss, 80)]
  | .centre => (List.range 4).map (fun n => (.vddCd n, 260)) ++ [(.vddBase, 120), (.vddSerdes, 100), (.vddaSerdes, 20), (.vstbyMain, 4),
      (.vstbyBak, 4), (.sense, 12), (.reserved, 36), (.vss, 336)]

/-- The fitted positions of a row of a region: the first column, and how many. -/
def PadRegion.row (r : PadRegion) (row : Nat) : Nat × Nat :=
  let (c0, c1, _, _) := r.bounds
  let l := (List.range (c1 + 1 - c0)).filter (fun i => fitted (c0 + i) row)
  (c0 + l.headD 0, l.length)

/-- The place of a fitted position in its region's row-major order (R566). -/
def PadRegion.place (r : PadRegion) (col row : Nat) : Nat :=
  let (_, _, r0, _) := r.bounds
  (List.range (row - r0)).foldl (fun a i => a + (r.row (r0 + i)).2) 0 + (col - (r.row row).1)

/-- The group that fills place `n`, and the signal's number within the unit. -/
def fillAt : List (Contact × Nat) → Nat → Option (Contact × Nat)
  | [], _ => none
  | (g, k) :: t, n => if n < k then some (g, n) else fillAt t (n - k)

/-- The contact at a position. -/
def contactAt (col row : Nat) : Option (Contact × Nat) := (regionAt col row).bind (fun r => fillAt r.fill (r.place col row))

/-! ### Signals (R567) -/

/-- `pre0post`, `pre1post`, … -/
def numbered (pre post : String) (n : Nat) : List String := (List.range n).map (fun i => pre ++ toString i ++ post)
def pairs (pre : String) (n : Nat) : List String :=
  (List.range n).flatMap (fun i => [pre ++ toString i ++ "_P", pre ++ toString i ++ "_N"])

/-- The signals of a unit in fill order. -/
def Contact.signals : Contact → List String
  | .ddr c =>
    let m := "MC" ++ toString c ++ "_"
    let sub (x : String) : List String :=
      [m ++ x ++ "_CK_P", m ++ x ++ "_CK_N"] ++ numbered (m ++ x ++ "_CA") "" 7 ++ numbered (m ++ x ++ "_CS") "_N" 4 ++ [m ++ x ++ "_PAR"]
    numbered (m ++ "DQA") "" 40 ++ numbered (m ++ "DQB") "" 40 ++ pairs (m ++ "DQSA") 10 ++ pairs (m ++ "DQSB") 10 ++ sub "A" ++ sub "B"
      ++ [m ++ "ALERT_N", m ++ "DRST_N", m ++ "SCL", m ++ "SDA"]
  | .pe g =>
    let m := "PE" ++ toString g ++ "_"
    pairs (m ++ "TX") 16 ++ pairs (m ++ "RX") 16 ++ [m ++ "CLKOUT_P", m ++ "CLKOUT_N"] ++ numbered (m ++ "PERST") "_N" 8
  | .eth => pairs "ETH_TX" 16 ++ pairs "ETH_RX" 16 ++ ["ETH_RCAL0", "ETH_RCAL1"]
  | .dvt d => pairs ("DV" ++ toString d ++ "_TX") 12 ++ pairs ("DV" ++ toString d ++ "_RX") 12
  | .management => ["REFCLK_P", "REFCLK_N", "RSTIN_N", "PWRFAIL_N", "STBY_OK", "SKT_MASTER", "ENUM_IN", "ENUM_OUT", "VRHOT_N", "FLUSHDONE",
      "THERMTRIP_N", "I3C_SCL", "I3C_SDA", "SPI_CLK", "SPI_CS_N"] ++ numbered "SPI_IO" "" 4 ++ ["PMB_CLK", "PMB_DAT", "PMB_ALERT_N", "AVS_CLK"]
      ++ numbered "AVS_MDATA" "" 4 ++ numbered "AVS_SDATA" "" 4 ++ ["TCK", "TMS", "TDI", "TDO", "TRST_N"] ++ numbered "TEST_EN" "" 4
  | .sense => (List.range 4).flatMap (fun n => ["VDD_CD" ++ toString n ++ "_SNS", "VSS_CD" ++ toString n ++ "_SNS"])
      ++ ["VDD_BASE_SNS", "VSS_BASE_SNS", "VDD_SERDES_SNS", "VSS_SERDES_SNS"]
  | _ => []

/-- A contact that the variant does not drive, terminate or receive on: reserved, or of an absent unit (R568). -/
def Contact.floats (v : Variant) : Contact → Bool
  | .reserved => true
  | .eth => decide (v = .h256n)
  | .ddr c => match v with
    | .h192 => [6, 7, 14, 15].contains c
    | .h96s => [2, 3, 6, 7, 10, 11, 14, 15].contains c
    | _ => false
  | .dvt d => match v with | .h192 => decide (2 ≤ d) | .h96s => true | _ => false
  | .pe g => decide (v = .h96s) && decide (4 ≤ g)
  | _ => false

end Sys2Proof.Machine
end

