-- ==== Sys2Proof/Machine/Words.lean ====
section
/-!
DEFINITION. A thread's instruction as a word (R63, R64): what the word stands for is executed, and a word with a reserved
encoding raises ILLEGAL. The rows of the opcode table name each instruction with its fields, so none has the words that R64
reserves (notes/assumptions/12.md); this is their meaning.
-/
namespace Sys2Proof.Machine

/-- A word with a reserved major opcode or function code raises ILLEGAL and has no other effect (R64). -/
def Part.reservedWord (t : Nat) (p : Part) : Part := p.runInstr t { legal := false } (fun q => .retire q)

/-- Thread `t` executes the instruction word `w`. -/
def execWord (t : ThreadId) (w : BitVec 32) (s : State) : Host.Outcome State Fault Refusal :=
  match Sys2Proof.decodeWord t w with
  | some i => exec i s
  | none => s.run (Part.reservedWord t.val)

end Sys2Proof.Machine
end

