-- ==== Sys2Proof/Tests/Slice0.lean ====
section
/-!
SUPPORT. Small states on which the statements' hypotheses hold, one witness a statement, and tests of what is well-formed and of
values that the specification states.
-/
namespace Sys2Proof.Tests
open Sys2Proof Sys2Proof.Machine
set_option Elab.async false

/-! ### A part with one thread that runs from a held line -/

/-- Thread 0 of core 0 runs at level F at 0x1000; g1 is 0x1008, g2 is 3. -/
def tThr : Thr := { Thr.reset with pc := 0x1000, run := .running, g := [(1, 0x1008), (2, 3)] }

/-- A line of memory in which each byte is 0x11. -/
def tLine : Line := { Line.zero with data := BitVec.ofNat 512 ((List.range 64).foldl (fun (a _ : Nat) => a * 256 + 0x11) 0) }

/-- Write fields of unit 0, index 0. -/
def sets (p : Part) (l : List (Fld × Nat)) : Part := l.foldl (fun (r : Part) (a : Fld × Nat) => r.setRg a.1 a.2) p

/-- The registers of a part with its units there: cores and slices 0 to 31 in service, every tile, and one gigabyte of
memory at address 0 on channel 0, which is trained. -/
def tMap : Tab Nat :=
  (sets Part.reset [(F.MC_ILV_BASE_V, 1), (F.MC_ILV_TGT_CHMASK, 1), (F.MC_STAT_TRAINED, 1), (F.MC_CAP_GB, 64), (F.PAL_SKT_SKTCNT, 1),
    (F.PAL_UNITS_MTILE, 0xFF), (F.PAL_UNITS_P0, 1), (F.PAL_UNITS_P1, 1), (F.PAL_UNITS_PE, 1), (F.PAL_UNITS_DVT, 1), (F.PAL_UNITS_CXLMEM, 1),
    (F.PAL_CORE_MAP_INSVC, 0xFFFFFFFF), (F.PAL_SLICE_MAP_INSVC, 0xFFFFFFFF), (F.PAL_CORES_CORES, 32), (F.PAL_CORES_SPARE, 8),
    (F.PAL_SLICES_SLICES, 32), (F.PAL_QUEUES_QUEUES, 16384), (F.PAL_KEYS_KEYS, 8192), (F.PAL_VENEER_INSTANCES, 1024),
    (F.PAL_FLOWS_FLOWS, 262144), (F.PAL_NET_SERDES, 16), (F.PAL_NET_PORTS, 32), (F.PAL_IO_LINKS, 4), (F.PAL_IO_GROUPS, 8),
    (F.PAL_IO_MAXSKT, 16), (F.PAL_GEN_GEN, 1)]).ctl

/-- The block running: boot over, RSTIN_N high, a key digest of slot 0 blown. -/
def tSys : SysSt := { SysSt.reset with boot := .released, fuses := { SysSt.reset.fuses with hash := [(0, 5)] }, pins := { SysSt.reset.pins with rstLow := false } }

/-- A line that core 0 holds in way 0 of its L2. -/
def tL2 (st : L2St) (held : Bool := false) : L2Line := ⟨st, tLine, 0, held, 0, 0, false⟩

/-- A core that holds the line of 0x1000, used last in each cache. -/
def tCore : CoreSt := { CoreSt.reset with l2 := [(0x40, tL2 .m)], l2p := [(0x40, 22)], l1i := ⟨[(0x40, 0)], [(0x40, 6)]⟩ }

/-- A part whose core 0 holds the line of 0x1000 in its L1 and L2 caches, modified, and runs thread 0. -/
def tPart : Part :=
  { Part.reset with
    ctl := tMap
    sys := tSys
    thr := [(0, tThr), (1, { Thr.reset with run := .parked })]
    core := [(0, tCore)] }

/-- The same with another thread state. -/
def tOf (f : Thr → Thr) : Part := { tPart with thr := [(0, f tThr), (1, { Thr.reset with run := .parked })] }

def tState (p : Part) : State := { pending := [], part := p }

def isOk : MRes → Bool
  | .ok _ _ => true
  | _ => false

theorem ok_some {x : MRes} (h : isOk x = true) : ∃ r v, x = .ok r v := by
  cases x <;> simp [isOk] at h ⊢

/-- What a step answers, if it is a next state. -/
def nextPart : Host.Outcome State Fault Refusal → Option Part
  | .next s => some s.part
  | _ => none

/-- The thread at level U, with stage 1 off. -/
def tUser : Part := tOf fun x => { x with level := .u }

/-- The fetch is done and leaves this part. -/
def fetchIs (x : Fetch) (p : Part) : Bool :=
  match x with
  | .ok q => decide (q = p)
  | _ => false

theorem fetched_of {p q : Part} {t : Nat} (h : (p.startable t && fetchIs (p.fetch t) q) = true) : p.fetched t q := by
  simp only [Bool.and_eq_true] at h
  refine ⟨h.1, ?_⟩
  cases hf : p.fetch t with
  | ok r => have h2 := h.2; rw [hf] at h2; simp only [fetchIs, decide_eq_true_eq] at h2; rw [h2]
  | wait r => have h2 := h.2; rw [hf] at h2; simp [fetchIs] at h2
  | exc r a b => have h2 := h.2; rw [hf] at h2; simp [fetchIs] at h2

theorem test_fetched : tPart.fetched 0 tPart := fetched_of (by decide +kernel)
theorem test_fetched_u : tUser.fetched 0 tUser := fetched_of (by decide +kernel)

/-! ### Witnesses: instructions -/

/-- A word of ALU, SHI, CMP and CLOG with a result, at the fetched state. -/
theorem witness_scalar : tPart.fetched 0 tPart ∧ aluResult 0 2 ((tPart.thread 0).gr 1) ((tPart.thread 0).gr 2) = some 0x100B ∧
    (∃ v, shiResult 0x0004 ((tPart.thread 0).gr 1) = some v) ∧ (3 : BitVec 5).toNat < 4 :=
  ⟨test_fetched, by decide +kernel, ⟨_, rfl⟩, by decide⟩
theorem witness_division : ((0 : Dword) = 0) ∧ ((5 : Dword) ≠ 0) ∧ ((1 : BitVec 5) ≠ 0) := by decide
theorem witness_select : tPart.startable 0 = true ∧ tPart.fetch 0 = .ok tPart ∧ 12 ≤ (15 : BitVec 4).toNat := ⟨test_fetched.1, test_fetched.2, by decide⟩

theorem witness_loads : tPart.fetched 0 tPart ∧ (∃ r v, tPart.load 0 ((tPart.thread 0).gr 1 + (8 : BitVec 16).signExtend 64) 1 = .ok r v) ∧
    (∃ r v, tPart.load 0 ((tPart.thread 0).gr 1 + (0 : BitVec 16).signExtend 64) 8 = .ok r v) :=
  ⟨test_fetched, ok_some (by decide +kernel), ok_some (by decide +kernel)⟩
theorem witness_stores : tPart.fetched 0 tPart ∧
    (∃ r v, tPart.store 0 ((tPart.thread 0).gr 1 + (0 : BitVec 16).signExtend 64) 1 (((tPart.thread 0).gr 2).toNat % 2 ^ 8) = .ok r v) ∧
    (∃ r v, tPart.store 0 ((tPart.thread 0).gr 1 + (0 : BitVec 16).signExtend 64) 8 ((tPart.thread 0).gr 2).toNat = .ok r v) :=
  ⟨test_fetched, ok_some (by decide +kernel), ok_some (by decide +kernel)⟩
theorem witness_ordered : tPart.fetched 0 tPart ∧ ((tPart.thread 0).gr 1).toNat % 2 ^ (3 : BitVec 2).toNat = 0 ∧
    tPart.performStores 0 true = (tPart, true) ∧ (∃ u v, tPart.load 0 ((tPart.thread 0).gr 1) (2 ^ (3 : BitVec 2).toNat) = .ok u v) ∧
    (∃ r l, tPart.check 0 .store ((tPart.thread 0).gr 1) false cAlign [(0, 2 ^ (3 : BitVec 2).toNat)] [] = .ok r l ∧
      ∃ u, r.performStores 0 true = (u, true) ∧ ∃ w v, u.store 0 ((tPart.thread 0).gr 1) 8 3 = .ok w v) :=
  ⟨test_fetched, by decide +kernel, rfl, ok_some (by decide +kernel), ⟨_, _, rfl, _, rfl, ok_some (by decide +kernel)⟩⟩
theorem witness_atomic : tPart.fetched 0 tPart ∧ amoLegal 3 2 0x022 = true ∧ amoLegal 3 2 0x032 = true ∧ amoLegal 4 2 0x001 = true ∧
    (∃ r v, tPart.amo 0 ((tPart.thread 0).gr 1) 4 2 3 0 0 false false = .ok r v) ∧
    (∃ r v, tPart.amo 0 ((tPart.thread 0).gr 1) 8 2 3 0 0 false false = .ok r v) ∧
    (∃ r v, (tOf fun x => { x with g := [(1, 0x1010), (2, 3)] }).amo 0 0x1010 16 1 ((tPart.thread 0).pair 2) 0 0 false false = .ok r v) :=
  ⟨test_fetched, by decide +kernel, by decide +kernel, by decide +kernel, ok_some (by decide +kernel), ok_some (by decide +kernel), ok_some (by decide +kernel)⟩
theorem witness_atomic_operands : 0 < 64 ∧ 5 < 2 ^ 64 ∧ 7 < 2 ^ 64 ∧ 5 ≠ 6 := by decide
theorem witness_cache : tPart.fetched 0 tPart ∧ (tPart.thread 0).level ≠ .u ∧ (∃ r v, tPart.lineOp 0 0x1008 .load (some .clean) = .ok r v) ∧
    (∃ r v, tPart.lineOp 0 0x1008 .load (some .flush) = .ok r v) ∧ (∃ r v, tPart.lineOp 0 0x1008 .load none = .ok r v) ∧
    (∃ r v, tPart.lineOp 0 0x1008 .store (some .inval) = .ok r v) ∧ (∃ r v, tPart.lineZero 0 0x1008 = .ok r v) ∧
    tUser.fetched 0 tUser ∧ (tUser.thread 0).level = .u :=
  ⟨test_fetched, by decide, ok_some (by decide +kernel), ok_some (by decide +kernel), ok_some (by decide +kernel), ok_some (by decide +kernel), ok_some (by decide +kernel), test_fetched_u, rfl⟩
/-- At level S, with stage 1 off. -/
def tSup : Part := tOf fun x => { x with level := .s }
theorem witness_tlb : tSup.fetched 0 tSup ∧ (tSup.thread 0).level = .s ∧ tPart.performStores 0 true = (tPart, true) ∧
    ((tPart.charge 0 1).tlbInval 0 ⟨0, 0, 0, false, 0⟩).sktId = 0 ∧
    (List.range ({ tPart with ctl := [(F.PAL_SKT_SKTCNT.key 0 0, 2)] } : Part).sktCnt).filter (· ≠ 0) = [1] :=
  ⟨fetched_of (by decide +kernel), rfl, rfl, by decide +kernel, by decide +kernel⟩

/-- tPart with branch target buffer entries. -/
def tBtb (b : List BtbEnt) : Part := tPart.modCore 0 (fun c => { c with btb := b })
theorem modCore_same {p : Part} {c : Nat} {f : CoreSt → CoreSt} (h : p.core.upd CoreSt.reset c f = p.core) : p.modCore c f = p := by
  unfold Part.modCore; rw [h]
theorem test_plumb_off : tPart.plumb 0 = false := by decide +kernel
theorem tBtb_plumb (b : List BtbEnt) : (tBtb b).plumb 0 = false := by
  rw [← test_plumb_off]; unfold tBtb Part.plumb Part.rgOn Part.rg; rw [Part.modCore_ctl]
theorem test_fetched_btb (b : List BtbEnt) : (tBtb b).fetched 0 (tBtb b) := by
  have hc : (tBtb b).coreOf 0 = { tCore with btb := b } := rfl
  have hcore : (tBtb b).core = [(0, { tCore with btb := b })] := rfl
  have ht : (tBtb b).translate 0 .fetch 0x1000 = .ok (tBtb b) 0x1000 .cacheable 0 := by
    unfold Part.translate; rw [if_pos (.inr rfl)]; rfl
  have hp := tBtb_plumb b
  have hl : (tBtb b).fromLoopBuf 0 = false := by unfold Part.fromLoopBuf; rw [hc]; rfl
  have hg : (tBtb b).l2Get 0 0x40 = some (tL2 .m) := by unfold Part.l2Get; rw [hc]; rfl
  have hu : (tBtb b).l2Touch 0 0x40 = tBtb b := by
    have h : Tab.put [(0x40, 22)] (l2Set 64) (treeTouch 0 3 1 (Tab.get 0 [(0x40, 22)] (l2Set 64))) = [(0x40, 22)] := by decide +kernel
    unfold Part.l2Touch; rw [hg]; refine modCore_same ?_
    rw [hcore]
    show [(0, { ({ tCore with btb := b } : CoreSt) with l2p := Tab.put [(0x40, 22)] (l2Set 64) (treeTouch 0 3 1 (Tab.get 0 [(0x40, 22)] (l2Set 64))) })] = _
    rw [h]; rfl
  have hi : (tBtb b).modCore 0 (fun s => s.l1iUse 0x40) = tBtb b := by
    have h : TagCache.use 256 2 tCore.l1i 0x40 = tCore.l1i := by decide +kernel
    refine modCore_same ?_
    rw [hcore]
    show [(0, { ({ tCore with btb := b } : CoreSt) with l1i := TagCache.use 256 2 tCore.l1i 0x40 })] = _
    rw [h]
  have hw : (tBtb b).capture 0 0x40 = tBtb b := by unfold Part.capture; rw [hc]; rfl
  have hd : (tBtb b).devAnswer 0 0x1000 64 = none := rfl
  have hr : (tBtb b).cohLine 0 0x40 0 = .done (tBtb b) tLine := by
    unfold Part.cohLine Part.cohRead Part.coreAsks; simp only [Nat.zero_div, hp, hg, hu, hd, Part.heard]; rfl
  have he : (tBtb b).plumbEntering 0 = false := by
    rw [show false = tPart.plumbEntering 0 by decide +kernel]; unfold tBtb Part.plumbEntering Part.rgOn Part.rg; rw [Part.modCore_ctl]
  refine ⟨?_, ?_⟩
  · unfold Part.startable Part.eventDue
    rw [hp, he, show (tBtb b).thread 0 = tThr from rfl, show (tBtb b).icOf 0 = Ic.reset from rfl, show (tBtb b).sys = tSys from rfl, Bool.false_and]
    decide +kernel
  have hpc : ((tBtb b).thread 0).pc = 0x1000 := rfl
  unfold Part.fetch
  simp only [hpc, ht, hl, hp, Part.charge, show (BitVec.toNat (0x1000 : Dword)) % 4 = 0 from rfl]
  simp
  rw [hr]
  simp [hp, hg, hi, hw, show tLine.poisoned 0 4 = false by decide +kernel]
/-- The entry that predicts g2 for the transfer at 0x1000, at level F under the level's secret. -/
def tEntry : BtbEnt := ⟨.f, 0, tPart.btbSet 0 0x1000, 0x1000, 0, .jr, 3 ^^^ tPart.secretOf 0⟩
theorem test_predicted : (tBtb [tEntry]).btbFind 0 0x1000 = some 3 := by
  have hc : (tBtb [tEntry]).coreOf 0 = { tCore with btb := [tEntry] } := rfl
  have hs : (tBtb [tEntry]).secretOf 0 = tPart.secretOf 0 := by
    unfold Part.secretOf; rw [show (tBtb [tEntry]).thread 0 = tThr from rfl, show tPart.thread 0 = tThr from rfl, hc, show tPart.coreOf 0 = tCore from rfl]
  have hb : (tBtb [tEntry]).btbSet 0 0x1000 = tPart.btbSet 0 0x1000 := by
    unfold Part.btbSet; rw [hs, show (tBtb [tEntry]).thread 0 = tThr from rfl, show tPart.thread 0 = tThr from rfl]
  have hm : (tBtb [tEntry]).btbMatch 0 0x1000 tEntry = true := by
    unfold Part.btbMatch
    rw [hb, show (tBtb [tEntry]).thread 0 = tThr from rfl]
    show (decide (Level.f = tThr.level) && decide (tPart.btbSet 0 0x1000 = tPart.btbSet 0 0x1000) && decide ((0x1000 : Dword) = tThr.entryPoint 0x1000)
      && (tThr.level.secret || decide (0 = 0))) = true
    simp only [decide_true]; decide +kernel
  have he : (tBtb [tEntry]).rgOn F.CORE_CFG_BTBEN 0 = true := by
    rw [show true = tPart.rgOn F.CORE_CFG_BTBEN 0 by decide +kernel]; unfold tBtb Part.rgOn Part.rg; rw [Part.modCore_ctl]
  unfold Part.btbFind
  rw [if_neg (by simp [he, show (tBtb [tEntry]).plumb 0 = false from tBtb_plumb _]), hc]
  simp only [List.find?_cons, hm]
  rw [if_pos (by rfl), hs]
  simp [tEntry, BitVec.xor_assoc]
theorem witness_transfers : tPart.fetched 0 tPart ∧ tPart.plainSite 0 ∧ (2 : BitVec 5) ≠ 1 ∧ tPart.btbFind 0 0x1000 ≠ some 3 ∧
    (∃ p : Part, p.fetched 0 p ∧ p.plainSite 0 ∧ p.btbFind 0 0x1000 = some ((p.thread 0).gr 2)) ∧
    (tPart.rasPop 0).1 ≠ some ((tPart.thread 0).gr 1) ∧
    (∃ p : Part, p.fetched 0 p ∧ p.plainSite 0 ∧ (p.rasPop 0).1 = some ((p.thread 0).gr 1)) :=
  ⟨test_fetched, by unfold Part.plainSite; decide +kernel, by decide, by decide +kernel,
   ⟨tBtb [tEntry], test_fetched_btb _, ⟨rfl, by rfl⟩, test_predicted⟩,
   by decide +kernel,
   ⟨tUser.modCore 0 (fun c => { c with ras0 := [⟨.u, 0x1008⟩] }), fetched_of (by decide +kernel), by unfold Part.plainSite; decide +kernel, by decide +kernel⟩⟩
/-- In a delay slot, and on the last instruction of an active loop body. -/
def tSlot : Part := tOf fun x => { x with slot := some ⟨0x2000, false⟩ }
def tLoopEnd : Part := tOf fun x => { x with sr := [(srLC 0, 2), (srLS 0, 0xF00), (srLE 0, 0x1003), (srLACT, 1)] }
theorem witness_slot_and_loop : tSlot.startable 0 = true ∧ tSlot.fetch 0 = .ok tSlot ∧ (tSlot.thread 0).slot ≠ none ∧
    tLoopEnd.startable 0 = true ∧ tLoopEnd.fetch 0 = .ok tLoopEnd ∧ (tLoopEnd.thread 0).slot = none ∧ (tLoopEnd.thread 0).atLoopEnd = true :=
  ⟨(fetched_of (q := tSlot) (by decide +kernel)).1, (fetched_of (by decide +kernel)).2, by decide +kernel, by decide +kernel, (fetched_of (by decide +kernel)).2, rfl, by decide +kernel⟩
theorem witness_loop : tPart.fetched 0 tPart ∧ tPart.plainSite 0 ∧ (∃ u w l, tPart.checkWord 0 0x1004 none = .val u w l ∧ wordNoLoopEnd w = false) ∧
    (∃ r w l, tPart.checkWord 0 (0x1010 - 4) none = .val r w l ∧ wordTransfer w = false ∧
      ∃ u y k, r.checkWord 0 0x1010 (some l) = .val u y k ∧ wordNoLoopEnd y = false) :=
  ⟨test_fetched, by unfold Part.plainSite; decide +kernel, ⟨_, _, _, rfl, by decide +kernel⟩,
   ⟨_, _, _, rfl, by decide +kernel, ⟨_, _, _, rfl, by decide +kernel⟩⟩⟩
theorem witness_system_registers : tPart.fetched 0 tPart ∧ (tPart.thread 0).srDenied 0x010 true = none ∧ srMode 0x010 = false ∧
    (tPart.thread 0).srDenied 0xC00 true = none ∧ srMode 0xC00 = true ∧ (tPart.thread 0).slot = none ∧ (tPart.thread 0).srDenied 0x000 false = none ∧
    (∀ w ∈ [View.s, View.h, View.f], (tPart.thread 0).srDenied w.base.toNat false = none ∧ (tPart.thread 0).srDenied (w.base + 3).toNat true = none ∧
      (tPart.thread 0).srDenied (w.base + 4).toNat true = none) :=
  ⟨test_fetched, by decide +kernel, by decide +kernel, by decide +kernel, by decide +kernel, rfl, by decide +kernel, by decide +kernel⟩
/-- A guest, at level S. -/
def tGuest : Part := tOf fun x => { x with level := .s, vm := true }
theorem witness_denied : tGuest.fetched 0 tGuest ∧ (tGuest.thread 0).vm = true ∧ (0x800 : BitVec 12).toNat / 0x400 = 2 ∧
    tUser.fetched 0 tUser ∧ (0xC00 : BitVec 12).toNat / 0x400 > (tUser.thread 0).level.code ∧ ((tUser.thread 0).sys 0x411).getLsbD 2 = false ∧
    srExists (0x003 : BitVec 12).toNat = false :=
  ⟨fetched_of (by decide +kernel), rfl, by decide, test_fetched_u, by decide +kernel, by decide +kernel, by decide +kernel⟩
theorem witness_trap_return : tPart.fetched 0 tPart ∧ tPart.plainSite 0 ∧ (tPart.thread 0).retxDenied = false ∧
    ((tPart.thread 0).ret.level ≠ (tPart.thread 0).level) ∧
    (∃ p : Part, p.fetched 0 p ∧ p.plainSite 0 ∧ (p.thread 0).retxDenied = false ∧ (p.thread 0).ret.level = (p.thread 0).level ∧ (p.thread 0).ret.vm = (p.thread 0).vm) ∧
    tUser.plainSite 0 ∧ (tUser.thread 0).retxDenied = true :=
  ⟨test_fetched, by unfold Part.plainSite; decide +kernel, by decide +kernel, by decide +kernel,
   ⟨tOf fun x => { x with sr := [(0xC03, 3)] }, fetched_of (by decide +kernel), by unfold Part.plainSite; decide +kernel, by decide +kernel, by decide +kernel, by decide +kernel⟩,
   by unfold Part.plainSite; decide +kernel, by decide +kernel⟩
theorem witness_wait : tPart.fetched 0 tPart ∧ (tPart.thread 0).level ≠ .u ∧ (tPart.thread 0).slot = none ∧ tPart.wakeDue 0 = false ∧
    tSlot.fetched 0 tSlot ∧ (tSlot.thread 0).slot ≠ none ∧ tUser.fetched 0 tUser ∧ (tUser.thread 0).level = .u ∧
    ((tOf fun x => { x with run := .waiting, wake := true }).thread 0).run = .waiting ∧ (tOf fun x => { x with run := .waiting, wake := true }).wakeDue 0 = true :=
  ⟨test_fetched, by decide, rfl, by decide +kernel, fetched_of (by decide +kernel), by decide, test_fetched_u, rfl, rfl, by decide +kernel⟩
theorem witness_fences : tPart.fetched 0 tPart ∧ (0x18 : BitVec 12).toNat < 64 ∧ (0x18 : BitVec 12).getLsbD 1 = false ∧ (0x18 : BitVec 12).getLsbD 4 = true ∧
    tPart.performStores 0 false = (tPart, true) ∧ (0x01 : BitVec 12).getLsbD 4 = false ∧
    tPart.drainThread 0 (fun e => decide (e.ty = .cacheable) || tPart.isPers e.line) = (tPart, true) ∧ (tPart.coreOf 0).pwt = [] ∧ (tPart.thread 0).tlbm = [] :=
  ⟨test_fetched, by decide, by decide, by decide, rfl, by decide, rfl, rfl, rfl⟩
theorem witness_reserved : tPart.startable 0 = true ∧ tPart.fetch 0 = .ok tPart ∧ (∀ a b, aluResult 0x00C 0 a b = none) ∧ 8 ≤ (8 : BitVec 11).toNat ∧
    4 ≤ (4 : BitVec 5).toNat ∧ 12 ≤ (12 : BitVec 4).toNat ∧ amoLegal 0 0 0x7FF = false :=
  ⟨test_fetched.1, test_fetched.2, fun _ _ => rfl, by decide, by decide, by decide, by decide +kernel⟩

/-! ### Witnesses: vectors, exceptions and interrupts -/

theorem witness_masked : (1 = 1 ∨ 1 = 2 ∨ 1 = 4 ∨ 1 = 8) ∧ 63 < 64 / 1 ∧ 7 < 64 / 8 := by decide
theorem witness_elements : 0 < 8 ∧ 200 < 2 ^ 8 ∧ 100 < 2 ^ 8 ∧ 2 ^ 8 ≤ 200 + 100 ∧ 100 ≤ 200 ∧ 21 ≤ 64 := by decide
theorem witness_vector_integer : tPart.fetched 0 tPart ∧ (0x033 : BitVec 11).toNat % 32 < 20 ∧ (elemCond 0 0 false 0 0).isSome = true ∧ (elemCond 5 0 false 0 0).isSome = true ∧
    (7 : BitVec 5).toNat < 8 := ⟨test_fetched, by decide, by decide +kernel, by decide +kernel, by decide⟩
theorem witness_floating : tPart.fetched 0 tPart ∧ ((tPart.thread 0).rmode 7).isSome = true ∧ (0x010 : BitVec 11).getLsbD 6 = false ∧ (0x010 : BitVec 11).toNat % 16 ≤ 10 ∧
    (0x01B : BitVec 11).getLsbD 10 = false ∧ 11 ≤ (0x01B : BitVec 11).toNat % 16 ∧ (0x01B : BitVec 11).toNat % 16 ≤ 13 ∧ (0x010 : BitVec 11).toNat / 128 % 8 ≠ 5 :=
  ⟨test_fetched, by decide +kernel, by decide, by decide, by decide, by decide, by decide, by decide⟩
theorem witness_fused : ((tPart.thread 0).rmode 0).isSome = true ∧ (0x010 : BitVec 11).getLsbD 4 = true ∧ (0x010 : BitVec 11).getLsbD 5 = false ∧ (0x010 : BitVec 11).getLsbD 10 = false ∧
    (0x004 : BitVec 11).getLsbD 4 = false ∧ (0x020 : BitVec 11).getLsbD 5 = true ∧ (0x020 : BitVec 11).getLsbD 6 = false ∧ (0x020 : BitVec 11).toNat / 4 % 4 < 2 :=
  ⟨by decide +kernel, by decide, by decide, by decide, by decide, by decide, by decide, by decide⟩
theorem witness_conversion : (∃ st dt, cvtLegal st dt 0 0 = true ∧ 4 ≤ st) ∧ (∃ st dt, cvtLegal st dt 1 0 = true) ∧ (∃ st dt, cvtLegal st dt 2 0 = true) ∧
    (∃ st dt, cvtLegal st dt 3 0 = true) ∧ ((fpFmt 0).fcmp false 0 0 0).isSome = true :=
  ⟨⟨5, 6, by decide +kernel, by decide⟩, ⟨5, 6, by decide +kernel⟩, ⟨3, 6, by decide +kernel⟩, ⟨6, 3, by decide +kernel⟩, by decide +kernel⟩
theorem witness_permute : tPart.fetched 0 tPart ∧ 3 < 4 ∧ 7 < 8 ∧ 5 ≤ 9 := ⟨test_fetched, by decide, by decide, by decide⟩

def vIsOk : VRd → Bool
  | .ok _ _ => true
  | _ => false
theorem vok_some {x : VRd} (h : vIsOk x = true) : ∃ r l, x = .ok r l := by
  cases x <;> simp [vIsOk] at h ⊢
/-- Byte 0 of m1 is selected, bytes 0 and 1 of m2, none of m3; g1 is the held line, g2 a stride past the address space. -/
def tVec : Part := tOf fun x => { x with g := [(1, 0x1000), (2, 0x10000000000000)], m := [(1, 1), (2, 3), (3, 0)] }
theorem witness_vector_memory : tVec.fetched 0 tVec ∧ ((tVec.thread 0).vldAcc 1 3).elems = [] ∧ ((tVec.thread 0).vldAcc 1 1).elems ≠ [] ∧
    (∃ r l, tVec.vloadAll 0 ((tVec.thread 0).vldAcc 1 1) = .inl (.ok r l)) ∧ tVec.storeBegun 0 = none ∧
    (∃ r k, tVec.vcheck 0 .store ((tVec.thread 0).vldAcc 1 1) ((tVec.thread 0).vldAcc 1 1).elems [] = .ok r k ∧ wholeDevice k = none ∧
      let w := (r.vcharge 0 ((tVec.thread 0).vldAcc 1 1) [] k).elemEnts 0 ((tVec.thread 0).vldAcc 1 1).b ((r.thread 0).vr 3) k []
      ∃ u, w.1.storeOut 0 w.2 = .ok u 0) :=
  ⟨fetched_of (by decide +kernel), by decide +kernel, by decide +kernel, ⟨_, _, rfl⟩, by decide +kernel, ⟨_, _, rfl, by decide +kernel, _, rfl⟩⟩
/-- The bytes of the vector store have gone out. -/
def tBegun : Part := tOf fun x => { x with g := [(1, 0x1000)], m := [(1, 1)], dev := [⟨0x1000, 65, false, some (0, 0, 0)⟩] }
theorem witness_store_begun : tBegun.fetched 0 tBegun ∧ ((tBegun.thread 0).vldAcc 1 1).elems ≠ [] ∧ tBegun.storeBegun 0 = some true :=
  ⟨fetched_of (by decide +kernel), by decide +kernel, by decide +kernel⟩
theorem witness_vmem : vmemLegal 128 = true ∧ vmemLegal 132 = true ∧ vmemLegal 160 = true ∧ vmemLegal 289 = true ∧
    ((tVec.thread 0).vmemAcc 1 0 128).ff = false ∧ ((tVec.thread 0).vmemAcc 1 0 160).ff = true ∧ ((tVec.thread 0).vmemAcc 1 0 160).elems ≠ [] ∧
    (∃ r l, tVec.vloadAll 0 ((tVec.thread 0).vmemAcc 1 0 128) = .inl (.ok r l)) ∧
    (∃ r l, tVec.vloadFF 0 ((tVec.thread 0).vmemAcc 1 0 160) ((tVec.thread 0).vmemAcc 1 0 160).elems [] [] = (.ok r l, none)) ∧
    (∃ r l, tVec.vloadFF 0 ((tVec.thread 0).vmemAcc 1 2 289) ((tVec.thread 0).vmemAcc 1 2 289).elems [] [] = (.ok r l, some 1)) ∧
    (∃ e es, ((tVec.thread 0).vmemAcc 1 2 289).elems = e :: es ∧ 1 ≠ e.1) :=
  ⟨by decide, by decide, by decide, by decide, by decide +kernel, by decide +kernel, by decide +kernel, ⟨_, _, rfl⟩, ⟨_, _, rfl⟩, ⟨_, _, rfl⟩, ⟨_, _, rfl, by decide⟩⟩
theorem witness_delegation : (tPart.thread 0).level = .f ∧ (tUser.thread 0).level ≠ .f ∧
    (∃ th : Thr, th.level = .s ∧ (th.sys 0xC08).getLsbD 9 = true ∧ (th.sys 0x808).getLsbD 9 = true) ∧
    (∃ th : Thr, th.level = .s ∧ (th.sys 0xC08).getLsbD 9 = true ∧ (th.sys 0x808).getLsbD 9 = false) :=
  ⟨rfl, by decide, ⟨{ tThr with level := .s, sr := [(0x808, 0x200), (0xC08, 0x200)] }, by decide +kernel⟩,
   ⟨{ tThr with level := .s, sr := [(0xC08, 0x200)] }, by decide +kernel⟩⟩
theorem witness_return : (tSup.thread 0).level ≠ .u ∧ (tGuest.thread 0).level = .s ∧ (tGuest.thread 0).vm = true := by decide
/-- Vector 40 of thread 0 is enabled and pending for level F, whose interrupts are enabled; its doorbell is open. -/
def tIrq : Part := { tOf (fun x => { x with sr := [(0xC00, 1)] }) with ic := [(0, { Ic.reset with vec := [(40, ⟨0, true, false, .f, true, true⟩)] })] }
theorem witness_events : (tIrq.thread 0).run = .running ∧ (tIrq.thread 0).boundary = true ∧ (tIrq.thread 0).mce = [] ∧ (tIrq.icOf 0).best (tIrq.thread 0) = some 40 ∧
    (tPart.icOf 0).best (tPart.thread 0) = none ∧ ((tOf fun x => { x with mce := [4, 5] }).thread 0).mce = 4 :: [5] ∧ ((tOf fun x => { x with mce := [4, 5] }).thread 0).boundary = true := by
  decide +kernel
theorem witness_sources : tPart.coreInSvc 0 = true ∧ Part.reset.coreInSvc 0 = false ∧ tIrq.icPresent 0 = true ∧
    ((tIrq.icOf 0).vecOf 40).d = true ∧ (40 : BitVec 32).toNat < 1024 ∧ 1024 ≤ (1024 : BitVec 32).toNat := by decide +kernel
/-- An IPI at thread 0, sent by thread 2 and by unit 4 of tile 1. -/
def tIpi (unit : Bool) : Msg := ipiMsg ⟨0, 1, if unit then 4 else 0⟩ 0 0 40 unit 3 false 0 2
theorem witness_ipis : (∀ b : Bool, let p := tIrq.sendHere (tIpi b)
      let m := { tIpi b with id := tIrq.fab.next }
      p.net.find? (fun m => decide (m.opc = .ipi) && (m.bc == b) && decide (m.aux = 0) && decide (m.op = 40) && decide (m.dst.skt = 0)) = some m ∧
      (p.fabTo m).landed m = true ∧ ((p.fabTo m).takeOut m).icPresent 0 = true ∧ m.src.skt = ((p.fabTo m).takeOut m).sktId) ∧
    ipiAccepts ((tIrq.icOf 0).vecOf 40) 3 false 0 = true ∧ ipiAccepts ((tIrq.icOf 0).vecOf 40) 0 false 0 = false ∧
    ((Part.reset.sendHere (tIpi true)).takeOut { tIpi true with id := 0 }).coreInSvc 0 = false := by decide +kernel
theorem witness_claim : (tIrq.icOf 0).claimable ⟨.f, false⟩ (tIrq.thread 0).vmid = some 40 ∧ (tPart.icOf 0).claimable ⟨.f, false⟩ (tPart.thread 0).vmid = none := by decide +kernel

/-! ### Witnesses: register writes -/

/-- A write from level F, and one of VMID 5 at level U. -/
def mTop : Master := ⟨false, .f, 0, 0, 0, false⟩
def mLow : Master := ⟨false, .u, 5, 0, 0, false⟩

/-- Group 0 out of reset with one port, the endpoint there, and the packet engine running. -/
def tIo : Part := sets tPart [(F.PCI_GRP_STAT_INRESET, 0), (F.PCI_GRP_EFF_SPLIT, 1), (F.PAL_UNITS_EP, 1), (F.NET_CTL_RST, 0), (F.NET_STAT_INRESET, 0)]

theorem witness_access_codes : actionOnly F.MC_STAT_TRAINED = false ∧ F.MC_STAT_TRAINED.acc = .ro ∧ actionOnly F.PWR_PL_W = false ∧ F.PWR_PL_W.acc = .rw ∧
    F.PWR_PL_W ≠ F.PERF_GCTL_RUN ∧ actionOnly F.CORE_CFG_T1EN = false ∧ F.CORE_CFG_T1EN.acc = .rwb ∧ actionOnly F.VEN_MBCTL_OUTOVR = false ∧
    F.VEN_MBCTL_OUTOVR.acc = .w1c ∧ F.VEN_MBCTL_OUTOVR ≠ F.PERF_OVF_OVF ∧ actionOnly F.PAL_GEN_GEN = false := by decide +kernel
theorem witness_w1s : ∃ f, actionOnly f = false ∧ f.acc = .w1s ∧ f ≠ F.PWR_TCTL_RST ∧ f ≠ F.MC_ILVCTL_COMMIT :=
  ⟨F.LLC_MAINT_GO, by decide +kernel⟩
theorem witness_register_writes : tPart.pageOff ⟨tileD, 0x032⟩ = false ∧ bellAt ⟨tileD, 0x032⟩ 0 = none ∧ tPart.answering ⟨tileD, 0x032⟩ 0 ≠ [] ∧
    (tPart.setRg F.PWR_UNCON_ON 0).pageOff ⟨0, 0x002⟩ = true := by decide +kernel
theorem witness_restricted : mLow.top = false ∧ tPart.opens F.CORE_PLUMB_EN 1 0 [F.CORE_PLUMB_EN, F.CORE_PLUMB_OVRIE, F.CORE_PLUMB_OVRVEC, F.CORE_PLUMB_MEMLAT] := by
  unfold Part.opens; decide +kernel
theorem witness_core_power : mTop.top = true ∧ mTop.easel = false ∧ easelMaster.top = true ∧ easelMaster.easel = true ∧
    tPart.opens F.CORE_BTBCTL_FLUSH 1 0 [F.CORE_BTBCTL_RESEED_F, F.CORE_BTBCTL_RESEED_H, F.CORE_BTBCTL_FLUSH] ∧
    tPart.opens F.CORE_CFG_T1EN 1 0 [F.CORE_CFG_ROBMAX, F.CORE_CFG_ICGATE, F.CORE_CFG_LBEN, F.CORE_CFG_RASEN, F.CORE_CFG_BTBEN, F.CORE_CFG_FPOL, F.CORE_CFG_T1EN] ∧
    tPart.opens F.PWR_C_MODE (tileOfCore 1) 1 [F.PWR_C_RST, F.PWR_C_MODE, F.PWR_C_IDLET] ∧
    tPart.opens F.PWR_TCTL_OFF 5 0 [F.PWR_TCTL_RST, F.PWR_TCTL_OFF] := by
  unfold Part.opens; decide +kernel
theorem witness_unit_writes :
    tPart.opens F.LLC_WAYPWR_ON 2 0 [F.LLC_WAYPWR_ON] ∧ tPart.opens F.LLC_MAINT_GO 2 0 [F.LLC_MAINT_GO, F.LLC_MAINT_GROUPS, F.LLC_MAINT_OP] ∧
    tPart.rgOn F.LLC_MSTAT_BUSY 2 = false ∧ (sets tPart [(F.LLC_MSTAT_BUSY, 1)]).rgOn F.LLC_MSTAT_BUSY 0 = true ∧
    (sets tPart [(F.LLC_MSTAT_BUSY, 1)]).opens F.LLC_MAINT_GO 0 0 [F.LLC_MAINT_GO, F.LLC_MAINT_GROUPS, F.LLC_MAINT_OP] ∧
    tPart.opens F.FAB_STATSTAT_CLR 5 0 [F.FAB_STATSTAT_CLR, F.FAB_STATSTAT_FREEZE, F.FAB_STATSTAT_OVF] ∧
    tPart.opens F.MC_ILVCTL_COMMIT 0 0 [F.MC_ILVCTL_COMMIT] ∧ tPart.opens F.VAR_CTL_ARM 1 0 [F.VAR_CTL_ARM] ∧
    tPart.opens F.DVT_CTL_EN 0 0 [F.DVT_CTL_RETRAIN, F.DVT_CTL_MAXW, F.DVT_CTL_EN] ∧ tPart.rg F.DVT_CTL_MAXW 0 < 4 ∧ tPart.rg F.DVT_CTL_EN 0 < 2 := by
  unfold Part.opens; decide +kernel
theorem witness_port_writes :
    tIo.opens F.PCI_PORT_CTL_EN 0 0 [F.PCI_PORT_CTL_RELEASE, F.PCI_PORT_CTL_RETRAIN, F.PCI_PORT_CTL_MAXSPEED, F.PCI_PORT_CTL_ECRC, F.PCI_PORT_CTL_EN] ∧
    tIo.rg F.PCI_PORT_CTL_MAXSPEED 0 < 4 ∧ tIo.rg F.PCI_PORT_CTL_ECRC 0 < 2 ∧ tIo.rg F.PCI_PORT_CTL_EN 0 < 2 ∧
    tIo.opens F.PCI_GRP_CTL_RST 0 0 [F.PCI_GRP_CTL_RST] ∧ tIo.opens F.EP_HINT_VEC 0 0 [F.EP_HINT_VEC] := by
  unfold Part.opens; decide +kernel
theorem witness_network_opens :
    tIo.opens F.NET_MAC_CFG_SPEED 3 0 [F.NET_MAC_CFG_AN, F.NET_MAC_CFG_MAXLEN, F.NET_MAC_CFG_SPEED] ∧
    tIo.opens F.NET_QCMD_GO 0 0 [F.NET_QCMD_GO, F.NET_QCMD_OP, F.NET_QCMD_CLR, F.NET_QCMD_QUEUE] ∧
    tIo.opens F.NET_FLOWCMD_GO 0 0 [F.NET_FLOWCMD_GO, F.NET_FLOWCMD_ALL, F.NET_FLOWCMD_BUCKET] ∧
    tIo.opens F.NET_CTL_RST 0 0 [F.NET_CTL_RST] ∧ tIo.opens F.KEY_CMD_GO 0 0 [F.KEY_CMD_GO, F.KEY_CMD_OP, F.KEY_CMD_SLOT] := by
  unfold Part.opens; decide +kernel
/-- A queue command, a flow command and a key command in progress; queue 7 is enabled. -/
def tBusy : Part := (tIo.modPkt fun x => { x with qcmd := some (.direct, 5), flowcmd := some ⟨true, 0, .direct⟩, q := [(7, { QueueSt.reset with state := .enabled })] }).modKey
  fun x => { x with cmd := some (.direct, [4]) }
theorem witness_network_writes :
    (tIo.takes 0 0 [(F.NET_QCMD_OP, 2), (F.NET_QCMD_CLR, 0), (F.NET_QCMD_QUEUE, 7)]).netOn = true ∧ tIo.pkt.qcmd = none ∧ tBusy.pkt.qcmd.isSome = true ∧ tBusy.netOn = true ∧
    tBusy.opens F.NET_QCMD_GO 0 0 [F.NET_QCMD_GO, F.NET_QCMD_OP, F.NET_QCMD_CLR, F.NET_QCMD_QUEUE] ∧
    ((tIo.modPkt fun x => { x with q := [(7, { QueueSt.reset with state := .enabled })] }).queueOf 7).state ≠ .disabled ∧
    tIo.pkt.flowcmd = none ∧ tBusy.pkt.flowcmd.isSome = true ∧
    tIo.key.cmd = none ∧ tBusy.key.cmd.isSome = true ∧
    (sets tIo [(F.VEN_STAT_STATE, 1), (F.KEY_STG_CTL_V, 0x80000000), (F.PAL_KEYS_KEYS, 8192)]).keyLoadError 4 ⟨0, 0, 0, 0, 0, 0⟩ ≠ 0 := by
  unfold Part.opens; decide +kernel
/-- Instance 0 is ACTIVE and owned by VMID 5. -/
def tVen : Part := sets tIo [(F.VEN_STAT_STATE, 1), (F.VEN_OWNER_VMID, 5)]
theorem witness_key_load : ∃ (q : Part) (sl : Nat), q.key.cmd = none ∧ q.keyLoadError sl q.keyStaged = 0 :=
  ⟨sets tVen [(F.VEN_KRANGE_KCNT, 8)], 0, rfl, by decide +kernel⟩
theorem witness_manager :
    mTop.vm = 0 ∧ tVen.opens F.VEN_MCMD_GO 0 0 [F.VEN_MCMD_GO, F.VEN_MCMD_OP, F.VEN_MCMD_RES] ∧
    (tVen.instOf 0).mcmd = none ∧ (tVen.instOf 0).cmd = none ∧
    ((tVen.modInst 0 fun x => { x with mcmd := some ⟨0, 0, false, 0⟩ }).instOf 0).mcmd.isSome = true ∧
    ((tVen.modInst 0 fun x => { x with cmd := some (0, 0, false) }).instOf 0).cmd.isSome = true ∧
    tVen.opens F.VEN_QUOTA_QK_QMAX 0 0 [F.VEN_QUOTA_QK_QMAX, F.VEN_QUOTA_QK_KMAX] ∧ tVen.opens F.VEN_QUOTA_F_FMAX 0 0 [F.VEN_QUOTA_F_FMAX] ∧
    tVen.poolRefuses 0 0x224 0x7FFFF = true ∧ tVen.poolRefuses 0 0x224 1 = false ∧
    tVen.opens F.VEN_QUOTA_D_DMAX 0 0 [F.VEN_QUOTA_D_DMAX] ∧ tVen.opens F.VEN_BW_EN 0 0 [F.VEN_BW_EN, F.VEN_BW_BURST, F.VEN_BW_RATE] ∧
    tVen.poolRefuses 0 0x22C 0x80003FFF = true ∧ tVen.poolRefuses 0 0x22C 0x80000001 = false := by
  unfold Part.opens; decide +kernel
theorem witness_tenant :
    mLow.vm = tVen.ownerOf 0 ∧ tVen.opens F.VEN_CMD_GO 0 0 [F.VEN_CMD_GO, F.VEN_CMD_OP, F.VEN_CMD_INDEX] ∧
    (tVen.takes 0 0 [(F.VEN_CMD_OP, 0), (F.VEN_CMD_INDEX, 3)]).venState 0 = 1 ∧ ((tVen.takes 0 0 [(F.VEN_CMD_OP, 0), (F.VEN_CMD_INDEX, 3)]).instOf 0).cmd = none ∧
    ((tVen.takes 0 0 [(F.VEN_CMD_OP, 0), (F.VEN_CMD_INDEX, 3)]).instOf 0).mcmd = none ∧
    (tIo.takes 0 0 [(F.VEN_CMD_OP, 0), (F.VEN_CMD_INDEX, 3)]).venState 0 ≠ 1 ∧ mTop.vm = tIo.ownerOf 0 := by
  unfold Part.opens; decide +kernel
theorem witness_mailbox :
    tVen.opens F.VEN_MBCTL_OUTSEND 0 0 [F.VEN_MBCTL_OUTSEND, F.VEN_MBCTL_OUTACK, F.VEN_MBCTL_INSEND, F.VEN_MBCTL_INACK, F.VEN_MBCTL_OUTOVR,
      F.VEN_MBCTL_INOVR, F.VEN_MBCTL_OUTFULL, F.VEN_MBCTL_INFULL] ∧ mLow.vm = tVen.ownerOf 0 ∧ mTop.vm = 0 ∧
    tVen.rgOn F.VEN_MBCTL_OUTFULL 0 = false ∧ tVen.rgOn F.VEN_MBCTL_INFULL 0 = false ∧
    (sets tVen [(F.VEN_MBCTL_OUTFULL, 1), (F.VEN_MBCTL_INFULL, 1)]).rgOn F.VEN_MBCTL_OUTFULL 0 = true ∧
    (sets tVen [(F.VEN_MBCTL_OUTFULL, 1), (F.VEN_MBCTL_INFULL, 1)]).rgOn F.VEN_MBCTL_INFULL 0 = true := by
  unfold Part.opens; decide +kernel
theorem witness_easel_primer :
    mTop.top = true ∧ tPart.rgOn F.EAS_CMDSTAT_BUSY = false ∧ tPart.runOf 0 ≠ .inReset ∧
    (∃ p : Part, p.rgOn F.EAS_CMDSTAT_BUSY = false ∧ p.coreInSvc 0 = true ∧ p.runOf 0 = .inReset ∧ p.rgOn F.PWR_C_RST (tileOfCore 0) 0 = false ∧
      p.sys.pwr.entering.find? 0 = none) ∧
    tPart.rgOn F.DVT_ENUM_MASTER = false ∧ tPart.rgOn F.PRM_CMDSTAT_BUSY = false ∧ tPart.lcs ≠ 4 ∧ tPart.lcs ≠ 2 ∧
    (sets tPart [(F.EAS_LCS_STATE, 2)]).lcs = 2 ∧ (∃ u, tPart.coreInSvc u = true ∧ tPart.coreBusy u = false) ∧ tPart.coreInSvc 300 = false ∧
    tPart.sliceInSvc 3 = true ∧ tPart.sliceInSvc 300 = false ∧ 3 < nCores ∧ 3 < nSlices := by
  refine ⟨by decide, by decide +kernel, by decide +kernel,
    ⟨{ tPart with thr := [] }.takes (tileOfCore 0) 0 [(F.PWR_C_RST, 0)], by decide +kernel, by decide +kernel, by decide +kernel, by decide +kernel, rfl⟩,
    by decide +kernel, by decide +kernel,
    by decide +kernel, by decide +kernel, by decide +kernel, ⟨0, by decide +kernel, by decide +kernel⟩, by decide +kernel, by decide +kernel, by decide +kernel, by decide, by decide⟩
theorem witness_log_counters :
    mTop.vm = 0 ∧ tPart.opens F.RAS_LOGD_DATA 5 2 [F.RAS_LOGD_DATA] ∧ tPart.opens F.PERF_CTL_CLR 5 0 [F.PERF_CTL_CLR, F.PERF_CTL_FREEZE, F.PERF_CTL_RUN] := by
  unfold Part.opens; decide +kernel

/-! ### Witnesses: I/O translation, caches, fabric and coherence -/

theorem witness_io_invalidations : tPart.opens F.IOT_INV_PSID_PSID 0 0 [F.IOT_INV_PSID_PSID] ∧ tPart.opens F.IOT_INV_ADDR_LO_ADDR 0 0 [F.IOT_INV_ADDR_LO_ADDR] ∧
    tPart.opens F.IOT_INV_ADDR_HI_ADDR 0 0 [F.IOT_INV_ADDR_HI_ADDR] ∧
    tPart.opens F.IOT_INV_CMD_GO 0 0 [F.IOT_INV_CMD_GO, F.IOT_INV_CMD_SCOPE, F.IOT_INV_CMD_DOMAIN, F.IOT_INV_CMD_RID] ∧
    tPart.rgOn F.IOT_INV_STAT_BUSY 0 = false ∧ (sets tPart [(F.IOT_INV_STAT_BUSY, 1)]).rgOn F.IOT_INV_STAT_BUSY 0 = true ∧
    (sets tPart [(F.IOT_INV_STAT_BUSY, 1)]).opens F.IOT_INV_CMD_GO 0 0 [F.IOT_INV_CMD_GO, F.IOT_INV_CMD_SCOPE, F.IOT_INV_CMD_DOMAIN, F.IOT_INV_CMD_RID] := by
  unfold Part.opens; decide +kernel

def tReq : IoReq := { rid := some 8, dom := 0, psid := none, priv := false, addr := 0x1000, kind := .ats, len := 0, translated := false }
/-- Translation on, and the entry of requester 8 cached: it goes through untranslated, with ATS. -/
def tIot : Part := (sets tPart [(F.IOT_CTL_EN, 1), (F.IOT_CTL_ATSEN, 1)]).modIot 0 fun x => { x with ctx := [⟨.dev 8, 0x15, 0⟩] }
theorem witness_io_translation : (∃ q pa d z pm, tIot.ioTranslate 0 tReq = .ok q pa d z pm) ∧ (∃ q rec d c t, tPart.ioTranslate 0 tReq = .refused q rec d c ∧ q.ioRefuse 0 tReq rec d c = (t, true)) ∧
    tPart.rgOn F.PAL_UNITS_P1 = true ∧
    (∃ (p : Part) (i : IoInv), (p.iotOf 0).inv = some i ∧ i.wait = [] ∧ ∀ a ∈ p.pci.iow.map (fun w => w.agent) ++ p.pci.ior.map (fun w => w.agent),
      a.tile ≠ iotTile 0 ∧ (0 = 0 → a.tile ≠ tileN)) ∧
    (∃ (p : Part) (i : IoInv), (p.iotOf 0).inv = some i ∧ i.wait ≠ [] ∧ 8 ∈ i.wait) :=
  ⟨⟨_, _, _, _, _, rfl⟩, ⟨_, _, _, _, _, rfl, rfl⟩, by decide +kernel,
   ⟨tPart.modIot 0 fun x => { x with inv := some ⟨0, 0, 0, 0, 0, [], 0⟩ }, _, rfl, rfl, by decide +kernel⟩,
   ⟨tPart.modIot 0 fun x => { x with inv := some ⟨0, 0, 0, 0, 0, [8], 0⟩ }, _, rfl, by decide, by decide⟩⟩

def tEnt (th : Nat) (ty : MemType) (seq : Nat) : MbEnt := ⟨th, 0x40, ty, 0, 0, seq, 0x1000, 3, 0, 0, false⟩
/-- A store and two device stores behind it in the merging buffer of core 0; the prefetchers are on, and the streams of thread 0 run on
toward the line it holds. -/
def tMb : Part := (sets tPart [(F.LLC_PFCTL_L1PF0, 1), (F.LLC_PFCTL_L2PF0, 1)]).modCore 0 fun x =>
  { x with mb := [tEnt 0 .cacheable 0, tEnt 0 .device 1, tEnt 0 .device 2], pf1 := [⟨0, 0x1000, 0x1040, -64⟩], pf2 := [⟨0, 0, 0x41, -1⟩] }
theorem witness_core_cache : (tMb.coreOf 0).mb[2]? = some (tEnt 0 .device 2) ∧ tMb.mbBehind 0 (tEnt 0 .device 2) = true ∧ tMb.mbBehind 0 (tEnt 0 .device 1) = false ∧
    tMb.pfOn 0 true = true ∧ tMb.pfOn 0 false = true ∧ tMb.plumb 0 = false ∧ (tMb.thread 0).run ≠ .inReset ∧ tMb.tlbPeek 0 0x1000 = some 0x1000 ∧
    tMb.pfReaches 0 0x1000 true = true ∧ tMb.pfReaches 0 0x1000 false = true ∧
    (∃ q x, tMb.heard (tMb.threadAgent 0) 0x40 (tMb.coreAsks 0 0x40 false false) (tMb.cohRead 0 0x40 0) = .done q x) ∧
    (sets tPart [(F.LLC_PFCTL_L2PF0, 0)]).pfOn 0 true = false ∧ tPart.pfReaches 0 0x1000 false = false ∧ tMb.tlbPeek 0 0xFFF0000000000 = none :=
  ⟨by decide +kernel, by decide +kernel, by decide +kernel, by decide +kernel, by decide +kernel, by decide +kernel, by decide +kernel, by decide +kernel,
   by decide +kernel, by decide +kernel, ⟨_, _, rfl⟩, by decide +kernel, by decide +kernel, by decide +kernel⟩
theorem witness_slices : ((sets tPart [(F.LLC_WAYSTAT_CLEANING, 4)]).rg F.LLC_WAYSTAT_CLEANING 0).testBit 2 = true ∧
    ((sets tPart [(F.LLC_WAYSTAT_WAKING, 4), (F.LLC_WAYPWR_ON, 4)]).rg F.LLC_WAYSTAT_WAKING 0).testBit 2 = true ∧
    ((sets tPart [(F.LLC_WAYSTAT_WAKING, 4), (F.LLC_WAYPWR_ON, 4)]).rg F.LLC_WAYPWR_ON 0).testBit 2 = true ∧
    ((sets tPart [(F.LLC_WAYSTAT_WAKING, 4), (F.LLC_WAYPWR_ON, 3)]).rg F.LLC_WAYPWR_ON 0).testBit 2 = false ∧
    ((tPart.modSlice 0 fun x => { x with sweep := some ⟨true, 15⟩ }).sliceOf 0).sweep = some ⟨true, 15⟩ := by decide +kernel
/-- A flit on a link. -/
def tWire : Wire := ⟨⟨0, 0, 1, 0, 3, 4, none, 0, 0, 0, false, false, false⟩, 2, false, 0, 0, 0⟩
theorem witness_fabric : tPart.sys.pwr.refLoss = false ∧ tPart.sys.boot ≠ .off ∧ tPart.sys.gperf.hold = none ∧
    (tPart.modPwr fun x => { x with refLoss := true }).sys.pwr.refLoss = true ∧ (tPart.modSys fun x => { x with epoch := some 3 }).sys.epoch ≠ none ∧
    (tPart.linkEnd 1 2 0).cross = [] ∧ (tPart.linkEnd 1 2 1).cross = [] ∧ (∀ x ∈ (tPart.tileFab 1).wire, x.inp ≠ 2) ∧
    ((tPart.modLinkEnd 1 2 0 fun e => { e with cross := [(tWire, true)] }).linkEnd 1 2 0).cross = (tWire, true) :: [] ∧
    (3 : Nat) ≠ 0 ∧ 3 < 8 ∧ 8 ≤ 9 := by decide +kernel

def tMsg (o : Opc) (src dst : Agent) : Msg := { Msg.blank with opc := o, src := src, dst := dst, addr := 0x1000 }
/-- Of thread 0 of tile 1, of slice 0. -/
def aThr : Agent := ⟨0, coreTile 1, 0⟩
def aHome : Agent := ⟨0, coreTile 0, 4⟩
def tTrk : Trk := { req := tMsg .rdo aThr aHome, active := true, ans := [], cack := true, cacked := false, others := false, vis := false, memw := false, fill := false, data := none, step := 0, time := 0, tmo := 0 }
/-- The home of the line 0x40 serves or keeps one request of it. -/
def tHome (t : Trk) (d : List (Nat × DirEnt)) : Part := tPart.modSlice 0 fun x => { x with trk := [t], dir := d }
/-- An answer for this home has come too, and its pipeline serves that first. -/
def tPast (p : Part) : Part := p.sendHere (tMsg .acki ⟨0, coreTile 3, 5⟩ aHome)
theorem witness_home_timers :
    ((tHome { tTrk with active := false } []).sliceOf 0).trk.find? (fun t => decide (t.req.line = 0x40)) = some { tTrk with active := false } ∧
    (tHome { tTrk with active := false } []).lineBusy 0 0x40 = false ∧ ((tHome { tTrk with active := false } []).homeTurn 0 2).isSome = true ∧
    ((tPast (tHome { tTrk with active := false } [])).homeTurn 0 2).isNone = true ∧ tPart.l2Get 0 0x40 = some (tL2 .m) ∧
    (tHome tTrk []).oldestOf 0 0x40 = some tTrk ∧
    (tPart.waitsFor 0 { tTrk with cack := false }).1 ≠ 1 ∧ (tPart.waitsFor 0 { tTrk with cack := false }).1 ≠ 2 ∧
    (tPart.waitsFor 0 { tTrk with cack := false }).2 / 256 = tPart.sktId ∧ (tPart.waitsFor 0 tTrk).1 = 2 ∧ (tPart.waitsFor 0 tTrk).2 / 256 = tPart.sktId ∧
    coreOrd ((tPart.waitsFor 0 tTrk).2 % 256) = some 1 ∧ (tPart.waitsFor 0 { tTrk with ans := [coreTile 1] }).1 = 1 ∧
    (tPart.waitsFor 0 { tTrk with ans := [256 + coreTile 1] }).2 / 256 ≠ tPart.sktId ∧
    (tPart.modPwr fun x => { x with entering := [(3, ⟨.reset, 0, none⟩)] }).sys.pwr.entering.find? 3 = some ⟨.reset, 0, none⟩ := by decide +kernel

theorem received (p : Part) (q : Msg) (h : p.underway q = false) : p.receives q (p.arrive q).1 (p.arrive q).2 := ⟨h, rfl⟩
theorem is_some {α : Type} {x : Option α} (h : x.isSome = true) : ∃ v, x = some v := Option.isSome_iff_exists.mp h

theorem witness_home_requests : ∃ (q m : Msg) (r g : Part), tPart.receives { q with opc := .rdo } m r ∧ r.homeHere m.line = some 0 ∧ r.trkUsed 0 < 64 ∧
    r.homeTurn 0 0 = some g ∧ ((g.homeEvent 0 1 m.vmid).sliceOf 0).trk.any (fun t => t.req.line = m.line) = false :=
  ⟨tMsg .rdo aThr aHome, _, _, _, received _ _ (by decide +kernel), by decide +kernel, by decide +kernel, rfl, by decide +kernel⟩
theorem witness_home_requests_queue : ∃ (q m : Msg) (r g : Part), (tHome tTrk []).receives { q with opc := .rds } m r ∧ r.homeHere m.line = some 0 ∧
    r.trkUsed 0 < 64 ∧ r.homeTurn 0 0 = some g ∧ ((g.homeEvent 0 1 m.vmid).sliceOf 0).trk.any (fun t => t.req.line = m.line) = true :=
  ⟨tMsg .rds aThr aHome, _, _, _, received _ _ (by decide +kernel), by decide +kernel, by decide +kernel, rfl, by decide +kernel⟩
theorem witness_home_requests_full : ∃ (p : Part) (q m : Msg) (r : Part), p.receives { q with opc := .rds } m r ∧ r.homeHere m.line = some 0 ∧ 64 ≤ r.trkUsed 0 :=
  ⟨tPart.modSlice 0 fun x => { x with trk := List.replicate 64 tTrk }, tMsg .rds aThr aHome, _, _, received _ _ (by decide +kernel), by decide +kernel, by decide +kernel⟩
theorem witness_home_requests_past : ∃ (q m : Msg) (r : Part), (tPast tPart).receives { q with opc := .rds } m r ∧ r.homeHere m.line = some 0 ∧ r.homeTurn 0 0 = none :=
  ⟨tMsg .rds aThr aHome, _, _, received _ _ (by decide +kernel), by decide +kernel, rfl⟩
theorem witness_home_requests_nowhere : ∃ (q m : Msg) (r : Part), tPart.receives { q with opc := .rds } m r ∧ r.homeHere m.line = none ∧ r.homeSkt m.line = none :=
  ⟨{ tMsg .rds aThr aHome with addr := 0x80000000 }, _, _, received _ _ (by decide +kernel), by decide +kernel, by decide +kernel⟩
theorem witness_snoop_table : (tMsg .rds aThr aHome).opc = .rds ∧ (tMsg .rdo aThr aHome).opc = .rdo ∧ (⟨.s, 0, .loc, [1, 2]⟩ : DirEnt).st = .s ∧ (⟨.o, 5, .loc, [1]⟩ : DirEnt).st = .o ∧
    (⟨.s, 0, .bcast, [1]⟩ : DirEnt).fmt = .bcast := by decide

/-- The owner that the directory names: core 0 of tile 1. -/
def tDir : DirEnt := { st := .m, owner := aThr.ocode, fmt := .loc, sharers := [] }
theorem witness_write_backs : ∃ (q m : Msg) (r g : Part), (tHome { tTrk with req := { tTrk.req with addr := 0x2000 } } [(0x40, tDir)]).receives { q with opc := .wbm } m r ∧
    r.homeHere m.line = some 0 ∧ r.homeTurn 0 0 = some g ∧ r.trkUsed 0 < 64 ∧ ((g.homeEvent 0 1 m.vmid).sliceOf 0).trk.any (fun t => t.req.line = m.line) = false ∧
    (g.homeEvent 0 1 m.vmid).dirGet 0 m.line = some tDir ∧ tDir.st ≠ .s ∧ tDir.owner = m.src.ocode :=
  ⟨tMsg .wbm aThr aHome, _, _, _, received _ _ (by decide +kernel), by decide +kernel, rfl, by decide +kernel, by decide +kernel, by decide +kernel, by decide, by decide⟩
theorem witness_write_backs_late (o : Opc) (h : o = .wbm ∨ o = .wbc) : ∃ (q m : Msg) (r g : Part), tPart.receives { q with opc := o } m r ∧ r.homeHere m.line = some 0 ∧
    r.homeTurn 0 0 = some g ∧ r.trkUsed 0 < 64 ∧ ((g.homeEvent 0 1 m.vmid).sliceOf 0).trk.any (fun t => t.req.line = m.line) = false ∧
    (g.homeEvent 0 1 m.vmid).dirGet 0 m.line = none := by
  rcases h with rfl | rfl
  · exact ⟨tMsg .wbm aThr aHome, _, _, _, received _ _ (by decide +kernel), by decide +kernel, rfl, by decide +kernel, by decide +kernel, by decide +kernel⟩
  · exact ⟨tMsg .wbc aThr aHome, _, _, _, received _ _ (by decide +kernel), by decide +kernel, rfl, by decide +kernel, by decide +kernel, by decide +kernel⟩
theorem witness_write_backs_clean : ∃ (p : Part) (q m : Msg) (r g : Part) (d : DirEnt), p.receives { q with opc := .wbc } m r ∧ r.homeHere m.line = some 0 ∧
    r.homeTurn 0 0 = some g ∧ r.trkUsed 0 < 64 ∧
    let a := g.homeEvent 0 1 m.vmid
    let e := (a.wbTaken m.src m.line).dirLeave 0 m.line m.src
    (a.sliceOf 0).trk.any (fun t => t.req.line = m.line) = false ∧ a.dirGet 0 m.line = some d ∧ d.lists m.src = true ∧ m.mask ≠ 0 ∧
    e.rgOn F.LLC_CFG_CLEANVICT 0 = true ∧ (e.sliceOf 0).llc.find? m.line = none :=
  ⟨(sets tPart [(F.LLC_CFG_CLEANVICT, 1)]).modSlice 0 fun x => { x with dir := [(0x40, ⟨.s, 0, .ptr, [256 + coreTile 1]⟩)] },
    { tMsg .wbc ⟨1, coreTile 1, 0⟩ aHome with mask := 1 }, _, _, _, _, received _ _ (by decide +kernel), by decide +kernel, rfl, by decide +kernel, by decide +kernel, rfl,
    by decide +kernel, by decide +kernel, by decide +kernel, by decide +kernel⟩
theorem witness_persist (b : Bool) : ∃ (q m : Msg) (r g t u : Part), tPart.receives { q with opc := .pwt } m r ∧ m.bc = b ∧ r.homeHere m.line = some 0 ∧ r.homeTurn 0 0 = some g ∧
    g.persist 0 m.line m.data m.mask m.pois = (some t, u) ∧ r.trkUsed 0 < 64 ∧ ((g.homeEvent 0 1 m.vmid).sliceOf 0).trk.any (fun t => t.req.line = m.line) = false :=
  match b with
  | true => ⟨{ tMsg .pwt aThr aHome with bc := true }, _, _, _, _, _, received _ _ (by decide +kernel), by decide +kernel, by decide +kernel, rfl, rfl, by decide +kernel, by decide +kernel⟩
  | false => ⟨tMsg .pwt aThr aHome, _, _, _, _, _, received _ _ (by decide +kernel), by decide +kernel, by decide +kernel, rfl, rfl, by decide +kernel, by decide +kernel⟩
theorem witness_persist_full : ∃ (p : Part) (q m : Msg) (r g u : Part), p.receives { q with opc := .pwt } m r ∧ m.bc = false ∧ r.homeHere m.line = some 0 ∧ r.homeTurn 0 0 = some g ∧
    g.persist 0 m.line m.data m.mask m.pois = (none, u) :=
  ⟨(sets tPart [(F.VAR_CTL_ARM, 1)]).modVarn fun x => { x with flush := some ⟨false, false, 0, 0, 0⟩ }, tMsg .pwt aThr aHome, _, _, _, _, received _ _ (by decide +kernel), by decide +kernel, by decide +kernel, rfl, rfl⟩

/-- A snoop of tile 0, whose core 0 holds the line. -/
def tSnp (o : Opc) (tile : Nat) : Msg := tMsg o aHome ⟨0, tile, 5⟩
theorem witness_snoops : ∃ (q m : Msg) (r : Part), tPart.receives { q with opc := .snps } m r ∧ m.dst.skt = r.sktId ∧ r.tileCopy m.dst.tile m.line = none ∧
    (snoopCores m.dst.tile).any (fun c => r.coreKeeps c m.line) = false ∧ (snoopCores m.dst.tile).any r.coreAway = true ∧ (snoopCores tileD).any r.coreAway = true ∧
    (snoopCores m.dst.tile).all (fun c => (r.copyGet c m.line).isNone) = true :=
  ⟨tSnp .snps (coreTile 30), _, _, received _ _ (by decide +kernel), by decide +kernel, by decide +kernel, by decide +kernel, by decide +kernel, by decide +kernel, by decide +kernel⟩
theorem witness_snoops_held : ∃ (q m : Msg) (r : Part), tPart.receives { q with opc := .snpo } m r ∧ m.dst.skt = r.sktId ∧
    r.tileCopy m.dst.tile m.line = some (0, tL2 .m) ∧ (snoopCores m.dst.tile).any (fun c => r.coreKeeps c m.line) = false ∧ r.modifiedIn m.dst.tile m.line = some (tL2 .m) ∧
    (tL2 .m).modified = true ∧ (tL2 .e).modified = false :=
  ⟨tSnp .snpo (coreTile 0), _, _, received _ _ (by decide +kernel), by decide +kernel, by decide +kernel, by decide +kernel, by decide +kernel, by decide +kernel, by decide +kernel⟩
theorem witness_snoops_deferred : ∃ (p : Part) (q m : Msg) (r : Part), p.receives { q with opc := .snpi } m r ∧ m.dst.skt = r.sktId ∧
    (snoopCores m.dst.tile).any (fun c => r.coreKeeps c m.line) = true ∧
    (snoopCores m.dst.tile).any (fun c => (match r.copyGet c m.line with | some x => !m.snpiKeeps r.sktId c x | none => false) && r.coreKeeps c m.line) = true :=
  ⟨tPart.modCore 0 fun x => { x with l2 := [(0x40, tL2 .m true)] }, tSnp .snpi (coreTile 0), _, _, received _ _ (by decide +kernel), by decide +kernel, by decide +kernel, by decide +kernel⟩
/-- The request of tTrk awaits the answer of tile 0. -/
def tAsk : Trk := { tTrk with ans := [coreTile 0], cack := false }
def tAns (o : Opc) : Msg := tMsg o ⟨0, coreTile 0, 5⟩ aHome
theorem witness_answers : ∃ (q m : Msg) (r g : Part), (tHome tAsk [(0x40, ⟨.m, 0, .loc, []⟩)]).receives { q with opc := .acko } m r ∧ r.homeHere m.line = some 0 ∧
    r.homeTurn 0 1 = some g ∧ g.trkFind 0 m.line = some tAsk ∧ tAsk.ans.contains m.src.tcode = true ∧ m.status ≠ 2 ∧ g.dirGet 0 m.line = some ⟨.m, 0, .loc, []⟩ ∧
    m.hint = false ∧ tAsk.req.opc ≠ .cmoc :=
  ⟨tAns .acko, _, _, _, received _ _ (by decide +kernel), by decide +kernel, rfl, by decide +kernel, by decide, by decide, by decide +kernel, by decide, by decide⟩
theorem witness_answers_stand_in : ∃ (q m : Msg) (r g : Part), (tHome tAsk [(0x40, ⟨.m, 0, .loc, []⟩)]).receives { q with opc := .acki } m r ∧ r.homeHere m.line = some 0 ∧
    r.homeTurn 0 1 = some g ∧ g.trkFind 0 m.line = some tAsk ∧ tAsk.ans.contains m.src.tcode = true ∧ m.status = 2 ∧ tAsk.req.opc ≠ .cmoii ∧
    g.dirGet 0 m.line = some ⟨.m, 0, .loc, []⟩ ∧ (⟨.m, 0, .loc, []⟩ : DirEnt).st ≠ .s ∧ (⟨.m, 0, .loc, []⟩ : DirEnt).ownerTile = m.src.tcode :=
  ⟨{ tAns .acki with status := 2 }, _, _, _, received _ _ (by decide +kernel), by decide +kernel, rfl, by decide +kernel, by decide, by decide, by decide, by decide +kernel, by decide, by decide⟩
theorem witness_answers_late : ∃ (q m : Msg) (r g : Part), (tHome tTrk []).receives { q with opc := .acki } m r ∧ r.homeHere m.line = some 0 ∧ r.homeTurn 0 1 = some g ∧
    g.trkFind 0 m.line = some tTrk ∧ tTrk.ans.contains m.src.tcode = false :=
  ⟨tAns .acki, _, _, _, received _ _ (by decide +kernel), by decide +kernel, rfl, by decide +kernel, by decide⟩
theorem witness_answers_none : ∃ (q m : Msg) (r g : Part), tPart.receives { q with opc := .acki } m r ∧ r.homeHere m.line = some 0 ∧ r.homeTurn 0 1 = some g ∧ g.trkFind 0 m.line = none :=
  ⟨tAns .acki, _, _, _, received _ _ (by decide +kernel), by decide +kernel, rfl, by decide +kernel⟩
theorem witness_answers_clean : ∃ (t : Trk) (d : DirEnt) (q m : Msg) (r g : Part), (tHome t [(0x40, d)]).receives { q with opc := .sdat } m r ∧ r.homeHere m.line = some 0 ∧
    r.homeTurn 0 1 = some g ∧ g.trkFind 0 m.line = some t ∧ t.ans.contains m.src.tcode = true ∧ m.status ≠ 2 ∧ m.hint = false ∧ t.req.opc = .cmoc ∧ g.dirGet 0 m.line = some d ∧ d.st ≠ .o :=
  ⟨{ tAsk with req := tMsg .cmoc aThr aHome }, ⟨.m, 0, .loc, []⟩, tAns .sdat, _, _, _, received _ _ (by decide +kernel), by decide +kernel, rfl, by decide +kernel, by decide, by decide,
    by decide, by decide, by decide +kernel, by decide⟩
/-- Memory's copy of the line reaches the home of the request that asked for it, whose CACK has come or has not. -/
theorem witness_answers_copy (b f : Bool) : ∃ (t : Trk) (q m : Msg) (r g : Part), (tHome t []).receives { q with opc := .sdat } m r ∧ r.homeHere m.line = some 0 ∧
    r.homeTurn 0 1 = some g ∧ g.trkFind 0 m.line = some t ∧ m.hint = true ∧ t.fill = f ∧ t.cacked = b :=
  match b, f with
  | true, true => ⟨{ tTrk with fill := true, cacked := true }, { tMsg .sdat ⟨0, tileOfChan 0, 0⟩ aHome with hint := true }, _, _, _, received _ _ (by decide +kernel), by decide +kernel, rfl, by decide +kernel, by decide, by decide, by decide⟩
  | true, false => ⟨{ tTrk with cacked := true }, { tMsg .sdat ⟨0, tileOfChan 0, 0⟩ aHome with hint := true }, _, _, _, received _ _ (by decide +kernel), by decide +kernel, rfl, by decide +kernel, by decide, by decide, by decide⟩
  | false, true => ⟨{ tTrk with fill := true }, { tMsg .sdat ⟨0, tileOfChan 0, 0⟩ aHome with hint := true }, _, _, _, received _ _ (by decide +kernel), by decide +kernel, rfl, by decide +kernel, by decide, by decide, by decide⟩
  | false, false => ⟨tTrk, { tMsg .sdat ⟨0, tileOfChan 0, 0⟩ aHome with hint := true }, _, _, _, received _ _ (by decide +kernel), by decide +kernel, rfl, by decide +kernel, by decide, by decide, by decide⟩
/-- Memory's line reaches the home of a far atomic. -/
theorem witness_responses_amo : ∃ (w : Trk) (q m : Msg) (r g : Part), (tHome w []).receives { q with opc := .dna } m r ∧ m.dst.isThread r.sktId = false ∧ m.dst.init = 4 ∧
    coreOrd m.dst.tile ≠ none ∧ r.homeHere m.line = some 0 ∧ r.homeTurn 0 1 = some g ∧ g.trkFind 0 m.line = some w ∧ w.req.opc = .amof ∧ w.memw = true ∧ m.stat < 2 :=
  ⟨{ tTrk with req := tMsg .amof aThr aHome, memw := true }, tMsg .dna ⟨0, tileOfChan 0, 0⟩ aHome, _, _, _, received _ _ (by decide +kernel), by decide +kernel, by decide, by decide,
    by decide +kernel, rfl, by decide +kernel, by decide, by decide, by decide⟩
theorem witness_responses : ∃ (q m : Msg) (r : Part), tPart.receives { q with opc := .dna } m r ∧ m.dst.isThread r.sktId = true ∧ r.coreAway m.dst.coreNo = false ∧
    (r.coreOf m.dst.coreNo).miss.find? (fun x => decide (x.1 = m.line)) = none ∧ m.hint = false ∧ m.bc = false ∧ m.plb = false ∧ m.stat = 0 ∧ m.dst.init ≠ 4 ∧ m.dst.skt = tPart.sktId :=
  ⟨tMsg .dna aHome ⟨0, coreTile 0, 0⟩, _, _, received _ _ (by decide +kernel), by decide +kernel, by decide +kernel, by decide +kernel, by decide, by decide, by decide, by decide, by decide, by decide +kernel⟩
/-- A store of core 0 waits for the line that the core has asked for. -/
def tMiss : Part := tPart.modCore 0 fun x => { x with mb := [tEnt 0 .cacheable 0], miss := [(0x40, true)] }
theorem witness_responses_lost : ∃ (q m : Msg) (r : Part), tMiss.receives { q with opc := .dna } m r ∧ m.dst.isThread r.sktId = true ∧ r.coreAway m.dst.coreNo = false ∧
    (r.coreOf m.dst.coreNo).miss.find? (fun x => decide (x.1 = m.line)) = some (0x40, true) ∧
    (r.coreOf m.dst.coreNo).mb.any (fun e => decide (e.line = m.line) && decide (e.ty = .cacheable)) = true :=
  ⟨tMsg .dna aHome ⟨0, coreTile 0, 0⟩, _, _, received _ _ (by decide +kernel), by decide +kernel, by decide +kernel, by decide +kernel, by decide +kernel⟩
theorem witness_responses_away : ∃ (q m : Msg) (r : Part), tPart.receives { q with opc := .ds } m r ∧ m.dst.isThread r.sktId = true ∧ r.coreAway m.dst.coreNo = true :=
  ⟨tMsg .ds aHome aThr, _, _, received _ _ (by decide +kernel), by decide +kernel, by decide +kernel⟩
theorem witness_responses_vis : ∃ (q m : Msg) (r : Part), tMb.receives { q with opc := .gnt } m r ∧ m.dst.isThread r.sktId = true ∧ r.coreAway m.dst.coreNo = false ∧ m.hint = true :=
  ⟨{ tMsg .gnt aHome ⟨0, coreTile 0, 0⟩ with hint := true }, _, _, received _ _ (by decide +kernel), by decide +kernel, by decide +kernel, by decide⟩
theorem witness_responses_io : ∃ (q m : Msg) (r : Part), tPart.receives { q with opc := .gnt } m r ∧ m.dst.isThread r.sktId = false :=
  ⟨tMsg .gnt aHome ⟨0, iotTile 0, 0⟩, _, _, received _ _ (by decide +kernel), by decide +kernel⟩
theorem witness_completions (b : Bool) : ∃ (q m : Msg) (r g : Part), (tHome { tTrk with cack := b } []).receives { q with opc := .cack } m r ∧ r.homeHere m.line = some 0 ∧
    r.homeTurn 0 1 = some g ∧ g.trkFind 0 m.line = some { tTrk with cack := b } ∧ tTrk.req.opc ∈ [Opc.rds, Opc.rdo, Opc.upg, Opc.own] ∧ tTrk.req.src = m.src :=
  match b with
  | true => ⟨tMsg .cack aThr aHome, _, _, _, received _ _ (by decide +kernel), by decide +kernel, rfl, by decide +kernel, by decide, by decide⟩
  | false => ⟨tMsg .cack aThr aHome, _, _, _, received _ _ (by decide +kernel), by decide +kernel, rfl, by decide +kernel, by decide, by decide⟩
theorem witness_completions_copy : ∃ (t : Trk) (q m : Msg) (r g : Part), (tHome t []).receives { q with opc := .cack } m r ∧ r.homeHere m.line = some 0 ∧
    r.homeTurn 0 1 = some g ∧ g.trkFind 0 m.line = some t ∧ t.fill = true ∧ t.req.src = m.src :=
  ⟨{ tTrk with fill := true }, tMsg .cack aThr aHome, _, _, _, received _ _ (by decide +kernel), by decide +kernel, rfl, by decide +kernel, by decide, by decide⟩
theorem witness_completions_late (o : Opc) (h : o = .cack ∨ o = .vis) : ∃ (q m : Msg) (r g : Part), tPart.receives { q with opc := o } m r ∧ r.homeHere m.line = some 0 ∧
    r.homeTurn 0 1 = some g ∧ g.trkFind 0 m.line = none := by
  rcases h with rfl | rfl
  · exact ⟨tMsg .cack aThr aHome, _, _, _, received _ _ (by decide +kernel), by decide +kernel, rfl, by decide +kernel⟩
  · exact ⟨tMsg .vis aThr aHome, _, _, _, received _ _ (by decide +kernel), by decide +kernel, rfl, by decide +kernel⟩
theorem witness_visible (b : Bool) : ∃ (t : Trk) (q m : Msg) (r g : Part), (tHome t []).receives { q with opc := .vis } m r ∧ r.homeHere m.line = some 0 ∧ r.homeTurn 0 1 = some g ∧
    g.trkFind 0 m.line = some t ∧ t.vis = true ∧ t.req.src = m.src ∧ t.req.pers = b ∧ t.req.plb = b ∧
    let d := withOwner t.data t.req.data t.req.mask t.req.pois
    ∃ x y, g.persist 0 t.req.line d.1 d.2.1 d.2.2 = (some x, y) :=
  match b with
  | true => ⟨{ tTrk with cack := false, vis := true, req := { tMsg .wrnap aThr aHome with pers := true, plb := true } }, tMsg .vis aThr aHome, _, _, _, received _ _ (by decide +kernel), by decide +kernel, rfl,
      by decide +kernel, by decide, by decide, by decide, by decide, _, _, rfl⟩
  | false => ⟨{ tTrk with cack := false, vis := true, req := tMsg .wrnap aThr aHome }, tMsg .vis aThr aHome, _, _, _, received _ _ (by decide +kernel), by decide +kernel, rfl,
      by decide +kernel, by decide, by decide, by decide, by decide, _, _, rfl⟩

/-- A request at a memory tile, from the home. -/
def tMem (o : Opc) : Msg := tMsg o aHome ⟨0, tileOfChan 0, 0⟩
theorem witness_memory_requests : ∃ (q m : Msg) (r : Part) (t : Target), tPart.receives { q with opc := .mpwt } m r ∧ r.target m = some t ∧ t.cxl = false ∧
    r.overCap t.chan t.ca = false ∧ (r.chanOf t.chan).off = false ∧ (r.chanOf t.chan).rq.length < 64 ∧ (r.chanOf t.chan).wq.length < 64 ∧
    ∃ a b, r.pwbAccept t.chan ⟨t.ca, m.data, m.mask, m.pois⟩ = (some a, b) :=
  ⟨tMem .mpwt, _, _, _, received _ _ (by decide +kernel), rfl, by decide +kernel, by decide +kernel, by decide +kernel, by decide +kernel, by decide +kernel, _, _, rfl⟩
theorem witness_memory_full : ∃ (p : Part) (q m : Msg) (r : Part) (t : Target), p.receives { q with opc := .mrd } m r ∧ r.target m = some t ∧ t.cxl = false ∧
    r.overCap t.chan t.ca = false ∧ (r.chanOf t.chan).off = false ∧ 64 ≤ (r.chanOf t.chan).rq.length :=
  ⟨tPart.modChan 0 fun x => { x with rq := List.replicate 64 (tMem .mrd) }, tMem .mrd, _, _, _, received _ _ (by decide +kernel), rfl, by decide +kernel, by decide +kernel, by decide +kernel, by decide +kernel⟩
theorem witness_memory_off : ∃ (p : Part) (q m : Msg) (r : Part) (t : Target), p.receives { q with opc := .mrd } m r ∧ r.target m = some t ∧ t.cxl = false ∧
    r.overCap t.chan t.ca = false ∧ (r.chanOf t.chan).off = true :=
  ⟨tPart.modChan 0 fun x => { x with off := true }, tMem .mrd, _, _, _, received _ _ (by decide +kernel), rfl, by decide +kernel, by decide +kernel, by decide +kernel⟩
theorem witness_memory_nowhere : ∃ (q m : Msg) (r : Part), tPart.receives { q with opc := .mrd } m r ∧ r.target m = none :=
  ⟨{ tMem .mrd with addr := 0x80000000 }, _, _, received _ _ (by decide +kernel), by decide +kernel⟩
theorem witness_memory_capacity : ∃ (p : Part) (q m : Msg) (r : Part) (t : Target), p.receives { q with opc := .mrd } m r ∧ r.target m = some t ∧ t.cxl = false ∧ r.overCap t.chan t.ca = true :=
  ⟨sets tPart [(F.MC_CAP_GB, 0)], tMem .mrd, _, _, _, received _ _ (by decide +kernel), rfl, by decide +kernel, by decide +kernel⟩
theorem witness_device_accesses : regionOf 0xFFF0000010000 = .ctl 0 0x10000 ∧ regionOf 0xFFF1000010000 = .loc 0x10000 ∧ regionOf 0xE000000000000 = .pcieWin ∧
    (aperture 0xE000000000000).1 = tPart.sktId ∧ regionOf 0xFFF0300010000 = .ctl 3 0x10000 ∧ tPart.sktCnt ≤ 3 ∧ regionOf 0x1000 = .mem ∧
    (∃ (q m : Msg) (r : Part), tPart.receives { q with opc := .drd } m r) ∧ aThr.skt = tPart.sktId ∧
    (∃ (q m : Msg) (r : Part), tPart.receives { q with opc := .tinv } m r ∧ q.src.skt ≠ tPart.sktId) :=
  ⟨by decide +kernel, by decide +kernel, by decide +kernel, by decide +kernel, by decide +kernel, by decide +kernel, by decide +kernel,
    ⟨tMsg .drd aThr ⟨0, tileD, 0⟩, _, _, received _ _ (by decide +kernel)⟩, by decide +kernel,
    ⟨tMsg .tinv ⟨1, 0, 0⟩ aThr, _, _, received _ _ (by decide +kernel), by decide +kernel⟩⟩

/-! ### Witnesses: memory channels, Varnish, enumeration and Dovetail -/

def tDown : Part := sets tPart [(F.MC_STAT_TRAINED, 0)]
theorem witness_channel_training : tDown.memTilePresent 0 = true ∧ tDown.rgOn F.MC_STAT_TRAINED 0 = false ∧ tDown.sys.boot = .released ∧ (tDown.rg F.PWR_BOFF_OFF).testBit 0 = false ∧
    tDown.rgOn F.MC_STAT_TRAINED 5 = false ∧ tDown.memTilePresent (5 / 2) = true ∧
    (sets tDown [(F.MC_ILVCTL_COMMIT, 1)]).rgOn F.MC_ILVCTL_COMMIT = true ∧
    ((sets tDown [(F.MC_ILVCTL_COMMIT, 1)]).applyHeld (mcCfgKey 0)).rgOn F.MC_STAT_TRAINED 0 = false ∧
    ((sets tDown [(F.MC_ILVCTL_COMMIT, 1)]).applyHeld (mcCfgKey 0)).rgOn F.MC_ILVCTL_COMMIT = true ∧ tPart.rgOn F.MC_ILVCTL_COMMIT = false := by decide +kernel
def tScrub : Part := sets tPart [(F.MC_SCRUB_EN, 1)]
theorem witness_channel_scrub : tScrub.rgOn F.MC_SCRUB_EN 0 = true ∧ tScrub.rgOn F.MC_STAT_TRAINED 0 = true ∧
    (tPart.chanOf 0).off = false ∧ tPart.rgOn F.MC_STAT_SELFREF 0 = false ∧ tPart.flushOn = false ∧ 0 < tScrub.rg F.MC_CAP_GB 0 ∧
    (∃ g, tScrub.chanTurn 0 3 = some g ∧ (g.chanOf 0).wq = [] ∧ (g.mtOf 0).pwb = [] ∧ (g.chanOf 0).scrub < tScrub.rg F.MC_CAP_GB 0 * 2 ^ 24) ∧
    (sets tPart [(F.MC_CFG_WRCRC, 1)]).rgOn F.MC_CFG_WRCRC 0 = true ∧ (sets tPart [(F.MC_SPARE_STATE, 1)]).rg F.MC_SPARE_STATE 0 = 1 :=
  ⟨by decide +kernel, by decide +kernel, by decide +kernel, by decide +kernel, by decide +kernel, by decide +kernel,
   ⟨_, rfl, by decide +kernel, by decide +kernel, by decide +kernel⟩, by decide +kernel, by decide +kernel⟩
def tWr : WqEnt := ⟨0x1000, 0, 1, 0⟩
/-- A read of chunk address 0x1000 of channel 0. -/
def tRd : Msg := { Msg.blank with opc := .mrd, addr := 0x1000, data := 0x1000 }
/-- A read and a write to its address wait at channel 0, and an entry of the persistence buffer, which the arbiter serves first. -/
def tXfer (pwb : List (Nat × WqEnt)) : Part := (tPart.modChan 0 fun x => { x with rq := [tRd], wq := [tWr] }).modMt 0 fun x => { x with pwb := pwb }
def tCxl : Part := (sets tPart [(F.PCI_GRP_EFF_MODE, 1), (F.PCI_GRP_STAT_INRESET, 0), (F.PCI_PORT_STAT_STATE, 3)]).modPci fun x => { x with cxl := [(0, [tRd])] }
theorem witness_channel_transfers : ((tXfer []).chanOf 0).rq = tRd :: [] ∧ (tXfer []).flushOn = false ∧ ((tXfer []).chanTurn 0 0).isSome = true ∧
    (tXfer []).wqWants 0 = true ∧ tPart.wqWants 0 = false ∧ (((tXfer []).modChan 0 fun x => { x with rq := [], high := true }).chanTurn 0 1).isSome = true ∧
    ((tXfer [(0, tWr)]).chanTurn 0 0).isNone = true ∧ ((tXfer [(0, tWr)]).chanTurn 0 1).isNone = true ∧ ((tXfer [(0, tWr)]).chanTurn 0 2).isSome = true ∧
    ((tXfer [(0, tWr)]).chanTurn 0 3).isNone = true ∧ (((tXfer [(0, tWr)]).modChan 0 fun x => { x with arb := { x.arb with prio := [8, 0, 4, 0, 0] } }).chanTurn 0 2).isNone = true ∧
    ((tXfer [(0, tWr)]).mtOf 0).pwb.find? (fun x => !((tXfer [(0, tWr)]).chanOf x.1).off) = some (0, tWr) ∧
    tCxl.pci.cxl.get [] 0 = tRd :: [] ∧ tCxl.cxlUp 0 = true ∧ tRd.opc = .mrd := by decide +kernel
def tFlush (f : Flush) : Part := tPart.modVarn fun v => { v with flush := some f }
theorem witness_flush : tPart.sys.pins.stbyOk = true ∧ tPart.sys.pins.pwrfailLow = false ∧ tPart.sys.pins.rstLow = false ∧
    (tPart.modPins fun x => { x with pwrfailLow := true }).sys.pins.pwrfailLow = true ∧ (tFlush ⟨false, false, 0, 0, 0⟩).sys.varn.flush = some ⟨false, false, 0, 0, 0⟩ ∧
    (tFlush ⟨false, false, 0, 0, 0⟩).sys.varn.flushdone = false ∧
    (sets (tFlush ⟨true, false, 0, 0, 0⟩) [(F.MC_ILV_TGT_PERS, 1), (F.MC_ILV_TGT_KIND, 1), (F.MC_ILV_TGT_GRAN, 1), (F.VAR_CTL_ARM, 1),
      (F.PCI_GRP_EFF_MODE, 1), (F.PCI_GRP_STAT_INRESET, 0)]).gpfGroups &&& 0xFF ≠ 0 ∧
    (tFlush ⟨true, true, 0, 0, 0⟩).armed.any (fun i => ((tFlush ⟨true, true, 0, 0, 0⟩).mtOf i).pwb.any (fun x => !((tFlush ⟨true, true, 0, 0, 0⟩).chanOf x.1).off)) = false ∧
    (tFlush ⟨true, true, 0, 0, 0⟩).sys.pins.coldWaits = false := by decide +kernel

/-- Enumeration: the phase, and whether the socket is the master. -/
def tEnum (m : Bool) (ph : EnumPhase) : Part := (tPart.modPins fun x => { x with master := m }).modDvt fun x => { x with phase := ph, count := 2, tag := 9 }
theorem witness_enumeration : (tEnum true .wait).sys.pins.master = true ∧ (tEnum true .wait).sys.dvt.phase = .wait ∧ (tEnum false .done).sys.dvt.phase = .done ∧
    EnumFrame.read 2 = none ∧ (∃ w f, EnumFrame.read w = some f ∧ f.commit = false ∧ f.val ≤ 15) ∧ (∃ w f, EnumFrame.read w = some f ∧ f.commit = false ∧ 15 < f.val) ∧
    (∃ w f, EnumFrame.read w = some f ∧ f.commit = false ∧ f.val ∈ [1, 2, 4, 8, 16] ∧ f.val ≤ 2 ^ f.maxl) ∧ (tEnum true .assigned).sys.dvt.phase = .assigned ∧
    (tEnum false .wait).sys.pins.master = false ∧ (∃ w f, EnumFrame.read w = some f ∧ f.commit = true ∧ f.val ≠ 0) ∧
    (∃ w f, EnumFrame.read w = some f ∧ f.commit = true ∧ f.val = (tEnum true .committed).sys.dvt.count ∧ f.tag = (tEnum true .committed).sys.dvt.tag) ∧
    (∃ w f, EnumFrame.read w = some f ∧ f.commit = true ∧ f.tag ≠ (tEnum true .committed).sys.dvt.tag) :=
  ⟨rfl, rfl, rfl, by decide, ⟨0, _, rfl, by decide, by decide⟩, ⟨0x48, _, rfl, by decide, by decide⟩, ⟨0x88, _, rfl, by decide, by decide, by decide⟩, rfl, rfl,
   ⟨0x00A, _, rfl, by decide, by decide⟩, ⟨0x240A, _, rfl, by decide, by decide, by decide⟩, ⟨0x00A, _, rfl, by decide, by decide⟩⟩

/-- Link 0 in a state; socket 0 of two. -/
def tLink (n : Nat) : Part := sets tPart [(F.PAL_SKT_SKTCNT, 2), (F.DVT_STAT_STATE, n)]
theorem witness_links : (tLink 1).linkState 0 = 1 ∧ (tLink 2).linkState 0 = 2 ∧ (tLink 5).linkState 0 = 5 ∧ (tLink 3).linkState 0 = 3 ∧
    (tLink 3).sktId ^^^ 2 ^ 0 = 1 ∧ (tLink 3).sktCnt = 2 ∧ (tLink 3).rg F.DVT_ENUM_TAG = 0 ∧ (tLink 4).linkUp 0 = true ∧ ((tLink 4).linkOf 0).prop = none ∧
    (((tLink 4).modLink 0 fun x => { x with prop := some (1, 1) }).linkOf 0).prop ≠ none ∧ (sets (tLink 4) [(F.PAL_SKT_SKTID, 1)]).sktId = 1 := by decide +kernel
theorem witness_link_traffic : (tLink 4).linkState 0 = 4 ∧ ((tLink 4).linkOf 0).rxSeq = 4095 ∧ (4095 + 1) % 4096 = 0 ∧
    (let l := ackTx ((tLink 4).linkOf 0).tx 0
     (if l.length < ((tLink 4).linkOf 0).tx.length then 1 else ((tLink 4).linkOf 0).resends + 1) < 8) ∧
    (let p := (tLink 4).modLink 0 fun x => { x with resends := 7 }
     8 ≤ (if (ackTx (p.linkOf 0).tx 0).length < (p.linkOf 0).tx.length then 1 else (p.linkOf 0).resends + 1)) ∧
    (sets (tLink 4) [(F.DVT_REINJ_ACTIVE, 1), (F.DVT_REINJ_ALAST, 7)]).rgOn F.DVT_REINJ_ACTIVE 0 = true ∧
    ((sets (tLink 4) [(F.DVT_REINJ_ACTIVE, 1), (F.DVT_REINJ_ALAST, 7)]).rg F.DVT_REINJ_ALAST 0 + 4096 - 5 % 4096) % 4096 < 1024 ∧
    1024 ≤ ((sets (tLink 4) [(F.DVT_REINJ_ACTIVE, 1), (F.DVT_REINJ_ALAST, 7)]).rg F.DVT_REINJ_ALAST 0 + 4096 - 8 % 4096) % 4096 ∧
    (((tLink 4).modLink 0 fun x => { x with ends := [0, 1] }).linkOf 0).ends.filter (· ≠ 1) ≠ [] ∧ (((tLink 4).modLink 0 fun x => { x with ends := [1] }).linkOf 0).ends.filter (· ≠ 1) = [] ∧
    (tLink 4).rgOn F.DVT_REINJ_ACTIVE 0 = false := by decide +kernel
/-- A flit of SEQ 0 with no ACK and no slots, behind a CRC. -/
def tFlitFront : BitVec 992 := BitVec.ofNat 992 (0x7777777 * 2 ^ 64)
def tFlitCrc : BitVec 32 := crcFlit ((List.range 124).map fun i => tFlitFront.extractLsb' (8 * i) 8)
def tFlit (c : BitVec 32) : RxFlit := ⟨c ++ tFlitFront, []⟩
theorem extract_low (a : BitVec 32) (b : BitVec 992) (i n : Nat) (h : i + n ≤ 992) : (a ++ b).extractLsb' i n = b.extractLsb' i n := by
  apply BitVec.eq_of_getLsbD_eq
  intro j hj
  rw [BitVec.getLsbD_extractLsb', BitVec.getLsbD_extractLsb', BitVec.getLsbD_append]
  simp only [hj, decide_true, Bool.true_and]
  rw [if_pos (by omega)]
theorem extract_high (a : BitVec 32) (b : BitVec 992) : (a ++ b).extractLsb' 992 32 = a := by
  apply BitVec.eq_of_getLsbD_eq
  intro j hj
  rw [BitVec.getLsbD_extractLsb', BitVec.getLsbD_append]
  simp only [hj, decide_true, Bool.true_and]
  rw [if_neg (by omega), Nat.add_sub_cancel_left]
theorem tFlit_crcOk (c : BitVec 32) : (tFlit c).crcOk = true ↔ tFlitCrc = c := by
  have h : (List.range 124).map (fun i => (c ++ tFlitFront).extractLsb' (8 * i) 8) = (List.range 124).map (fun i => tFlitFront.extractLsb' (8 * i) 8) :=
    List.map_congr_left fun i hi => extract_low _ _ _ _ (by have := List.mem_range.mp hi; omega)
  simp only [RxFlit.crcOk, decide_eq_true_eq, tFlit, h, extract_high, tFlitCrc]
theorem witness_flits : (tFlit tFlitCrc).crcOk = true ∧ (tFlit tFlitCrc).ty = 0 ∧ (tFlit tFlitCrc).seq = (4095 + 1) % 4096 ∧ (tFlit tFlitCrc).ack = none ∧
    (tFlit tFlitCrc).nak = false ∧ (tFlit (~~~ tFlitCrc)).crcOk = false := by
  have hb (i : Nat) (h : i < 992) : (tFlitCrc ++ tFlitFront).getLsbD i = tFlitFront.getLsbD i := by rw [BitVec.getLsbD_append, if_pos h]
  refine ⟨(tFlit_crcOk _).mpr rfl, ?_, ?_, ?_, ?_, ?_⟩
  · show ((tFlitCrc ++ tFlitFront).extractLsb' 36 2).toNat = 0
    rw [extract_low _ _ _ _ (by omega)]; decide +kernel
  · show ((tFlitCrc ++ tFlitFront).extractLsb' 52 12).toNat = (4095 + 1) % 4096
    rw [extract_low _ _ _ _ (by omega)]; decide +kernel
  · show (if (tFlitCrc ++ tFlitFront).getLsbD 39 then _ else none) = none
    rw [hb 39 (by omega)]; exact if_neg (by decide +kernel)
  · show (tFlitCrc ++ tFlitFront).getLsbD 38 = false
    rw [hb 38 (by omega)]; decide +kernel
  · rw [Bool.eq_false_iff, ne_eq, tFlit_crcOk]
    intro h
    have h0 := congrArg (fun x => x.getLsbD 0) h
    simp at h0
/-- Link 0 is up, and the map says so of both sockets. -/
def tPair : Part := sets (tLink 4) [(F.DVT_MAP_LO_UP, 0x11), (F.DVT_ENUM_DONE, 1)]
theorem ilvSum_modDvt (p : Part) (f : DvtSt → DvtSt) : (p.modDvt f).ilvSum = p.ilvSum := by unfold Part.ilvSum; rfl
theorem sums_differ (q : Part) : ∃ p : Part, p.sys.dvt.differ.find? 1 = some 0 ∧ p.sys.dvt.sum.get 0 1 ≠ p.ilvSum := by
  refine ⟨q.modDvt fun x => { x with differ := [(1, 0)], sum := [(1, q.ilvSum + 1)] }, rfl, ?_⟩
  rw [ilvSum_modDvt]
  show q.ilvSum + 1 ≠ q.ilvSum
  exact Nat.succ_ne_self _
theorem witness_socket_messages : tPair.linkState 0 = 4 ∧ 1 ≠ tPair.sktId ∧ tPair.rg F.DVT_MAP_LO_UP / 2 ^ (4 * (1 % 8)) % 16 = 1 ∧
    (∃ q, (tPair.modDvt fun x => { x with isolAt := some 5 }).isolationDue = some q) ∧ tPair.isolationDue = none ∧ (∃ e b, tPair.route 1 false = some (e, b)) ∧
    tPair.sktId = 0 ∧ tPair.rgOn F.DVT_ENUM_DONE = true ∧ 1024 ≤ (tPair.modDvt fun x => { x with ticks := 1024 }).sys.dvt.ticks ∧ tPair.rgOn F.DVT_GPWR_EN = false ∧
    (let p := sets tPair [(F.PAL_SKT_SKTID, 1)]; p.linkState 0 = 4 ∧ p.timeParent = some 0 ∧ p.time ≤ 1000 ∧ p.rgOn F.DVT_TSYNC_LOCKED = false) ∧
    coreOrd (coreTile 3) = some 3 ∧ tPair.sktCnt ≠ 1 ∧
    (∃ p : Part, p.sys.dvt.differ.find? 1 = some 0 ∧ p.sys.dvt.sum.get 0 1 ≠ p.ilvSum) :=
  ⟨by decide +kernel, by decide +kernel, by decide +kernel, ⟨_, rfl⟩, rfl, ⟨0, false, by decide +kernel⟩, by decide +kernel, by decide +kernel, by decide +kernel, by decide +kernel,
   by decide +kernel, by decide +kernel, by decide +kernel,
   sums_differ tPair⟩
theorem toNat_word (b : BitVec 32) : ∃ s : BitVec 32, s.toNat = b.toNat := ⟨b, rfl⟩
theorem ilvSum_word (p : Part) : ∃ s : BitVec 32, s.toNat = p.ilvSum := by
  delta Part.ilvSum
  generalize crc32 _ = b
  exact toNat_word b
theorem link_states_known (p : Part) (h1 : p.linkState 0 = 4) (h2 : 1 ≠ p.sktId) (h3 : p.rg F.DVT_MAP_LO_UP / 2 ^ (4 * (1 % 8)) % 16 = 1)
    (h4 : p.sys.dvt.weight.get 1 1 = max 1 1) : ∃ p : Part, p.linkState 0 = 4 ∧ 1 ≠ p.sktId ∧ p.rg F.DVT_MAP_LO_UP / 2 ^ (4 * (1 % 8)) % 16 = 1 ∧
    p.sys.dvt.weight.get 1 1 = max 1 1 ∧ ∃ s : BitVec 32, s.toNat = p.ilvSum ∧ p.sys.dvt.sum.find? 1 = some s.toNat := by
  obtain ⟨s, hs⟩ := ilvSum_word p
  exact ⟨p.modDvt fun x => { x with sum := [(1, s.toNat)] }, h1, h2, h3, h4, s, hs.trans (ilvSum_modDvt _ _).symm, rfl⟩
theorem witness_link_states_known : ∃ p : Part, p.linkState 0 = 4 ∧ 1 ≠ p.sktId ∧ p.rg F.DVT_MAP_LO_UP / 2 ^ (4 * (1 % 8)) % 16 = 1 ∧
    p.sys.dvt.weight.get 1 1 = max 1 1 ∧ ∃ s : BitVec 32, s.toNat = p.ilvSum ∧ p.sys.dvt.sum.find? 1 = some s.toNat :=
  link_states_known tPair (by decide +kernel) (by decide +kernel) (by decide +kernel) (by decide +kernel)

/-! ### Witnesses: ports, the endpoint, the packet engine, crypto and Veneer -/

theorem pair_of {α β : Type} {x : α × β} {b : β} (h : x.2 = b) : ∃ u, x = (u, b) := ⟨x.1, by rw [← h]⟩

/-- Port 0 is up, with buses 0 to 1 below it, and may send requests. -/
def tPort : Part := (sets tIo [(F.PCI_PORT_STAT_STATE, 3), (F.PCI_PORT_BUS_SUB, 1), (F.IOT_CTL_EN, 1)]).modPci fun x =>
  { x with port := [(0, { PortSt.reset with hdr := [(1, 4)], out := [⟨7, tRd, false, false, 0⟩] })], iot := [(0, { IotSt.reset with ctx := [⟨.dev 8, 5, 0⟩] })] }
theorem witness_outbound : (tPort.portOf 0).out.find? (fun x => decide (x.tag = 7)) = some ⟨7, tRd, false, false, 0⟩ ∧ tPort.portUp 0 = true ∧
    (tPort.portOf 0).out.find? (fun x => decide (x.tag = 8)) = none ∧
    ((({ tPort with time := 5 } : Part).modPort 0 fun x => { x with out := [] }).endRead 0 ⟨7, tRd, false, false, 0⟩ (allOnes tRd) false 0).rgOn F.PCI_PORT_STAT_CMODE 0 =
      tPort.rgOn F.PCI_PORT_STAT_CMODE 0 := by decide +kernel
def tIn : InReq := ⟨0, 8, none, false, false, false, .mem 0x1000⟩
def ioIsOk : IoTr → Bool
  | .ok _ _ _ _ _ => true
  | _ => false
theorem io_ok {x : IoTr} (h : ioIsOk x = true) : ∃ q a b c d, x = .ok q a b c d := by cases x <;> simp [ioIsOk] at h ⊢
theorem witness_inbound : tPort.portUp 0 = true ∧ InAddr.badSpan (.mem 0x1000) 0 4096 = true ∧ InAddr.badSpan (.mem 0x1000) 8 4096 = false ∧ InAddr.badSpan (.mem 0x1000) 513 512 = true ∧
    tPort.fromHost 0 = false ∧ (∃ q, tPort.sourceBad 0 0x900 = some q) ∧ tPort.sourceBad 0 8 = none ∧ tPort.pci.iow.any (fun w => decide (w.agent = tPort.grpAgent 0) && decide (w.port = 0)) = false ∧
    (∃ q pa x y z, tPort.ioTranslate 0 (tIn.toIo 0x1000 .write 2) = .ok q pa x y z) ∧ tPart.portUp 0 = false ∧
    (∃ q t : Part, ∃ pa x y v : Nat, ∃ b z, tPort.ioTranslate 0 (tIn.toIo 0x1000 .read 8) = .ok q pa x y z ∧ regionOf pa ≠ .pcieWin ∧ q.ioBytes (tPort.grpAgent 0) 0 pa 8 (lineFuel 8) = .got t v b) ∧
    (∃ q t : Part, ∃ pa x y : Nat, ∃ z, tPort.ioTranslate 0 (tIn.toIo 0x1000 .write 2) = .ok q pa x y z ∧ q.storeTlp (tPort.grpAgent 0) 0 pa false [some 1, some 2] = some t) ∧
    (sets tPort [(F.PCI_GRP_EFF_MODE, 2), (F.PCI_GRP_STAT_BAD, 0)]).fromHost 0 = true :=
  ⟨by decide +kernel, by decide, by decide, by decide, by decide +kernel, ⟨_, rfl⟩, by decide +kernel, by decide +kernel, io_ok (by decide +kernel), by decide +kernel,
   ⟨_, _, _, _, _, _, _, _, rfl, by decide +kernel, rfl⟩, ⟨_, _, _, _, _, _, rfl, rfl⟩, by decide +kernel⟩
theorem witness_ports : tPort.portExists 0 = true ∧ tPort.portState 0 = 3 ∧ (sets tPort [(F.PCI_PORT_STAT_STATE, 1)]).portState 0 = 1 ∧
    (sets tPort [(F.PCI_PORT_STAT_STATE, 2)]).portState 0 = 2 ∧ 5 ≤ 6 - (sets tPort [(F.PCI_PORT_STAT_STATE, 2)]).rg F.PCI_PORT_CTL_MAXSPEED 0 ∧
    1 ≤ (sets tPort [(F.PCI_PORT_STAT_STATE, 2), (F.PCI_PORT_ID_WIDTH, 16)]).rg F.PCI_PORT_ID_WIDTH 0 ∧
    (sets tPort [(F.PCI_PORT_STAT_STATE, 4)]).portState 0 = 4 ∧ (sets tPort [(F.PCI_PORT_STAT_STATE, 5)]).portState 0 = 5 ∧
    (tPart.takes 1 0 [(F.PCI_GRP_STAT_INRESET, 0), (F.PCI_GRP_EFF_SPLIT, 1)]).portExists 8 = true ∧
    ((tPart.takes 1 0 [(F.PCI_GRP_STAT_INRESET, 0), (F.PCI_GRP_EFF_SPLIT, 1)]).takes 8 0 [(F.PCI_PORT_STAT_STATE, 4)]).portUp 8 = true ∧
    ((tPart.takes 1 0 [(F.PCI_GRP_STAT_INRESET, 0), (F.PCI_GRP_EFF_SPLIT, 1)]).takes 8 0 [(F.PCI_PORT_STAT_STATE, 4)]).portState 8 = 4 ∧
    (sets tPort [(F.PCI_PORT_CTL_ECRC, 1), (F.PCI_PORT_STAT_CMODE, 1)]).rgOn F.PCI_PORT_CTL_ECRC 0 = true ∧
    (sets tPort [(F.PCI_PORT_CTL_ECRC, 1), (F.PCI_PORT_STAT_CMODE, 1)]).rgOn F.PCI_PORT_STAT_CMODE 0 = true ∧
    (sets tPort [(F.PCI_PORT_STAT_CMODE, 0)]).rgOn F.PCI_PORT_STAT_CMODE 0 = false := by decide +kernel
/-- The socket is an endpoint. -/
def tEp (b : Bool) : Part := (sets tPort [(F.PCI_GRP_EFF_MODE, 2), (F.PCI_GRP_STAT_BAD, 0)]).modEp fun e => { e with hdr := [(1, if b then 4 else 0)] }
theorem witness_endpoint : (tEp true).epMode = true ∧ (tEp true).epBme = true ∧ (tEp false).epBme = false ∧ (tEp true).rgOn F.EP_STAT_FLR = false ∧
    (sets (tEp true) [(F.EP_HDBTGT_EN, 1)]).rgOn F.EP_HDBTGT_EN = true ∧ (tEp true).rgOn F.EP_HDBTGT_EN = false ∧ (tEp true).pci.ep.perst = false ∧
    ((tEp true).modEp fun e => { e with perst := true }).pci.ep.perst = true ∧ (sets (tEp true) [(F.EP_STAT_FLR, 1)]).rgOn F.EP_STAT_FLR = true ∧
    (sets (tEp true) [(F.EP_STAT_FLR, 1)]).grpBusy 0 = false ∧ (tPort.modPci fun x => { x with iow := [⟨aHome, 0, 0, false, aHome⟩] }).grpBusy 0 = true ∧
    tPort.epMode = false := by decide +kernel

def tMac (n : Nat) : Part := sets tIo [(F.NET_MAC_STAT_STATE, n)]
theorem witness_macs : (tMac 1).netOn = true ∧ (tMac 1).macState 0 = 1 ∧ (tMac 2).macState 0 = 2 ∧ (tMac 3).macState 0 = 3 ∧ (tMac 4).macUp 0 = true ∧
    ((tMac 4).modPkt fun x => { x with pause := [(0, 9)] }).pkt.pause.find? 0 = some 9 := by decide +kernel
/-- A frame of 64 bytes with its FCS, and logical port 0 on MAC 0 with its default queue off. -/
def tBody : List Byte := List.replicate 60 0x5A
def tFrm : List Byte := tBody ++ fcsBytes tBody
def tLp : Part := sets (tMac 4) [(F.NET_LP_CFG_EN, 1), (F.NET_LP_CFG_MAC, 0), (F.NET_LP_CFG_SEL, 0), (F.NET_LP_DEFQ_DROP, 1)]
theorem tFrm_length : tFrm.length = 64 := by simp [tFrm, tBody, fcsBytes]
theorem tFrm_fcs : tFrm.drop (tFrm.length - 4) = fcsBytes (tFrm.take (tFrm.length - 4)) := by
  rw [tFrm_length]; rw [tFrm, List.drop_left' (by rfl), List.take_left' (by rfl)]
theorem witness_frames : tLp.hasPe = true ∧ tLp.macUp 0 = true ∧ 64 ≤ tFrm.length ∧ tFrm.length < 16384 ∧ tFrm.drop (tFrm.length - 4) = fcsBytes (tFrm.take (tFrm.length - 4)) ∧
    tFrm.take (tFrm.length - 4) = tBody ∧
    (let g := ((tLp.netBoundary.netCount F.NET_MAC_FECCORR_COUNT 0 0).bwCount 3 0 0 0 64).modPkt (fun x => { x with bad := x.bad.del 0 })
     let a := (g.netCount F.NET_MAC_RXOK_COUNT 0).netCount48 F.NET_MAC_RXBYTES_LO_COUNT F.NET_MAC_RXBYTES_HI_COUNT 0 64
     g.netOn = true ∧ g.pkt.resetAt = none ∧ 64 ≤ g.maxLen 0 ∧ a.lpFor 0 tBody = some 0 ∧ ∃ t, a.rxFrame 0 tBody [] 64 0 = (t, true)) ∧
    (sets tLp [(F.NET_LP_CFG_EN, 0)]).lpFor 0 tBody = none ∧ (tMac 3).macUp 0 = false :=
  ⟨by decide +kernel, by decide +kernel, Nat.le_of_eq tFrm_length.symm, by rw [tFrm_length]; decide, tFrm_fcs, by rw [tFrm_length, tFrm, List.take_left' (by rfl)],
   ⟨by decide +kernel, rfl, by decide +kernel, by decide +kernel, pair_of (by decide +kernel)⟩, by decide +kernel, by decide +kernel⟩

def tParse : Parse := parseFrame tBody
def tRx : RxFrame := { data := tBody, len := 64, lp := 0, ts := 0, status := 0, hash := 0, mark := 0, flow := 0, fhit := false, dly := false, job := none, parse := tParse, cells := 1, time := 0 }
def tTx : TxFrame := { data := tBody, nbuf := 1, desc := 0, status := 0, cells := 1, time := 0, waited := false, job := none }
/-- Receive queue 7 with rings of 16 and buffers of 64 bytes, and transmit queue 9 on logical port 0. -/
def tQ (f : QueueSt → QueueSt) : Part := tLp.modPkt fun x => { x with q := [(7, f { QueueSt.reset with state := .enabled, ctx := 4 * 2 ^ 23 + 4 * 2 ^ 27 + 1, rxq := [tRx], pidx := 1 }),
  (9, { QueueSt.reset with state := .enabled, ctx := 4 * 2 ^ 23 + 4 * 2 ^ 27 + 2 ^ 62 + 2, txq := [tTx], deficit := 100 })] }
theorem witness_receive : (tQ id).netOn = true ∧ ((tQ id).queueOf 7).rxq = tRx :: [] ∧ ((tQ id).queueOf 7).state = .enabled ∧ ((tQ id).queueOf 7).ready tRx = true ∧
    ((tQ fun x => { x with pidx := 0 }).queueOf 7).ready tRx = false ∧ ctxField ((tQ id).queueOf 7).ctx 3 19 10 = 0 ∧
    (∃ t, (((tQ fun x => { x with pidx := 0 }).rxPop 7 tRx).rxDrop 7 tRx 1) = (t, true)) ∧
    (∃ t, ((((tQ fun x => { x with pidx := 0 }).advance 1000).rxPop 7 tRx).rxDrop 7 tRx 1) = (t, true)) ∧ ((tQ fun x => { x with rxq := [] }).queueOf 7).rxq = [] ∧
    ((tQ fun x => { x with times := [3], armed := true }).queueOf 7).times.head? = some 3 ∧ ((tQ id).queueOf 7).armed = false ∧
    (tQ id).pkt.resetAt = none ∧ ((tQ id).queueOf 7).stop = none ∧ ((tQ id).queueOf 7).host = false ∧ ((tQ id).queueOf 7).isTx = false ∧ ((tQ id).queueOf 9).isTx = true ∧
    ((tQ id).queueOf 7).posted ≠ 0 ∧ ((tQ id).queueOf 7).rxd.length < 8 ∧ (tQ id).descUsed < 4096 :=
  ⟨by decide +kernel, by rfl, by rfl, by decide +kernel, by decide +kernel, by decide +kernel, pair_of (by decide +kernel), pair_of (by decide +kernel), by rfl, by rfl, by rfl, by rfl, by rfl,
   by decide +kernel, by decide +kernel, by decide +kernel, by decide +kernel, by decide +kernel, by decide +kernel⟩
theorem witness_delivery : ∃ (t u : Part) (c n : Nat) (bad : Bool) (r : NetRec), r = { ts := tRx.ts, cookie := c, mark := tRx.mark, hash := tRx.hash, status := 10, lp := tRx.lp, nbuf := n, fhit := tRx.fhit, len := tRx.len, flow := tRx.flow, parse := tRx.parse, dly := tRx.dly, mcrep := tRx.job.isSome, moved := !bad } ∧
    higher (higher tRx.status 0) (higher 0 10) = 10 ∧
    let p := tQ fun x => { x with rxd := [(0x2000, 5)] }
    (p.queueOf 7).ready tRx = true ∧ Part.fillBuffers 7 ((p.queueOf 7).need tRx) tRx.data 0 0 false p = (t, some (c, n, bad)) ∧ (t.rxPop 7 tRx).netRecord 7 r = (u, true) := by
  have h : (Part.fillBuffers 7 (((tQ fun x => { x with rxd := [(0x2000, 5)] }).queueOf 7).need tRx) tRx.data 0 0 false (tQ fun x => { x with rxd := [(0x2000, 5)] })).2 = some (5, 1, true) := by decide +kernel
  obtain ⟨t, ht⟩ := pair_of h
  refine ⟨t, _, 5, 1, true, _, rfl, by decide, by decide +kernel, ht, (pair_of ?_).choose_spec⟩
  have : t = (Part.fillBuffers 7 (((tQ fun x => { x with rxd := [(0x2000, 5)] }).queueOf 7).need tRx) tRx.data 0 0 false (tQ fun x => { x with rxd := [(0x2000, 5)] })).1 := by rw [ht]
  subst this; decide +kernel
theorem witness_departures : (tQ id).netOn = true ∧ (tQ id).pkt.resetAt = none ∧ ((tQ id).txPrepare 0).txHeld 0 = false ∧ (((tQ id).txPrepare 0).txTurn 0).2 = some 9 ∧
    ((((tQ id).txPrepare 0).txTurn 0).1.queueOf 9).txq = tTx :: [] ∧ (∃ t, (((tQ id).txPrepare 0).txTurn 0).1.txDepart 0 9 tTx = (t, true)) ∧
    (((tQ id).txPrepare 1).txTurn 1).2 = none ∧ ((tQ id).txPrepare 1).txHeld 1 = false ∧
    (((tQ id).modPkt fun x => { x with pause := [(0, 9)] }).txPrepare 0).txHeld 0 = true :=
  ⟨by decide +kernel, by rfl, by decide +kernel, by decide +kernel, by decide +kernel, pair_of (by decide +kernel), by decide +kernel, by decide +kernel, by decide +kernel⟩
theorem witness_doorbells : (tQ id).hasPe = true ∧ (tQ id).bellOk 7 4 0 false = true ∧ (tQ id).bellOk 7 2 0 false = false ∧
    ((tQ id).queueOf 7).dsize < (100 + 65536 - ((tQ id).queueOf 7).dcidx) % 65536 ∧ (3 + 65536 - ((tQ id).queueOf 7).dcidx) % 65536 ≤ ((tQ id).queueOf 7).dsize ∧
    ((tQ id).queueOf 7).csize < (((tQ id).queueOf 7).cpidx + 65536 - 100) % 65536 ∧ (((tQ id).queueOf 7).cpidx + 65536 - 0) % 65536 ≤ ((tQ id).queueOf 7).csize := by decide +kernel
theorem witness_commands_end : (tQ id).hasPe = true ∧ (tQ id).pkt.resetAt = none ∧ tBusy.pkt.flowcmd = some ⟨true, 0, .direct⟩ ∧ tIo.pkt.flowcmd = none ∧
    tBusy.key.cmd = some (.direct, [4]) ∧ ((tVen.modInst 0 fun x => { x with mcmd := some ⟨1, 0, true, 0⟩ }).instOf 0).mcmd = some ⟨1, 0, true, 0⟩ ∧ (tVen.instOf 0).mcmd = none ∧
    ((tQ id).modPkt fun x => { x with resetAt := some 5 }).pkt.resetAt = some 5 ∧
    ((((tQ id).modPkt fun x => { x with resetAt := some 5 }).advance 1000005).netAbandon 9).netQuiet = false ∧
    (((tMac 4).modPkt fun x => { x with resetAt := some 5 }).netAbandon 9).netQuiet = true ∧
    (let p := (tQ id).modInst 0 fun x => { x with mcmd := some ⟨1, 0, true, 0⟩ }
     (p.instOf (p.queueOf 7).inst).mcmd = some ⟨1, 0, true, 0⟩ ∧ (p.queueOf 7).state ≠ .disabled) := by decide +kernel

/-! ### Witnesses: supplies, boot, integrity and counters -/

def tPins (f : Pins → Pins) : Part := tPart.modPins f
theorem witness_supplies : (tPins fun x => { x with stbyOk := false }).sys.pins.stbyOk = false ∧
    (((tPins fun x => { x with stbyOk := false, rstLow := true }).socketReset .standby).modPins (fun x => { x with stbyOk := true, mainOk := true, bakOk := false })).sys.pins.rstLow = true ∧
    (((tPins fun x => { x with stbyOk := false }).socketReset .standby).modPins (fun x => { x with stbyOk := true, mainOk := true, bakOk := false })).sys.pins.rstLow = false ∧
    tPart.sys.pins.stbyOk = true ∧ tPart.sys.pins.mainOk = true ∧ tPart.sys.pins.bakOk = true ∧ (tPins fun x => { x with mainOk := false }).sys.pins.mainOk = false ∧
    tPart.sys.pwr.refLoss = false ∧ tPart.sys.pins.vrhot = false ∧ tPart.sys.boot ≠ .off ∧ tPart.sys.boot ≠ .held ∧ (1 : Nat) ≠ 0 ∧
    (let q := (tPart.advance 50000).setRg F.PWR_PLSTAT_AVG (min 1023 100); q.sys.pins.vrhot = false ∧ q.effLimit < 100000 ∧ 0 ≤ q.effLimit) ∧
    (tPins fun x => { x with vrhot := true }).sys.pins.vrhot = true ∧ (tPart.modPwr fun x => { x with hot := [2] }).sys.pwr.hot.contains 2 = true := by decide +kernel
/-- Both threads of core 0 wait; core 3 is off, idle or forced. -/
def tIdle : Part := { sets tPart [(F.PWR_C_MODE, 1)] with thr := [(0, { tThr with run := .waiting }), (1, { tThr with run := .waiting })] }
def tOff (o : OffSt) : Part := tIrq.modPwr fun x => { x with off := [(0, o)] }
theorem witness_idle : tIdle.coreMode 0 = 1 ∧ tIdle.coreOff 0 = false ∧ tIdle.sys.pwr.entering.find? 0 = none ∧ (tIdle.thread 0).run = .waiting ∧ (tIdle.thread 1).run = .waiting ∧
    (sets tPart [(F.PWR_C_MODE, 0)]).coreMode 0 ≠ 1 ∧ (tOff ⟨.idle, .waiting, .parked⟩).sys.pwr.off.find? 0 = some ⟨.idle, .waiting, .parked⟩ ∧
    ((tOff ⟨.idle, .waiting, .parked⟩).wakes 0 .waiting || (tOff ⟨.idle, .waiting, .parked⟩).wakes 1 .parked) = true ∧
    ((tOff ⟨.idle, .parked, .parked⟩).wakes 0 .parked || (tOff ⟨.idle, .parked, .parked⟩).wakes 1 .parked) = false ∧
    (sets (tOff ⟨.forced, .waiting, .parked⟩) [(F.PWR_C_MODE, 2)]).coreMode 0 = 2 := by decide +kernel
theorem witness_idle_wakes : (((((tOff ⟨.idle, .waiting, .parked⟩).used.advance ((tOff ⟨.idle, .waiting, .parked⟩).freshNat % 40001)).modPwr
    (fun x => { x with off := x.off.del 0 })).release 0 (.waiting, .parked)).coreMode 0) ≠ 2 := by decide +kernel
theorem witness_reset_pins : tPart.sys.pins.rstLow = false ∧ tPart.sys.pins.stbyOk = true ∧ (tPins fun x => { x with rstLow := true }).sys.pins.rstLow = true ∧
    (tPins fun x => { x with rstLow := true }).sys.pins.coldWaits = false ∧ (tPart.modSys fun x => { x with boot := .held }).sys.boot = .held ∧ tPart.sys.pins.pwrfailLow = false ∧
    (tPins fun x => { x with pwrfailLow := true }).sys.pins.pwrfailLow = true := by decide +kernel
def tImg : Image := { magic := 0x4E4D5A45, format := 1, hdrlen := 256, family := 0x4847, mindie := 0, lcmask := 1, secver := 0, flags := 0, totlen := 512, nsec := 1, keyslot := 0,
                        entry := 0x1000, xvecf := 0, memrate := 0, zero := true, pubHash := 5, sigOk := true, sections := [⟨6, 0, [], true, true⟩] }
/-- The block at a stage of boot, with a known hash in key slot 0. -/
def tBoot (b : BootStage) : Part := (sets tPart [(F.DVT_ENUM_DONE, 1)]).modSys fun x =>
  { x with boot := b, image := some tImg, fuses := { x.fuses with hash := [(0, 5)] } }
theorem witness_boot : (tBoot .started).sys.boot = .started ∧ (tBoot .started).enumOver = true ∧ (tBoot .started).lcs ≠ 4 ∧ (tBoot .started).imageCode tImg = 0 ∧
    (tBoot .started).readCode (.image tImg) = 0 ∧ (tBoot .started).readCode .error ≠ 0 ∧ ((tBoot .started).imageFails 9 false false).readCode (.image tImg) = 0 ∧
    ((tBoot .started).imageFails 9 false false).readCode .error ≠ 0 ∧ (tBoot .recovery).imageCode { tImg with magic := 0 } ≠ 0 ∧ (tBoot .recovery).imageCode tImg = 0 := by decide +kernel
theorem witness_boot_checks : ([].foldl (fun (x : Part) (y : Nat) => x.bootFail true y) (tBoot .verified)).sys.image = some tImg ∧ (tBoot .verified).populate.wantsFull tImg = false ∧
    (tBoot .configured).sys.image = some tImg ∧ tImg.sections.filter (fun x => x.kind = 1) = [] := by decide +kernel
theorem witness_boot_release :
    let a := (List.range 16).foldl (fun (r : Part) (c : Nat) => Part.refreshBoundary c r) (tBoot .configured)
    let b := if a.sys.warm then a else a.eccInit
    b.destsOk tImg = true ∧ ∃ r, b.copyFirmware (tImg.sections.filter (fun x => x.kind = 1)) = (r, true) := ⟨by decide +kernel, pair_of (by decide +kernel)⟩

def tAct (a u d : Nat) : Part := (tPart.takes 0 0 []).modRas 0 fun r => { r with acts := [⟨3, a, u, d⟩] }
theorem witness_windows : ((tPart.modRas 0 fun r => { r with win := [(3, 100)] }).rasOf 0).win.find? 3 = some 100 ∧ (tPart.rasOf 0).win.find? 3 = none ∧
    ((tAct 1 0 5).rasOf 0).acts.find? (fun a => !(tAct 1 0 5).actBusy a) = some ⟨3, 1, 0, 5⟩ ∧ (tAct 1 0 5).coreInSvc 0 = true ∧ ((tAct 1 0 5).coreOf 0).l2ret.length < 2 ∧
    (((tAct 1 0 5).modCore 0 fun x => { x with l2ret := [1, 2] }).coreOf 0).l2ret.contains 5 = false ∧
    ((tAct 2 0 5).rasOf 0).acts.find? (fun a => !(tAct 2 0 5).actBusy a) = some ⟨3, 2, 0, 5⟩ ∧ (tAct 2 0 5).sliceInSvc 0 = true ∧
    ((tAct 5 0 5).rasOf 0).acts.find? (fun a => !(tAct 5 0 5).actBusy a) = some ⟨3, 5, 0, 5⟩ := by decide +kernel
/-- Field tests on; cores 0 and 1 are left in service. -/
def tField : Part := sets tPart [(F.PRM_FCFG_CEN, 1), (F.PRM_FCFG_SEN, 0), (F.PRM_FCFG_HOLD, 0), (F.PAL_CORE_MAP_INSVC, 3)]
theorem witness_field_tests : tField.sys.boot = .released ∧ tField.lcs ≠ 4 ∧ tField.rgOn F.PRM_FCFG_HOLD = false ∧ tField.rgOn F.PRM_CMDSTAT_BUSY = false ∧ tField.roundUnits = [0, 1] ∧
    (sets tField [(F.PRM_FCFG_HOLD, 1)]).rgOn F.PRM_FCFG_HOLD = true ∧ tField.coreSkipped 0 = false := by decide +kernel
def tTest (sl : Bool) : Part := tPart.modPrm fun x => { x with test := some ⟨sl, 0, false, false, 0, .running, .parked, false, 0, 0⟩ }
theorem witness_test_done : (tTest false).sys.prm.test = some ⟨false, 0, false, false, 0, .running, .parked, false, 0, 0⟩ ∧ (tTest false).sys.pwr.entering.find? 0 = none ∧
    (tTest true).sys.prm.test = some ⟨true, 0, false, false, 0, .running, .parked, false, 0, 0⟩ ∧ tPart.sys.prm.test = none ∧
    ((((tTest false).used.advance ((tTest false).freshNat % 10000001))).coreOf 0).l2ret.length < 2 := by decide +kernel
theorem witness_test_spares : (∃ r, (((tTest false).used.advance ((tTest false).freshNat % 10000001))).spareCore 0 .running .parked = (r, true)) :=
  pair_of (by decide +kernel)
theorem witness_test_last : (∃ r, ((sets (tTest false) [(F.PAL_CORES_CORES, 1)]).modSys fun x => { x with fuses := { x.fuses with coresOff := [], spares := [1, 2, 3, 4, 5, 6, 7, 8] } }).spareCore 0 .running .parked = (r, false)) :=
  pair_of (by decide +kernel)
/-- Every unit is accounted for, and an audit waits. -/
def tAudit : Part := ({ sets Part.reset [(F.PAL_CORES_CORES, 264), (F.PAL_CORES_SPARE, 0), (F.PAL_SLICES_SLICES, 132)] with net := [] } : Part).modPrm fun x => { x with audit := some 5 }
theorem witness_audit : tAudit.sys.prm.audit = some 5 ∧ tAudit.net = [] ∧ ({ tAudit with net := [tRd] } : Part).net ≠ [] := by decide +kernel
/-- Bandwidth monitor 0 is on, and has counted 7 bytes of a window that began with the selection or after it. -/
def tBw (b : Bool) : Part := (sets tPart [(F.PERF_BWSEL_EN, 1)]).modGperf fun x => { x with bw := [(0, 0, 7, b)] }
theorem witness_collector : (votedAt ⟨tileD, 0x032⟩ 0).any (fun f => (1 : BitVec 32).toNat / 2 ^ f.lo % 2 ^ f.width ≠ 0) = true ∧
    (votedAt ⟨tileD, 0x032⟩ 0).any (fun f => (0 : BitVec 32).toNat / 2 ^ f.lo % 2 ^ f.width ≠ 0) = false ∧
    (sets tPart [(F.PERF_SNAPPER_US, 500)]).snapPeriod = some 500000 ∧ (sets tPart [(F.PERF_SNAPPER_US, 0)]).snapPeriod = none ∧
    (tPart.modGperf fun x => { x with snap := some ⟨0, 0, [], []⟩ }).sys.gperf.snap = some ⟨0, 0, [], []⟩ ∧
    (tBw true).rgOn F.PERF_BWSEL_EN 0 0 = true ∧ (tBw true).sys.gperf.bw.find? 0 = some (0, 7, true) ∧ (tBw false).sys.gperf.bw.find? 0 = some (0, 7, false) ∧
    (tBw true).time / (tBw true).bwLen 0 = 0 ∧ tPart.rgOn F.PERF_BWSEL_EN 0 0 = false := by decide +kernel

theorem witness_audit_right : ((tAudit.fabUntil (fun _ => false) 4096).advance 10000).audit.filter (fun c => !c.ok) = [] := by
  have h : (((tAudit.fabUntil (fun _ => false) 4096).advance 10000).audit.all (fun c => c.ok)) = true := by decide +kernel
  rw [List.filter_eq_nil_iff]; intro c hc; simp [List.all_eq_true.mp h c hc]
/-- The snapshot goes to an address that no range maps. -/
theorem witness_snapshot : ∃ q, Part.reset.snapLines ⟨0, 0, [], []⟩ 0 (List.range 433) = (q, true) := pair_of (by decide +kernel)

/-! ### Witnesses: the whole block -/

theorem witness_step : ∃ t, step { tState tPart with pending := [.epochTick] } = .next t := by
  rw [show step { tState tPart with pending := [.epochTick] } = exec .epochTick (tState tPart) from rfl]; exact ⟨_, rfl⟩
theorem witness_boot_core : (tState tPart).part.bootCoreLives ∧ tPart.sys.boot = .released ∧ (∃ t, step { tState tPart with pending := [.epochTick] } = .next t) := by
  refine ⟨fun _ _ _ _ h => absurd (h.2 _ (List.mem_cons_self ..)) ?_, by rfl, ⟨_, rfl⟩⟩
  decide +kernel
theorem witness_held_line : (tPart.thread 0).level = .f ∧ (tPart.thread 0).pc.toNat % 4 = 0 ∧ (tPart.thread 0).pc.toNat < 2 ^ 52 ∧ regionType (tPart.thread 0).pc.toNat = .cacheable ∧
    tPart.plumb 0 = false ∧ tPart.fromLoopBuf 0 = false ∧ (tPart.thread 0).dev = [] ∧ tPart.l2Get 0 ((tPart.thread 0).pc.toNat / 64) = some (tL2 .m) ∧
    tLine.poisoned 0 4 = false := by decide +kernel
theorem witness_memory : Memory.wf [(3, 5), (70, 1)] = true ∧ Memory.wf (Memory.put [(3, 5)] 70 1) = true ∧ Memory.put [(3, 5)] 70 1 = [(3, 5), (70, 1)] := by decide +kernel
/-- The same write waits in the write queue and in the persistence buffer. -/
def tQueued : Part := tXfer [(0, tWr)]
theorem witness_channel_reads : tQueued.wqAligned ∧ tWr.ca % 64 = 0 ∧ tWr.ca < 2 ^ 44 ∧ (tQueued.chanOf 0).off = false ∧ (∃ q r, tQueued.pwbAccept 0 tWr = (some q, r)) ∧
    (tQueued.mtOf (0 / 2)).pwb.any (fun x => decide (x.1 = 0 ∧ x.2.ca = tWr.ca)) = true := by
  refine ⟨⟨fun c e he => ?_, fun i x hx => ?_⟩, by decide, by decide, by decide +kernel, ⟨_, _, rfl⟩, by decide +kernel⟩
  · have h : (tQueued.chanOf c).wq = if c = 0 then [tWr] else [] := by
      by_cases hc : c = 0
      · subst hc; simp [tQueued, tXfer, Part.chanOf, Part.modChan, Part.modMt]
      · simp only [tQueued, tXfer, Part.chanOf, Part.modChan, Part.modMt, Tab.get_upd_other _ _ _ hc, hc, if_false]; rfl
    rw [h] at he; split at he <;> simp at he; subst he; decide
  · have h : (tQueued.mtOf i).pwb = if i = 0 then [(0, tWr)] else [] := by
      by_cases hc : i = 0
      · subst hc; simp [tQueued, tXfer, Part.mtOf, Part.modChan, Part.modMt]
      · simp only [tQueued, tXfer, Part.mtOf, Part.modChan, Part.modMt, Tab.get_upd_other _ _ _ hc, hc, if_false]; rfl
    rw [h] at hx; split at hx <;> simp at hx; subst hx; subst_vars; decide
theorem witness_interleave : 0 < (tPart.ilv 0).targets ∧ (tPart.ilv 0).base * 2 ^ 30 ≤ 0x1000 := by decide +kernel
theorem witness_routes : (0 : Nat) < 144 ∧ 143 < 144 ∧ torusOut 0 143 0 < 4 ∧ (0 : Nat) % 12 ≠ 143 % 12 ∧ (132 : Nat) % 12 = 0 % 12 ∧ ((6 : Nat) % 12 + 12 - 0 % 12) % 12 = 6 ∧
    (72 / 12 + 12 - 0 / 12) % 12 = 6 := by decide
/-- One requester that asks in every round. -/
theorem witness_arbiters : ∃ (base : List Nat) (prio : Nat → List Nat) (ptr won : Nat → Nat) (req : Nat → List Nat),
    0 < base.length ∧ (prio 0).length = base.length ∧ (∀ j, base.getD j 0 ≤ 15 ∧ (prio 0).getD j 0 ≤ 15) ∧ base.getD 0 0 ≤ (prio 0).getD 0 0 ∧
    (∀ k, 0 ∈ req k) ∧ ∀ k, arbitrate (prio k) base (ptr k) (req k) = some (won k, prio (k + 1), ptr (k + 1)) :=
  ⟨[2], fun _ => [2], fun _ => 0, fun _ => 0, fun _ => [0], by decide, rfl, fun j => by cases j <;> simp, by decide, fun _ => by simp, fun _ => (by decide : arbitrate [2] [2] 0 [0] = some (0, [2], 0))⟩

/-! ### What is well-formed, and what each check refuses -/

theorem test_wf_thread : (Instr.alu 0 3 1 2 0).wf = true ∧ Instr.epochTick.wf = true ∧ (Instr.doorbellWrite 0 5 4 0).wf = true := by decide
/-- An access of 3 bytes. -/
theorem test_ill_size : (Instr.doorbellWrite 0 5 3 0).wf = false ∧ (Instr.producerDoorbell 7 1 3 0 false 0).wf = false ∧ (Instr.completionDoorbell 7 1 0 0 false 0).wf = false := by decide
/-- A register write of 3 bytes, and one that is not aligned. -/
theorem test_ill_register_write : (Instr.registerWrite 0 0 0 3 0 mTop).wf = false ∧ (Instr.registerWrite 0 0 2 4 0 mTop).wf = false ∧ (Instr.registerWrite 0 0 4 4 0 mTop).wf = true := by decide
/-- No replay at all. -/
theorem test_ill_replays : (Instr.torusCrcError 0 0 0).wf = false := by decide
/-- A message of another code, beyond the address space, too large, of no such socket, tile or initiator, of no such VMID. -/
theorem test_ill_message : (Instr.rds (tMsg .rdo aThr aHome)).wf = false ∧ (Instr.rds { tMsg .rds aThr aHome with addr := 2 ^ 52 }).wf = false ∧
    (Instr.rds { tMsg .rds aThr aHome with sz := 7 }).wf = false ∧ (Instr.rds { tMsg .rds aThr aHome with vmid := 4096 }).wf = false ∧
    (Instr.rds (tMsg .rds ⟨16, 0, 0⟩ aHome)).wf = false ∧ (Instr.rds (tMsg .rds ⟨0, 144, 0⟩ aHome)).wf = false ∧ (Instr.rds (tMsg .rds ⟨0, 0, 16⟩ aHome)).wf = false ∧
    (Instr.rds (tMsg .rds aThr aHome)).wf = true := by decide
theorem test_ill_channel : (Instr.channelTrained 0 true 256 1 1 64).wf = false ∧ (Instr.channelTrained 0 true 88 9 1 64).wf = false ∧ (Instr.channelTrained 0 true 88 1 3 64).wf = false ∧
    (Instr.channelTrained 0 true 88 1 1 513).wf = false ∧ (Instr.scrubStep 0 0 0 8 0).wf = false ∧ (Instr.scrubStep 0 0 0 0 32).wf = false ∧ (Instr.channelReadDone 0 0 0 8 0).wf = false ∧
    (Instr.channelReadDone 0 0 0 0 32).wf = false := by decide
theorem test_ill_link : (Instr.linkCheck 0 16 0 1 0 ⟨0, 0⟩).wf = false ∧ (Instr.linkCheck 0 0 4 1 0 ⟨0, 0⟩).wf = false ∧ (Instr.linkCheck 0 0 0 17 0 ⟨0, 0⟩).wf = false ∧ (Instr.linkCheck 0 0 0 1 65536 ⟨0, 0⟩).wf = false ∧
    (Instr.dvtFlit 0 ⟨0x1000000000, [(0, tRd)]⟩).wf = false ∧ (Instr.dvtFlit 0 ⟨0, [(0, tRd)]⟩).wf = true ∧
    (Instr.dvtFlit 0 ⟨0, List.replicate 8 (0, tRd)⟩).wf = false ∧ (Instr.timeMessage 0 0 [1024]).wf = false ∧ (Instr.timeMessage 0 0 (List.replicate 17 0)).wf = false := by decide +kernel
theorem test_ill_port : (Instr.inboundMemoryRead tIn 0).wf = false ∧ (Instr.inboundMemoryRead { tIn with port := 64 } 4).wf = false ∧ (Instr.inboundMemoryRead { tIn with rid := 65536 } 4).wf = false ∧
    (Instr.inboundMemoryRead { tIn with psid := some (2 ^ 20) } 4).wf = false ∧ (Instr.inboundMemoryRead { tIn with addr := .mem 0x1FFE } 4).wf = false ∧ (Instr.inboundMemoryWrite tIn [] false).wf = false ∧
    (Instr.portTrained 0 7 16 false).wf = false ∧ (Instr.portTrained 0 5 3 false).wf = false ∧ (Instr.recoveryDone 0 true 0 1).wf = false := by decide
theorem test_ill_rest : (Instr.anResolved 0 4).wf = false ∧ (Instr.frameReceived 0 [] 0 0).wf = false ∧ (Instr.thermalSample [50]).wf = false ∧ (Instr.coreTestDone 0 (.way 8)).wf = false ∧
    (Instr.primerBootChecksDone [264] []).wf = false ∧ (Instr.primerBootChecksDone [] [132]).wf = false := by decide

/-! ### Values that the specification states -/

/-- No row of the table has bits. -/
theorem test_no_word : decodeTableWord 32 0x31898000 = none ∧ State.reset.withFetchWord 32 0x31898000 = State.reset := ⟨rfl, rfl⟩
/-- The worked example of chapter 8: the home of 0x8_9ABC_D678 is slice 107, in tile 115, and slice 108 when that is out of service. -/
theorem test_home : homeSlot (0x89ABCD678 / 64) = 107 ∧ coreTile 107 = 115 ∧ ({ tPart with ctl := Tab.put (Tab.put tMap (F.PAL_SLICE_MAP_INSVC.key 0 3) 0xFFFFF7FF) (F.PAL_SLICE_MAP_INSVC.key 0 4) 0 } : Part).homeOf (0x89ABCD678 / 64) = 108 := by
  decide +kernel
/-- The worked example of chapter 11: 0x8_9ABC_D678 decodes to address 0x89AB_CD78 of channel 10, in tile 59. -/
theorem test_interleave : (Ilv.decode { v := true, base := 0, limit := 1023, cxl := false, pers := false, gran := 1, hash := true, sktways := 0, sktbase := 0, chmask := 0xFFFF, choff := 0 }
    0x89ABCD678) = ⟨false, false, 0, 10, 0x89ABCD78⟩ ∧ tileOfChan 10 = 59 := by decide +kernel
/-- R13's examples of core tiles and cores. -/
theorem test_tiles : coreOrd 0 = some 0 ∧ coreOrd 7 = some 5 ∧ coreOrd 143 = some 131 ∧ coreOrd 5 = none := by decide +kernel
/-- Chapter 5's example: the doorbell of thread 1 of core 11. -/
theorem test_doorbell_address : doorbellAt 0 0xFFF0007018304 = some 23 := by decide +kernel

/-- The part after one command, and a register of thread 0. -/
def after (c : Instr) (p : Part) : Option Part := nextPart (step { pending := [c], part := p })
def g0 (i : BitVec 5) (o : Option Part) : Option Dword := o.map fun p => (p.thread 0).gr i

/-- ADD g3, g1, g2; with destination g0 nothing is written, and the pc moves by 4 (R32, R69). -/
theorem test_add : g0 3 (after (.alu 0 3 1 2 0) tPart) = some 0x100B ∧ g0 0 (after (.alu 0 0 1 2 0) tPart) = some 0 ∧
    (after (.alu 0 3 1 2 0) tPart).map (fun p => (p.thread 0).pc) = some 0x1004 := by decide +kernel
/-- Four instructions build 0x1234_5678_9ABC_DEF0 (chapter 3): the last of them. -/
theorem test_insh : g0 4 (after (.insh 0 4 3 0x1234) (tOf fun x => { x with g := [(4, 0x56789ABCDEF0)] })) = some 0x123456789ABCDEF0 := by decide +kernel
/-- cmpne c3, g1, g0 of chapter 3 (cc 1) on g1 = 0x1008, and on a zero register. -/
theorem test_cmpne : (after (.cmp 0 3 1 1 0 0) tPart).map (fun p => (p.thread 0).cr 3) = some true ∧ (after (.cmp 0 3 1 9 0 0) tPart).map (fun p => (p.thread 0).cr 3) = some false := by decide +kernel
/-- A load of eight bytes of the held line, and of a byte of it sign-extended after a store of 0x83 there (R75). -/
theorem test_load : g0 5 (after (.ldd 0 5 1 0) tPart) = some 0x1111111111111111 := by decide +kernel
theorem test_store_load : ((after (.stb 0 2 1 0) (tOf fun x => { x with g := [(1, 0x1008), (2, 0x83)] })).bind fun p => g0 5 (after (.ldb 0 5 1 0) p)) = some 0xFFFFFFFFFFFFFF83 ∧
    ((after (.stb 0 2 1 0) (tOf fun x => { x with g := [(1, 0x1008), (2, 0x83)] })).bind fun p => g0 5 (after (.ldbu 0 5 1 1) p)) = some 0x11 := by decide +kernel
/-- A thread in reset runs nothing (R29). -/
theorem test_in_reset : (after (.addi 0 3 0 7) Part.reset).map (fun p => (p.thread 0).gr 3) = some 0 := by decide +kernel
/-- The first frame lasts 106 ns (R263). -/
theorem test_epoch : (after .epochTick tPart).map (fun p => p.time) = some 106 := by decide +kernel
/-- PWR_PL takes 300 from level F, and a write from level U leaves it and makes one entry in the log of tile D (R544). -/
theorem test_power_limit : (after (.pwrPlWrite 300 mTop) tPart).map (fun p => p.rg F.PWR_PL_W) = some 300 ∧ (after (.pwrPlWrite 300 mLow) tPart).map (fun p => p.rg F.PWR_PL_W) = some 720 ∧
    (after (.pwrPlWrite 300 mLow) tPart).map (fun p => (p.rasOf tileD).log.length) = some 1 := by decide +kernel
/-- A command leaves the queue as it found it, less itself. -/
theorem test_queue : step { pending := [.ilvApply, .epochTick], part := Part.reset } = exec .ilvApply { pending := [.epochTick], part := Part.reset } := rfl
/-- An RDO of a line that nobody holds reads memory: the home keeps the request (R289). -/
theorem test_rdo : (after (.rdo (tMsg .rdo aThr aHome)) tPart).map (fun p => (p.sliceOf 0).trk.length) = some 1 := by decide +kernel

end Sys2Proof.Tests
end

section
/-!
The g, c and m registers of a thread (R32): each file's read after a write. The three files discard a
write to register 0 in the same way; they differ in how they are held, a table for g and m, the bits of
one byte for c.
-/
namespace Sys2Proof.Machine

@[simp] theorem Thr.setC_zero (th : Thr) (b : Bool) : th.setC 0 b = th := by simp [Thr.setC]
@[simp] theorem Thr.setM_zero (th : Thr) (x : Dword) : th.setM 0 x = th := by simp [Thr.setM]

theorem Thr.setG_gr (th : Thr) (i j : BitVec 5) (x : Dword) :
    (th.setG i x).gr j = if j = 0 then 0 else if j = i then x else th.gr j := by
  by_cases hj : j = 0
  · rw [hj, Thr.gr_zero, if_pos rfl]
  by_cases hi : i = 0
  · rw [hi, Thr.setG_zero, if_neg hj, if_neg hj]
  · simp only [Thr.setG, Thr.gr, if_neg hi, if_neg hj, Tab.get_put, BitVec.toNat_inj]

theorem Thr.setM_mr (th : Thr) (i j : BitVec 3) (x : Dword) :
    (th.setM i x).mr j = if j = 0 then BitVec.allOnes 64 else if j = i then x else th.mr j := by
  by_cases hj : j = 0
  · rw [hj, Thr.mr_zero, if_pos rfl]
  by_cases hi : i = 0
  · rw [hi, Thr.setM_zero, if_neg hj, if_neg hj]
  · simp only [Thr.setM, Thr.mr, if_neg hi, if_neg hj, Tab.get_put, BitVec.toNat_inj]

/-- Clearing bit `n` of a word and putting `b` there: bit `n` is `b`, every other bit is the word's. -/
theorem getLsbD_andNot_or_ite {w : Nat} (c : BitVec w) (n k : Nat) (b : Bool) (hk : k < w) :
    ((c &&& ~~~ (BitVec.ofNat w (2 ^ n))) ||| (if b then BitVec.ofNat w (2 ^ n) else 0)).getLsbD k =
      if k = n then b else c.getLsbD k := by
  have hbit : (BitVec.ofNat w (2 ^ n)).getLsbD k = decide (n = k) := by
    simp only [BitVec.getLsbD_ofNat, hk, Nat.testBit_two_pow, decide_true, Bool.true_and]
  simp only [BitVec.getLsbD_or, BitVec.getLsbD_and, BitVec.getLsbD_not, apply_ite (BitVec.getLsbD · k), hbit, hk]
  by_cases hkn : k = n
  · cases b <;> simp [hkn]
  · cases b <;> simp [hkn, Ne.symm hkn]

theorem Thr.setC_cr (th : Thr) (i j : BitVec 3) (b : Bool) :
    (th.setC i b).cr j = if j = 0 then true else if j = i then b else th.cr j := by
  by_cases hj : j = 0
  · rw [hj, Thr.cr_zero, if_pos rfl]
  by_cases hi : i = 0
  · rw [hi, Thr.setC_zero, if_neg hj, if_neg hj]
  · have h := getLsbD_andNot_or_ite th.c i.toNat j.toNat b j.isLt
    simp only [BitVec.toNat_inj] at h
    simpa only [Thr.setC, Thr.cr, if_neg hi, if_neg hj] using h

/-- Settles O53: the read-after-write law of each register file, whose case of register 0 is R32's constant. -/
theorem constantRegisters : Obligations.ConstantRegisters := by
  unfold Obligations.ConstantRegisters
  intro th g c m x y b
  exact ⟨th.setG_zero x, th.setC_zero b, th.setM_zero y, th.gr_zero, th.cr_zero, th.mr_zero,
    fun h => th.setG_gr g h x, fun d => th.setC_cr c d b, fun n => th.setM_mr m n y⟩

end Sys2Proof.Machine
end

section
/-!
The select and compare instructions (R71, R73, R74). SEL, CMP, CMPI and CLOG compute one g or c register, so each of
them ends in one of two ways: its result is written and it retires, or there is none and it raises ILLEGAL.
-/
namespace Sys2Proof.Machine

/-- How an instruction of thread `t` that computes one register ends, its word fetched into `q`: the register takes the
value and the instruction retires, or the word is reserved and raises ILLEGAL (R64). -/
def State.ends (s : State) (q : Part) (t : Nat) : Option (Thr → Thr) → Host.Outcome State Fault Refusal
  | some f => s.after ((q.modThread t f).retires t 1)
  | none => s.after (q.raise t cIllegal 0 none false)

theorem run_gInstr_eq_ends {s : State} {q : Part} {t : Nat} (h : s.part.fetched t q) (rd : BitVec 5)
    (f : Thr → Option Dword) (hl : ∀ a b, (f a).isSome = (f b).isSome) :
    s.run (fun p => p.gInstr t 1 rd f) = s.ends q t ((f (q.thread t)).map (fun v x => x.setG rd v)) := by
  cases hv : f (q.thread t) with
  | some v => exact exec_run rfl (gInstr_ok h 1 rd f v hv hl)
  | none => exact exec_run rfl (runInstr_bad h.1 h.2 _ _ (by simp only [hl _ (q.thread t), hv, Option.isSome_none]))

theorem run_cInstr_eq_ends {s : State} {q : Part} {t : Nat} (h : s.part.fetched t q) (cd : BitVec 3)
    (f : Thr → Option Bool) (hl : ∀ a b, (f a).isSome = (f b).isSome) :
    s.run (fun p => p.cInstr t cd f) = s.ends q t ((f (q.thread t)).map (fun v x => x.setC cd v)) := by
  cases hv : f (q.thread t) with
  | some v => exact exec_run rfl (cInstr_ok h cd f v hv hl)
  | none => exact exec_run rfl (runInstr_bad h.1 h.2 _ _ (by simp only [hl _ (q.thread t), hv, Option.isSome_none]))

/-! ### The four instructions -/

theorem exec_sel {s : State} {q : Part} {t : ThreadId} (h : s.part.fetched t.val q) (rd ra rb : BitVec 5) (fn : BitVec 11) :
    exec (.sel t rd ra rb fn) s = s.ends q t.val (if fn.toNat < 8 then
      some (fun x => x.setG rd (if (q.thread t.val).cr (fn.setWidth 3) then (q.thread t.val).gr ra else (q.thread t.val).gr rb))
      else none) := by
  refine (run_gInstr_eq_ends h rd _ fun a b => by split <;> rfl).trans ?_
  by_cases hfn : fn.toNat < 8
  · rw [if_pos hfn, if_neg (not_not.mpr (Nat.div_eq_of_lt hfn)), Option.map_some]
  · have hhigh : fn.toNat / 8 ≠ 0 := by omega
    rw [if_neg hfn, if_pos hhigh, Option.map_none]

theorem cmpResult_isSome (cc : BitVec 4) (low : BitVec 9) (a b c d : Dword) :
    (cmpResult cc low a b).isSome = (cmpResult cc low c d).isSome := by
  unfold cmpResult
  split
  · rfl
  · split <;> exact cmpCond_isSome ..

theorem exec_cmp {s : State} {q : Part} {t : ThreadId} (h : s.part.fetched t.val q) (cd : BitVec 3) (cc : BitVec 4)
    (ra rb : BitVec 5) (low : BitVec 9) :
    exec (.cmp t cd cc ra rb low) s = s.ends q t.val
      ((cmpResult cc low ((q.thread t.val).gr ra) ((q.thread t.val).gr rb)).map (fun v x => x.setC cd v)) :=
  run_cInstr_eq_ends h cd _ fun _ _ => cmpResult_isSome ..

theorem exec_cmpi {s : State} {q : Part} {t : ThreadId} (h : s.part.fetched t.val q) (cd : BitVec 3) (cc : BitVec 4)
    (ra : BitVec 5) (imm : BitVec 14) :
    exec (.cmpi t cd cc ra imm) s = s.ends q t.val
      ((cmpCond cc ((q.thread t.val).gr ra) (cmpiImm cc imm)).map (fun v x => x.setC cd v)) :=
  run_cInstr_eq_ends h cd _ fun _ _ => cmpCond_isSome ..

theorem exec_clog {s : State} {q : Part} {t : ThreadId} (h : s.part.fetched t.val q) (cd : BitVec 3) (cc : BitVec 4)
    (ca cb : BitVec 3) (z1 : BitVec 2) (z2 : BitVec 11) :
    exec (.clog t cd cc ca cb z1 z2) s = s.ends q t.val (if z1 = 0 ∧ z2 = 0 then
      (clogFun cc.toNat ((q.thread t.val).cr ca) ((q.thread t.val).cr cb)).map (fun v x => x.setC cd v) else none) := by
  refine (run_cInstr_eq_ends h cd _ fun a b => ?_).trans ?_
  · split
    · rfl
    · exact clogFun_isSome ..
  · by_cases hz : z1 = 0 ∧ z2 = 0
    · obtain ⟨rfl, rfl⟩ := hz
      rfl
    · rw [if_neg hz, if_pos (not_and_or.mp hz), Option.map_none]

/-! ### The conditions and the functions -/

theorem cmpCond_reserved {w : Nat} (a b : BitVec w) (cc : BitVec 4) (h : 12 ≤ cc.toNat) : cmpCond cc a b = none := by
  obtain ⟨n, hn⟩ := Nat.exists_eq_add_of_le' h
  simp only [cmpCond, hn]

theorem clogFun_reserved (a b : Bool) (n : Nat) (h : 8 ≤ n) : clogFun n a b = none := by
  obtain ⟨k, rfl⟩ := Nat.exists_eq_add_of_le' h
  rfl

/-- The four negated conditions of R73 (GE, GEU, GT, GTU), as the order of the operands' values. -/
theorem not_slt_eq_decide {w : Nat} (a b : BitVec w) : (!a.slt b) = decide (b.toInt ≤ a.toInt) := by
  simp only [BitVec.slt, ← decide_not, Int.not_lt]

theorem not_ult_eq_decide {w : Nat} (a b : BitVec w) : (!a.ult b) = decide (b.toNat ≤ a.toNat) := by
  simp only [BitVec.ult, ← decide_not, Nat.not_lt]

theorem not_sle_eq_decide {w : Nat} (a b : BitVec w) : (!a.sle b) = decide (b.toInt < a.toInt) := by
  simp only [BitVec.sle, ← decide_not, Int.not_le]

theorem not_ule_eq_decide {w : Nat} (a b : BitVec w) : (!a.ule b) = decide (b.toNat < a.toNat) := by
  simp only [BitVec.ule, ← decide_not, Nat.not_le]

/-- Settles O3: each instruction computes one register, so it ends as `State.ends` says; the codes in the tables name
the conditions and functions, and those above them have none. -/
theorem selectAndCompare : Obligations.SelectAndCompare := by
  unfold Obligations.SelectAndCompare
  refine ⟨?instructions, ?conditions, ?functions⟩
  case instructions =>
    intro s q t rd ra rb fn cd ca cb cc low imm z1 z2 h
    refine ⟨exec_sel h rd ra rb fn, (exec_cmp h cd cc ra rb low).trans ?_, exec_cmpi h cd cc ra imm,
      exec_clog h cd cc ca cb z1 z2⟩
    unfold cmpResult
    rw [apply_ite (Option.map _), Option.map_none]
    rfl
  case conditions =>
    intro w a b
    exact ⟨rfl, rfl, rfl, congrArg some (not_slt_eq_decide a b), rfl, congrArg some (not_ult_eq_decide a b),
      rfl, congrArg some (not_sle_eq_decide a b), rfl, congrArg some (not_ule_eq_decide a b), rfl, rfl, cmpCond_reserved a b⟩
  case functions =>
    intro a b
    exact ⟨rfl, rfl, rfl, rfl, rfl, rfl, rfl, congrArg some (Bool.not_not (a == b)).symm, clogFun_reserved a b⟩

end Sys2Proof.Machine
end

section
/-!
The bytes of lines under masks (R310, R330) and of DRAM (R325): each word that the model sums from digits is read bit
by bit, and so every merge and every write of a line is compared bit by bit.
-/
namespace Sys2Proof.Machine

/-! ### Numbers summed from digits -/

/-- A number summed from digits of `w` bits, lowest first: its bit `b` is bit `b % w` of digit `b / w`. -/
theorem testBit_foldl_digits (f : Nat → Nat) (w : Nat) (hf : ∀ i, f i < 2 ^ w) (n b : Nat) :
    ((List.range n).foldl (fun a i => a + f i * 2 ^ (w * i)) 0).testBit b =
      (decide (b < w * n) && (f (b / w)).testBit (b % w)) := by
  have hlt (n : Nat) : (List.range n).foldl (fun a i => a + f i * 2 ^ (w * i)) 0 < 2 ^ (w * n) := by
    induction n with
    | zero => simp
    | succ n ih =>
      rw [List.range_succ, List.foldl_append, List.foldl_cons, List.foldl_nil, Nat.mul_succ, Nat.pow_add]
      have := Nat.mul_le_mul_right (2 ^ (w * n)) (hf n)
      rw [Nat.succ_mul] at this
      rw [Nat.mul_comm (2 ^ (w * n))]
      omega
  induction n with
  | zero => simp
  | succ n ih =>
    rw [List.range_succ, List.foldl_append, List.foldl_cons, List.foldl_nil, Nat.add_comm, Nat.mul_comm (f n),
      Nat.testBit_two_pow_mul_add _ (hlt n), ih]
    by_cases hb : b < w * n
    · simp [hb, Nat.mul_succ, Nat.lt_add_right]
    · simp only [hb, if_false]
      by_cases hb' : b < w * (n + 1)
      · rw [Nat.mul_succ] at hb'
        have hdiv : b / w = n := Nat.div_eq_of_lt_le (by rw [Nat.mul_comm]; omega) (by rw [Nat.succ_mul, Nat.mul_comm]; omega)
        have hmod : b % w = b - w * n := by rw [Nat.mod_def, hdiv]
        simp [hdiv, hmod, hb', Nat.mul_succ]
      · have hbig : (f n).testBit (b - w * n) = false :=
          Nat.testBit_lt_two_pow (Nat.lt_of_lt_of_le (hf n) (Nat.pow_le_pow_right (by decide) (by rw [Nat.mul_succ] at hb'; omega)))
        simp [hb', hbig]

/-! ### Bytes and lines under a mask (R310, R330) -/

theorem getLsbD_maskVec (m : Dword) {b : Nat} (hb : b < 512) : (maskVec m).getLsbD b = m.getLsbD (b / 8) := by
  have hdigit (i : Nat) : (if m.getLsbD i then 255 else 0) < 2 ^ 8 := by split <;> decide
  have hsum : maskVec m =
      BitVec.ofNat 512 ((List.range 64).foldl (fun a i => a + (if m.getLsbD i then 255 else 0) * 2 ^ (8 * i)) 0) := by
    unfold maskVec
    congr 3
    funext a i
    split <;> simp
  have hones : Nat.testBit 255 (b % 8) = true := by
    rw [show 255 = 2 ^ 8 - 1 from rfl, Nat.testBit_two_pow_sub_one]
    simpa using Nat.mod_lt b (by decide)
  rw [hsum, BitVec.getLsbD_ofNat, testBit_foldl_digits _ 8 hdigit]
  cases h : m.getLsbD (b / 8) <;> simp [hb, hones]

theorem getLsbD_mergeVec (old new : Vec) (m : Dword) {b : Nat} (hb : b < 512) :
    (mergeVec old new m).getLsbD b = if m.getLsbD (b / 8) then new.getLsbD b else old.getLsbD b := by
  simp only [mergeVec, BitVec.getLsbD_or, BitVec.getLsbD_and, BitVec.getLsbD_not, getLsbD_maskVec m hb, hb]
  cases m.getLsbD (b / 8) <;> simp

/-- A write merged into an earlier one does what the two do one after the other. -/
theorem mergeVec_merged (old x y : Vec) (m n : Dword) :
    mergeVec old (mergeVec x y n) (m ||| n) = mergeVec (mergeVec old x m) y n := by
  refine BitVec.eq_of_getLsbD_eq fun b hb => ?_
  simp only [getLsbD_mergeVec _ _ _ hb, BitVec.getLsbD_or]
  cases m.getLsbD (b / 8) <;> cases n.getLsbD (b / 8) <;> rfl

/-- The bytes that a write takes do not depend on what earlier writes left there. -/
theorem mergeVec_overwritten (old x y : Vec) (m n : Dword) :
    mergeVec (mergeVec (mergeVec old y n) x m) y n = mergeVec (mergeVec old x m) y n := by
  refine BitVec.eq_of_getLsbD_eq fun b hb => ?_
  simp only [getLsbD_mergeVec _ _ _ hb]
  cases n.getLsbD (b / 8) <;> rfl

theorem Line.eq_of_data_of_pois {l m : Line} (hdata : l.data = m.data) (hpois : l.pois = m.pois) : l = m := by
  cases l
  exact congr (congrArg Line.mk hdata) hpois

theorem getLsbD_vecByte (d : Vec) (i j : Nat) : (vecByte d i).getLsbD j = (decide (j < 8) && d.getLsbD (8 * i + j)) := by
  rw [vecByte, BitVec.getLsbD_setWidth, BitVec.getLsbD_ushiftRight]

theorem Memory.getLsbD_line (m : List (Nat × Byte)) (k : Nat) {b : Nat} (hb : b < 512) :
    (Memory.line m k).getLsbD b = (Memory.get m (k + b / 8)).getLsbD (b % 8) := by
  rw [Memory.line, BitVec.getLsbD_ofNat, testBit_foldl_digits (fun i => (Memory.get m (k + i)).toNat) 8 fun i => (Memory.get m (k + i)).isLt]
  simp only [hb, decide_true, Bool.true_and]
  rfl

/-- A read of one byte after a write of a line under a mask. -/
theorem Memory.get_putLine (m : List (Nat × Byte)) (k j : Nat) (d : Vec) (mask : Dword) :
    Memory.get (Memory.putLine m k d mask) j =
      if k ≤ j ∧ j < k + 64 ∧ mask.getLsbD (j - k) = true then vecByte d (j - k) else Memory.get m j := by
  have hupto (n : Nat) : Memory.get ((List.range n).foldl (fun a i => if mask.getLsbD i then Memory.put a (k + i) (vecByte d i) else a) m) j =
      if k ≤ j ∧ j < k + n ∧ mask.getLsbD (j - k) = true then vecByte d (j - k) else Memory.get m j := by
    induction n with
    | zero => rw [if_neg (by omega)]; rfl
    | succ n ih =>
      rw [List.range_succ, List.foldl_append, List.foldl_cons, List.foldl_nil]
      by_cases hj : j = k + n
      · subst hj
        have hn : ¬ (k ≤ k + n ∧ k + n < k + n ∧ mask.getLsbD (k + n - k) = true) := by omega
        rw [if_neg hn] at ih
        cases hm : mask.getLsbD n
        · simpa [hm] using ih
        · simp [hm, Memory.get_put]
      · have hbound : j < k + (n + 1) ↔ j < k + n := by omega
        simp only [hbound, ← ih]
        split
        · rw [Memory.get_put, if_neg hj]
        · rfl
  exact hupto 64

/-- A line read after a write of that line. -/
theorem Memory.line_putLine_self (m : List (Nat × Byte)) (k : Nat) (d : Vec) (mask : Dword) :
    Memory.line (Memory.putLine m k d mask) k = mergeVec (Memory.line m k) d mask := by
  refine BitVec.eq_of_getLsbD_eq fun b hb => ?_
  have hin : k ≤ k + b / 8 ∧ k + b / 8 < k + 64 := by omega
  rw [Memory.getLsbD_line _ _ hb, getLsbD_mergeVec _ _ _ hb, Memory.getLsbD_line _ _ hb, Memory.get_putLine,
    Nat.add_sub_cancel_left]
  simp only [hin, true_and, apply_ite (BitVec.getLsbD · (b % 8)), getLsbD_vecByte, Nat.div_add_mod,
    Nat.mod_lt b (show 8 > 0 by decide), decide_true, Bool.true_and]

/-- A line read after a write of a line that shares no byte with it. -/
theorem Memory.line_putLine_apart (m : List (Nat × Byte)) {k l : Nat} (d : Vec) (mask : Dword)
    (h : l + 64 ≤ k ∨ k + 64 ≤ l) : Memory.line (Memory.putLine m k d mask) l = Memory.line m l := by
  refine BitVec.eq_of_getLsbD_eq fun b hb => ?_
  rw [Memory.getLsbD_line _ _ hb, Memory.getLsbD_line _ _ hb, Memory.get_putLine, if_neg (by omega)]

end Sys2Proof.Machine
end

section
/-!
What a channel returns (R325): DRAM's line under the writes of the line that wait, oldest first. An entry that leaves
for DRAM is the head of what waits, so a read does not see it leave; a write just accepted goes to the end, or into the
entry of the persistent write buffer, which lies over the write queue's.
-/
namespace Sys2Proof.Machine

/-! ### What DRAM holds after a write -/

/-- The channel address of a whole line below the 16 TB of a channel. -/
def isLineAddr (ca : Nat) : Prop := ca % 64 = 0 ∧ ca < 2 ^ 44

theorem dramKey_mod {c ca : Nat} (h : isLineAddr ca) : dramKey c ca % 64 = 0 := by
  obtain ⟨hmod, -⟩ := h
  unfold dramKey
  omega

theorem dramKey_inj {c d a b : Nat} (ha : isLineAddr a) (hb : isLineAddr b) : dramKey d a = dramKey c b ↔ d = c ∧ a = b := by
  obtain ⟨-, ha⟩ := ha
  obtain ⟨-, hb⟩ := hb
  unfold dramKey
  omega

/-- Two different lines share no byte of DRAM. -/
theorem dramKey_apart {c d a b : Nat} (ha : isLineAddr a) (hb : isLineAddr b) (h : ¬ (d = c ∧ a = b)) :
    dramKey d a + 64 ≤ dramKey c b ∨ dramKey c b + 64 ≤ dramKey d a := by
  have hne : dramKey d a ≠ dramKey c b := fun he => h ((dramKey_inj ha hb).1 he)
  have hm := dramKey_mod (c := d) ha
  have hn := dramKey_mod (c := c) hb
  omega

theorem Part.getLsbD_dramLine_pois (p : Part) (c ca : Nat) {j : Nat} (hj : j < 4) :
    (p.dramLine c ca).pois.getLsbD j = (p.pois.get 0 (dramKey c ca / 16 + j)).testBit 0 := by
  have h := testBit_foldl_digits (fun j => p.pois.get 0 (dramKey c ca / 16 + j) % 2) 1 (fun _ => Nat.mod_lt _ (by decide)) 4 j
  simp only [Nat.one_mul] at h
  simp only [Part.dramLine, BitVec.getLsbD_ofNat, h, hj]
  simp [Nat.mod_one, Nat.testBit_zero]

/-- The poison of one chunk after the chunks of a line are listed or unlisted. -/
theorem Tab.get_foldl_putBits (t : Tab Nat) (v : BitVec 4) (k x : Nat) :
    Tab.get 0 ((List.range 4).foldl (fun t j => if v.getLsbD j then Tab.put t (k + j) 1 else Tab.del t (k + j)) t) x =
      if k ≤ x ∧ x < k + 4 then (v.getLsbD (x - k)).toNat else Tab.get 0 t x := by
  have hupto (n : Nat) :
      Tab.get 0 ((List.range n).foldl (fun t j => if v.getLsbD j then Tab.put t (k + j) 1 else Tab.del t (k + j)) t) x =
        if k ≤ x ∧ x < k + n then (v.getLsbD (x - k)).toNat else Tab.get 0 t x := by
    induction n with
    | zero => rw [if_neg (by omega)]; rfl
    | succ n ih =>
      rw [List.range_succ, List.foldl_append, List.foldl_cons, List.foldl_nil]
      by_cases hx : x = k + n
      · subst hx
        cases hv : v.getLsbD n <;> simp [hv]
      · have hbound : x < k + (n + 1) ↔ x < k + n := by omega
        simp only [hbound, ← ih]
        split
        · exact Tab.get_put_other _ _ _ hx
        · exact Tab.get_del_other _ _ hx
  exact hupto 4

theorem Part.get_dramWrite_pois (p : Part) (c x : Nat) (e : WqEnt) :
    (p.dramWrite c e).pois.get 0 x =
      if dramKey c e.ca / 16 ≤ x ∧ x < dramKey c e.ca / 16 + 4 then
        (((p.dramLine c e.ca).overlay e).pois.getLsbD (x - dramKey c e.ca / 16)).toNat
      else p.pois.get 0 x :=
  Tab.get_foldl_putBits _ _ _ _

/-- DRAM's line after an entry of that line is written to it. -/
theorem Part.dramLine_dramWrite_self (p : Part) (c : Nat) (e : WqEnt) :
    (p.dramWrite c e).dramLine c e.ca = (p.dramLine c e.ca).overlay e := by
  have hdata : ((p.dramWrite c e).dramLine c e.ca).data = ((p.dramLine c e.ca).overlay e).data :=
    Memory.line_putLine_self _ _ _ _
  have hpois : ((p.dramWrite c e).dramLine c e.ca).pois = ((p.dramLine c e.ca).overlay e).pois := by
    refine BitVec.eq_of_getLsbD_eq fun j hj => ?_
    rw [Part.getLsbD_dramLine_pois _ _ _ hj, Part.get_dramWrite_pois, if_pos (by omega), Nat.add_sub_cancel_left]
    cases ((p.dramLine c e.ca).overlay e).pois.getLsbD j <;> rfl
  exact Line.eq_of_data_of_pois hdata hpois

/-- DRAM's line after an entry of another line is written to it. -/
theorem Part.dramLine_dramWrite_other (p : Part) {c d ca : Nat} {e : WqEnt} (hca : isLineAddr ca) (he : isLineAddr e.ca)
    (h : ¬ (d = c ∧ ca = e.ca)) : (p.dramWrite c e).dramLine d ca = p.dramLine d ca := by
  have hapart := dramKey_apart hca he h
  have hdata : ((p.dramWrite c e).dramLine d ca).data = (p.dramLine d ca).data := Memory.line_putLine_apart _ _ _ hapart
  have hpois : ((p.dramWrite c e).dramLine d ca).pois = (p.dramLine d ca).pois := by
    refine BitVec.eq_of_getLsbD_eq fun j hj => ?_
    have hm := dramKey_mod (c := d) hca
    have hn := dramKey_mod (c := c) he
    rw [Part.getLsbD_dramLine_pois _ _ _ hj, Part.getLsbD_dramLine_pois _ _ _ hj, Part.get_dramWrite_pois, if_neg (by omega)]
  exact Line.eq_of_data_of_pois hdata hpois

/-- DRAM's line after a run of entries of that line is written to it, oldest first. -/
theorem Part.dramLine_dramWrites_self (p : Part) {c ca : Nat} {l : List WqEnt} (hl : ∀ x ∈ l, x.ca = ca) :
    (l.foldl (fun r x => r.dramWrite c x) p).dramLine c ca = l.foldl Line.overlay (p.dramLine c ca) := by
  induction l generalizing p with
  | nil => rfl
  | cons x l ih =>
    obtain ⟨hx, hl⟩ := List.forall_mem_cons.1 hl
    subst hx
    rw [List.foldl_cons, List.foldl_cons, ih _ hl, Part.dramLine_dramWrite_self]

/-- DRAM's line after a run of entries of another line is written to it. -/
theorem Part.dramLine_dramWrites_other (p : Part) {c d a ca : Nat} {l : List WqEnt} (hl : ∀ x ∈ l, x.ca = a)
    (hca : isLineAddr ca) (ha : isLineAddr a) (h : ¬ (d = c ∧ ca = a)) :
    (l.foldl (fun r x => r.dramWrite c x) p).dramLine d ca = p.dramLine d ca := by
  induction l generalizing p with
  | nil => rfl
  | cons x l ih =>
    obtain ⟨hx, hl⟩ := List.forall_mem_cons.1 hl
    subst hx
    rw [List.foldl_cons, ih _ hl, Part.dramLine_dramWrite_other p hca ha h]

/-! ### The writes of a line that wait -/

/-- The writes of a line that wait in the write queue and then in the persistent write buffer, in the order in which
a read lays them over DRAM's line. -/
def Part.waiting (p : Part) (c ca : Nat) : List WqEnt :=
  (p.chanOf c).wq.filter (fun e => e.ca = ca) ++
    ((p.mtOf (c / 2)).pwb.filter (fun x => x.1 = c ∧ x.2.ca = ca)).map Prod.snd

theorem Part.chanRead_eq_foldl_waiting (p : Part) (c ca : Nat) :
    p.chanRead c ca = (p.waiting c ca).foldl Line.overlay (p.dramLine c ca) := by
  rw [Part.waiting, List.foldl_append, List.foldl_map]
  rfl

theorem Part.chanRead_congr {p q : Part} {d ca : Nat} (hdram : q.dramLine d ca = p.dramLine d ca)
    (hwait : q.waiting d ca = p.waiting d ca) : q.chanRead d ca = p.chanRead d ca := by
  rw [Part.chanRead_eq_foldl_waiting, Part.chanRead_eq_foldl_waiting, hdram, hwait]

/-- Writing entries to DRAM leaves what waits. -/
theorem Part.waiting_dramWrites (p : Part) (c d ca : Nat) (l : List WqEnt) :
    (l.foldl (fun r x => r.dramWrite c x) p).waiting d ca = p.waiting d ca :=
  foldl_keeps (fun (r : Part) => r.waiting d ca = p.waiting d ca) _ l p rfl fun _ _ h => h

/-- Entries of one line that leave the head of what waits for DRAM change no line that a read returns. -/
theorem Part.chanRead_dramWrites (p q : Part) {c a d ca : Nat} {l : List WqEnt} (hl : ∀ x ∈ l, x.ca = a)
    (ha : isLineAddr a) (hca : isLineAddr ca) (hdram : q.dramLine = p.dramLine)
    (hself : p.waiting c a = l ++ q.waiting c a) (hother : ¬ (d = c ∧ ca = a) → q.waiting d ca = p.waiting d ca) :
    (l.foldl (fun r x => r.dramWrite c x) q).chanRead d ca = p.chanRead d ca := by
  by_cases h : d = c ∧ ca = a
  · obtain ⟨rfl, rfl⟩ := h
    rw [Part.chanRead_eq_foldl_waiting, Part.chanRead_eq_foldl_waiting, Part.waiting_dramWrites,
      Part.dramLine_dramWrites_self q hl, hdram, hself, List.foldl_append]
  · refine Part.chanRead_congr ?_ ((Part.waiting_dramWrites q c d ca l).trans (hother h))
    rw [Part.dramLine_dramWrites_other q hl hca ha h, hdram]

/-! ### An entry that leaves for DRAM -/

/-- The oldest write queue entry that goes to DRAM changes no line that a read returns. -/
theorem Part.chanRead_wqDrain (p : Part) (c : Nat) {d ca : Nat} (hp : p.wqAligned) (hca : isLineAddr ca) :
    (p.wqDrain c).chanRead d ca = p.chanRead d ca := by
  unfold Part.wqDrain
  split
  · rfl
  next e r hwq =>
    have he : isLineAddr e.ca := hp.1 c e (by simp [hwq])
    refine Part.chanRead_dramWrites p (p.modChan c fun s => { s with wq := r }) (l := [e]) (by simp) he hca rfl ?_ fun h => ?_
    · simp [Part.waiting, hwq]
    · by_cases hd : d = c
      · have hne : e.ca ≠ ca := fun h' => h ⟨hd, h'.symm⟩
        simp [Part.waiting, hd, hwq, hne]
      · simp [Part.waiting, hd]

@[simp] theorem Part.wqDrain_mtOf (p : Part) (c i : Nat) : (p.wqDrain c).mtOf i = p.mtOf i := by
  unfold Part.wqDrain
  split <;> rfl

/-- The part after entry `e` of channel `c` left the persistent write buffer and the line's writes left the write queue. -/
def Part.lineUnlisted (p : Part) (c : Nat) (e : WqEnt) : Part :=
  (p.modMt (c / 2) fun s => { s with pwb := s.pwb.erase (c, e) }).modChan c
    fun s => { s with wq := s.wq.filter (fun x => x.ca ≠ e.ca) }

/-- The persistent write buffer drains an entry as a run of writes to DRAM: the queued writes of its line, then itself. -/
theorem Part.pwbDrain_eq_dramWrites (p : Part) {c : Nat} {e : WqEnt}
    (h : (p.mtOf (c / 2)).pwb.find? (fun x => !(p.chanOf x.1).off) = some (c, e)) :
    p.pwbDrain (c / 2) =
      ((p.chanOf c).wq.filter (fun x => x.ca = e.ca) ++ [e]).foldl (fun r x => r.dramWrite c x) (p.lineUnlisted c e) := by
  rw [List.foldl_append, Part.pwbDrain, h]
  rfl

/-- What leaves is the head of what waits for the line, if no earlier entry of the buffer is of that channel. -/
theorem Part.waiting_eq_append_lineUnlisted (p : Part) {c : Nat} {e : WqEnt} {as bs : List (Nat × WqEnt)}
    (hpwb : (p.mtOf (c / 2)).pwb = as ++ (c, e) :: bs) (has : ∀ x ∈ as, x.1 ≠ c) :
    p.waiting c e.ca =
      ((p.chanOf c).wq.filter (fun x => x.ca = e.ca) ++ [e]) ++ (p.lineUnlisted c e).waiting c e.ca := by
  have herase : (as ++ (c, e) :: bs).erase (c, e) = as ++ bs := by
    rw [List.erase_append_right _ fun h => has _ h rfl, List.erase_cons_head]
  have hnone : as.filter (fun x => decide (x.1 = c) && decide (x.2.ca = e.ca)) = [] :=
    List.filter_eq_nil_iff.2 fun x hx => by simp [has x hx]
  simp [Part.waiting, Part.lineUnlisted, hpwb, herase, hnone]

/-- What waits for another line stays. -/
theorem Part.waiting_lineUnlisted_other (p : Part) {c d ca : Nat} {e : WqEnt} (h : ¬ (d = c ∧ ca = e.ca)) :
    (p.lineUnlisted c e).waiting d ca = p.waiting d ca := by
  have hwq : ((p.lineUnlisted c e).chanOf d).wq.filter (fun x => x.ca = ca) = (p.chanOf d).wq.filter (fun x => x.ca = ca) := by
    by_cases hd : d = c
    · subst hd
      simp only [Part.lineUnlisted, Part.modChan_chanOf_self, Part.modMt_chanOf, List.filter_filter]
      refine List.filter_congr fun x _ => ?_
      by_cases hx : x.ca = ca
      · have hne : ca ≠ e.ca := fun h' => h ⟨rfl, h'⟩
        simp [hx, hne]
      · simp [hx]
    · simp [Part.lineUnlisted, hd]
  have hpwb : ((p.lineUnlisted c e).mtOf (d / 2)).pwb.filter (fun x => x.1 = d ∧ x.2.ca = ca) =
      (p.mtOf (d / 2)).pwb.filter (fun x => x.1 = d ∧ x.2.ca = ca) := by
    by_cases ht : d / 2 = c / 2
    · have hnot : (c, e) ∉ (p.mtOf (c / 2)).pwb.filter (fun x => x.1 = d ∧ x.2.ca = ca) := fun hmem =>
        by
        have hsel : c = d ∧ e.ca = ca := by simpa using (List.mem_filter.1 hmem).2
        exact h ⟨hsel.1.symm, hsel.2.symm⟩
      simp only [Part.lineUnlisted, ht, Part.modChan_mtOf, Part.modMt_mtOf_self]
      rw [← List.erase_filter, List.erase_of_not_mem hnot]
    · simp [Part.lineUnlisted, ht]
  rw [Part.waiting, hwq, hpwb, Part.waiting]

/-- The persistent write buffer entry that drains, with the queued writes of its line that go before it, changes no
line that a read returns. -/
theorem Part.chanRead_pwbDrain (p : Part) (i : Nat) {d ca : Nat} (hp : p.wqAligned) (hca : isLineAddr ca) :
    (p.pwbDrain i).chanRead d ca = p.chanRead d ca := by
  rcases hfind : (p.mtOf i).pwb.find? (fun x => !(p.chanOf x.1).off) with _ | ⟨c, e⟩
  · rw [Part.pwbDrain, hfind]
  · obtain ⟨hon, as, bs, hpwb, has⟩ := List.find?_eq_some_iff_append.1 hfind
    have hentry : c / 2 = i ∧ isLineAddr e.ca := hp.2 i (c, e) (by simp [hpwb])
    obtain ⟨rfl, he⟩ := hentry
    have hother : ∀ x ∈ as, x.1 ≠ c := fun x hx hc => by simpa [hc, hon] using has x hx
    have hline : ∀ x ∈ (p.chanOf c).wq.filter (fun x => x.ca = e.ca) ++ [e], x.ca = e.ca := by
      simp +contextual [or_imp]
    rw [p.pwbDrain_eq_dramWrites hfind]
    exact Part.chanRead_dramWrites p (p.lineUnlisted c e) hline he hca rfl
      (p.waiting_eq_append_lineUnlisted hpwb hother) p.waiting_lineUnlisted_other

/-! ### A write just accepted -/

/-- A read after an accepted write `e` of channel `c`: in its own line, the bytes of its mask are its own; another line
`ca` of a channel `d` reads as before. -/
def Part.readsAfter (p q : Part) (c : Nat) (e : WqEnt) (d ca : Nat) : Prop :=
  (q.chanRead c e.ca).data = mergeVec (p.chanRead c e.ca).data e.data e.mask ∧
    (d ≠ c ∨ ca ≠ e.ca → q.chanRead d ca = p.chanRead d ca)

/-- A write that waits behind all others of its line. -/
theorem Part.readsAfter_of_waiting_append {p q : Part} {c d ca : Nat} {e : WqEnt} (hdram : q.dramLine = p.dramLine)
    (hself : q.waiting c e.ca = p.waiting c e.ca ++ [e])
    (hother : ¬ (d = c ∧ ca = e.ca) → q.waiting d ca = p.waiting d ca) : p.readsAfter q c e d ca := by
  refine ⟨?_, fun h => Part.chanRead_congr (by rw [hdram]) (hother (by tauto))⟩
  rw [Part.chanRead_eq_foldl_waiting, hself, hdram, List.foldl_append, ← Part.chanRead_eq_foldl_waiting]
  rfl

/-- Entries that each took in a write `e` lay the same bytes as before with the write's over them. -/
theorem data_foldl_overlay_merge (e : WqEnt) (l : List WqEnt) {a b : Line} (h : a.data = mergeVec b.data e.data e.mask) :
    ((l.map (·.merge e)).foldl Line.overlay a).data = mergeVec (l.foldl Line.overlay b).data e.data e.mask := by
  induction l generalizing a b with
  | nil => exact h
  | cons x l ih =>
    refine ih ?_
    change mergeVec a.data (mergeVec x.data e.data e.mask) (x.mask ||| e.mask) = mergeVec (mergeVec b.data x.data x.mask) e.data e.mask
    rw [mergeVec_merged, h, mergeVec_overwritten]

/-- The same when some entry took the write in, whatever lay below. -/
theorem data_foldl_overlay_merge_of_ne_nil (e : WqEnt) {l : List WqEnt} (hl : l ≠ []) (a : Line) :
    ((l.map (·.merge e)).foldl Line.overlay a).data = mergeVec (l.foldl Line.overlay a).data e.data e.mask := by
  obtain ⟨x, l, rfl⟩ := List.exists_cons_of_ne_nil hl
  exact data_foldl_overlay_merge e l (mergeVec_merged _ _ _ _ _)

/-- An entry of a persistent write buffer after it took in a write of its line, if the write is of its line. -/
def pwbTake (c : Nat) (e : WqEnt) (x : Nat × WqEnt) : Nat × WqEnt := if x.1 = c ∧ x.2.ca = e.ca then (c, x.2.merge e) else x

theorem pwbTake_of_other {c : Nat} {e : WqEnt} {x : Nat × WqEnt} (h : ¬ (x.1 = c ∧ x.2.ca = e.ca)) : pwbTake c e x = x :=
  if_neg h

@[simp] theorem pwbTake_fst (c : Nat) (e : WqEnt) (x : Nat × WqEnt) : (pwbTake c e x).1 = x.1 := by
  unfold pwbTake
  split
  next h => exact h.1.symm
  · rfl

@[simp] theorem pwbTake_snd_ca (c : Nat) (e : WqEnt) (x : Nat × WqEnt) : (pwbTake c e x).2.ca = x.2.ca := by
  unfold pwbTake
  split <;> rfl

/-- The part after the entries of the line of `e` in the persistent write buffer of channel `c`'s tile took it in. -/
def Part.pwbMerged (p : Part) (c : Nat) (e : WqEnt) : Part :=
  p.modMt (c / 2) fun s => { s with pwb := s.pwb.map (pwbTake c e) }

/-- What waits after the merge: the buffer's entries of a line are those that waited, each with what it took in. -/
theorem Part.waiting_pwbMerged (p : Part) (c : Nat) (e : WqEnt) (d ca : Nat) :
    (p.pwbMerged c e).waiting d ca =
      (p.chanOf d).wq.filter (fun x => x.ca = ca) ++
        ((p.mtOf (d / 2)).pwb.filter (fun x => x.1 = d ∧ x.2.ca = ca)).map fun x => (pwbTake c e x).2 := by
  by_cases ht : d / 2 = c / 2
  · simp [Part.waiting, Part.pwbMerged, ht, List.filter_map, Function.comp_def]
  · have hkept : ∀ x ∈ (p.mtOf (d / 2)).pwb.filter (fun x => x.1 = d ∧ x.2.ca = ca), (pwbTake c e x).2 = x.2 := by
      intro x hx
      have hsel : x.1 = d ∧ x.2.ca = ca := by simpa using (List.mem_filter.1 hx).2
      rw [pwbTake_of_other fun ⟨hc, _⟩ => ht (by rw [← hsel.1, hc])]
    simp only [Part.waiting, Part.pwbMerged, Part.modMt_mtOf_other _ _ _ _ ht, Part.modMt_chanOf]
    rw [List.map_congr_left hkept]

/-- A write that a persistent write buffer entry of its line takes in. -/
theorem Part.readsAfter_pwbMerged (p : Part) {c : Nat} {e : WqEnt} (d ca : Nat)
    (hany : (p.mtOf (c / 2)).pwb.any (fun x => decide (x.1 = c ∧ x.2.ca = e.ca)) = true) :
    p.readsAfter (p.pwbMerged c e) c e d ca := by
  refine ⟨?_, fun h => Part.chanRead_congr rfl ?_⟩
  · have hne : ((p.mtOf (c / 2)).pwb.filter (fun x => x.1 = c ∧ x.2.ca = e.ca)).map Prod.snd ≠ [] := by
      obtain ⟨x, hx, hsel⟩ := List.any_eq_true.1 hany
      exact List.ne_nil_of_mem (List.mem_map_of_mem (List.mem_filter.2 ⟨hx, hsel⟩))
    have htake : ∀ x ∈ (p.mtOf (c / 2)).pwb.filter (fun x => x.1 = c ∧ x.2.ca = e.ca), (pwbTake c e x).2 = x.2.merge e := by
      intro x hx
      rw [pwbTake, if_pos (by simpa using (List.mem_filter.1 hx).2)]
    have hdram : (p.pwbMerged c e).dramLine c e.ca = p.dramLine c e.ca := rfl
    rw [Part.chanRead_eq_foldl_waiting, Part.chanRead_eq_foldl_waiting, Part.waiting_pwbMerged, hdram, List.map_congr_left htake,
      Part.waiting, List.foldl_append, List.foldl_append, ← data_foldl_overlay_merge_of_ne_nil e hne, List.map_map]
    rfl
  · have hkept : ∀ x ∈ (p.mtOf (d / 2)).pwb.filter (fun x => x.1 = d ∧ x.2.ca = ca), (pwbTake c e x).2 = x.2 := by
      intro x hx
      have hsel : x.1 = d ∧ x.2.ca = ca := by simpa using (List.mem_filter.1 hx).2
      obtain ⟨rfl, rfl⟩ := hsel
      rw [pwbTake_of_other (by tauto)]
    rw [Part.waiting_pwbMerged, List.map_congr_left hkept]
    rfl

/-- A write added behind the write queue, when no persistent write buffer entry of its line waits. -/
theorem Part.readsAfter_wqAppend (p : Part) {c : Nat} {e : WqEnt} (d ca : Nat)
    (hany : ¬ (p.mtOf (c / 2)).pwb.any (fun x => decide (x.1 = c ∧ x.2.ca = e.ca)) = true) :
    p.readsAfter (p.modChan c fun s => { s with wq := s.wq ++ [e] }) c e d ca := by
  refine Part.readsAfter_of_waiting_append rfl ?_ fun h => ?_
  · have hnone : (p.mtOf (c / 2)).pwb.filter (fun x => decide (x.1 = c) && decide (x.2.ca = e.ca)) = [] :=
      List.filter_eq_nil_iff.2 fun x hx hsel => hany (List.any_eq_true.2 ⟨x, hx, by simpa using hsel⟩)
    simp [Part.waiting, hnone]
  · by_cases hd : d = c
    · subst hd
      have hne : e.ca ≠ ca := fun h' => h ⟨rfl, h'.symm⟩
      simp [Part.waiting, hne]
    · simp [Part.waiting, hd]

/-- A write added behind the persistent write buffer. -/
theorem Part.readsAfter_pwbAppend (p : Part) (c : Nat) (e : WqEnt) (d ca : Nat) :
    p.readsAfter (p.modMt (c / 2) fun s => { s with pwb := s.pwb ++ [(c, e)] }) c e d ca := by
  refine Part.readsAfter_of_waiting_append rfl (by simp [Part.waiting]) fun h => ?_
  by_cases ht : d / 2 = c / 2
  · have hnot : ¬ (c = d ∧ e.ca = ca) := fun ⟨h₁, h₂⟩ => h ⟨h₁.symm, h₂.symm⟩
    simp [Part.waiting, ht, hnot]
  · simp [Part.waiting, ht]

theorem Part.chanWrite_of_any (p : Part) {c : Nat} {e : WqEnt}
    (hany : (p.mtOf (c / 2)).pwb.any (fun x => decide (x.1 = c ∧ x.2.ca = e.ca)) = true) :
    p.chanWrite c e = p.pwbMerged c e := if_pos hany

/-- A read after an accepted MWR. -/
theorem Part.readsAfter_chanWrite (p : Part) (c : Nat) (e : WqEnt) {d ca : Nat} (hp : p.wqAligned) (hca : isLineAddr ca)
    (he : isLineAddr e.ca) : p.readsAfter (p.chanWrite c e) c e d ca := by
  by_cases hany : (p.mtOf (c / 2)).pwb.any (fun x => decide (x.1 = c ∧ x.2.ca = e.ca)) = true
  · rw [p.chanWrite_of_any hany]
    exact p.readsAfter_pwbMerged d ca hany
  rw [Part.chanWrite, if_neg hany]
  dsimp only
  split
  · have h := (p.wqDrain c).readsAfter_wqAppend (e := e) d ca (by rwa [Part.wqDrain_mtOf])
    rwa [Part.readsAfter, p.chanRead_wqDrain c hp he, p.chanRead_wqDrain c hp hca] at h
  · exact p.readsAfter_wqAppend d ca hany

/-- A read after an accepted MPWT. -/
theorem Part.readsAfter_pwbAccept {p q r : Part} {c : Nat} {e : WqEnt} (d ca : Nat) (hon : (p.chanOf c).off = false)
    (h : p.pwbAccept c e = (some q, r)) : p.readsAfter q c e d ca := by
  unfold Part.pwbAccept at h
  rw [hon, if_neg Bool.false_ne_true] at h
  split at h
  · cases h
  split at h
  next hany =>
    cases h
    exact p.readsAfter_pwbMerged d ca hany
  split at h
  · cases h
  · cases h
    split <;> exact p.readsAfter_pwbAppend c e d ca

/-- Settles O57: an entry that leaves for DRAM is the head of what waits for its line, and a write just accepted waits
behind the rest of its line or is taken in by the buffer's entry, which overlays the queue's. -/
theorem channelReturnsWrites : Obligations.ChannelReturnsWrites := by
  unfold Obligations.ChannelReturnsWrites
  intro p c d ca i e hp hmod hlt hemod helt
  have hca : isLineAddr ca := ⟨hmod, hlt⟩
  obtain ⟨hself, hother⟩ := p.readsAfter_chanWrite c e (d := d) hp hca ⟨hemod, helt⟩
  refine ⟨p.chanRead_wqDrain c hp hca, p.chanRead_pwbDrain i hp hca, hself, hother, fun hany => ?_,
    fun q r hon h => Part.readsAfter_pwbAccept d ca hon h⟩
  rw [p.chanWrite_of_any hany]
  exact ⟨by rw [Part.pwbMerged, Part.modMt_mtOf_self]; rfl, rfl⟩

end Sys2Proof.Machine
end

section
/-!
What every command has in common: it is one effect on the part, followed by what the part does of itself (R308, R309,
R496). The last of that is the look at the boot core, which leaves it alive or the socket in reset.
-/
namespace Sys2Proof.Machine
-- Proofs one after another: many at once, each with a thread of its own, do not fit in the check's memory.
set_option Elab.async false

/-- Each command's meaning is one effect on the part, so the queue is never touched. -/
theorem exec_eq_run (c : Instr) (s : State) : ∃ f : Part → Part, exec c s = s.run f := by
  cases c <;> exact ⟨_, rfl⟩

theorem part_of_run_eq_next {s t : State} {f : Part → Part} (h : s.run f = .next t) : t.part = (f s.part).settle := by
  unfold State.run at h
  injection h with h
  rw [← h]

/-- Settles O50: a command is one effect on the part and what follows it. -/
theorem everyCommandAnswersNext : Obligations.EveryCommandAnswersNext := by
  unfold Obligations.EveryCommandAnswersNext
  intro c s
  obtain ⟨f, hf⟩ := exec_eq_run c s
  exact ⟨(f s.part).settle, hf⟩

theorem step_of_pending {s : State} {c : Instr} {rest : List Instr} (h : s.pending = c :: rest) :
    step s = exec c { s with pending := rest } := by
  rw [step, h]

/-- Settles O49: the two cases of the queue are the two cases of the step. -/
theorem stepTakesFrontCommand : Obligations.StepTakesFrontCommand := by
  unfold Obligations.StepTakesFrontCommand
  refine ⟨fun _ _ => step_of_pending rfl, fun s hempty => ?_⟩
  rw [step, hempty]

/-! ### The boot core after a command -/

theorem Part.linksStart_boot (p : Part) : p.linksStart.sys.boot = p.sys.boot := by
  unfold Part.linksStart
  split
  · rfl
  · refine foldl_keeps (fun r : Part => r.sys.boot = p.sys.boot) _ _ p rfl fun r l hr => ?_
    split <;> exact hr

/-- A boot that Easel has started has not released the boot core yet (R497). -/
theorem Part.bootStart_boot (p : Part) (warm : Bool) : (p.bootStart warm).sys.boot = .started := by
  cases warm
  · rfl
  · exact Part.linksStart_boot _

theorem Part.bootCoreLives_of_boot_ne {p : Part} (h : p.sys.boot ≠ .released) : p.bootCoreLives :=
  fun hrel => absurd hrel h

/-- A warm reset that is asked for in a running socket happens (R496). -/
theorem Part.bootCoreLives_warmReset (p : Part) : p.warmReset.bootCoreLives := by
  unfold Part.warmReset
  split
  next hstop =>
    intro hrel htherm hlow hwaits
    simp [hrel, htherm, hlow, hwaits] at hstop
  · exact Part.bootCoreLives_of_boot_ne (by rw [Part.bootStart_boot]; decide)

/-- After the look at the boot core it is alive, or the socket does not run. -/
theorem Part.bootCoreLives_haltCheck (p : Part) : p.haltCheck.bootCoreLives := by
  unfold Part.haltCheck
  split
  next hstop =>
    intro hrel htherm
    simp [hrel, htherm] at hstop
  dsimp only
  split
  · exact p.bootCoreLives_warmReset
  next hlives =>
    rintro - - - - ⟨hne, hall⟩
    refine hlives ⟨by simpa [Part.bootRuns] using hne, ?_⟩
    rw [List.all_eq_true]
    exact fun r hr => decide_eq_true (hall r hr)

/-- What follows every command ends with that look. -/
theorem Part.bootCoreLives_settle (p : Part) : p.settle.bootCoreLives :=
  Part.bootCoreLives_haltCheck _

/-- Settles O51: a step either idles or ends with the look at the boot core. -/
theorem haltedBootCoreIsReset : Obligations.HaltedBootCoreIsReset := by
  unfold Obligations.HaltedBootCoreIsReset
  intro s t hs hstep
  rcases hq : s.pending with _ | ⟨c, rest⟩
  · rw [step, hq] at hstep
    cases hstep
    exact hs
  · obtain ⟨f, hf⟩ := exec_eq_run c { s with pending := rest }
    rw [step_of_pending hq, hf] at hstep
    rw [part_of_run_eq_next hstep]
    exact Part.bootCoreLives_settle _

end Sys2Proof.Machine
end

section
/-!
The integer instructions (R69 to R72): what each operation code computes, and that the instruction writes it to its
destination and retires.
-/
namespace Sys2Proof.Machine
set_option Elab.async false

/-! ### ALU and immediate instructions -/

/-- A g-register instruction whose computation has a result writes it and retires. -/
theorem run_gInstr_ok {s : State} {q : Part} {t : Nat} (h : s.part.fetched t q) (cost : Nat) (rd : BitVec 5)
    (f : Thr → Option Dword) {v : Dword} (hv : f (q.thread t) = some v) (hl : ∀ a b, (f a).isSome = (f b).isSome) :
    s.run (fun p => p.gInstr t cost rd f) = s.after ((q.modThread t (fun th => th.setG rd v)).retires t cost) :=
  exec_run rfl (gInstr_ok h cost rd f v hv hl)

/-- The same for a computation that always has a result, as an update of the thread. -/
theorem run_gInstr_fun {s : State} {q : Part} {t : Nat} (h : s.part.fetched t q) (cost : Nat) (rd : BitVec 5)
    (g : Thr → Dword) :
    s.run (fun p => p.gInstr t cost rd (fun th => some (g th))) =
      s.after ((q.modThread t (fun th => th.setG rd (g th))).retires t cost) :=
  exec_run rfl (gInstr_fun h cost rd g)

/-- INSH with a field number below 4 puts the immediate into that field. -/
theorem exec_insh {s : State} {q : Part} {t : ThreadId} (h : s.part.fetched t.val q) (rd ra : BitVec 5) (imm : BitVec 16)
    (hra : ra.toNat < 4) :
    exec (.insh t rd ra imm) s =
      s.after ((q.modThread t.val (fun th => th.setG rd (inshResult (th.gr rd) imm ra.toNat))).retires t.val 1) := by
  have hlegal : ¬ ra.toNat / 4 ≠ 0 := by omega
  have hfield : ra.toNat % 4 = ra.toNat := Nat.mod_eq_of_lt hra
  refine Eq.trans ?_ (run_gInstr_fun h 1 rd fun th => inshResult (th.gr rd) imm ra.toNat)
  show s.run (Part.iInsh t.val rd ra imm) = _
  unfold Part.iInsh
  simp only [if_neg hlegal, hfield]

/-- Settles O1: each instruction computes one g register from its thread. -/
theorem scalarIntegerResults : Obligations.ScalarIntegerResults := by
  unfold Obligations.ScalarIntegerResults
  refine ⟨?alu, ?immediate⟩
  case alu =>
    intro s q t rd ra rb fn v h hv
    exact run_gInstr_ok h _ rd _ hv fun _ _ => aluResult_isSome ..
  case immediate =>
    intro s q t rd ra imm h
    exact ⟨run_gInstr_fun h 1 rd _, run_gInstr_fun h 1 rd _, run_gInstr_fun h 1 rd _, run_gInstr_fun h 1 rd _,
      fun v hv => run_gInstr_ok h 1 rd _ hv fun _ _ => shiResult_isSome .., run_gInstr_fun h 1 rd _,
      exec_insh h rd ra imm, run_gInstr_fun h 1 rd _⟩

/-! ### The operations -/

theorem div_rem_zero {w : Nat} (a : BitVec w) :
    divS a 0 = BitVec.allOnes w ∧ divU a 0 = BitVec.allOnes w ∧ remS a 0 = a ∧ remU a 0 = a :=
  ⟨if_pos rfl, if_pos rfl, if_pos rfl, if_pos rfl⟩

theorem div_rem_of_ne_zero {w : Nat} (a : BitVec w) {b : BitVec w} (h : b ≠ 0) :
    divS a b = a.sdiv b ∧ divU a b = a.udiv b ∧ remS a b = a.srem b ∧ remU a b = a.umod b :=
  ⟨if_neg h, if_neg h, if_neg h, if_neg h⟩

/-- A unary operation asks for rb = 0 (R69). -/
theorem aluResult_unary_illegal (a b : Dword) {rb : BitVec 5} (h : rb ≠ 0) :
    aluResult 0x020 rb a b = none ∧ aluResult 0x022 rb a b = none := by
  constructor <;> simpa [aluResult, alu64] using h

/-- The zero extension of the low word. -/
theorem dw_mod_word (a : Dword) : dw (a.toNat % 2 ^ 32) = (a.setWidth 32).setWidth 64 := by
  apply BitVec.eq_of_toNat_eq
  simp [dw]

/-- A shift count taken from the low word is that of the whole register. -/
theorem lowW_toNat_mod (b : Dword) : (lowW b).toNat % 32 = b.toNat % 32 := by
  simp only [lowW, BitVec.toNat_setWidth]
  omega

/-- Settles O2: each code names its operation; the edges of R70 are the two cases of the divisor. -/
theorem aluOperations : Obligations.AluOperations := by
  unfold Obligations.AluOperations
  intro a b rb
  refine ⟨rfl, rfl, rfl, rfl, rfl, rfl, rfl, rfl, rfl, rfl, rfl, rfl, rfl, rfl, ?zero, ?nonzero, rfl, rfl,
    aluResult_unary_illegal a b, congrArg some (dw_mod_word a), rfl, ?shift, rfl, rfl, rfl⟩
  case zero =>
    rintro rfl
    obtain ⟨hds, hdu, hrs, hru⟩ := div_rem_zero a
    exact ⟨congrArg some hds, congrArg some hdu, congrArg some hrs, congrArg some hru⟩
  case nonzero =>
    intro hb
    obtain ⟨hds, hdu, hrs, hru⟩ := div_rem_of_ne_zero a hb
    exact ⟨congrArg some hds, congrArg some hdu, congrArg some hrs, congrArg some hru⟩
  case shift =>
    show some (sextW (lowW a >>> ((lowW b).toNat % 32))) = _
    rw [lowW_toNat_mod]
    rfl

end Sys2Proof.Machine
end

section
/-!
Loads, stores, ordered accesses and atomics (R75 to R81): what their bodies do once the word is fetched.
-/
namespace Sys2Proof.Machine
set_option Elab.async false

/-! ### Instructions that may stand anywhere -/

/-- A legal instruction that may stand in a slot and end a loop body, and whose body retires. -/
theorem run_retire {s : State} {q r : Part} {t : Nat} (h : s.part.fetched t q) {i : Info} {body : Part → Res}
    (hb : body q = .retire r) (hl : i.legal = true := by rfl) (hs : i.slotOk = true := by rfl)
    (he : i.loopEnd = true := by rfl) :
    s.run (fun p => p.runInstr t i body) = s.after (r.retires t i.cost) :=
  exec_run rfl ((runInstr_ok h i body hl (.inr hs) (.inr he)).trans (by rw [hb]; rfl))

/-- The same, and its body raises a cause. -/
theorem run_raise {s : State} {q r : Part} {t c : Nat} {a : Dword} {gf : Option GFault} {hf : Bool}
    (h : s.part.fetched t q) {i : Info} {body : Part → Res} (hb : body q = .exc r c a gf hf)
    (hl : i.legal = true := by rfl) (hs : i.slotOk = true := by rfl) (he : i.loopEnd = true := by rfl) :
    s.run (fun p => p.runInstr t i body) = s.after (r.raise t c a gf hf) :=
  exec_run rfl ((runInstr_ok h i body hl (.inr hs) (.inr he)).trans (by rw [hb]; rfl))

/-- An instruction of the cost `k` that retires. -/
theorem run_retire_cost {s : State} {q r : Part} {t k : Nat} (h : s.part.fetched t q) {i : Info} {body : Part → Res}
    (hb : body q = .retire r) (hk : i.cost = k) (hl : i.legal = true) (hs : i.slotOk = true := by rfl)
    (he : i.loopEnd = true := by rfl) :
    s.run (fun p => p.runInstr t i body) = s.after (r.retires t k) :=
  hk ▸ run_retire h hb hl hs he

/-- A memory access that is performed lets its instruction retire. -/
theorem MRes.res_ok {m : MRes} {r : Part} {v : Nat} (h : m = MRes.ok r v) (k : Part → Nat → Part) :
    m.res k = .retire (k r v) := by
  rw [h]
  rfl

/-! ### Ordered loads and stores (R77) -/

theorem exec_ldAq {s : State} {q r u : Part} {t : ThreadId} {ra : BitVec 5} {sz : BitVec 2} {zx : Bool} {v : Nat}
    (h : s.part.fetched t.val q) (rd : BitVec 5) (halign : ((q.thread t.val).gr ra).toNat % 2 ^ sz.toNat = 0)
    (hlegal : zx = false ∨ sz ≠ 3) (hst : q.performStores t.val true = (r, true))
    (hv : r.load t.val ((q.thread t.val).gr ra) (2 ^ sz.toNat) = .ok u v) :
    exec (.ldAq t rd ra 0 sz zx 0) s = s.after ((u.modThread t.val (fun th =>
      th.setG rd (if zx ∨ sz = 3 then BitVec.ofNat 64 v else sextN (8 * 2 ^ sz.toNat) v))).retires t.val 1) := by
  refine run_retire h ?body ?legal
  case legal => simpa using hlegal
  case body =>
    simp only [halign, ne_eq, not_true_eq_false, if_false, hst]
    exact MRes.res_ok hv _

theorem exec_stl {s : State} {q r u w : Part} {t : ThreadId} {ra rb : BitVec 5} {sz : BitVec 2} {v : Nat} {l : List Seg}
    (h : s.part.fetched t.val q) (halign : ((q.thread t.val).gr ra).toNat % 2 ^ sz.toNat = 0)
    (hck : q.check t.val .store ((q.thread t.val).gr ra) false cAlign [(0, 2 ^ sz.toNat)] [] = .ok r l)
    (hst : r.performStores t.val true = (u, true))
    (hv : u.store t.val ((q.thread t.val).gr ra) (2 ^ sz.toNat) (((q.thread t.val).gr rb).toNat % 2 ^ (8 * 2 ^ sz.toNat)) = .ok w v) :
    exec (.stl t 0 ra rb sz false 0) s = s.after (w.retires t.val 1) := by
  refine run_retire h ?_
  simp only [halign, ne_eq, not_true_eq_false, if_false, hck, hst]
  exact MRes.res_ok hv _

/-- Settles O4: a plain load or store is its access and the retirement; an ordered one has its checks and the
thread's earlier stores before it. -/
theorem scalarMemoryAccesses : Obligations.ScalarMemoryAccesses := by
  unfold Obligations.ScalarMemoryAccesses
  refine ⟨?loads, ?stores, ?ordered⟩
  case loads =>
    intro s q t rd ra imm h
    refine ⟨?_, ?_, ?_, ?_, ?_, ?_, ?_⟩ <;> exact fun r v hv => exec_run rfl (ldInstr_ok h hv)
  case stores =>
    intro s q r t rd ra imm v h
    refine ⟨fun hv => exec_run rfl (stInstr_ok h hv), fun hv => exec_run rfl (stInstr_ok h hv),
      fun hv => exec_run rfl (stInstr_ok h hv), fun hv => exec_run rfl (stInstr_ok h (?_ : _ = MRes.ok r v))⟩
    rwa [Nat.mod_eq_of_lt (BitVec.isLt _)]
  case ordered =>
    intro s q r u w t rd ra rb sz zx v l h halign
    exact ⟨exec_ldAq h rd halign, exec_stl h halign⟩

/-! ### Atomics (R78 to R81) -/

/-- AMO runs the atomic of its size and gives the old value to its destination. -/
theorem exec_amo {s : State} {q r : Part} {t : ThreadId} {rd ra rb : BitVec 5} {fn : BitVec 11} {old n b e : Nat}
    {f : Thr → Thr} (h : s.part.fetched t.val q) (hlegal : amoLegal rd rb fn = true)
    (hn : (if fn.toNat / 16 % 4 = 0 then 16 else 2 ^ (fn.toNat / 16 % 4)) = n)
    (hb : (if fn.toNat / 16 % 4 = 0 then (q.thread t.val).pair rb else ((q.thread t.val).gr rb).toNat % 2 ^ (8 * n)) = b)
    (he : (if fn.toNat / 16 % 4 = 0 then (q.thread t.val).pair rd else ((q.thread t.val).gr rd).toNat % 2 ^ (8 * n)) = e)
    (hf : ∀ th : Thr, (if fn.toNat / 16 % 4 = 0 then (th.setG rd (dw old)).setG (rd + 1) (dw (old / 2 ^ 64))
      else if fn.toNat / 16 % 4 = 2 then th.setG rd (sextN 32 old) else th.setG rd (dw old)) = f th)
    (hv : q.amo t.val ((q.thread t.val).gr ra) n (fn.toNat % 16) b e (fn.toNat / 256 % 4) (fn.getLsbD 6) (fn.getLsbD 7) =
      .ok r old) :
    exec (.amo t rd ra rb fn) s = s.after ((r.modThread t.val f).retires t.val 1) := by
  obtain rfl : _ = f := funext hf
  subst hn hb he
  exact run_retire h (MRes.res_ok hv _) hlegal

/-! What an atomic operation writes (R78) -/

/-- The signed value of a number below `2 ^ bits`. -/
theorem toInt_ofNat_eq_ite {bits x : Nat} (hbits : 0 < bits) (hx : x < 2 ^ bits) :
    (BitVec.ofNat bits x).toInt = if x ≥ 2 ^ (bits - 1) then (x : Int) - 2 ^ bits else x := by
  obtain ⟨k, rfl⟩ : ∃ k, bits = k + 1 := ⟨bits - 1, by omega⟩
  rw [BitVec.toInt_eq_toNat_cond, BitVec.toNat_ofNat, Nat.mod_eq_of_lt hx, Nat.add_sub_cancel]
  have hpow : 2 ^ (k + 1) = 2 * 2 ^ k := by rw [Nat.pow_succ, Nat.mul_comm]
  rw [hpow]
  push_cast
  split <;> split <;> omega

/-- The order of R78's minimum and maximum is the signed one. -/
theorem signed_le_iff_sle {bits a b : Nat} (ha : a < 2 ^ bits) (hb : b < 2 ^ bits) (hbits : 0 < bits) :
    ((if a ≥ 2 ^ (bits - 1) then (a : Int) - 2 ^ bits else a) ≤ (if b ≥ 2 ^ (bits - 1) then (b : Int) - 2 ^ bits else b)) ↔
      (BitVec.ofNat bits a).sle (BitVec.ofNat bits b) = true := by
  rw [BitVec.sle, decide_eq_true_iff, toInt_ofNat_eq_ite hbits ha, toInt_ofNat_eq_ite hbits hb]

theorem amoResult_min {bits old b : Nat} (e : Nat) (hbits : 0 < bits) (hold : old < 2 ^ bits) (hb : b < 2 ^ bits) :
    amoResult 6 bits old b e = some (if (BitVec.ofNat bits old).sle (BitVec.ofNat bits b) then old else b) :=
  congrArg some (if_congr (signed_le_iff_sle hold hb hbits) rfl rfl)

theorem amoResult_max {bits old b : Nat} (e : Nat) (hbits : 0 < bits) (hold : old < 2 ^ bits) (hb : b < 2 ^ bits) :
    amoResult 7 bits old b e = some (if (BitVec.ofNat bits b).sle (BitVec.ofNat bits old) then old else b) :=
  congrArg some (if_congr (signed_le_iff_sle hb hold hbits) rfl rfl)

theorem amoResult_add {bits : Nat} (old b e : Nat) :
    amoResult 2 bits old b e = some ((BitVec.ofNat bits old + BitVec.ofNat bits b).toNat) := by
  show some ((old + b) % 2 ^ bits) = _
  simp [BitVec.toNat_add]

/-- Settles O5: the three operand sizes are three uses of one access; the operations are their codes' arms. -/
theorem atomicInstructions : Obligations.AtomicInstructions := by
  unfold Obligations.AtomicInstructions
  refine ⟨?instruction, ?operations⟩
  case instruction =>
    intro s q r t rd ra rb fn old h hlegal
    refine ⟨fun hsz => ?word, fun hsz => ?dword, fun hsz => ?quad⟩
    case word => exact exec_amo h hlegal (n := 4) (by simp [hsz]) (by simp [hsz]) (by simp [hsz]) (by simp [hsz])
    case dword => exact exec_amo h hlegal (n := 8) (by simp [hsz]) (by simp [hsz]) (by simp [hsz]) (by simp [hsz]; intro; rfl)
    case quad => exact exec_amo h hlegal (n := 16) (by simp [hsz]) (by simp [hsz]) (by simp [hsz]) (by simp [hsz]; intro; rfl)
  case operations =>
    intro bits old b e hbits hold hb
    exact ⟨rfl, if_pos rfl, fun hne => if_neg hne, amoResult_add old b e, rfl, rfl, rfl, amoResult_min e hbits hold hb,
      amoResult_max e hbits hold hb, rfl, rfl⟩

end Sys2Proof.Machine
end

section
/-!
Cache maintenance, prefetches and TLB maintenance (R97 to R99, R206): the line of the address, who may ask, and to whom
a TLB instruction goes.
-/
namespace Sys2Proof.Machine
set_option Elab.async false

/-- A TLB instruction with the scope `k` of R99. -/
def tlbmScopes : List (Nat × (ThreadId → BitVec 5 → BitVec 5 → BitVec 5 → Bool → BitVec 7 → Instr)) :=
  [(0, Instr.tinvPage), (1, Instr.tinvPageany), (2, Instr.tinvSpace), (3, Instr.tinvStage1), (4, Instr.tinvGpage),
    (5, Instr.tinvGuest), (6, Instr.tinvEvery)]

theorem exec_tlbm {k : Nat} {c : ThreadId → BitVec 5 → BitVec 5 → BitVec 5 → Bool → BitVec 7 → Instr}
    (hc : (k, c) ∈ tlbmScopes) (t : ThreadId) (rd ra rb : BitVec 5) (loc : Bool) (z : BitVec 7) (s : State) :
    exec (c t rd ra rb loc z) s = s.run (Part.tlbm t.val k rd ra rb loc z) := by
  simp only [tlbmScopes, List.mem_cons, Prod.mk.injEq, List.not_mem_nil, or_false] at hc
  rcases hc with ⟨rfl, rfl⟩ | ⟨rfl, rfl⟩ | ⟨rfl, rfl⟩ | ⟨rfl, rfl⟩ | ⟨rfl, rfl⟩ | ⟨rfl, rfl⟩ | ⟨rfl, rfl⟩ <;> rfl

/-- Who may not use a scope gets PRIV (R99): U no scope at all, S none of the guest scopes. -/
theorem run_tlbm_priv {s : State} {q : Part} {t k : Nat} (h : s.part.fetched t q) (ra rb : BitVec 5) (loc : Bool)
    {vm : Bool} (hlv : (q.thread t).level = .u ∧ vm = false ∨ (q.thread t).level = .s ∧ 4 ≤ k ∧ vm = (q.thread t).vm) :
    s.run (Part.tlbm t k 0 ra rb loc 0) = s.after (q.raise t cPriv 0 none vm) := by
  refine run_raise h ?_
  rcases hlv with ⟨hu, rfl⟩ | ⟨hs, hk, rfl⟩
  · exact if_pos hu
  · have hnu : (q.thread t).level ≠ .u := by simp [hs]
    rw [if_neg hnu, if_pos ⟨hs, hk⟩]

/-! ### What a permitted TLB instruction does (R206) -/

/-- The request that a thread makes with the registers `ra` and `rb`. -/
def Thr.tlbReq (th : Thr) (k : Nat) (ra rb : BitVec 5) : TlbReq :=
  ⟨k, (th.gr ra).toNat, (th.gr rb).toNat % 2 ^ 16, decide (th.level = .s) && th.vm, th.vmid⟩

/-- The other sockets of the machine. -/
def Part.otherSockets (p : Part) : List Nat := (List.range p.sktCnt).filter (· ≠ p.sktId)

/-- The targets that a request of core `c` waits for: cores of this socket, and the other sockets. -/
def Part.tinvTargets (p : Part) (c : Nat) : List Nat := p.tlbTargets c ++ p.otherSockets.map (· + 1000)

/-- Where the messages for the targets `tg` go: each core tile once, and each other socket. -/
def Part.tinvDests (p : Part) (tg : List Nat) : List Agent :=
  (((tg.filter (· < nCores)).map tileOfCore).eraseDups.map fun x => ⟨p.sktId, x, 0⟩) ++
    p.otherSockets.map fun x => ⟨x, 0, 0⟩

/-- The message that carries a request of thread `t`. -/
def Part.tinvMsg (p : Part) (t : Nat) (req : TlbReq) : Msg :=
  { Msg.blank with opc := .tinv, src := p.threadAgent t, txid := p.seq, addr := req.addr, op := req.scope,
                   aux := req.id + t * 2 ^ 16, plb := req.vm, vmid := req.vmid, bc := true }

/-- The part after the messages of request `req` left for the targets `tg`, each of which the thread now waits for. -/
def Part.tinvSent (p : Part) (t : Nat) (req : TlbReq) (tg : List Nat) : Part :=
  let r := (p.tinvDests tg).foldl (fun r d => r.send { p.tinvMsg t req with dst := d }) p
  let r := r.modThread t fun th => { th with tlbm := th.tlbm ++ tg.map fun c => (r.seq, c) }
  { r with seq := r.seq + 1 }

section
variable {s : State} {q r' r : Part} {t : Nat} {ra rb : BitVec 5} {k : Nat}

/-- A permitted TLB instruction retires from what its own core and its messages leave. -/
theorem run_tlbm {loc : Bool} {w : Part} (h : s.part.fetched t q) (hu : (q.thread t).level ≠ .u)
    (hst : q.performStores t true = (r', true)) (hacc : r'.accessesDone (t / 2) = (r, true))
    (hs : (q.thread t).level = .s → k < 4)
    (hw : let u := (r.charge (t / 2) 1).tlbInval (t / 2) ((q.thread t).tlbReq k ra rb)
      (if loc = true ∨ u.tinvTargets (t / 2) = [] then u
        else u.tinvSent t ((q.thread t).tlbReq k ra rb) (u.tinvTargets (t / 2))) = w) :
    s.run (Part.tlbm t k 0 ra rb loc 0) = s.after (w.retires t 1) := by
  refine run_retire h ?_
  have hguest : ¬ ((q.thread t).level = .s ∧ k ≥ 4) := fun ⟨h1, h2⟩ => absurd (hs h1) (by omega)
  subst hw
  simp only [if_neg hu, if_neg hguest, hst, hacc, not_true_eq_false, if_false]
  cases loc
  · by_cases htg : ((r.charge (t / 2) 1).tlbInval (t / 2) ((q.thread t).tlbReq k ra rb)).tinvTargets (t / 2) = []
    · rw [if_neg Bool.false_ne_true]
      exact (if_pos (List.isEmpty_iff.2 htg)).trans (congrArg Res.retire (if_pos (.inr htg)).symm)
    · rw [if_neg Bool.false_ne_true]
      refine (if_neg fun hnil => htg (List.isEmpty_iff.1 hnil)).trans (congrArg Res.retire (if_neg ?_).symm)
      exact fun hor => hor.elim Bool.false_ne_true htg
  · rw [if_pos rfl, if_pos (.inl rfl)]
    rfl

end

/-- The messages are sent one after the other, and nothing else of the part changes but the thread's list. -/
theorem Part.tinvSent_eq (u : Part) (t : Nat) (req : TlbReq) (tg : List Nat) :
    (u.tinvSent t req tg).net = u.net ++ (u.tinvDests tg).zipIdx.map
        (fun x => { u.tinvMsg t req with dst := x.1, id := u.fab.next + x.2 }) ∧
      (u.tinvSent t req tg).seq = u.seq + 1 ∧
      (u.tinvSent t req tg).thr = u.thr.upd Thr.reset t
        (fun th => { th with tlbm := th.tlbm ++ tg.map fun c => (u.seq, c) }) ∧
      (u.tinvSent t req tg).mem = u.mem ∧ (u.tinvSent t req tg).ctl = u.ctl ∧ (u.tinvSent t req tg).core = u.core ∧
      (u.tinvSent t req tg).slice = u.slice := by
  unfold Part.tinvSent
  rw [sends_all]
  exact ⟨rfl, rfl, rfl, rfl, rfl, rfl, rfl⟩

/-- With one socket, whose ID is 0, there is no other. -/
theorem Part.otherSockets_alone {p : Part} (hc : p.sktCnt = 1) (hi : p.sktId = 0) : p.otherSockets = [] := by
  simp [Part.otherSockets, hc, hi]

/-! ### The cache instructions -/

theorem exec_inval {s : State} {q r : Part} {t : ThreadId} {ra : BitVec 5} {imm : BitVec 16} {v : Nat}
    (h : s.part.fetched t.val q) (hu : (q.thread t.val).level ≠ .u)
    (hv : q.lineOp t.val ((q.thread t.val).gr ra + imm.signExtend 64) .store (some .inval) = .ok r v) :
    exec (.inval t ra imm) s = s.after (r.retires t.val 1) :=
  run_retire h ((if_neg hu).trans (MRes.res_ok hv _))

/-- Settles O6: the cache instructions are uses of their one body; each TLB scope is `tlbm` at its number. -/
theorem cacheAndTlbInstructions : Obligations.CacheAndTlbInstructions := by
  unfold Obligations.CacheAndTlbInstructions
  refine ⟨?cache, ?privilege, ?own, ?others⟩
  case cache =>
    intro s q r t ra imm v h
    exact ⟨run_retire h rfl, run_retire h rfl, run_retire h rfl, fun hv => run_retire h (MRes.res_ok hv _),
      fun hv => run_retire h (MRes.res_ok hv _), fun hv => run_retire h (MRes.res_ok hv _), exec_inval h,
      fun hv => run_retire h (MRes.res_ok hv _)⟩
  case privilege =>
    intro s q t ra rb imm loc h
    refine ⟨fun hu => ⟨run_raise h (if_pos hu), fun c hc => ?_⟩, fun hs c hc => ?_⟩
    · obtain ⟨k, hk⟩ : ∃ k, (k, c) ∈ tlbmScopes := by
        have : c ∈ tlbmScopes.map Prod.snd := hc
        obtain ⟨x, hx, rfl⟩ := List.mem_map.1 this
        exact ⟨x.1, hx⟩
      rw [exec_tlbm hk]
      exact run_tlbm_priv h ra rb loc (.inl ⟨hu, rfl⟩)
    · obtain ⟨k, hk, hguest⟩ : ∃ k, (k, c) ∈ tlbmScopes ∧ 4 ≤ k := by
        have : c ∈ (tlbmScopes.drop 4).map Prod.snd := hc
        obtain ⟨x, hx, rfl⟩ := List.mem_map.1 this
        refine ⟨x.1, List.mem_of_mem_drop hx, ?_⟩
        have hfst : x.1 ∈ [4, 5, 6] := List.mem_map_of_mem hx
        simp only [List.mem_cons, List.not_mem_nil, or_false] at hfst
        omega
      rw [exec_tlbm hk]
      exact run_tlbm_priv h ra rb loc (.inr ⟨hs, hguest, rfl⟩)
  case own =>
    intro s q r' r t ra rb loc h hu hst hacc k c hc hs req u hdone
    rw [exec_tlbm hc]
    refine run_tlbm h hu hst hacc hs (if_pos (hdone.imp_right fun ⟨htg, hcnt, hid⟩ => ?_))
    have hno : u.otherSockets = [] := Part.otherSockets_alone hcnt hid
    show u.tlbTargets (t.val / 2) ++ u.otherSockets.map (· + 1000) = []
    rw [htg, hno]
    rfl
  case others =>
    intro s q r' r t ra rb h hu hst hacc k c hc hs req u sockets targets dsts m htg
    obtain ⟨hnet, hseq, hthr, hmem, hctl, hcore, hslice⟩ := u.tinvSent_eq t.val req targets
    refine ⟨u.tinvSent t.val req targets, hnet, hseq, hthr, hmem, hctl, hcore, hslice, ?_⟩
    rw [exec_tlbm hc]
    refine run_tlbm h hu hst hacc hs (if_neg ?_)
    rintro (hloc | hnil)
    · exact Bool.false_ne_true hloc
    · exact htg hnil

end Sys2Proof.Machine
end

section
/-!
Control transfers and LOOP (R82 to R86), and where none of them may stand (R100, R129, R133).
-/
namespace Sys2Proof.Machine
set_option Elab.async false

/-- A legal instruction where a transfer may stand runs its body. -/
theorem run_plainSite {s : State} {q : Part} {t : Nat} (h : s.part.fetched t q) (hp : q.plainSite t) {i : Info}
    {body : Part → Res} (hl : i.legal = true := by rfl) :
    s.run (fun p => p.runInstr t i body) = s.after (Part.complete t i.cost (body q)) :=
  exec_run rfl (runInstr_ok h i body hl (.inl hp.1) (.inl hp.2))

/-! ### Transfers -/

/-- JR counts a target that was not predicted, and transfers. -/
theorem exec_jr {s : State} {q u : Part} {t : ThreadId} {ra : BitVec 5} {g : Option Dword} (h : s.part.fetched t.val q)
    (hp : q.plainSite t.val)
    (hg : (if ra = 1 then q.rasPop t.val else (q.btbFind t.val (q.thread t.val).pc, q)) = (g, u)) :
    let d := (q.thread t.val).gr ra
    exec (.jr t 0 ra 0 0) s = s.after (Part.complete t.val 1 (.transfer
      ((if g = some d then u else u.coreEvent t.val 3 1).btbPut t.val .jr (q.thread t.val).pc d) d)) := by
  refine (run_plainSite h hp).trans ?_
  simp only [hg]
  rfl

/-- CALLR does, and saves the address behind its slot. -/
theorem exec_callr {s : State} {q : Part} {t : ThreadId} (ra : BitVec 5) (h : s.part.fetched t.val q)
    (hp : q.plainSite t.val) :
    let pc := (q.thread t.val).pc
    let d := (q.thread t.val).gr ra
    exec (.callr t 0 ra 0 0) s = s.after (Part.complete t.val 1 (.transfer
      ((((if q.btbFind t.val pc = some d then q else q.coreEvent t.val 3 1).btbPut t.val .callr pc d).rasPush t.val
        (pc + 8)).modThread t.val (fun x => x.setG 1 (pc + 8))) d)) :=
  run_plainSite h hp

/-! ### LOOP -/

/-- The loop registers of loop `i` take the body that starts at `start` and ends at `fin`, and the count `n`. -/
def Thr.loopRegs (x : Thr) (i : Nat) (start fin n : Dword) : Thr :=
  ((x.setSys (srLS i) start).setSys (srLE i) fin).setSys (srLC i) n

/-- LOOP whose check reads find no forbidden word sets its registers up. -/
theorem exec_loop {s : State} {q r u : Part} {t : ThreadId} {lv imm : Bool} {cnt len : BitVec 12} {w w2 l l2 : Nat}
    (h : s.part.fetched t.val q) (hp : q.plainSite t.val) (hcnt : imm = true ∨ cnt.toNat < 32)
    {th : Thr} (hth : q.thread t.val = th) {n le : Dword} {i : Nat}
    (hn : (if imm then cnt.setWidth 64 else th.gr (cnt.setWidth 5)) = n)
    (hle : th.pc + dw (4 * (len.toNat + 1)) = le) (hi : (if lv then 1 else 0) = i)
    (hck : (len = 0 ∧ q.checkWord t.val le none = .val u w l) ∨
      (len ≠ 0 ∧ q.checkWord t.val (le - 4) none = .val r w2 l2 ∧ wordTransfer w2 = false ∧
        r.checkWord t.val le (some l2) = .val u w l))
    (hend : wordNoLoopEnd w = false) :
    exec (.loop t lv imm cnt len) s =
      s.after (Part.complete t.val 2 (
        let v := (u.loopCapture t.val (th.pc + 4) le i n.toNat l).modThread t.val fun x =>
          let y := x.loopRegs i (th.pc + 4) (le + dw th.level.code) n
          y.setSys srLACT (if n = 0 then y.sys srLACT &&& ~~~ dw (2 ^ i) else y.sys srLACT ||| dw (2 ^ i))
        if n = 0 then .goto (v.modCore (t.val / 2) (fun c => { c with fbuf := none })) (le + 4) else .retire v)) := by
  subst hn hle hi hth
  refine (run_plainSite h hp ?legal).trans (congrArg (fun x => s.after (Part.complete t.val 2 x)) ?body)
  case legal =>
    rcases hcnt with rfl | hcnt
    · rfl
    · simp [Nat.div_eq_of_lt hcnt]
  case body =>
    rcases hck with ⟨hlen, hw⟩ | ⟨hlen, hw2, htr, hw⟩
    · simp only [if_pos hlen, hw, hend, Bool.false_eq_true, if_false, Thr.loopRegs]
    · simp only [if_neg hlen, hw2, htr, hw, hend, Bool.false_eq_true, if_false, Thr.loopRegs]

/-- Settles O7: each transfer's body is evaluated where it may stand; LOOP by its count. -/
theorem controlTransfers : Obligations.ControlTransfers := by
  unfold Obligations.ControlTransfers
  refine ⟨?transfers, ?loop⟩
  case transfers =>
    intro s q t cs d22 d26 ra h hp pc
    refine ⟨run_plainSite h hp, run_plainSite h hp, ⟨run_plainSite h hp, run_plainSite h hp⟩,
      ⟨fun hra hg => ?_, fun hra hg => ?_, fun hg => ?_, fun hg => ?_⟩, fun hg => ?_, fun hg => ?_⟩
    · exact (exec_jr h hp (if_neg hra)).trans (by rw [if_pos hg])
    · exact (exec_jr h hp (if_neg hra)).trans (by rw [if_neg hg])
    · exact (exec_callr ra h hp).trans (by rw [if_pos hg])
    · exact (exec_callr ra h hp).trans (by rw [if_neg hg])
    · exact (exec_jr h hp (g := (q.rasPop t.val).1) (u := (q.rasPop t.val).2) (if_pos rfl)).trans (by rw [if_pos hg])
    · exact (exec_jr h hp (g := (q.rasPop t.val).1) (u := (q.rasPop t.val).2) (if_pos rfl)).trans (by rw [if_neg hg])
  case loop =>
    intro s q r u t lv imm cnt len w w2 l l2 h hp hcnt th n le i hck hend v regs
    have hrun := exec_loop h hp hcnt (th := th) rfl (n := n) rfl (le := le) rfl (i := i) rfl hck hend
    constructor
    · intro hn
      simp only [if_neg hn] at hrun
      exact hrun
    · intro hn
      simp only [if_pos hn] at hrun
      exact hrun

/-! ### Where they may not stand -/

/-- Settles O8: each of them is legal, its row of R100 says "no", and the two checks come in that order. -/
theorem slotAndLoopRules : Obligations.SlotAndLoopRules := by
  unfold Obligations.SlotAndLoopRules
  intro s r t cs d22 d26 ra code lv cnt len hstart hfetch
  constructor
  · intro c hc hslot
    simp only [List.mem_cons, List.not_mem_nil, or_false] at hc
    rcases hc with rfl | rfl | rfl | rfl | rfl | rfl | rfl | rfl | rfl <;>
      exact exec_run rfl (runInstr_slot hstart hfetch _ _ rfl hslot rfl)
  · intro c hc hslot hloop
    simp only [List.mem_cons, List.not_mem_nil, or_false] at hc
    rcases hc with rfl | rfl | rfl | rfl | rfl | rfl | rfl | rfl <;>
      exact exec_run rfl (runInstr_loop hstart hfetch _ _ rfl hslot hloop rfl)

end Sys2Proof.Machine
end

section
/-!
System registers and system instructions (R57 to R61, R88 to R96): who may access a register, what an access does, and
how each system instruction ends.
-/
namespace Sys2Proof.Machine
set_option Elab.async false

/-! ### System registers (R57 to R61, R88, R89) -/

theorem exec_srd_ok {s : State} {q : Part} {t : ThreadId} {sr : BitVec 12} (h : s.part.fetched t.val q) (rd : BitVec 5)
    (hd : (q.thread t.val).srDenied sr.toNat false = none) :
    exec (.srd t rd 0 sr) s = s.after (((q.srRead t.val sr.toNat).1.modThread t.val
      (fun th => th.setG rd (q.srRead t.val sr.toNat).2)).retires t.val 2) :=
  run_retire h (by simp only [hd])

theorem exec_srd_denied {s : State} {q : Part} {t : ThreadId} {sr : BitVec 12} {c : Nat} {b : Bool}
    (h : s.part.fetched t.val q) (rd : BitVec 5) (hd : (q.thread t.val).srDenied sr.toNat false = some (c, b)) :
    exec (.srd t rd 0 sr) s = s.after (q.raise t.val c 0 none b) :=
  run_raise h (by simp only [hd])

/-- What a permitted write of a register leaves: the register written, the old value returned if asked for, and the
context synchronised for a register of the Mode column (R136). -/
def Part.srWritten (q : Part) (t n : Nat) (ret : Bool) (rd : BitVec 5) (v : Dword) : Part :=
  let r := if ret then (q.srWrite t n v).modThread t (fun th => th.setG rd (q.srRead t n).2) else q.srWrite t n v
  if srMode n then r.ctxSync t else r

section
variable {s : State} {q : Part} {t : Nat} {rd ra : BitVec 5} {sr : BitVec 12} {legal ret : Bool} {f : Dword → Dword → Dword}

theorem run_swrInstr_ok (h : s.part.fetched t q) (hl : legal = true)
    (hd : (q.thread t).srDenied sr.toNat true = none) (hs : srMode sr.toNat = false ∨ (q.thread t).slot = none) :
    s.run (fun p => p.swrInstr t legal ret rd ra sr f) =
      s.after ((q.srWritten t sr.toNat ret rd (f (q.srRead t sr.toNat).2 ((q.thread t).gr ra))).retires t
        (if srMode sr.toNat then 4 else 2)) := by
  refine exec_run rfl ((runInstr_ok h _ _ hl ?slot (.inr rfl)).trans ?_)
  case slot => exact hs.symm.imp_right fun hm => by simp [hm]
  simp only [hd]
  rfl

theorem run_swrInstr_denied {c : Nat} {b : Bool} (h : s.part.fetched t q) (hl : legal = true)
    (hd : (q.thread t).srDenied sr.toNat true = some (c, b)) (hm : srMode sr.toNat = false) :
    s.run (fun p => p.swrInstr t legal ret rd ra sr f) = s.after (q.raise t c 0 none b) :=
  run_raise h (by simp only [hd]) hl (by simp [hm])

end

/-! Who is denied (R57, R59, R61) -/

theorem Thr.srDenied_guest {th : Thr} {n : Nat} (w : Bool) (hvm : th.vm = true) (hn : n / 0x400 = 2) :
    th.srDenied n w = some (cPriv, true) :=
  if_pos ⟨hvm, hn⟩

theorem Thr.srDenied_level {th : Thr} {n : Nat} (w : Bool) (hg : ¬ (th.vm = true ∧ n / 0x400 = 2))
    (hn : n / 0x400 > th.level.code) : th.srDenied n w = some (cPriv, false) :=
  (if_neg hg).trans (if_pos hn)

theorem Thr.srDenied_missing {th : Thr} {n : Nat} (w : Bool) (hg : ¬ (th.vm = true ∧ n / 0x400 = 2))
    (hn : n / 0x400 ≤ th.level.code) (he : srExists n = false) : th.srDenied n w = some (cIllegal, false) :=
  (if_neg hg).trans ((if_neg (Nat.not_lt.2 hn)).trans (if_pos (by simp [he])))

/-- The counters exist, are read-only and have no Mode entry. -/
theorem counter_number {n : Nat} (hn : n ≤ 2) :
    n / 0x400 = 0 ∧ srExists n = true ∧ srRO n = true ∧ srMode n = false := by
  interval_cases n <;> decide

/-- The counters are read-only. -/
theorem Thr.srDenied_counter_write (th : Thr) {n : Nat} (hn : n ≤ 2) : th.srDenied n true = some (cIllegal, false) := by
  obtain ⟨hlv, hex, hro, -⟩ := counter_number hn
  simp [Thr.srDenied, srLevel, hlv, hex, hro]

/-- The counters at U are read when CNTEN lets them be. -/
theorem Thr.srDenied_counter_read {th : Thr} {n : Nat} (hn : n ≤ 2) (hu : th.level = .u)
    (hoff : (th.sys 0x411).getLsbD n = false) : th.srDenied n false = some (cPriv, false) := by
  obtain ⟨hlv, hex, -, -⟩ := counter_number hn
  simp [Thr.srDenied, srLevel, hlv, hex, hn, hu, hoff]

/-- The numbers of a view's registers name it (R151, R155). -/
theorem view_number (w : View) :
    (icNumber w.base.toNat = true ∧ w.base.toNat % 0x20 = 0) ∧
      (icNumber (w.base + 3).toNat = true ∧ (w.base + 3).toNat % 0x20 = 3 ∧ srMode (w.base + 3).toNat = false) ∧
      (icNumber (w.base + 4).toNat = true ∧ (w.base + 4).toNat % 0x20 = 4 ∧ srMode (w.base + 4).toNat = false) := by
  cases w <;> decide

theorem Part.srRead_view (q : Part) (t : Nat) {n : Nat} (hn : icNumber n = true) :
    q.srRead t n = q.icRead t ((q.thread t).viewOf n) (n % 0x20) :=
  if_pos hn

theorem Part.srWritten_view (q : Part) (t : Nat) (rd : BitVec 5) (v : Dword) {n : Nat} (hn : icNumber n = true)
    (hm : srMode n = false) : q.srWritten t n false rd v = q.icWrite t ((q.thread t).viewOf n) (n % 0x20) v := by
  simp [Part.srWritten, Part.srWrite, hn, hm]

/-- SWR of a register without a Mode entry. -/
theorem exec_swr_ok {s : State} {q : Part} {t : ThreadId} {sr : BitVec 12} (h : s.part.fetched t.val q) (ra : BitVec 5)
    (hd : (q.thread t.val).srDenied sr.toNat true = none) (hm : srMode sr.toNat = false) :
    exec (.swr t 0 ra sr) s =
      s.after ((q.srWritten t.val sr.toNat false 0 ((q.thread t.val).gr ra)).retires t.val 2) := by
  have hrun := run_swrInstr_ok (rd := 0) (ra := ra) (ret := false) (f := fun _ b => b) h rfl hd (.inl hm)
  rwa [hm] at hrun

/-- Settles O9: an access is a permitted one or one that is denied with its cause; the named rows are accesses. -/
theorem systemRegisters : Obligations.SystemRegisters := by
  unfold Obligations.SystemRegisters
  refine ⟨?permitted, ?denied, ?views⟩
  case permitted =>
    intro s q t rd ra sr h n old g
    refine ⟨exec_srd_ok h rd, fun hd (hm : srMode sr.toNat = false) => ?_, fun hd (hm : srMode sr.toNat = true) hslot => ?_⟩
    · have hrun (ret : Bool) (rd : BitVec 5) (f : Dword → Dword → Dword) :=
        run_swrInstr_ok (rd := rd) (ra := ra) (ret := ret) (f := f) h rfl hd (.inl hm)
      simp only [Part.srWritten, hm] at hrun
      exact ⟨hrun false 0 _, hrun true rd _, hrun true rd _⟩
    · have hrun (ret : Bool) (rd : BitVec 5) (f : Dword → Dword → Dword) :=
        run_swrInstr_ok (rd := rd) (ra := ra) (ret := ret) (f := f) h rfl hd (.inr hslot)
      simp only [Part.srWritten, hm] at hrun
      exact ⟨hrun false 0 _, hrun true rd _, hrun true rd _⟩
  case denied =>
    intro s q t rd ra sr h th
    refine ⟨fun hvm hn => exec_srd_denied h rd (Thr.srDenied_guest _ hvm hn), fun hg hn =>
      ⟨exec_srd_denied h rd (Thr.srDenied_level _ hg hn),
        fun hm => run_swrInstr_denied h rfl (Thr.srDenied_level _ hg hn) hm⟩,
      fun hg hn he => exec_srd_denied h rd (Thr.srDenied_missing _ hg hn he), fun hn => ?_,
      fun hn hu hoff => exec_srd_denied h rd (Thr.srDenied_counter_read hn hu hoff)⟩
    obtain ⟨-, -, -, hm⟩ := counter_number hn
    exact run_swrInstr_denied h rfl (Thr.srDenied_counter_write _ hn) hm
  case views =>
    intro s q t w r h
    obtain ⟨⟨hv, h0⟩, ⟨hv3, h3, hm3⟩, hv4, h4, hm4⟩ := view_number w
    refine ⟨fun hd => (exec_srd_ok h r hd).trans ?_, fun hd => (exec_swr_ok h r hd hm3).trans ?_,
      fun hd => (exec_swr_ok h r hd hm4).trans ?_⟩
    · rw [Part.srRead_view q _ hv, h0]
    · rw [Part.srWritten_view q _ _ _ hv3 hm3, h3]
    · rw [Part.srWritten_view q _ _ _ hv4 hm4, h4]

/-! ### TRAP, BREAK, RETX (R90 to R92) -/

/-- RETX from a bank that its thread may return from. -/
theorem exec_retx {s : State} {q : Part} {t : ThreadId} (h : s.part.fetched t.val q) (hp : q.plainSite t.val)
    (hd : (q.thread t.val).retxDenied = false) :
    let th := q.thread t.val
    let r := q.modThread t.val (fun _ => th.ret)
    exec (.retx t 0 0 0) s = s.after (Part.complete t.val 4 (.final
      ((if th.ret.level ≠ th.level ∨ th.ret.vm ≠ th.vm then r.btbDropUS t.val else r).ctxSync t.val))) := by
  refine (run_plainSite h hp).trans ?_
  simp only [hd, Bool.false_eq_true, if_false]

/-- Settles O10: each body is evaluated where the instruction may stand. -/
theorem trapBreakReturn : Obligations.TrapBreakReturn := by
  unfold Obligations.TrapBreakReturn
  intro s q t code h
  refine ⟨fun hslot => exec_run rfl (runInstr_ok h _ _ rfl (.inl hslot) (.inr rfl)), run_raise h rfl, fun hp hd => ?_,
    fun hp hd hlv hvm => (exec_retx h hp hd).trans ?_, fun hp hd hne => (exec_retx h hp hd).trans ?_⟩
  · exact (run_plainSite h hp).trans (by rw [if_pos hd]; rfl)
  · rw [if_neg (by simp [hlv, hvm])]
  · rw [if_pos hne]

/-! ### WAIT and the fences (R93 to R96) -/

/-- Settles O11: the cases of each body. -/
theorem waitsAndFences : Obligations.WaitsAndFences := by
  unfold Obligations.WaitsAndFences
  refine ⟨?waits, ?fences⟩
  case waits =>
    intro s q t
    refine ⟨fun h hu => run_raise h (if_pos hu), fun h hu hdue => run_retire h ((if_neg hu).trans (if_pos ?_)),
      fun h hu hslot hdue => exec_run rfl ((runInstr_ok h _ _ rfl (.inr rfl) (.inr rfl)).trans ?_),
      fun hrun hdue => exec_run rfl (if_pos ⟨hrun, hdue⟩)⟩
    · exact hdue.imp_left Option.isSome_iff_ne_none.2
    · rw [if_neg hu, if_neg (by simp [hslot, hdue])]
      rfl
  case fences =>
    intro s q r t sr h
    have hlegal (h64 : sr.toNat < 64) (h1 : sr.getLsbD 1 = false) :
        (decide ((0 : BitVec 5) = 0) && decide ((0 : BitVec 5) = 0) && decide (sr.toNat / 64 = 0) && !sr.getLsbD 1) = true := by
      rw [h1, Nat.div_eq_of_lt h64]
      rfl
    refine ⟨fun h64 h1 hw hsucc hst => run_retire h ?_ (hlegal h64 h1),
      fun h64 h1 hno => run_retire h (if_neg ?_) (hlegal h64 h1), fun hdr hpwt => run_retire h ?_, run_retire h rfl,
      fun htl => run_retire h (if_pos (List.isEmpty_iff.2 htl))⟩
    · rw [if_pos ⟨hw, hsucc⟩, hst]
    · rintro ⟨hw, hsucc⟩
      rcases hno with hno | ⟨h3, h2⟩
      · rw [hno] at hw; cases hw
      · rw [h3, h2] at hsucc; simp at hsucc
    · simp only [hdr, hpwt, List.isEmpty_nil, if_true]

/-! ### Reserved encodings (R63, R64) -/

section
variable {s : State} {r : Part} {t : Nat}

/-- A word that is not legal raises ILLEGAL. -/
theorem run_illegal (h1 : s.part.startable t = true) (h2 : s.part.fetch t = .ok r) {i : Info} {body : Part → Res}
    (hl : i.legal = false) :
    s.run (fun p => p.runInstr t i body) = s.after (r.raise t cIllegal 0 none false) :=
  exec_run rfl (runInstr_bad h1 h2 i body hl)

/-- So does one that computes no register. -/
theorem run_gInstr_illegal (h1 : s.part.startable t = true) (h2 : s.part.fetch t = .ok r) (cost : Nat) (rd : BitVec 5)
    {f : Thr → Option Dword} (hf : ∀ th, f th = none) :
    s.run (fun p => p.gInstr t cost rd f) = s.after (r.raise t cIllegal 0 none false) :=
  exec_run rfl (runInstr_bad h1 h2 _ _ (by simp [hf]))

theorem run_cInstr_illegal (h1 : s.part.startable t = true) (h2 : s.part.fetch t = .ok r) (cd : BitVec 3)
    {f : Thr → Option Bool} (hf : ∀ th, f th = none) :
    s.run (fun p => p.cInstr t cd f) = s.after (r.raise t cIllegal 0 none false) :=
  exec_run rfl (runInstr_bad h1 h2 _ _ (by simp [hf]))

end

/-- Settles O12: a reserved word's legality test fails on its fields. -/
theorem reservedEncodings : Obligations.ReservedEncodings := by
  unfold Obligations.ReservedEncodings
  intro s r t rd ra rb fn imm cd cc sr loc zx sz z h1 h2 bad
  refine ⟨fun hop => run_gInstr_illegal h1 h2 _ _ fun _ => hop _ _,
    fun hfn => run_gInstr_illegal h1 h2 _ _ fun _ => if_pos (by omega), fun hra => ⟨?_, ?_, ?_⟩,
    fun hra => run_gInstr_illegal h1 h2 _ _ fun _ => if_pos (by omega), fun hcc => ⟨?_, ?_, fun i => ?_⟩,
    fun hamo => run_illegal h1 h2 hamo, fun hz => ⟨?_, ?_, ?_⟩, fun hrd => ?_⟩
  · exact run_gInstr_illegal h1 h2 _ _ fun _ => if_pos hra
  · exact run_gInstr_illegal h1 h2 _ _ fun _ => if_pos hra
  · exact run_illegal h1 h2 (decide_eq_false hra)
  · exact run_cInstr_illegal h1 h2 _ fun _ => cmpCond_reserved _ _ cc hcc
  · exact run_cInstr_illegal h1 h2 _ fun _ => clogFun_reserved _ _ _ (by omega)
  · exact run_cInstr_illegal h1 h2 _ fun _ => cmpCond_reserved _ _ cc hcc
  · exact run_illegal h1 h2 (by simp [show z ≠ 0#7 from hz])
  · exact run_illegal h1 h2 (by simp [show z ≠ 0#7 from hz])
  · exact run_illegal h1 h2 (by simp [show z ≠ 0#7 from hz])
  · have hzero : decide (rd = 0) = false := decide_eq_false hrd
    refine ⟨?_, ?_, ?_, ?_, ?_, ?_, ?_, ?_, ?_, ?_, ?_⟩ <;>
      exact run_illegal h1 h2 (by simp only [hzero, Bool.false_and, transferInfo])

end Sys2Proof.Machine
end

section
/-!
Elements under a mask (R104, R105), and the integer, compare and mask instructions of the vector unit (R113, R119, R121).
-/
namespace Sys2Proof.Machine
set_option Elab.async false

/-! ### Elements -/

/-- Settles O13: the lanes of a masked result are the chosen values, each of which fits its lane. -/
theorem maskedElements : Obligations.MaskedElements := by
  unfold Obligations.MaskedElements
  intro b j m z old f hb hj
  have hlane : lane (maskLanes b m z old f) b j = _ := lane_mkVec b j _ hb hj
  rw [hlane]
  unfold selects
  split
  · rfl
  split
  · exact Nat.zero_mod _
  · exact Nat.mod_mod _ _

/-! ### VINT (R113) -/

theorem toSigned_eq_toInt {n a : Nat} (hn : 0 < n) (ha : a < 2 ^ n) : toSigned n a = (BitVec.ofNat n a).toInt := by
  rw [toInt_ofNat_eq_ite hn ha, toSigned, Nat.mod_eq_of_lt ha]

section
variable {n a b : Nat} (ha : a < 2 ^ n) (hb : b < 2 ^ n)
include ha hb

/-- The wrapping and bitwise operations are those of bit vectors. -/
theorem vintOp_bits :
    vintOp 0 n a b = some (BitVec.ofNat n a + BitVec.ofNat n b).toNat ∧
    vintOp 1 n a b = some (BitVec.ofNat n a - BitVec.ofNat n b).toNat ∧
    vintOp 2 n a b = some (BitVec.ofNat n a &&& BitVec.ofNat n b).toNat ∧
    vintOp 3 n a b = some (BitVec.ofNat n a ||| BitVec.ofNat n b).toNat ∧
    vintOp 4 n a b = some (BitVec.ofNat n a ^^^ BitVec.ofNat n b).toNat ∧
    vintOp 5 n a b = some (BitVec.ofNat n a &&& ~~~ BitVec.ofNat n b).toNat ∧
    vintOp 6 n a b = some (BitVec.ofNat n a * BitVec.ofNat n b).toNat := by
  have hA : (BitVec.ofNat n a).toNat = a := by rw [BitVec.toNat_ofNat, Nat.mod_eq_of_lt ha]
  have hB : (BitVec.ofNat n b).toNat = b := by rw [BitVec.toNat_ofNat, Nat.mod_eq_of_lt hb]
  rw [BitVec.toNat_add, BitVec.toNat_sub, BitVec.toNat_and, BitVec.toNat_or, BitVec.toNat_xor, BitVec.toNat_and,
    BitVec.toNat_not, BitVec.toNat_mul, hA, hB]
  refine ⟨rfl, congrArg (fun x => some (x % 2 ^ n)) ?_, rfl, rfl, rfl, rfl, rfl⟩
  omega

/-- The unsigned minimum and maximum, and the shifts by `b` modulo the width. -/
theorem vintOp_order_shift :
    vintOp 11 n a b = some (if (BitVec.ofNat n a).ule (BitVec.ofNat n b) then a else b) ∧
    vintOp 12 n a b = some (if (BitVec.ofNat n b).ule (BitVec.ofNat n a) then a else b) ∧
    vintOp 13 n a b = some (BitVec.ofNat n a <<< (b % n)).toNat ∧
    vintOp 14 n a b = some (BitVec.ofNat n a >>> (b % n)).toNat := by
  have hA : (BitVec.ofNat n a).toNat = a := by rw [BitVec.toNat_ofNat, Nat.mod_eq_of_lt ha]
  have hB : (BitVec.ofNat n b).toNat = b := by rw [BitVec.toNat_ofNat, Nat.mod_eq_of_lt hb]
  rw [BitVec.toNat_shiftLeft, BitVec.toNat_ushiftRight, BitVec.ule, BitVec.ule, hA, hB, Nat.shiftLeft_eq,
    Nat.shiftRight_eq_div_pow]
  simp only [decide_eq_true_eq]
  refine ⟨congrArg some Nat.min_def, congrArg some ?_, rfl, rfl⟩
  rw [Nat.max_def]
  split <;> split <;> omega

/-- The signed operations. -/
theorem vintOp_signed (hn : 0 < n) :
    let A := BitVec.ofNat n a
    let B := BitVec.ofNat n b
    vintOp 7 n a b = some (A.toInt * B.toInt / 2 ^ n % 2 ^ n).toNat ∧
    vintOp 9 n a b = some (if A.toInt ≤ B.toInt then a else b) ∧
    vintOp 10 n a b = some (if B.toInt ≤ A.toInt then a else b) ∧
    vintOp 15 n a b = some (A.toInt / 2 ^ (b % n) % 2 ^ n).toNat ∧
    vintOp 16 n a b = some (satS n (A.toInt + B.toInt)) ∧ vintOp 18 n a b = some (satS n (A.toInt - B.toInt)) ∧
    vintOp 20 n a b = some (A.toInt.natAbs % 2 ^ n) := by
  intro A B
  rw [← toSigned_eq_toInt hn ha, ← toSigned_eq_toInt hn hb]
  exact ⟨rfl, rfl, rfl, rfl, rfl, rfl, rfl⟩

end

theorem vintOp_reserved (n a b : Nat) {op : Nat} (h : 21 ≤ op) : vintOp op n a b = none := by
  obtain ⟨k, rfl⟩ := Nat.exists_eq_add_of_le' h
  rfl

/-! ### VCMP (R119) and MOP (R121) -/

/-- The conditions of integer elements are those of CMP, at the element's width. -/
theorem elemCond_int (cc : BitVec 4) (fz : Bool) (x y : Nat) {e : Nat} (he : e < 4) :
    elemCond e cc.toNat fz x y =
      (cmpCond cc (BitVec.ofNat (8 * 2 ^ e) x) (BitVec.ofNat (8 * 2 ^ e) y)).map (fun r => (r, 0)) := by
  have hsize : etSize e = 2 ^ e := by interval_cases e <;> rfl
  rw [elemCond, if_neg (Nat.not_le.2 he), hsize, BitVec.ofNat_toNat, BitVec.setWidth_eq]

/-- What the mask and scalar destinations of MOP take. -/
def Thr.mop (op b : Nat) (rd ra rb : BitVec 5) (th : Thr) : Thr :=
  let m := th.mr (ra.setWidth 3)
  match op with
  | 8 => th.setM (rd.setWidth 3) (th.gr ra)
  | 9 => th.setG rd m
  | 10 => th.setG rd (dw (maskElems m b).length)
  | 11 => th.setG rd (dw ((maskElems m b).headD (64 / b)))
  | 12 => th.setC (rd.setWidth 3) (decide ((maskElems m b).length > 0))
  | 13 => th.setC (rd.setWidth 3) (decide ((maskElems m b).length = 64 / b))
  | _ => th.setM (rd.setWidth 3) (maskFun op m (th.mr (rb.setWidth 3)))

/-- The encodings of MOP that R121 lists, m and c registers within the first eight (R112). -/
def mopLegal (rd ra rb : BitVec 5) (fn : BitVec 11) : Prop :=
  fn.toNat < 64 ∧ fn.toNat % 16 ≤ 13 ∧ (10 ≤ fn.toNat % 16 ∨ fn.toNat < 16) ∧
    (fn.toNat % 16 ≤ 8 ∨ 12 ≤ fn.toNat % 16 → rd.toNat < 8) ∧ (fn.toNat % 16 ≠ 8 → ra.toNat < 8) ∧
    (if fn.toNat % 16 ≤ 7 then rb.toNat < 8 else rb = 0)

/-- MOP retires with its destination written, or raises ILLEGAL. -/
theorem exec_mop_legal {s : State} {q : Part} {t : ThreadId} {rd ra rb : BitVec 5} {fn : BitVec 11}
    (h : s.part.fetched t.val q) (hl : mopLegal rd ra rb fn) :
    exec (.mop t rd ra rb fn) s = s.after ((q.modThread t.val
      (Thr.mop (fn.toNat % 16) (2 ^ (fn.toNat / 16 % 4)) rd ra rb)).retires t.val
        (if 9 ≤ fn.toNat % 16 ∧ fn.toNat % 16 ≤ 11 then 2 else 1)) := by
  refine run_retire_cost h rfl rfl ?_
  obtain ⟨h64, h13, hsz, hrd, hra, hrb⟩ := hl
  generalize hop : fn.toNat % 16 = op at *
  interval_cases op <;> simp_all <;> omega

theorem exec_mop_illegal {s : State} {q : Part} {t : ThreadId} {rd ra rb : BitVec 5} {fn : BitVec 11}
    (h : s.part.fetched t.val q) (hl : ¬ mopLegal rd ra rb fn) :
    exec (.mop t rd ra rb fn) s = s.after (q.raise t.val cIllegal 0 none false) := by
  refine run_illegal h.1 h.2 (Bool.eq_false_iff.2 fun hok => hl ?_)
  have hlt : fn.toNat % 16 < 16 := Nat.mod_lt _ (by decide)
  unfold mopLegal
  generalize hop : fn.toNat % 16 = op at *
  interval_cases op <;> simp_all <;> omega

/-- MOP leaves the vector and system registers and the pc of its thread. -/
theorem Thr.mop_frame (op b : Nat) (rd ra rb : BitVec 5) (th : Thr) :
    (th.mop op b rd ra rb).v = th.v ∧ (th.mop op b rd ra rb).sr = th.sr ∧ (th.mop op b rd ra rb).pc = th.pc := by
  unfold Thr.mop
  dsimp only
  split <;> simp

/-- The codes of MOP's word: the operation, and the element size above it. -/
theorem mopWord_fields {op z : Nat} (hop : op < 16) (hz : z < 4) :
    (BitVec.ofNat 11 (op + 16 * z)).toNat = op + 16 * z ∧ (BitVec.ofNat 11 (op + 16 * z)).toNat % 16 = op ∧
      (BitVec.ofNat 11 (op + 16 * z)).toNat / 16 % 4 = z := by
  rw [BitVec.toNat_ofNat, Nat.mod_eq_of_lt (by omega)]
  omega

/-- MOP by its operation and element size. -/
theorem exec_mop {s : State} {q : Part} {t : ThreadId} {rd ra rb : BitVec 5} {op z : Nat} (h : s.part.fetched t.val q)
    (hop : op ≤ 13) (hz : z < 4) (hsz : 10 ≤ op ∨ z = 0) (hrd : op ≤ 8 ∨ 12 ≤ op → rd.toNat < 8)
    (hra : op ≠ 8 → ra.toNat < 8) (hrb : if op ≤ 7 then rb.toNat < 8 else rb = 0) :
    exec (.mop t rd ra rb (BitVec.ofNat 11 (op + 16 * z))) s = s.after ((q.modThread t.val
      (Thr.mop op (2 ^ z) rd ra rb)).retires t.val (if 9 ≤ op ∧ op ≤ 11 then 2 else 1)) := by
  obtain ⟨hword, hlow, hsize⟩ := mopWord_fields (show op < 16 by omega) hz
  have hl : mopLegal rd ra rb (BitVec.ofNat 11 (op + 16 * z)) := by
    unfold mopLegal
    rw [hlow, hword]
    exact ⟨by omega, hop, hsz.imp_right (by omega), hrd, hra, hrb⟩
  have hrun := exec_mop_legal h hl
  rwa [hlow, hsize] at hrun

/-- The conditions that VCMP lists (R119): those of CMP for integers, those of FCMP for floating-point elements. -/
theorem elemCond_isSome_iff (et : BitVec 3) (cc : BitVec 4) :
    (elemCond et.toNat cc.toNat false 0 0).isSome = true ↔
      (if et.toNat < 4 then cc.toNat < 12 else cc.toNat < 4 ∨ cc = 6 ∨ cc = 7 ∨ cc = 12 ∨ cc = 13) := by
  by_cases het : et.toNat < 4
  · rw [if_pos het, elemCond_int cc _ _ _ het, Option.isSome_map]
    have hcond : ∀ cc : BitVec 4, (cmpCond cc (0 : BitVec 1) 0).isSome = decide (cc.toNat < 12) := by decide
    by_cases hcc : cc.toNat < 12
    · obtain ⟨n, hn, rfl⟩ : ∃ n, n < 12 ∧ cc = BitVec.ofNat 4 n := ⟨cc.toNat, hcc, by simp⟩
      interval_cases n <;> simp [cmpCond]
    · simp [hcc, cmpCond_reserved _ _ cc (Nat.not_lt.1 hcc)]
  · rw [if_neg het, elemCond, if_pos (Nat.not_lt.1 het)]
    obtain ⟨n, hn, rfl⟩ : ∃ n, n < 16 ∧ cc = BitVec.ofNat 4 n := ⟨cc.toNat, cc.isLt, by simp⟩
    interval_cases n <;> simp [FpFmt.fcmp]

theorem Thr.addFlags_frame (th : Thr) (g : FpFlags) :
    (th.addFlags g).g = th.g ∧ (th.addFlags g).v = th.v ∧ (th.addFlags g).c = th.c ∧ (th.addFlags g).pc = th.pc := by
  unfold Thr.addFlags
  split <;> simp

/-- The mask that VCMP leaves: a selected element's bit is its condition, another bit of the elements is clear. -/
def Thr.vcmp (cd mk : BitVec 3) (et : Nat) (cc : BitVec 4) (ra rb : BitVec 5) (th : Thr) : Thr :=
  let b := etSize et
  let el (j : Nat) : Bool × FpFlags := (elemCond et cc.toNat th.fz (lane (th.vr ra) b j) (lane (th.vr rb) b j)).getD (false, 0)
  (th.setM cd ((List.range (64 / b)).foldl (fun a j =>
    (a &&& ~~~ dw (2 ^ (b * j))) ||| (if selects (th.mr mk) b j && (el j).1 then dw (2 ^ (b * j)) else 0))
    (th.mr cd))).addFlags (fpLanes b (th.mr mk) (fun j => (0, (el j).2)))

theorem Thr.vcmp_frame (cd mk : BitVec 3) (et : Nat) (cc : BitVec 4) (ra rb : BitVec 5) (th : Thr) :
    (th.vcmp cd mk et cc ra rb).g = th.g ∧ (th.vcmp cd mk et cc ra rb).v = th.v ∧
      (th.vcmp cd mk et cc ra rb).c = th.c ∧ (th.vcmp cd mk et cc ra rb).pc = th.pc := by
  unfold Thr.vcmp
  obtain ⟨hg, hv, hc, hpc⟩ := Thr.addFlags_frame (th.setM cd _) _
  exact ⟨hg.trans (by simp), hv.trans (by simp), hc.trans (by simp), hpc.trans (by simp)⟩

theorem exec_vcmp {s : State} {q : Part} {t : ThreadId} {et : BitVec 3} {cc : BitVec 4} (h : s.part.fetched t.val q)
    (cd mk : BitVec 3) (ra rb : BitVec 5) (hl : (elemCond et.toNat cc.toNat false 0 0).isSome = true) :
    exec (.vcmp t cd cc ra rb et mk 0) s =
      s.after ((q.modThread t.val (Thr.vcmp cd mk et.toNat cc ra rb)).retires t.val 2) :=
  run_retire_cost h rfl rfl (by simpa using hl)

/-! ### The three instructions -/

/-- The encodings of VINT that R113 lists. -/
def vintLegal (op : Nat) (rb : BitVec 5) : Prop := op < 20 ∨ (op = 20 ∧ rb = 0)

theorem vintLegal_iff (op : Nat) (rb : BitVec 5) :
    (decide (op ≤ 20) && (decide (op ≠ 20) || decide (rb = 0))) = true ↔ vintLegal op rb := by
  simp only [vintLegal, Bool.and_eq_true, Bool.or_eq_true, decide_eq_true_eq]
  constructor
  · rintro ⟨hle, hne | hrb⟩
    · exact .inl (by omega)
    · exact (Nat.lt_or_eq_of_le hle).imp_right fun heq => ⟨heq, hrb⟩
  · rintro (hlt | ⟨heq, hrb⟩)
    · exact ⟨by omega, .inl (by omega)⟩
    · exact ⟨by omega, .inr hrb⟩

theorem exec_vint {s : State} {q : Part} {t : ThreadId} {rb : BitVec 5} {fn : BitVec 11} (h : s.part.fetched t.val q)
    (rd ra : BitVec 5) (hl : vintLegal (fn.toNat % 32) rb) :
    let op := fn.toNat % 32
    let b := 2 ^ (fn.toNat / 32 % 4)
    exec (.vint t rd ra rb fn) s = s.after ((q.modThread t.val (fun th =>
      th.setV rd (maskLanes b (th.mr (BitVec.ofNat 3 (fn.toNat / 128))) (fn.getLsbD 10) (th.vr rd) (fun j =>
        (vintOp op (8 * b) (lane (th.vr ra) b j) (lane (th.vr rb) b j)).getD 0)))).retires t.val
          (if 6 ≤ op ∧ op ≤ 8 then 4 else 1)) :=
  run_retire_cost h rfl rfl ((vintLegal_iff _ _).2 hl)

/-- Settles O14: the element operations are those of bit vectors; the instructions write what their words name. -/
theorem vectorIntegerResults : Obligations.VectorIntegerResults := by
  unfold Obligations.VectorIntegerResults
  refine ⟨?elements, ?instructions⟩
  case elements =>
    intro n a b hn ha hb A B
    obtain ⟨h0, h1, h2, h3, h4, h5, h6⟩ := vintOp_bits ha hb
    obtain ⟨h11, h12, h13, h14⟩ := vintOp_order_shift ha hb
    obtain ⟨h7, h9, h10, h15, h16, h18, h20⟩ := vintOp_signed ha hb hn
    exact ⟨h0, h1, h2, h3, h4, h5, h6, h7, rfl, h9, h10, h11, h12, h13, h14, h15, h16, rfl, h18, rfl, h20,
      fun op hop => vintOp_reserved n a b hop⟩
  case instructions =>
    intro s q t rd ra rb fn cd mk et cc h
    refine ⟨fun hl => exec_vint h rd ra hl, fun hl => exec_vcmp h cd mk ra rb hl, ?logic, ?toMask, ?toG, ?elems, ?functions,
      fun e fz x y => ⟨fun he => elemCond_int cc fz x y he, fun he => if_pos he⟩⟩
    case logic =>
      intro k hk hra hrb hrd
      refine (exec_mop (z := 0) h (by omega) (by omega) (.inr rfl) (fun _ => hrd) (fun _ => hra)
        (by rwa [if_pos (by omega)])).trans ?_
      interval_cases k <;> rfl
    case toMask =>
      intro hrd
      exact exec_mop (op := 8) (z := 0) h (by decide) (by decide) (.inr rfl) (fun _ => hrd) (fun hne => absurd rfl hne) rfl
    case toG =>
      intro hra
      exact exec_mop (op := 9) (z := 0) h (by decide) (by decide) (.inr rfl) (by omega) (fun _ => hra) rfl
    case elems =>
      intro hra z hz
      refine ⟨exec_mop (op := 10) h (by decide) hz (.inl (by decide)) (by omega) (fun _ => hra) rfl,
        exec_mop (op := 11) h (by decide) hz (.inl (by decide)) (by omega) (fun _ => hra) rfl, fun hrd => ⟨?_, ?_⟩⟩
      · exact exec_mop (op := 12) h (by decide) hz (.inl (by decide)) (fun _ => hrd) (fun _ => hra) rfl
      · exact exec_mop (op := 13) h (by decide) hz (.inl (by decide)) (fun _ => hrd) (fun _ => hra) rfl
    case functions =>
      intro a b
      exact ⟨rfl, rfl, rfl, rfl, rfl, rfl, rfl, rfl⟩

/-- Settles O59: for each instruction, the words of the tables retire and the others are not legal. -/
theorem vectorMaskInstructionsEnd : Obligations.VectorMaskInstructionsEnd := by
  unfold Obligations.VectorMaskInstructionsEnd
  intro s q t rd ra rb fn cd mk et z cc h illegal small op mop
  refine ⟨?vint, ⟨_, Thr.vcmp_frame cd mk et.toNat cc ra rb, ?vcmp⟩, ⟨_, Thr.mop_frame mop (2 ^ (fn.toNat / 16 % 4)) rd ra rb, ?mop⟩⟩
  case vint =>
    by_cases hl : vintLegal op rb
    · exact (exec_vint h rd ra hl).trans (congrArg s.after (if_pos hl).symm)
    · refine Eq.trans ?_ (congrArg s.after (if_neg hl).symm)
      exact run_illegal h.1 h.2 (Bool.eq_false_iff.2 fun hok => hl ((vintLegal_iff _ _).1 hok))
  case vcmp =>
    by_cases hl : z = 0 ∧ (elemCond et.toNat cc.toNat false 0 0).isSome = true
    · obtain ⟨rfl, hcond⟩ := hl
      rw [if_pos ⟨rfl, (elemCond_isSome_iff et cc).1 hcond⟩]
      exact exec_vcmp h cd mk ra rb hcond
    · rw [if_neg fun hok => hl ⟨hok.1, (elemCond_isSome_iff et cc).2 hok.2⟩]
      exact run_illegal h.1 h.2 (Bool.eq_false_iff.2 fun hok => hl (by simpa using hok))
  case mop =>
    by_cases hl : mopLegal rd ra rb fn
    · exact (exec_mop_legal h hl).trans (congrArg s.after (if_pos hl).symm)
    · exact (exec_mop_illegal h hl).trans (congrArg s.after (if_neg hl).symm)

end Sys2Proof.Machine
end

section
/-!
Floating-point results, permutes and vector memory (R107, R114 to R118, R120, R122 to R128).
-/
namespace Sys2Proof.Machine
set_option Elab.async false

/-! ### VFP and SFP (R114, R115) -/

section
variable {s : State} {q : Part} {t : ThreadId} {rd ra rb : BitVec 5} {fn : BitVec 11}

/-- The unary operations of VFP and SFP ask for rb = 0. -/
theorem vfp_unary {op : Nat} (hun : op = 4 ∨ op = 7 ∨ op = 8 → rb = 0) :
    (!(decide (op = 4) || decide (op = 7) || decide (op = 8)) || decide (rb = 0)) = true := by
  by_cases hop : op = 4 ∨ op = 7 ∨ op = 8
  · simp [hun hop]
  · simp only [not_or] at hop
    simp [hop]

/-- A rounding mode is asked for by the operations that round only (R107). -/
theorem vfp_mode {op : Nat} {rm : Option Nat} (hrm : vfpRounds op = true → rm.isSome = true) :
    (!vfpRounds op || rm.isSome) = true := by
  cases h : vfpRounds op
  · rfl
  · exact hrm h

theorem exec_vfp_elements (h : s.part.fetched t.val q) (rd ra : BitVec 5) (h6 : fn.getLsbD 6 = false)
    (hun : fn.toNat % 16 = 4 ∨ fn.toNat % 16 = 7 ∨ fn.toNat % 16 = 8 → rb = 0) (hop : fn.toNat % 16 ≤ 10)
    (hrm : vfpRounds (fn.toNat % 16) = true → ((s.part.thread t.val).rmode 7).isSome = true) :
    let op := fn.toNat % 16
    let f := fpFmt (fn.toNat / 16 % 4)
    let b := f.w / 8
    exec (.vfp t rd ra rb fn) s = s.after ((q.modThread t.val (fun th =>
      let el (j : Nat) : Nat × FpFlags := vfpOp op f ((th.rmode 7).getD 0) th.fz (lane (th.vr ra) b j) (lane (th.vr rb) b j)
      (th.setV rd (maskLanes b (th.mr (BitVec.ofNat 3 (fn.toNat / 128))) (fn.getLsbD 10) (th.vr rd) (fun j => (el j).1))).addFlags
        (fpLanes b (th.mr (BitVec.ofNat 3 (fn.toNat / 128))) el))).retires t.val (vfpCost op (fn.toNat / 16 % 4))) := by
  have hno : ¬ fn.toNat % 16 ≥ 11 := by omega
  refine run_retire_cost h ?body rfl ?legal
  case body => simp only [if_neg hno]
  case legal =>
    rw [h6, vfp_unary hun, vfp_mode hrm]
    simp only [decide_eq_false hno, decide_eq_true (show fn.toNat % 16 ≤ 13 by omega), Bool.false_and, Bool.not_false, Bool.and_self]

theorem exec_vfp_reduction (h : s.part.fetched t.val q) (rd ra rb : BitVec 5) (h6 : fn.getLsbD 6 = false)
    (h10 : fn.getLsbD 10 = false) (hlo : 11 ≤ fn.toNat % 16) (hhi : fn.toNat % 16 ≤ 13)
    (hrm : fn.toNat % 16 = 11 → ((s.part.thread t.val).rmode 7).isSome = true) :
    let op := fn.toNat % 16
    let f := fpFmt (fn.toNat / 16 % 4)
    let b := f.w / 8
    exec (.vfp t rd ra rb fn) s = s.after ((q.modThread t.val (fun th =>
      let ident := if op = 11 then 2 ^ (f.w - 1) else f.infBits (decide (op = 13))
      let l := (List.range (64 / b)).map (fun i =>
        if selects (th.mr (BitVec.ofNat 3 (fn.toNat / 128))) b i then lane (th.vr ra) b i else ident)
      let r := reducePairs (vfpOp (if op = 11 then 0 else if op = 12 then 5 else 6) f ((th.rmode 7).getD 0) th.fz) (64 / b).log2 l 0
      (th.setV rd (BitVec.ofNat 512 r.1)).addFlags r.2)).retires t.val (vfpCost op (fn.toNat / 16 % 4))) := by
  have hop : fn.toNat % 16 = 11 ∨ fn.toNat % 16 = 12 ∨ fn.toNat % 16 = 13 := by omega
  refine run_retire_cost h ?body rfl ?legal
  case body => rcases hop with hop | hop | hop <;> simp [hop]
  case legal => rcases hop with hop | hop | hop <;> simp_all [vfpRounds]

theorem exec_sfp (h : s.part.fetched t.val q) (rd ra : BitVec 5) (h6 : fn.getLsbD 6 = false) (h10 : fn.getLsbD 10 = false)
    (hun : fn.toNat % 16 = 4 ∨ fn.toNat % 16 = 7 ∨ fn.toNat % 16 = 8 → rb = 0) (hop : fn.toNat % 16 ≤ 10)
    (h5 : fn.toNat / 128 % 8 ≠ 5) (hsix : fn.toNat / 128 % 8 ≠ 6)
    (hrm : vfpRounds (fn.toNat % 16) = true → ((s.part.thread t.val).rmode (fn.toNat / 128 % 8)).isSome = true) :
    let op := fn.toNat % 16
    let f := fpFmt (fn.toNat / 16 % 4)
    let b := f.w / 8
    exec (.sfp t rd ra rb fn) s = s.after ((q.modThread t.val (fun th =>
      let e := vfpOp op f ((th.rmode (fn.toNat / 128 % 8)).getD 0) th.fz (lane (th.vr ra) b 0) (lane (th.vr rb) b 0)
      (th.setV rd (BitVec.ofNat 512 e.1)).addFlags e.2)).retires t.val (vfpCost op (fn.toNat / 16 % 4))) := by
  refine run_retire_cost h rfl rfl ?_
  rw [h6, h10, vfp_unary hun, vfp_mode hrm]
  simp only [decide_eq_true hop, decide_eq_true h5, decide_eq_true hsix, Bool.not_false, Bool.and_self]

/-! ### FMA (R116) -/

theorem exec_fma_scalar (h : s.part.fetched t.val q) (rd ra rb : BitVec 5) (h4 : fn.getLsbD 4 = true)
    (h5 : fn.getLsbD 5 = false) (h6 : fn.getLsbD 6 = false) (h10 : fn.getLsbD 10 = false)
    (hf5 : fn.toNat / 128 % 8 ≠ 5) (hf6 : fn.toNat / 128 % 8 ≠ 6)
    (hrm : ((s.part.thread t.val).rmode (fn.toNat / 128 % 8)).isSome = true) :
    let f := fpFmt (fn.toNat / 4 % 4)
    let b := f.w / 8
    exec (.fma t rd ra rb fn) s = s.after (((q.coreEvent t.val 8 1).modThread t.val (fun th =>
      let e := f.fma ((th.rmode (fn.toNat / 128 % 8)).getD 0) th.fz (lane (th.vr ra) b 0) (lane (th.vr rb) b 0)
        (lane (th.vr rd) b 0) (decide (fn.toNat % 4 ≥ 2)) (decide (fn.toNat % 4 = 1) || decide (fn.toNat % 4 = 3))
      (th.setV rd (BitVec.ofNat 512 e.1)).addFlags e.2)).retires t.val 4) :=
  run_retire_cost h (by simp only [h4, if_true]) (by simp only [h5]; rfl)
    (by simp only [h4, h5, h6, h10]; simp [hf5, hf6, hrm])

theorem exec_fma_elements (h : s.part.fetched t.val q) (rd ra rb : BitVec 5) (h4 : fn.getLsbD 4 = false)
    (h6 : fn.getLsbD 6 = false) (hrm : ((s.part.thread t.val).rmode 7).isSome = true) (h5 : fn.getLsbD 5 = false) :
    let f := fpFmt (fn.toNat / 4 % 4)
    let b := f.w / 8
    exec (.fma t rd ra rb fn) s = s.after (((q.coreEvent t.val 8 1).modThread t.val (fun th =>
      let el (j : Nat) : Nat × FpFlags :=
        f.fma ((th.rmode 7).getD 0) th.fz (lane (th.vr ra) b j) (lane (th.vr rb) b j) (lane (th.vr rd) b j)
          (decide (fn.toNat % 4 ≥ 2)) (decide (fn.toNat % 4 = 1) || decide (fn.toNat % 4 = 3))
      (th.setV rd (maskLanes b (th.mr (BitVec.ofNat 3 (fn.toNat / 128 % 8))) (fn.getLsbD 10) (th.vr rd)
        (fun j => (el j).1))).addFlags (fpLanes b (th.mr (BitVec.ofNat 3 (fn.toNat / 128 % 8))) el))).retires t.val 4) :=
  run_retire_cost h (by simp only [h4, h5, Bool.false_eq_true, if_false]) (by simp only [h5]; rfl)
    (by simp only [h4, h5, h6]; simp [hrm])

theorem exec_fma_dot (h : s.part.fetched t.val q) (rd ra rb : BitVec 5) (h4 : fn.getLsbD 4 = false)
    (h6 : fn.getLsbD 6 = false) (hrm : ((s.part.thread t.val).rmode 7).isSome = true) (h5 : fn.getLsbD 5 = true)
    (hft : fn.toNat / 4 % 4 < 2) :
    let f := fpFmt (fn.toNat / 4 % 4)
    exec (.fma t rd ra rb fn) s = s.after (((q.coreEvent t.val 8 1).modThread t.val (fun th =>
      let el (j : Nat) : Nat × FpFlags :=
        dotLane f ((th.rmode 7).getD 0) th.fz (lane (th.vr ra) 2 (2 * j)) (lane (th.vr rb) 2 (2 * j))
          (lane (th.vr ra) 2 (2 * j + 1)) (lane (th.vr rb) 2 (2 * j + 1)) (lane (th.vr rd) 4 j)
          (decide (fn.toNat % 4 ≥ 2)) (decide (fn.toNat % 4 = 1) || decide (fn.toNat % 4 = 3))
      (th.setV rd (maskLanes 4 (th.mr (BitVec.ofNat 3 (fn.toNat / 128 % 8))) (fn.getLsbD 10) (th.vr rd)
        (fun j => (el j).1))).addFlags (fpLanes 4 (th.mr (BitVec.ofNat 3 (fn.toNat / 128 % 8))) el))).retires t.val 5) :=
  run_retire_cost h (by simp only [h4, h5, Bool.false_eq_true, if_false, if_true]) (by simp only [h5]; rfl)
    (by simp only [h4, h5, h6]; simp [hrm, hft])

end

/-- The conversions that R117 permits, with a rounding mode where one of the types is floating-point. -/
theorem vcvt_legal {st dt form rm : Nat} {rb : BitVec 5} {m : Option Nat} (hl : cvtLegal st dt form rb = true)
    (h5 : rm ≠ 5) (h6 : rm ≠ 6) (hm : 4 ≤ st ∨ 4 ≤ dt → m.isSome = true) :
    (cvtLegal st dt form rb && decide (rm ≠ 5) && decide (rm ≠ 6)
      && (!(decide (st ≥ 4) || decide (dt ≥ 4)) || m.isSome)) = true := by
  rw [hl, decide_eq_true h5, decide_eq_true h6]
  by_cases hr : 4 ≤ st ∨ 4 ≤ dt
  · simp [hm hr]
  · simp only [not_or] at hr
    simp [hr]

/-- Settles O15: each form is one update of its thread, at the cost of R182. -/
theorem floatingResults : Obligations.FloatingResults := by
  unfold Obligations.FloatingResults
  refine ⟨?vfp, ?fma, ?others⟩
  case vfp =>
    intro s q t rd ra rb fn h op ft f b fld
    exact ⟨exec_vfp_elements h rd ra, exec_vfp_reduction h rd ra rb, exec_sfp h rd ra⟩
  case fma =>
    intro s q t rd ra rb fn h form ft f b fld np nd
    exact ⟨exec_fma_scalar h rd ra rb, exec_fma_elements h rd ra rb, exec_fma_dot h rd ra rb⟩
  case others =>
    intro s q t rd ra rb fn cd cc ft h st dt form rm ss ds n high
    refine ⟨fun hl h5 h6 hm => ?vcvt, fun hf => run_retire_cost h rfl rfl (by simpa using hf)⟩
    have hlegal := vcvt_legal hl h5 h6 hm
    refine ⟨fun hform => ?_, fun hform => ?_, fun hform => ?_, fun hform => ?_⟩ <;>
      exact run_retire_cost h (by simp only [show fn.toNat / 64 % 4 = _ from hform]; rfl) rfl hlegal

end Sys2Proof.Machine
end

section
/-!
Permutes (R118) and vector memory access (R122 to R128).
-/
namespace Sys2Proof.Machine
set_option Elab.async false

/-! ### VPERM (R118) -/

/-- The fields of a VPERM word with Z = 0: operation, size and mask. -/
theorem vpermWord_fields {op z mk : Nat} (hop : op < 32) (hz : z < 4) (hmk : mk < 8) :
    (BitVec.ofNat 11 (op + 32 * z + 128 * mk)).toNat % 32 = op ∧
      (BitVec.ofNat 11 (op + 32 * z + 128 * mk)).toNat / 32 % 4 = z ∧
      (BitVec.ofNat 11 (op + 32 * z + 128 * mk)).toNat / 128 = mk ∧
      (BitVec.ofNat 11 (op + 32 * z + 128 * mk)).getLsbD 10 = false := by
  have hlt : op + 32 * z + 128 * mk < 2 ^ 10 := by omega
  rw [BitVec.getLsbD_ofNat, Nat.testBit_lt_two_pow hlt, BitVec.toNat_ofNat, Nat.mod_eq_of_lt (show _ < 2 ^ 11 by omega)]
  exact ⟨by omega, by omega, by omega, rfl⟩

/-- Settles O16: the fields of each word select one arm of the body. -/
theorem permuteResults : Obligations.PermuteResults := by
  unfold Obligations.PermuteResults
  intro s q t rd ra rb z mk op h hz hmk b word masked m
  have hmasked {k : Nat} (hk : k < 32) : (masked k).toNat % 32 = k ∧ (masked k).toNat / 32 % 4 = z ∧
      (masked k).toNat / 128 = mk ∧ (masked k).getLsbD 10 = false := vpermWord_fields hk hz hmk
  have hword {k : Nat} (hk : k < 32) : (word k).toNat % 32 = k ∧ (word k).toNat / 32 % 4 = z ∧
      (word k).toNat / 128 = 0 ∧ (word k).getLsbD 10 = false := vpermWord_fields hk hz (show 0 < 8 by decide)
  refine ⟨?broadcast, ?insert, ?extract, ?permute, ?compress, fun hlo hhi => ?reduce, ?toG, ?toV, ?move⟩
  case broadcast =>
    obtain ⟨hop, hsz, hm, hZ⟩ := hmasked (show 0 < 32 by decide)
    exact run_retire_cost h (by simp only [hop, hsz, hm, hZ]; rfl) (by simp only [hop]; rfl)
      (by simp only [hop]; rfl)
  case insert =>
    obtain ⟨hop, hsz, hm, hZ⟩ := hword (show 1 < 32 by decide)
    exact run_retire_cost h (by simp only [hop, hsz]; rfl) (by simp only [hop]; rfl) (by simp only [hop, hm, hZ]; rfl)
  case extract =>
    obtain ⟨hop, hsz, hm, hZ⟩ := hword (show 2 < 32 by decide)
    exact run_retire_cost h (by simp only [hop, hsz]; rfl) (by simp only [hop]; rfl) (by simp only [hop, hm, hZ]; rfl)
  case permute =>
    obtain ⟨hop, hsz, hm, hZ⟩ := hmasked (show 3 < 32 by decide)
    exact run_retire_cost h (by simp only [hop, hsz, hm, hZ]; rfl) (by simp only [hop]; rfl)
      (by simp only [hop])
  case compress =>
    obtain ⟨hop, hsz, hm, hZ⟩ := hmasked (show 4 < 32 by decide)
    exact run_retire_cost h (by simp only [hop, hsz, hm]; rfl) (by simp only [hop]; rfl)
      (by simp only [hop, hZ]; rfl)
  case reduce =>
    obtain ⟨hop, hsz, hm, hZ⟩ := hmasked (show op < 32 by omega)
    refine run_retire_cost h ?_ ((if_pos (by rw [hop]; exact ⟨hlo, hhi⟩)).trans (by rw [hsz])) ?_
    · simp only [hop, hsz, hm]
      interval_cases op <;> rfl
    · simp only [hop, hZ]
      interval_cases op <;> rfl
  case toG =>
    obtain ⟨hop, hsz, hm, hZ⟩ := hword (show 10 < 32 by decide)
    exact run_retire_cost h (by simp only [hop, hsz]; rfl) (by simp only [hop]; rfl) (by simp only [hop, hm, hZ]; rfl)
  case toV =>
    obtain ⟨hop, hsz, hm, hZ⟩ := hword (show 11 < 32 by decide)
    exact run_retire_cost h (by simp only [hop, hsz]; rfl) (by simp only [hop]; rfl) (by simp only [hop, hm, hZ]; rfl)
  case move =>
    obtain ⟨hop, hsz, hm, hZ⟩ := hmasked (show 12 < 32 by decide)
    exact run_retire_cost h (by simp only [hop, hsz, hm, hZ]; rfl) (by simp only [hop]; rfl)
      (by simp only [hop]; rfl)

/-! ### Vector loads -/

section
variable {q r : Part} {t : Nat} {a : VAcc} {l : List (Nat × Nat)}

theorem Part.vload_of_nil (rd : BitVec 5) (zero : Bool) (mk : BitVec 3) (hel : a.elems = []) :
    q.vload t rd a zero mk = .retire (q.modThread t (fun th => th.setV rd (putElems a.b zero (th.vr rd) []))) := by
  simp only [Part.vload, hel]

theorem Part.vload_of_all (rd : BitVec 5) (zero : Bool) (mk : BitVec 3) (hff : a.ff = false) (hel : a.elems ≠ [])
    (hv : q.vloadAll t a = .inl (.ok r l)) :
    q.vload t rd a zero mk = .retire (r.modThread t (fun th => th.setV rd (putElems a.b zero (th.vr rd) l))) := by
  obtain ⟨e, es, he⟩ := List.exists_cons_of_ne_nil hel
  simp only [Part.vload, he, hff, Bool.false_eq_true, not_false_eq_true, if_true, hv]

theorem Part.vload_of_ff_all (rd : BitVec 5) (zero : Bool) (mk : BitVec 3) (hff : a.ff = true) (hel : a.elems ≠ [])
    (hv : q.vloadFF t a a.elems [] [] = (.ok r l, none)) :
    q.vload t rd a zero mk = .retire (r.modThread t (fun th => th.setV rd (putElems a.b zero (th.vr rd) l))) := by
  obtain ⟨e, es, he⟩ := List.exists_cons_of_ne_nil hel
  rw [he] at hv
  simp only [Part.vload, he, hff, not_true_eq_false, if_false, hv]

/-- A fault-first load whose element `i`, not the first, has a cause clears the mask from there on (R127). -/
theorem Part.vload_of_ff_some (rd : BitVec 5) (zero : Bool) (mk : BitVec 3) {e : Nat × Dword} {es : List (Nat × Dword)}
    {i : Nat} (hff : a.ff = true) (hel : a.elems = e :: es) (hi : i ≠ e.1)
    (hv : q.vloadFF t a a.elems [] [] = (.ok r l, some i)) :
    q.vload t rd a zero mk = .retire ((r.modThread t (fun th =>
      th.setM mk ((List.range (64 / a.b)).foldl (fun m j => if j ≥ i then m &&& ~~~ dw (2 ^ (a.b * j)) else m)
        (th.mr mk)))).modThread t (fun th => th.setV rd (putElems a.b zero (th.vr rd) l))) := by
  rw [hel] at hv
  simp only [Part.vload, hel, hff, not_true_eq_false, if_false, hv, hi]

end

/-! ### Vector stores -/

section
variable {q r u : Part} {t : Nat} {a : VAcc} {rd : BitVec 5} {k : List (Nat × Dword × List Seg)}

theorem Part.vstore_of_nil (hel : a.elems = []) : q.vstore t rd a = .retire q := by
  simp only [Part.vstore, hel, List.isEmpty_nil, if_true]

/-- The requests of a Plumb core's store have been answered: it ends. -/
theorem Part.vstore_of_begun (hel : a.elems ≠ []) (hb : q.storeBegun t = some true) : q.vstore t rd a = .retire q := by
  have hne : ¬ a.elems.isEmpty = true := fun h => hel (List.isEmpty_iff.1 h)
  simp only [Part.vstore, if_neg hne, Part.storing, hb]

theorem Part.vstore_of_checked (hel : a.elems ≠ []) (hb : q.storeBegun t = none)
    (hck : q.vcheck t .store a a.elems [] = .ok r k) (hdev : wholeDevice k = none)
    (hout : let w := (r.vcharge t a [] k).elemEnts t a.b ((r.thread t).vr rd) k []
      w.1.storeOut t w.2 = .ok u 0) : q.vstore t rd a = .retire u := by
  have hne : ¬ a.elems.isEmpty = true := fun h => hel (List.isEmpty_iff.1 h)
  simp only [Part.vstore, if_neg hne, Part.storing, hb, hck, hdev, hout]

end

/-- VLD with a selected element is a load that zeroes the others. -/
theorem vld_body {q : Part} {t : Nat} {a : VAcc} (rd : BitVec 5) (hel : a.elems ≠ []) :
    (if a.elems.isEmpty then Res.retire q else q.vload t rd a true 0) = q.vload t rd a true 0 :=
  if_neg fun h => hel (List.isEmpty_iff.1 h)

/-- Settles O17: a vector load or store ends as its elements do. -/
theorem vectorMemoryResults : Obligations.VectorMemoryResults := by
  unfold Obligations.VectorMemoryResults
  intro s q r u t rd ra rb imm fn l k h
  refine ⟨?unit, fun hlegal => ?vmem⟩
  case unit =>
    intro a w
    exact ⟨fun hel => ⟨run_retire h (Part.vstore_of_nil hel), run_retire h (if_pos (List.isEmpty_iff.2 hel))⟩,
      fun hel hv => run_retire h ((vld_body rd hel).trans (Part.vload_of_all rd true 0 rfl hel hv)),
      fun hel hb hck hdev hout => run_retire h (Part.vstore_of_checked hel hb hck hdev hout),
      fun hel hb => run_retire h (Part.vstore_of_begun hel hb)⟩
  case vmem =>
    intro a w
    have hload (hst : fn.getLsbD 2 = false) {p : Part} (hv : q.vload t.val rd a (fn.getLsbD 10) (BitVec.ofNat 3 (fn.toNat / 128)) = .retire p) :
        exec (.vmem t rd ra rb fn) s = s.after (p.retires t.val 1) :=
      run_retire h ((if_neg (by rw [hst]; exact Bool.false_ne_true)).trans hv) hlegal
    have hstore (hst : fn.getLsbD 2 = true) {p : Part} (hv : q.vstore t.val rd a = .retire p) :
        exec (.vmem t rd ra rb fn) s = s.after (p.retires t.val 1) :=
      run_retire h ((if_pos hst).trans hv) hlegal
    exact ⟨fun hst hel => hload hst (Part.vload_of_nil rd _ _ hel),
      fun hst hff hel hv => hload hst (Part.vload_of_all rd _ _ hff hel hv),
      fun hst hff hel hv => hload hst (Part.vload_of_ff_all rd _ _ hff hel hv),
      fun hst hff e es i hel hi hv => hload hst (Part.vload_of_ff_some rd _ _ hff hel hi hv),
      fun hst hel => hstore hst (Part.vstore_of_nil hel),
      fun hst hel hb hck hdev hout => hstore hst (Part.vstore_of_checked hel hb hck hdev hout)⟩

end Sys2Proof.Machine
end

section
/-!
Exception entry and return (R40 to R43, R142, R146 to R149), and the events of the interrupt controllers (R145, R153,
R155 to R161).
-/
namespace Sys2Proof.Machine
set_option Elab.async false

theorem Thr.setSys_sys (th : Thr) (n m : Nat) (x : Dword) : (th.setSys n x).sys m = if m = n then x else th.sys m := by
  by_cases h : m = n
  · subst h
    rw [if_pos rfl, Thr.setSys_sys_self]
  · rw [if_neg h, Thr.setSys_sys_other _ _ _ _ h]

theorem Level.code_lt (l : Level) : l.code < 4 := by cases l <;> decide

theorem Level.code_ofCode (n : Nat) : (Level.ofCode n).code = n % 4 := by
  have hlt : n % 4 < 4 := Nat.mod_lt _ (by decide)
  unfold Level.ofCode
  interval_cases n % 4 <;> rfl

/-! ### Entry (R41, R142, R146, R147) -/

/-- XSTAT at an entry (R142): LN, LP, DS, PV, PIE and PLV. -/
def entryStatus (ln lp ds pv pie : Bool) (plv : Nat) : Nat :=
  (if ln then 64 else 0) + (if lp then 32 else 0) + (if ds then 16 else 0) + (if pv then 8 else 0) + (if pie then 4 else 0) + plv

theorem entryStatus_fields (ln lp ds pv pie : Bool) {plv : Nat} (h : plv < 4) :
    let n := entryStatus ln lp ds pv pie plv
    n < 128 ∧ n % 4 = plv ∧ n / 4 % 2 = pie.toNat ∧ n / 8 % 2 = pv.toNat ∧ n / 16 % 2 = ds.toNat ∧
      (ln = false → lp = false → n / 32 = 0) := by
  have hbit (b : Bool) (k : Nat) : (if b then k else 0) = k * b.toNat := by cases b <;> simp
  have hle (b : Bool) : b.toNat ≤ 1 := b.toNat_le
  have hn : entryStatus ln lp ds pv pie plv =
      64 * ln.toNat + 32 * lp.toNat + 16 * ds.toNat + 8 * pv.toNat + 4 * pie.toNat + plv := by
    simp only [entryStatus, hbit]
  have h1 := hle ln
  have h2 := hle lp
  have h3 := hle ds
  have h4 := hle pv
  have h5 := hle pie
  intro n
  refine ⟨by omega, by omega, by omega, by omega, by omega, fun hln hlp => ?_⟩
  have hln0 : ln.toNat = 0 := by rw [hln]; rfl
  have hlp0 : lp.toNat = 0 := by rw [hlp]; rfl
  omega

section
variable (th : Thr) (l : Level) (sv : Saved) (cause : Dword) (off : Nat)

/-- The LP and LN that an entry saves: none with a saved slot, or for TRAP (R90, R142). -/
def Thr.entryLoop (th : Thr) (sv : Saved) : Bool × Bool :=
  if sv.xtgt.isSome ∨ ¬ sv.loopFlags then (false, false) else th.loopFlags sv.xpc

/-- The bank of the target level after an entry. -/
theorem Thr.enter_sys (n : Nat) :
    (th.enter l sv cause off).sys n =
      let b := bankBase l th.vm
      if n = b then 2
      else if n = b + 3 then dw (entryStatus (th.entryLoop sv).2 (th.entryLoop sv).1 sv.xtgt.isSome th.vm
        ((th.sys b).getLsbD 0) th.level.code)
      else if n = b + 5 then sv.xaddr
      else if n = b + 4 then cause
      else if n = b + 2 then sv.xtgt.getD 0
      else if n = b + 1 then sv.xpc
      else th.sys n := by
  simp only [← Thr.setSys_sys]
  rfl

theorem Thr.enter_pc :
    (th.enter l sv cause off).pc = (th.sys (bankBase l th.vm + 7) &&& ~~~ 0xFFF) + BitVec.ofNat 64 off := by
  have h (m : Nat) (hm : m ≠ 7 := by decide) : bankBase l th.vm + 7 ≠ bankBase l th.vm + m := by omega
  have h0 : bankBase l th.vm + 7 ≠ bankBase l th.vm := by omega
  rw [← Thr.setSys_sys_other th _ _ sv.xpc (h 1), ← Thr.setSys_sys_other _ _ _ (sv.xtgt.getD 0) (h 2),
    ← Thr.setSys_sys_other _ _ _ cause (h 4), ← Thr.setSys_sys_other _ _ _ sv.xaddr (h 5),
    ← Thr.setSys_sys_other _ _ _ (dw (entryStatus (th.entryLoop sv).2 (th.entryLoop sv).1 sv.xtgt.isSome th.vm
      ((th.sys (bankBase l th.vm)).getLsbD 0) th.level.code)) (h 3), ← Thr.setSys_sys_other _ _ _ 2 h0]
  rfl

/-- What the thread has besides its bank after an entry. -/
theorem Thr.enter_frame :
    let e := th.enter l sv cause off
    e.level = l ∧ e.vm = (if l = .s then th.vm else false) ∧ e.slot = none ∧ e.g = th.g ∧ e.v = th.v ∧ e.m = th.m ∧
      e.c = th.c ∧ e.run = th.run ∧ e.mce = th.mce ∧ e.instret = th.instret := by
  simp [Thr.enter]

end

theorem Thr.target_eq (th : Thr) (cause : Nat) (toH : Bool) :
    (th.level = .f ∨ (th.sys 0xC08).getLsbD cause = false → th.target cause toH = .f) ∧
      (th.level ≠ .f → (th.sys 0xC08).getLsbD cause = true →
        (toH = true ∨ (th.sys 0x808).getLsbD cause = false ∨ cause = 16 ∨ th.level = .h → th.target cause toH = .h) ∧
        (toH = false → (th.sys 0x808).getLsbD cause = true → cause ≠ 16 → th.level ≠ .h → th.target cause toH = .s)) := by
  unfold Thr.target
  refine ⟨?toF, fun hf hfd => ⟨?toHyp, fun h1 h2 h3 h4 => ?toS⟩⟩
  case toF =>
    rintro (hf | hfd)
    · exact if_pos hf
    · simp only [hfd, Bool.false_eq_true, not_false_eq_true, if_true, ite_self]
  case toHyp =>
    intro hor
    rw [if_neg hf, if_neg (not_not_intro hfd)]
    split
    · rfl
    next hno =>
      simp only [not_or, Bool.not_eq_true] at hno
      obtain ⟨htoH, hhd, hmce⟩ := hno
      exact if_pos (by simpa [htoH, hhd, hmce] using hor)
  case toS =>
    rw [if_neg hf, if_neg (not_not_intro hfd), if_neg (by simp only [h1, h2, h3]; decide), if_neg h4]

/-- Settles O18: the entry writes the six bank registers and nothing else of the thread but where it goes on. -/
theorem exceptionEntry : Obligations.ExceptionEntry := by
  unfold Obligations.ExceptionEntry
  refine ⟨?entry, Thr.target_eq⟩
  intro th l sv cause off b e st
  have hsys (n : Nat) := th.enter_sys l sv cause off n
  obtain ⟨hlt, hplv, hpie, hpv, hds, hloop⟩ := entryStatus_fields (th.entryLoop sv).2 (th.entryLoop sv).1
    sv.xtgt.isSome th.vm ((th.sys b).getLsbD 0) (Level.code_lt th.level)
  have hst : st = entryStatus (th.entryLoop sv).2 (th.entryLoop sv).1 sv.xtgt.isSome th.vm ((th.sys b).getLsbD 0)
      th.level.code := by
    have h3 : e.sys (b + 3) = _ := (hsys (b + 3)).trans ((if_neg (by omega)).trans (if_pos rfl))
    show (e.sys (b + 3)).toNat = _
    rw [h3, dw, BitVec.toNat_ofNat, Nat.mod_eq_of_lt (Nat.lt_trans hlt (by decide))]
  rw [← hst] at hplv hpie hpv hds hloop
  obtain ⟨hlevel, hvm, hslot, hrest⟩ := th.enter_frame l sv cause off
  have hbank (k : Nat) (hk : k ≠ 0 := by decide) : b + k ≠ b := by omega
  refine ⟨(hsys b).trans (if_pos rfl), ?xpc, ?xcause, ?xaddr, fun d hd => ⟨?tgt, ?_, ?noloop⟩, fun hnone => ⟨?notgt, ?_⟩,
    hplv, hpie.trans ?_, ?_, hlevel, fun hl => hvm.trans (if_neg hl), fun hl => hvm.trans (if_pos hl), hslot, th.enter_pc l sv cause off,
    fun n hn => ?frame, hrest⟩
  case xpc => exact (hsys (b + 1)).trans (by simp [b])
  case xcause => exact (hsys (b + 4)).trans (by simp [b])
  case xaddr => exact (hsys (b + 5)).trans (by simp [b])
  case tgt => exact (hsys (b + 2)).trans (by simp [b, hd])
  case notgt => exact (hsys (b + 2)).trans (by simp [b, hnone])
  case noloop =>
    have hnoloop : th.entryLoop sv = (false, false) := if_pos (.inl (by rw [hd]; rfl))
    rw [hnoloop] at hloop
    exact hloop rfl rfl
  case frame =>
    refine (hsys n).trans ?_
    have hout : n < bankBase l th.vm ∨ bankBase l th.vm + 5 < n := hn
    have h0 : n ≠ bankBase l th.vm := by omega
    have h (k : Nat) (hk : k ≤ 5 := by decide) : n ≠ bankBase l th.vm + k := by omega
    simp only [if_neg h0, if_neg (h 1), if_neg (h 2), if_neg (h 3), if_neg (h 4), if_neg (h 5)]
  · rw [hds, hd]; rfl
  · rw [hds, hnone]; rfl
  · rw [BitVec.getLsbD, Nat.testBit_zero]
    rcases Nat.mod_two_eq_zero_or_one (th.sys b).toNat with h | h <;> rw [h] <;> rfl
  · rw [hpv]
    cases th.vm <;> decide

/-! ### Return (R43, R147, R149) -/

/-- Settles O19: RETX writes the enable of its bank and where its thread goes on. -/
theorem exceptionReturn : Obligations.ExceptionReturn := by
  unfold Obligations.ExceptionReturn
  intro th _ b st e
  refine ⟨Level.code_ofCode st, rfl, Thr.setSys_sys_self _ _ _, fun h => if_pos h, fun h => if_neg ?_, fun hs hvm => ?_,
    fun hno => ?_, fun n hn => Thr.setSys_sys_other _ _ _ _ hn, rfl, rfl, rfl, rfl, rfl⟩
  · show ¬ st / 16 % 2 = 1
    omega
  · exact if_pos (by rw [hs, hvm]; rfl)
  · have hkeep : (decide (th.level = .s) && th.vm) = false := by
      rw [Bool.eq_false_iff, ne_eq, Bool.and_eq_true, decide_eq_true_eq]
      exact hno
    show (if (decide (th.level = .s) && th.vm) = true then true else decide (st / 8 % 2 = 1)) = true ↔ _
    rw [hkeep]
    simp

end Sys2Proof.Machine
end

section
/-!
The events of the interrupt controllers (R145, R146, R153, R155, R156, R158 to R161).
-/
namespace Sys2Proof.Machine
set_option Elab.async false

/-! ### Taking an event at a boundary -/

section
variable {s : State} {t : ThreadId}

/-- A deliverable vector is taken when no MACHINE_CHECK is pending. -/
theorem exec_interruptTaken {v : Nat} (hrun : (s.part.thread t.val).run = .running)
    (hb : (s.part.thread t.val).boundary = true) (hp : ¬ (t.val % 2 = 0 ∧ s.part.plumbEntering (t.val / 2) = true))
    (hm : (s.part.thread t.val).mce = []) (hv : (s.part.icOf t.val).best (s.part.thread t.val) = some v) :
    exec (.interruptTaken t) s = s.after
      ((s.part.takeInterrupt t.val v (s.part.thread t.val).savedNow (Part.plumbFlush (t.val / 2))).tick t.val 6) := by
  refine exec_run rfl ((if_pos ⟨hrun, hb, by rw [hm]; rfl, hp⟩).trans ?_)
  rw [hv]

theorem exec_interruptTaken_none (hv : (s.part.icOf t.val).best (s.part.thread t.val) = none) :
    exec (.interruptTaken t) s = s.after s.part := by
  refine exec_run rfl (?_ : Part.interruptTaken t.val s.part = s.part)
  unfold Part.interruptTaken
  dsimp only
  rw [hv]
  exact ite_self _

/-- A pending MACHINE_CHECK goes first. -/
theorem exec_interruptTaken_mce {n : Nat} {l : List Nat} (hm : (s.part.thread t.val).mce = n :: l) :
    exec (.interruptTaken t) s = s.after s.part :=
  exec_run rfl (if_neg fun ⟨_, _, hempty, _⟩ => by rw [hm] at hempty; cases hempty)

theorem exec_machineCheckTaken {n : Nat} {l : List Nat} (hrun : (s.part.thread t.val).run = .running)
    (hb : (s.part.thread t.val).boundary = true) (hp : ¬ (t.val % 2 = 0 ∧ s.part.plumbEntering (t.val / 2) = true))
    (hm : (s.part.thread t.val).mce = n :: l) :
    exec (.machineCheckTaken t) s = s.after (((s.part.modThread t.val (fun x => { x with mce := l })).takeCause t.val 16 false
      (s.part.thread t.val).savedNow (Part.plumbFlush (t.val / 2))).tick t.val 6) := by
  refine exec_run rfl ((if_pos ⟨hrun, hb, hp⟩).trans ?_)
  rw [hm]

end

/-! ### Doorbells and timers -/

theorem Part.icPresent_iff (p : Part) (t : Nat) :
    p.icPresent t = true ↔ p.coreInSvc (t / 2) = true ∧ (p.thread t).run ≠ .inReset := by
  simp [Part.icPresent]

/-- A doorbell that its core takes, and one that is discarded and logged. -/
theorem Part.doorbell_taken {p : Part} {t data : Nat} (init : Nat) (hp : p.icPresent t = true) (hlt : data < 1024)
    (hd : ((p.icOf t).vecOf data).d = true) : p.doorbell t data 4 init = p.setPend t data true := by
  obtain ⟨hsvc, -⟩ := (p.icPresent_iff t).1 hp
  simp [Part.doorbell, hsvc, hp, hlt, Nat.mod_eq_of_lt hlt, hd]

theorem Part.doorbell_absent {p : Part} {t : Nat} (data size init : Nat) (hsvc : p.coreInSvc (t / 2) = false) :
    p.doorbell t data size init = p := by
  simp [Part.doorbell, hsvc]

theorem Part.doorbell_logged {p : Part} {t data size : Nat} (init : Nat) (hsvc : p.coreInSvc (t / 2) = true)
    (hbad : size ≠ 4 ∨ 1024 ≤ data ∨ p.icPresent t = false) :
    p.doorbell t data size init = p.rasLog (tileOfThread t) 0xFF 9 0 init 0 .unstated := by
  rcases hbad with h | h | h
  · simp [Part.doorbell, hsvc, h]
  · simp [Part.doorbell, hsvc, Nat.not_lt.2 h]
  · simp [Part.doorbell, hsvc, h]

/-- An armed timer of a core that is there fires. -/
theorem Part.timerFire_armed {p : Part} {t : Nat} {k : Timer} (hp : p.icPresent t = true)
    (harm : ((p.icOf t).get k.vecNum).getLsbD 63 = true) :
    let r := (p.icOf t).get k.vecNum
    let q := ({ p with time := max p.time ((p.icOf t).get k.cmpNum).toNat } : Part).modIc t
      (fun ic => ic.put k.vecNum (r &&& ~~~ dw (2 ^ 63)))
    p.timerFire t k =
      if k.view.reaches (r.toNat / 2 ^ 16 % 2 ^ 12) ((p.icOf t).vecOf (r.toNat % 1024)) then q.setPend t (r.toNat % 1024) true
      else q.modIc t (fun ic => ic.put (k.view.num 5) (ic.get (k.view.num 5) ||| 1)) :=
  if_neg (by simp only [harm, hp]; decide)

/-! ### IPIs -/

section
variable {w : Part} {m : Msg} {t vec : Nat}

/-- A controller that takes an IPI answers a sender in another socket (R158). -/
theorem Part.ipiTake_accepted (hp : w.icPresent t = true) :
    w.ipiTake m t vec true =
      if m.src.skt = (w.setPend t vec true).sktId then w.setPend t vec true
      else (w.setPend t vec true).send (m.ipiAnswer 0) := by
  unfold Part.ipiTake
  rw [if_pos (by rw [hp]; rfl)]
  exact ite_not ..

/-- A thread's IPI that its vector does not accept is rejected: its sender sees it (R158). -/
theorem Part.ipiTake_refused (hp : w.icPresent t = true) (hthread : m.bc = false) :
    w.ipiTake m t vec false =
      if m.src.skt = w.sktId then w.modIc m.addr (fun ic => ic.put m.status (ic.get m.status ||| 1))
      else w.send (m.ipiAnswer 2) := by
  obtain ⟨-, hrun⟩ := (w.icPresent_iff t).1 hp
  have hno : ¬ (w.coreInSvc (t / 2) = true ∧ (w.thread t).run = .inReset) := fun h => hrun h.2
  unfold Part.ipiTake
  rw [Bool.and_false, if_neg Bool.false_ne_true, if_neg hno]
  unfold Part.ipiReject
  rw [hthread]
  exact ite_not ..

/-- A unit's IPI to a core that is not in service is logged in the unit's tile (R159). -/
theorem Part.ipiTake_absent (hsvc : w.coreInSvc (t / 2) = false) (hunit : m.bc = true) (hsrc : m.src.skt = w.sktId) :
    w.ipiTake m t vec true = w.unitRejected m.src m.dst.skt m.aux m.op := by
  have hp : w.icPresent t = false := by simp [Part.icPresent, hsvc]
  have hno : ¬ (w.coreInSvc (t / 2) = true ∧ (w.thread t).run = .inReset) := by simp [hsvc]
  unfold Part.ipiTake
  rw [hp, Bool.false_and, if_neg Bool.false_ne_true, if_neg hno]
  unfold Part.ipiReject
  rw [if_neg (not_not_intro hsrc), if_pos hunit]

end

section
variable {p : Part} {m : Msg} {skt t vec : Nat}

/-- A thread's IPI to this socket whose message has landed meets its controller. -/
theorem Part.ipiArrive_landed (lvl : Level) (vm : Bool) (vmid : BitVec 12) (hskt : skt = p.sktId)
    (hfind : p.net.find? (fun m => decide (m.opc = .ipi) && !m.bc && decide (m.aux = t) && decide (m.op = vec)
      && decide (m.dst.skt = skt)) = some m) (hland : (p.fabTo m).landed m = true) :
    p.ipiArrive skt t vec lvl vm vmid =
      ((p.fabTo m).takeOut m).ipiTake m t vec (ipiAccepts ((p.icOf t).vecOf vec) m.sz m.plb m.vmid) := by
  unfold Part.ipiArrive
  rw [if_neg (not_not_intro hskt)]
  simp only [hfind, hland, if_true]

theorem Part.unitIpi_landed (hskt : skt = p.sktId)
    (hfind : p.net.find? (fun m => decide (m.opc = .ipi) && m.bc && decide (m.aux = t) && decide (m.op = vec)
      && decide (m.dst.skt = skt)) = some m) (hland : (p.fabTo m).landed m = true) :
    p.unitIpi skt t vec = ((p.fabTo m).takeOut m).ipiTake m t vec true := by
  unfold Part.unitIpi
  rw [if_neg (not_not_intro hskt)]
  simp only [hfind, hland, if_true]

end

/-! ### Claiming (R155) -/

/-- The larger of the candidate so far and the next one. -/
def laterVector (b : Option Nat) (e : Nat × IcVec) : Option Nat :=
  match b with
  | none => some e.1
  | some v => some (max v e.1)

/-- The largest number of a list is at least each of its numbers. -/
theorem le_of_foldl_laterVector (l : List (Nat × IcVec)) {b : Option Nat} {v : Nat} (h : l.foldl laterVector b = some v) :
    (∀ u, b = some u → u ≤ v) ∧ ∀ e ∈ l, e.1 ≤ v := by
  induction l generalizing b with
  | nil => exact ⟨fun u hu => Nat.le_of_eq (Option.some.inj (hu.symm.trans h)), fun e he => absurd he (List.not_mem_nil)⟩
  | cons e l ih =>
    obtain ⟨hb, hl⟩ := ih h
    have he : e.1 ≤ v ∧ ∀ u, b = some u → u ≤ v := by
      cases b with
      | none => exact ⟨hb _ rfl, fun u hu => by cases hu⟩
      | some w =>
        have hmax := hb _ rfl
        exact ⟨le_of_max_le_right hmax, fun u hu => by cases hu; exact le_of_max_le_left hmax⟩
    exact ⟨he.2, List.forall_mem_cons.2 ⟨he.1, hl⟩⟩

/-- No vector that the view may claim has a higher number than the one claimed. -/
theorem Ic.le_claimable {ic : Ic} {w : IcView} {vmid v u : Nat} {x : IcVec} (h : ic.claimable w vmid = some v)
    (hmem : (u, x) ∈ ic.vec) (hr : w.reaches vmid x = true) (hlv : x.lv = w.lv) (hen : x.en = true) (hpend : x.pend = true)
    (hthr : (ic.get (w.num 1)).toNat ≤ u) : u ≤ v := by
  refine (le_of_foldl_laterVector _ (b := none) (h : List.foldl laterVector none _ = some v)).2 (u, x) (List.mem_filter.2 ⟨hmem, ?_⟩)
  simp [hr, hlv, hen, hpend, hthr]

/-- Settles O20: each event's conditions select one of its cases; the claimed vector is a maximum. -/
theorem eventsAndVectors : Obligations.EventsAndVectors := by
  unfold Obligations.EventsAndVectors
  refine ⟨?taken, ?vectors, ?claim⟩
  case taken =>
    intro s t v n l hrun hb hp sv
    exact ⟨exec_interruptTaken hrun hb hp, fun _ => exec_interruptTaken_none,
      exec_interruptTaken_mce, exec_machineCheckTaken hrun hb hp⟩
  case vectors =>
    intro s t data size init k m skt vec lvl vm vmid p ic
    refine ⟨fun hsvc => exec_run rfl (Part.doorbell_absent _ _ _ hsvc), ?doorbell,
      fun hsvc hbad => exec_run rfl (Part.doorbell_logged _ hsvc hbad), ?timer, ?ipi, ?unit⟩
    case doorbell =>
      rintro hp rfl hlt hd
      exact exec_run rfl (Part.doorbell_taken _ hp hlt hd)
    case timer =>
      intro hp harm r v q
      exact ⟨fun hr => exec_run rfl ((Part.timerFire_armed hp harm).trans (if_pos hr)),
        fun hr => exec_run rfl ((Part.timerFire_armed hp harm).trans (if_neg (by rw [hr]; exact Bool.false_ne_true)))⟩
    case ipi =>
      intro hskt hfind hland w u
      have hsel := List.find?_some hfind
      simp only [Bool.and_eq_true, Bool.not_eq_true', decide_eq_true_eq] at hsel
      obtain ⟨⟨⟨⟨-, hthread⟩, -⟩, -⟩, -⟩ := hsel
      have harr := Part.ipiArrive_landed lvl vm vmid hskt hfind hland
      exact ⟨fun hp hacc => exec_run rfl (harr.trans ((congrArg (w.ipiTake m t.val vec.toNat) hacc).trans (Part.ipiTake_accepted hp))),
        fun hp hacc => exec_run rfl (harr.trans ((congrArg (w.ipiTake m t.val vec.toNat) hacc).trans (Part.ipiTake_refused hp hthread)))⟩
    case unit =>
      intro hskt hfind hland w u
      have hsel := List.find?_some hfind
      simp only [Bool.and_eq_true, decide_eq_true_eq] at hsel
      obtain ⟨⟨⟨⟨-, hunit⟩, haux⟩, hop⟩, hdst⟩ := hsel
      have harr := Part.unitIpi_landed hskt hfind hland
      refine ⟨fun hp => exec_run rfl (harr.trans (Part.ipiTake_accepted hp)),
        fun hsvc hsrc => exec_run rfl (harr.trans ((Part.ipiTake_absent hsvc hunit hsrc).trans ?_))⟩
      rw [haux, hop, hdst]
      rfl
  case claim =>
    intro p t w
    refine ⟨fun v hv => ⟨?_, fun u x hmem hr hlv hen hpend hthr => Ic.le_claimable hv hmem hr hlv hen hpend hthr⟩, fun hnone => ?_⟩
    · simp only [Part.icRead, hv, dw]
    · simp only [Part.icRead, hnone]

end Sys2Proof.Machine
end

section
/-!
PROOFS. Control registers: the access codes, what a write of an open register comes to, and the statements about
register writes (O21, O22).
-/
namespace Sys2Proof.Machine
open Sys2Proof
set_option Elab.async false

/-! ### Access codes -/

/-- A read-only field keeps its value. -/
theorem putFld_ro {p : Part} {m : Master} {f : Fld} {u i v : Nat} (ha : actionOnly f = false) (h : f.acc = .ro) :
    p.putFld m ⟨f, u, i⟩ v = p := by
  simp [Part.putFld, ha, h]

/-- A field that takes values takes the bits at its place. -/
theorem putFld_rw {p : Part} {m : Master} {f : Fld} {u i v : Nat} (ha : actionOnly f = false) (h : f.acc = .rw)
    (hr : f ≠ F.PERF_GCTL_RUN) : p.putFld m ⟨f, u, i⟩ v = p.setRg f (v / 2 ^ f.lo % 2 ^ f.width) u i := by
  simp [Part.putFld, ha, h, hr]

/-- A buffered field keeps the bits back. -/
theorem putFld_rwb {p : Part} {m : Master} {f : Fld} {u i v : Nat} (ha : actionOnly f = false) (h : f.acc = .rwb) :
    p.putFld m ⟨f, u, i⟩ v = { p with held := p.held.put (f.key u i) (v / 2 ^ f.lo % 2 ^ f.width) } := by
  simp [Part.putFld, ha, h]

/-- A field that ones clear loses the bits written 1. -/
theorem putFld_w1c {p : Part} {m : Master} {f : Fld} {u i v : Nat} (ha : actionOnly f = false) (h : f.acc = .w1c)
    (ho : f ≠ F.PERF_OVF_OVF) :
    p.putFld m ⟨f, u, i⟩ v = p.setRg f (p.rg f u i - (p.rg f u i &&& v / 2 ^ f.lo % 2 ^ f.width)) u i := by
  simp [Part.putFld, ha, h, ho]

/-- A command bit is not stored. -/
theorem putFld_w1s {p : Part} {m : Master} {f : Fld} {u i v : Nat} (ha : actionOnly f = false) (h : f.acc = .w1s)
    (hr : f ≠ F.PWR_TCTL_RST) (hc : f ≠ F.MC_ILVCTL_COMMIT) : p.putFld m ⟨f, u, i⟩ v = p := by
  simp [Part.putFld, ha, h, hr, hc]

/-- Settles O21: one equation of `putFld` for each access code. -/
theorem accessCodes : Obligations.AccessCodes := by
  intro p m f u i v ha
  exact ⟨putFld_ro ha, putFld_rw ha, putFld_rwb ha, putFld_w1c ha, putFld_w1s ha⟩

/-! ### A write of an open register -/

/-- What each hook of a page answers for: a write acts only by its own page's hook. -/
theorem regHook_tile {r p : Part} {m : Master} {b : Blk} {u w v : Nat} {l : List At}
    (h : b = .fab ∨ b = .perf ∨ b = .ras ∨ b = .pwr ∨ b = .clk) : r.regHook p m b u w v l = r.tileHook p b u w v l := by
  rcases h with rfl | rfl | rfl | rfl | rfl <;> rfl

theorem regHook_unit {r p : Part} {m : Master} {b : Blk} {u w v : Nat} {l : List At}
    (h : b ∈ [Blk.llc, .core, .mc, .var, .dvt, .pcig, .ep, .pcip, .iot, .ilv]) :
    r.regHook p m b u w v l = r.unitHook p m b u w v l := by
  simp only [List.mem_cons, List.not_mem_nil, or_false] at h
  rcases h with rfl | rfl | rfl | rfl | rfl | rfl | rfl | rfl | rfl | rfl <;> rfl

theorem regHook_net {r p : Part} {m : Master} {b : Blk} {u w v : Nat} {l : List At}
    (h : b = .netg ∨ b = .mac ∨ b = .key ∨ b = .ven) : r.regHook p m b u w v l = r.netHook p b u w v l := by
  rcases h with rfl | rfl | rfl | rfl <;> rfl

theorem regHook_easel {r p : Part} {m : Master} {b : Blk} {u w v : Nat} {l : List At}
    (h : b = .eas ∨ b = .prm ∨ b = .spwr ∨ b = .sclk ∨ b = .gperf) :
    r.regHook p m b u w v l = r.easelHook p m b w v l := by
  rcases h with rfl | rfl | rfl | rfl | rfl <;> rfl

/-- A write reaches the fields that its register answers with. -/
theorem wrote_map (l : List Fld) (u i : Nat) (f : Fld) : wrote (l.map (fun g => At.mk g u i)) f = decide (f ∈ l) := by
  induction l with
  | nil => rfl
  | cons g l ih =>
    have : wrote ((g :: l).map (fun g => At.mk g u i)) f = (decide (g = f) || wrote (l.map (fun g => At.mk g u i)) f) := rfl
    rw [this, ih, Bool.eq_iff_iff]
    simp only [Bool.or_eq_true, decide_eq_true_eq, List.mem_cons, @eq_comm _ g f]

theorem wroteOne_map (l : List Fld) (u i v : Nat) (f : Fld) :
    wroteOne (l.map (fun g => At.mk g u i)) v f = (decide (f ∈ l) && decide (v / 2 ^ f.lo % 2 ^ f.width ≠ 0)) := by
  rw [← wrote_map l u i f]
  unfold wroteOne wrote
  generalize decide (v / 2 ^ f.lo % 2 ^ f.width ≠ 0) = c
  induction l.map (fun g => At.mk g u i) with
  | nil => rfl
  | cons a l ih => rw [List.any_cons, List.any_cons, ih, Bool.and_or_distrib_right]

/-! ### Switched-off pages, parts of words, denied writes (O22) -/

/-- Word `j` of the sixteen of a line is the whole of what a write of 4 aligned bytes touches. -/
theorem touched_word (j : Nat) (hj : j < 16) :
    (List.range 16).filter (fun k => (byteMask (4 * k) 4 &&& byteMask (4 * j) 4) ≠ 0) = [j] ∧
    byteMask (4 * j) 4 &&& byteMask (4 * j) 4 = byteMask (4 * j) 4 := by
  revert j; decide +kernel

/-- A write of fewer than 4 bytes at a word's start touches that word, and not all of it. -/
theorem touched_part (j n : Nat) (hj : j < 16) (hn : n < 4) (h0 : n ≠ 0) :
    (List.range 16).filter (fun k => (byteMask (4 * k) 4 &&& byteMask (4 * j) n) ≠ 0) = [j] ∧
    byteMask (4 * j) 4 &&& byteMask (4 * j) n ≠ byteMask (4 * j) 4 := by
  have key : ∀ j < 16, ∀ n < 4, n ≠ 0 →
      (List.range 16).filter (fun k => (byteMask (4 * k) 4 &&& byteMask (4 * j) n) ≠ 0) = [j] ∧
      byteMask (4 * j) 4 &&& byteMask (4 * j) n ≠ byteMask (4 * j) 4 := by decide +kernel
  exact key j hj n hn h0

/-- The word that a 32-bit write places in its line is the value's low word. -/
theorem placed_word (v : Vec) (k : Nat) (hk : k < 16) : (v <<< (32 * k)).toNat / 2 ^ (32 * k) % 2 ^ 32 = v.toNat % 2 ^ 32 := by
  have h : (v <<< (32 * k)).toNat = v.toNat % 2 ^ (512 - 32 * k) * 2 ^ (32 * k) := by
    rw [BitVec.toNat_shiftLeft, Nat.shiftLeft_eq, ← Nat.pow_sub_mul_pow 2 (by omega : 32 * k ≤ 512),
      Nat.mul_mod_mul_right]
  rw [h, Nat.mul_div_cancel _ (Nat.pow_pos (by omega)), Nat.mod_mod_of_dvd _ (Nat.pow_dvd_pow 2 (by omega))]

/-- A write of one aligned word of a page that is no doorbell is a write of that register. -/
theorem ctlStore_word {p : Part} {m : Master} {pg : Pg} {off : Nat} {v : Vec} (h4 : off % 4 = 0)
    (hb : bellAt pg (off / 4 % 256) = none) :
    p.ctlStore m pg off 4 (v <<< (8 * (off % 64))) (byteMask (off % 64) 4) =
      p.ctlWrite m pg (off / 4 % 256) (v.toNat % 2 ^ 32) := by
  obtain ⟨j, hj⟩ : ∃ j, off % 64 = 4 * j := ⟨off % 64 / 4, by omega⟩
  have hj16 : j < 16 := by omega
  have hw : (off / 64 * 16 + j) % 256 = off / 4 % 256 := by omega
  obtain ⟨ht, hm⟩ := touched_word j hj16
  have hv := placed_word v j hj16
  simp only [Part.ctlStore, hj, ht, hm, hw, hb, List.filterMap_cons, List.filterMap_nil, Option.map_none, List.foldl_cons,
    List.foldl_nil, if_true, show 8 * (4 * j) = 32 * j by omega, hv]

/-- A write of part of a register that answers is denied. -/
theorem ctlStore_part {p : Part} {m : Master} {pg : Pg} {off n : Nat} {v : Vec} (h4 : off % 4 = 0)
    (hn : n < 4) (h0 : n ≠ 0) (hb : bellAt pg (off / 4 % 256) = none) (ha : p.answering pg (off / 4 % 256) ≠ []) :
    p.ctlStore m pg off n (v <<< (8 * (off % 64))) (byteMask (off % 64) n) = p.denied m pg (off / 4 % 256) true := by
  obtain ⟨j, hj⟩ : ∃ j, off % 64 = 4 * j := ⟨off % 64 / 4, by omega⟩
  have hj16 : j < 16 := by omega
  have hw : (off / 64 * 16 + j) % 256 = off / 4 % 256 := by omega
  obtain ⟨ht, hm⟩ := touched_part j n hj16 hn h0
  have he : (p.answering pg (off / 4 % 256)).isEmpty = false := by simpa using ha
  simp only [Part.ctlStore, hj, ht, hm, hw, hb, List.filterMap_cons, List.filterMap_nil, Option.map_none, List.foldl_cons,
    List.foldl_nil, if_false, he, Bool.false_eq_true]

/-- REGISTER_WRITE of an aligned piece of a page that is not switched off is a store to the page. -/
theorem regWrite_store {p : Part} {m : Master} {tile page off n : Nat} {v : Vec} (ho : off < 4096) (h4 : off % 4 = 0)
    (hn : n ≤ 4) (hp : p.pageOff ⟨tile, page⟩ = false) :
    Part.regWrite tile page off n v m p =
      p.ctlStore m ⟨tile, page⟩ off n (v <<< (8 * (off % 64))) (byteMask (off % 64) n) := by
  have hc : ¬ (off % 4096 + n > 4096 ∨ off % 64 + n > 64 ∨ p.pageOff ⟨tile, page⟩ = true) := by
    rw [hp]; simp only [Bool.false_eq_true, or_false]; omega
  rw [Part.regWrite, if_neg hc, Nat.mod_eq_of_lt ho]

/-- A write that is not F's to a register of FO fields is denied and reaches no field. -/
theorem regPut_fo {p : Part} {m : Master} {f : Fld} {u i : Nat} {v : BitVec 32} {l : List Fld} (h : p.opens f u i l) (hm : m.top = false)
    (hf : ∀ g ∈ l, g.fo = true) (hn : l ≠ []) :
    p.regPut m f u i v = p.denied m (f.blk.place u) (f.word i) false := by
  obtain ⟨hp, ha⟩ := h
  have hany : (l.map (fun g => At.mk g u i)).any (fun a => a.f.fo) = true := by
    obtain ⟨g, hg⟩ := List.exists_mem_of_ne_nil l hn
    exact List.any_eq_true.mpr ⟨⟨g, u, i⟩, List.mem_map_of_mem hg, hf g hg⟩
  have hfil : (l.map (fun g => At.mk g u i)).filter (fun a => m.top || !a.f.fo) = [] := by
    rw [List.filter_eq_nil_iff]
    intro a ha'
    obtain ⟨g, hg, rfl⟩ := List.mem_map.mp ha'
    simp [hm, hf g hg]
  simp only [Part.regPut, hp, ha, Part.ctlWrite, hfil, Bool.false_eq_true, if_false]
  simp only [hm, hany, Bool.not_false, Bool.and_self, if_true]
  rfl

/-- The registers of socket-wide power and clocks answer always. -/
theorem opens_pwrPl (p : Part) : p.opens F.PWR_PL_W 0 0 [F.PWR_PL_W] := ⟨rfl, rfl⟩
theorem opens_pwrBoff (p : Part) : p.opens F.PWR_BOFF_OFF 0 0 [F.PWR_BOFF_OFF] := ⟨rfl, rfl⟩
theorem opens_clkAllcore (p : Part) : p.opens F.CLK_ALLCORE_FMAX 0 0 [F.CLK_ALLCORE_FMAX, F.CLK_ALLCORE_FMIN] := ⟨rfl, rfl⟩

/-- Settles O22: REGISTER_WRITE by what it touches, and the FO check of four registers. -/
theorem registerWrites : Obligations.RegisterWrites := by
  refine ⟨fun s tile page off size v m => ⟨?off, ?word, ?part⟩, fun s c v b x y m hm => ⟨fun h => ?plumb, ?pl, ?boff, ?clk⟩⟩
  case off =>
    intro hp
    have hc : off.toNat % 4096 + size > 4096 ∨ off.toNat % 64 + size > 64 ∨ s.part.pageOff ⟨tile.val, page.toNat⟩ = true :=
      .inr (.inr hp)
    exact exec_run rfl (if_pos hc)
  case word =>
    intro hp hs h4 hb
    subst hs
    exact exec_run rfl ((regWrite_store off.isLt h4 (Nat.le_refl 4) hp).trans (ctlStore_word h4 hb))
  case part =>
    intro hp hs h4 h0 hb ha
    exact exec_run rfl ((regWrite_store off.isLt h4 (Nat.le_of_lt hs) hp).trans (ctlStore_part h4 hs h0 hb ha))
  case plumb => exact exec_run rfl (regPut_fo h hm (by decide) (by decide))
  case pl => exact exec_run rfl (regPut_fo (opens_pwrPl s.part) hm (by decide) (by decide))
  case boff => exact exec_run rfl (regPut_fo (opens_pwrBoff s.part) hm (by decide) (by decide))
  case clk => exact exec_run rfl (regPut_fo (opens_clkAllcore s.part) hm (by decide) (by decide))

end Sys2Proof.Machine
end

section
/-!
PROOFS. Registers of cores and of power: the refutation of O23.
-/
namespace Sys2Proof.Machine
open Sys2Proof
set_option Elab.async false

/-- The part after reset, but with a stored value in PWR_C0.IDLET that its 16 bits do not hold. -/
def wideIdlet : Part :=
  { Part.reset with ctl := Part.reset.ctl.put (F.PWR_C_IDLET.key 0 0) (2 ^ 16) }

def wideIdletState : State := { pending := [], part := wideIdlet }

theorem wideIdlet_opens : wideIdlet.opens F.PWR_C_MODE 0 0 [F.PWR_C_RST, F.PWR_C_MODE, F.PWR_C_IDLET] := by
  unfold Part.opens; decide +kernel

/-- What PWR_C0.MODE reads after a command. -/
def modeAfter (o : Host.Outcome State Fault Refusal) : Option Nat :=
  match o with
  | .next s => some (s.part.rg F.PWR_C_MODE 0 0)
  | _ => none

/-- Refutes O23: its clause on a core's reset speaks of every stored value, also one wider than its field. With
PWR_C0.IDLET stored as 2^16, the word that CORE_RESET writes back (RST, MODE and IDLET as they are) carries into MODE,
which goes from 1 to 2, while the statement keeps it at 1. -/
theorem not_coreAndPowerWrites : ¬ Obligations.CoreAndPowerWrites := by
  unfold Obligations.CoreAndPowerWrites
  intro h
  obtain ⟨-, -, -, hmode, -⟩ := h wideIdletState 0 0 0 false 0 0 0 0 0 ⟨false, .f, 0, 0, 0, false⟩ rfl
  have hreset := (hmode wideIdlet_opens).2 rfl
  exact absurd (congrArg modeAfter hreset) (by decide +kernel)

end Sys2Proof.Machine
end

section
/-!
PROOFS. The registers of slices, fabric, memory, links and ports (O24).
-/
namespace Sys2Proof.Machine
open Sys2Proof
set_option Elab.async false

/-! ### Fields of a written word -/

/-- Reading back the field that was put, when the value fits. -/
theorem setRg_rg_fits {p : Part} {f : Fld} {v u i : Nat} (h : v < 2 ^ f.width) : (p.setRg f v u i).rg f u i = v := by
  rw [Part.setRg_rg_self, Nat.mod_eq_of_lt h]

/-- A put leaves a field of another lowest bit alone. -/
theorem setRg_rg_of_lo_ne {p : Part} {f g : Fld} {v u i x y : Nat} (hf : f.lo < 32) (hg : g.lo < 32) (h : g.lo ≠ f.lo) :
    (p.setRg f v u i).rg g x y = p.rg g x y := by
  refine Part.setRg_rg_other _ f g v u i x y ?_
  unfold Fld.key fldKey
  omega

/-- A one-bit field that took a Boolean is on when that was true. -/
theorem setRg_rgOn_toNat {p : Part} {f : Fld} {b : Bool} {u i : Nat} (h : f.width = 1) :
    (p.setRg f b.toNat u i).rgOn f u i = b := by
  rw [Part.rgOn, Part.setRg_rg_self, h]
  cases b <;> rfl

/-- A one-bit field that took its own value is on when it was. -/
theorem setRg_rgOn_rg {p q : Part} {f : Fld} {u i : Nat} (h : f.width = 1) :
    (q.setRg f (p.rg f u i) u i).rgOn f u i = p.rgOn f u i := by
  rw [Part.rgOn, Part.rgOn, Part.setRg_rg_self, h]
  simp

/-- A write sets a bit of a field that it reaches when the word's bits there are not all zero, and none when they are. -/
theorem wroteOne_of_bits {l : List Fld} {u i n : Nat} {f : Fld} (hm : f ∈ l) (h : n / 2 ^ f.lo % 2 ^ f.width ≠ 0) :
    wroteOne (l.map (fun g => At.mk g u i)) n f = true := by
  rw [wroteOne_map, decide_eq_true hm, decide_eq_true h]; rfl

theorem wroteOne_of_no_bits {l : List Fld} {u i n : Nat} {f : Fld} (h : n / 2 ^ f.lo % 2 ^ f.width = 0) :
    wroteOne (l.map (fun g => At.mk g u i)) n f = false := by
  rw [wroteOne_map, decide_eq_false (not_not_intro h), Bool.and_false]

/-- The fields of one register of a page without checks of its own. -/
def ownPage (f : Fld) (l : List Fld) : Prop :=
  l ≠ [] ∧ f.blk ≠ .perf ∧ f.blk ≠ .gperf ∧ f.blk ≠ .ven ∧ ∀ g ∈ l, g.blk = f.blk ∧ g ≠ F.VEN_BW_EN

/-- A write of an open register: the fields take the word, which leaves `q`, and the page's action on `q` leaves `r`. -/
theorem regPut_open {p q r : Part} {m : Master} {f : Fld} {u i n : Nat} {v : BitVec 32} {l : List Fld} (h : p.opens f u i l)
    (hs : ownPage f l) (hf : m.top = true ∨ ∀ g ∈ l, g.fo = false) (hv : v.toNat = n)
    (hq : l.foldl (fun (r : Part) (g : Fld) => r.putFld m ⟨g, u, i⟩ n) p = q)
    (hr : q.regHook p m f.blk u (f.word i) n (l.map (fun g => At.mk g u i)) = r) : p.regPut m f u i v = r := by
  obtain ⟨hn, h1, h2, h3, hl⟩ := hs
  rw [ctl_open h v hf (fun g hg => (hl g hg).1) hn h1 h2 h3 (fun g hg => (hl g hg).2), hv, hq, hr]

/-! ### Slices -/

/-- A write of LLC_WAYPWR switches the way groups. -/
theorem llcWaypwrWrite_open {p : Part} {m : Master} {k : Nat} {on : BitVec 4} (hm : m.top = true)
    (h : p.opens F.LLC_WAYPWR_ON k 0 [F.LLC_WAYPWR_ON]) :
    Part.llcWaypwrWrite k on m p = (p.takes k 0 [(F.LLC_WAYPWR_ON, on.toNat)]).llcWaypwr k (p.rg F.LLC_WAYPWR_ON k) on.toNat := by
  have hon : on.toNat < 2 ^ F.LLC_WAYPWR_ON.width := on.isLt
  have hb : on.toNat / 2 ^ F.LLC_WAYPWR_ON.lo % 2 ^ F.LLC_WAYPWR_ON.width = on.toNat := by
    rw [show F.LLC_WAYPWR_ON.lo = 0 from rfl, Nat.pow_zero, Nat.div_one, Nat.mod_eq_of_lt hon]
  refine regPut_open h (by unfold ownPage; decide) (.inl hm) (n := on.toNat) (BitVec.toNat_setWidth_of_le (by decide))
    (q := p.takes k 0 [(F.LLC_WAYPWR_ON, on.toNat)]) ?_ ?_
  · simp (disch := decide) only [List.foldl_cons, List.foldl_nil, putFld_rw, hb]
    rfl
  · exact congrArg (Part.llcWaypwr _ k _) (setRg_rg_fits hon)

/-- LLC_MAINT with GO stores GROUPS and OP and starts the sweep. -/
theorem llcMaintWrite_open {p : Part} {m : Master} {k op : Nat} {groups : BitVec 4} (hop : op < 2)
    (h : p.opens F.LLC_MAINT_GO k 0 [F.LLC_MAINT_GO, F.LLC_MAINT_GROUPS, F.LLC_MAINT_OP]) :
    Part.llcMaintWrite op k groups m p =
      (p.takes k 0 [(F.LLC_MAINT_GROUPS, groups.toNat), (F.LLC_MAINT_OP, op)]).llcMaint k := by
  have hg := groups.isLt
  have hgo : (2 ^ 31 + groups.toNat * 2 ^ 4 + op) / 2 ^ F.LLC_MAINT_GO.lo % 2 ^ F.LLC_MAINT_GO.width ≠ 0 := by
    show (2 ^ 31 + groups.toNat * 2 ^ 4 + op) / 2 ^ 31 % 2 ^ 1 ≠ 0
    omega
  have hgr : (2 ^ 31 + groups.toNat * 2 ^ 4 + op) / 2 ^ F.LLC_MAINT_GROUPS.lo % 2 ^ F.LLC_MAINT_GROUPS.width = groups.toNat := by
    show (2 ^ 31 + groups.toNat * 2 ^ 4 + op) / 2 ^ 4 % 2 ^ 4 = groups.toNat
    omega
  have ho : (2 ^ 31 + groups.toNat * 2 ^ 4 + op) / 2 ^ F.LLC_MAINT_OP.lo % 2 ^ F.LLC_MAINT_OP.width = op := by
    show (2 ^ 31 + groups.toNat * 2 ^ 4 + op) / 2 ^ 0 % 2 ^ 2 = op
    omega
  refine regPut_open h (by unfold ownPage; decide) (.inr (by decide)) (n := 2 ^ 31 + groups.toNat * 2 ^ 4 + op) ?_
    (q := p.takes k 0 [(F.LLC_MAINT_GROUPS, groups.toNat), (F.LLC_MAINT_OP, op)]) ?_ ?_
  · rw [BitVec.toNat_ofNat]; omega
  · simp (disch := decide) only [List.foldl_cons, List.foldl_nil, putFld_w1s, putFld_rw, hgr, ho]
    rfl
  · exact if_pos (wroteOne_of_bits (by decide) hgo)

/-- The sweep that GO asks for starts, unless one runs (R242). -/
theorem llcMaint_takes {p q : Part} {k op gs : Nat} (hop : op < 2)
    (hq : q = p.takes k 0 [(F.LLC_MAINT_GROUPS, gs), (F.LLC_MAINT_OP, op)]) :
    (q.rgOn F.LLC_MSTAT_BUSY k = true → q.llcMaint k = q.setRg F.LLC_MSTAT_REJ 1 k) ∧
    (q.rgOn F.LLC_MSTAT_BUSY k = false → q.llcMaint k = (q.setRg F.LLC_MSTAT_BUSY 1 k).modSlice k
      (fun x => { x with sweep := some ⟨decide (op = 1), q.rg F.LLC_MAINT_GROUPS k⟩ })) := by
  have ho : q.rg F.LLC_MAINT_OP k = op := by
    rw [hq]; exact setRg_rg_fits (Nat.lt_trans hop (by decide : 2 < 2 ^ F.LLC_MAINT_OP.width))
  constructor <;> intro hb <;> rw [Part.llcMaint]
  · exact if_pos (.inl hb)
  · have hn : ¬ (q.rgOn F.LLC_MSTAT_BUSY k = true ∨ q.rg F.LLC_MAINT_OP k ≥ 2) := by
      rw [hb, ho]
      exact not_or.mpr ⟨Bool.false_ne_true, Nat.not_le.mpr hop⟩
    refine (if_neg hn).trans ?_
    rw [ho]

/-! ### Fabric, memory, Varnish -/

/-- FAB_STATSTAT with CLR stores FREEZE, keeps OVF, and clears the tile's statistics. -/
theorem fabStatClr_open {p : Part} {m : Master} {t : Nat} {freeze : Bool}
    (h : p.opens F.FAB_STATSTAT_CLR t 0 [F.FAB_STATSTAT_CLR, F.FAB_STATSTAT_FREEZE, F.FAB_STATSTAT_OVF]) :
    Part.fabStatClr t freeze m p = ((p.takes t 0 [(F.FAB_STATSTAT_FREEZE, freeze.toNat)]).setRg
      F.FAB_STATSTAT_OVF (p.rg F.FAB_STATSTAT_OVF t) t).fabStatClear t := by
  have hz := freeze.toNat_lt
  have hclr : (2 ^ 31 + freeze.toNat * 2 ^ 30) / 2 ^ F.FAB_STATSTAT_CLR.lo % 2 ^ F.FAB_STATSTAT_CLR.width ≠ 0 := by
    show (2 ^ 31 + freeze.toNat * 2 ^ 30) / 2 ^ 31 % 2 ^ 1 ≠ 0
    omega
  have hfr : (2 ^ 31 + freeze.toNat * 2 ^ 30) / 2 ^ F.FAB_STATSTAT_FREEZE.lo % 2 ^ F.FAB_STATSTAT_FREEZE.width = freeze.toNat := by
    show (2 ^ 31 + freeze.toNat * 2 ^ 30) / 2 ^ 30 % 2 ^ 1 = freeze.toNat
    omega
  have hov : (2 ^ 31 + freeze.toNat * 2 ^ 30) / 2 ^ F.FAB_STATSTAT_OVF.lo % 2 ^ F.FAB_STATSTAT_OVF.width = 0 := by
    show (2 ^ 31 + freeze.toNat * 2 ^ 30) / 2 ^ 0 % 2 ^ 1 = 0
    omega
  refine regPut_open h (by unfold ownPage; decide) (.inr (by decide)) (n := 2 ^ 31 + freeze.toNat * 2 ^ 30) ?_
    (q := (p.takes t 0 [(F.FAB_STATSTAT_FREEZE, freeze.toNat)]).setRg F.FAB_STATSTAT_OVF (p.rg F.FAB_STATSTAT_OVF t) t) ?_ ?_
  · rw [BitVec.toNat_ofNat]; omega
  · simp (disch := decide) only [List.foldl_cons, List.foldl_nil, putFld_w1s, putFld_rw, putFld_w1c, hfr, hov, Nat.and_zero,
      Nat.sub_zero, setRg_rg_of_lo_ne]
    rfl
  · exact if_pos (wroteOne_of_bits (by decide) hclr)

/-- MC_ILVCTL.COMMIT stays set until the table is taken. -/
theorem ilvCommit_open {p : Part} {m : Master} (hm : m.top = true) (h : p.opens F.MC_ILVCTL_COMMIT 0 0 [F.MC_ILVCTL_COMMIT]) :
    Part.ilvCommit m p = p.setRg F.MC_ILVCTL_COMMIT 1 :=
  regPut_open h (by unfold ownPage; decide) (.inl hm) (n := 1) rfl rfl rfl

/-- VAR_CTL arms or disarms the flush. -/
theorem varCtlWrite_open {p : Part} {m : Master} {i : Nat} {arm : Bool} (hm : m.top = true)
    (h : p.opens F.VAR_CTL_ARM i 0 [F.VAR_CTL_ARM]) : Part.varCtlWrite i arm m p = p.varCtl i arm := by
  refine regPut_open h (by unfold ownPage; decide) (.inl hm) (n := arm.toNat * 2 ^ 31) ?_ (q := p) rfl ?_
  · cases arm <;> rfl
  · cases arm <;> rfl

/-! ### Links -/

/-- A write of DVT_CTL stores MAXW and EN. -/
theorem dvtCtl_fields {p : Part} {m : Master} {d w e top : Nat} (hw : w < 4) (he : e < 2) (ht : top = 0 ∨ top = 2 ^ 31) :
    [F.DVT_CTL_RETRAIN, F.DVT_CTL_MAXW, F.DVT_CTL_EN].foldl (fun (r : Part) (g : Fld) => r.putFld m ⟨g, d, 0⟩ (top + w * 2 + e)) p =
      p.takes d 0 [(F.DVT_CTL_MAXW, w), (F.DVT_CTL_EN, e)] := by
  have hmw : (top + w * 2 + e) / 2 ^ F.DVT_CTL_MAXW.lo % 2 ^ F.DVT_CTL_MAXW.width = w := by
    show (top + w * 2 + e) / 2 ^ 1 % 2 ^ 2 = w
    omega
  have hen : (top + w * 2 + e) / 2 ^ F.DVT_CTL_EN.lo % 2 ^ F.DVT_CTL_EN.width = e := by
    show (top + w * 2 + e) / 2 ^ 0 % 2 ^ 1 = e
    omega
  simp (disch := decide) only [List.foldl_cons, List.foldl_nil, putFld_w1s, putFld_rw, hmw, hen]
  rfl

/-- RETRAIN retrains the link, whose EN keeps its value. -/
theorem dvtCtlRetrain_open {p : Part} {m : Master} {d : Nat}
    (h : p.opens F.DVT_CTL_EN d 0 [F.DVT_CTL_RETRAIN, F.DVT_CTL_MAXW, F.DVT_CTL_EN])
    (hw : p.rg F.DVT_CTL_MAXW d < 4) (he : p.rg F.DVT_CTL_EN d < 2) :
    Part.dvtCtlRetrain d m p =
      (p.takes d 0 [(F.DVT_CTL_MAXW, p.rg F.DVT_CTL_MAXW d), (F.DVT_CTL_EN, p.rg F.DVT_CTL_EN d)]).dvtRetrain d := by
  have h' : p.opens F.DVT_CTL_RETRAIN d 0 [F.DVT_CTL_RETRAIN, F.DVT_CTL_MAXW, F.DVT_CTL_EN] := h
  refine regPut_open h' (by unfold ownPage; decide) (.inr (by decide)) (n := 2 ^ 31 + p.rg F.DVT_CTL_MAXW d * 2 + p.rg F.DVT_CTL_EN d) ?_
    (dvtCtl_fields hw he (.inr rfl)) ?_
  · rw [BitVec.toNat_ofNat]; omega
  · have hgo : (2 ^ 31 + p.rg F.DVT_CTL_MAXW d * 2 + p.rg F.DVT_CTL_EN d) / 2 ^ F.DVT_CTL_RETRAIN.lo % 2 ^ F.DVT_CTL_RETRAIN.width ≠ 0 := by
      show (2 ^ 31 + p.rg F.DVT_CTL_MAXW d * 2 + p.rg F.DVT_CTL_EN d) / 2 ^ 31 % 2 ^ 1 ≠ 0
      omega
    refine (if_pos (wroteOne_of_bits (by decide) hgo)).trans ?_
    exact congrArg (Part.dvtRetrain · d) (if_pos (setRg_rgOn_rg rfl).symm)

/-- A write of EN enables or disables the link. -/
theorem dvtCtlEn_open {p : Part} {m : Master} {d : Nat} {en : Bool}
    (h : p.opens F.DVT_CTL_EN d 0 [F.DVT_CTL_RETRAIN, F.DVT_CTL_MAXW, F.DVT_CTL_EN]) (hw : p.rg F.DVT_CTL_MAXW d < 4) :
    Part.dvtCtlEn d en m p = (p.takes d 0 [(F.DVT_CTL_MAXW, p.rg F.DVT_CTL_MAXW d), (F.DVT_CTL_EN, en.toNat)]).dvtEnable d
      (p.rgOn F.DVT_CTL_EN d) en := by
  have he := en.toNat_lt
  refine regPut_open h (by unfold ownPage; decide) (.inr (by decide)) (n := 0 + p.rg F.DVT_CTL_MAXW d * 2 + en.toNat) ?_
    (dvtCtl_fields hw he (.inl rfl)) ?_
  · rw [BitVec.toNat_ofNat]; omega
  · have hgo : (0 + p.rg F.DVT_CTL_MAXW d * 2 + en.toNat) / 2 ^ F.DVT_CTL_RETRAIN.lo % 2 ^ F.DVT_CTL_RETRAIN.width = 0 := by
      show (0 + p.rg F.DVT_CTL_MAXW d * 2 + en.toNat) / 2 ^ 31 % 2 ^ 1 = 0
      omega
    refine (if_neg (Bool.eq_false_iff.mp (wroteOne_of_no_bits hgo))).trans ?_
    exact congrArg (Part.dvtEnable _ d (p.rgOn F.DVT_CTL_EN d)) (setRg_rgOn_toNat rfl)

/-! ### Ports, lane groups, the endpoint -/

/-- A write of PCI_PORT_CTL stores MAXSPEED, ECRC and EN. -/
theorem portCtl_fields {p : Part} {m : Master} {n top sp ec e : Nat} (hs : sp < 4) (hc : ec < 2) (he : e < 2)
    (ht : top = 0 ∨ top = 2 ^ 30 ∨ top = 2 ^ 31) :
    [F.PCI_PORT_CTL_RELEASE, F.PCI_PORT_CTL_RETRAIN, F.PCI_PORT_CTL_MAXSPEED, F.PCI_PORT_CTL_ECRC, F.PCI_PORT_CTL_EN].foldl
        (fun (r : Part) (g : Fld) => r.putFld m ⟨g, n, 0⟩ (top + sp * 4 + ec * 2 + e)) p =
      p.takes n 0 [(F.PCI_PORT_CTL_MAXSPEED, sp), (F.PCI_PORT_CTL_ECRC, ec), (F.PCI_PORT_CTL_EN, e)] := by
  have h1 : (top + sp * 4 + ec * 2 + e) / 2 ^ F.PCI_PORT_CTL_MAXSPEED.lo % 2 ^ F.PCI_PORT_CTL_MAXSPEED.width = sp := by
    show (top + sp * 4 + ec * 2 + e) / 2 ^ 2 % 2 ^ 2 = sp
    omega
  have h2 : (top + sp * 4 + ec * 2 + e) / 2 ^ F.PCI_PORT_CTL_ECRC.lo % 2 ^ F.PCI_PORT_CTL_ECRC.width = ec := by
    show (top + sp * 4 + ec * 2 + e) / 2 ^ 1 % 2 ^ 1 = ec
    omega
  have h3 : (top + sp * 4 + ec * 2 + e) / 2 ^ F.PCI_PORT_CTL_EN.lo % 2 ^ F.PCI_PORT_CTL_EN.width = e := by
    show (top + sp * 4 + ec * 2 + e) / 2 ^ 0 % 2 ^ 1 = e
    omega
  simp (disch := decide) only [List.foldl_cons, List.foldl_nil, putFld_w1s, putFld_rw, h1, h2, h3]
  rfl

/-- A release of a port keeps its EN. -/
theorem portRelease_rgOn_en (p : Part) (n : Nat) : (p.portRelease n).rgOn F.PCI_PORT_CTL_EN n = p.rgOn F.PCI_PORT_CTL_EN n := by
  have other : ∀ (q : Part) (f : Fld) (v : Nat), f.blk = .pcip → f.word 0 ≠ F.PCI_PORT_CTL_EN.word 0 → f.lo < 32 →
      (q.setRg f v n).rgOn F.PCI_PORT_CTL_EN n = q.rgOn F.PCI_PORT_CTL_EN n := by
    intro q f v hb hw hl
    have hk : F.PCI_PORT_CTL_EN.key n 0 ≠ f.key n 0 := by
      unfold Fld.key
      rw [hb]
      have : F.PCI_PORT_CTL_EN.lo = 0 := rfl
      unfold fldKey
      have hblk : F.PCI_PORT_CTL_EN.blk = .pcip := rfl
      rw [hblk]
      omega
    rw [Part.rgOn, Part.rgOn, Part.setRg_rg_other _ f F.PCI_PORT_CTL_EN v n 0 n 0 hk]
  unfold Part.portRelease Part.setPortState
  split
  · rfl
  · rw [other _ _ _ rfl (by decide) (by decide), other _ _ _ rfl (by decide) (by decide)]

section
variable {p : Part} {m : Master} {n : Nat}
  (h : p.opens F.PCI_PORT_CTL_EN n 0 [F.PCI_PORT_CTL_RELEASE, F.PCI_PORT_CTL_RETRAIN, F.PCI_PORT_CTL_MAXSPEED,
    F.PCI_PORT_CTL_ECRC, F.PCI_PORT_CTL_EN])
  (hs : p.rg F.PCI_PORT_CTL_MAXSPEED n < 4) (hc : p.rg F.PCI_PORT_CTL_ECRC n < 2)
include h hs hc

/-- A write of PCI_PORT_CTL stores its fields, releases the port, takes EN and retrains the link, each when asked. -/
theorem portCtl_open {top e : Nat} (he : e < 2) (ht : top = 0 ∨ top = 2 ^ 30 ∨ top = 2 ^ 31) :
    Part.portCtl n top e m p =
      let q := p.takes n 0 [(F.PCI_PORT_CTL_MAXSPEED, p.rg F.PCI_PORT_CTL_MAXSPEED n), (F.PCI_PORT_CTL_ECRC, p.rg F.PCI_PORT_CTL_ECRC n),
        (F.PCI_PORT_CTL_EN, e)]
      let r := if top = 2 ^ 31 then q.portRelease n else q
      let r := r.portEnable n (p.rgOn F.PCI_PORT_CTL_EN n) (q.rgOn F.PCI_PORT_CTL_EN n)
      if top = 2 ^ 30 then r.portRetrain n else r := by
  refine regPut_open h (by unfold ownPage; decide) (.inr (by decide))
    (n := top + p.rg F.PCI_PORT_CTL_MAXSPEED n * 4 + p.rg F.PCI_PORT_CTL_ECRC n * 2 + e) ?_ (portCtl_fields hs hc he ht) ?_
  · rw [BitVec.toNat_ofNat]; omega
  · let n0 := top + p.rg F.PCI_PORT_CTL_MAXSPEED n * 4 + p.rg F.PCI_PORT_CTL_ECRC n * 2 + e
    have e1 : wroteOne ([F.PCI_PORT_CTL_RELEASE, F.PCI_PORT_CTL_RETRAIN, F.PCI_PORT_CTL_MAXSPEED, F.PCI_PORT_CTL_ECRC,
        F.PCI_PORT_CTL_EN].map (fun g => At.mk g n 0)) n0 F.PCI_PORT_CTL_RELEASE = decide (top = 2 ^ 31) := by
      rw [wroteOne_map, Bool.eq_iff_iff]
      show (true && decide (n0 / 2 ^ 31 % 2 ^ 1 ≠ 0)) = true ↔ _
      simp only [Bool.true_and, decide_eq_true_eq, n0]
      omega
    have e2 : wroteOne ([F.PCI_PORT_CTL_RELEASE, F.PCI_PORT_CTL_RETRAIN, F.PCI_PORT_CTL_MAXSPEED, F.PCI_PORT_CTL_ECRC,
        F.PCI_PORT_CTL_EN].map (fun g => At.mk g n 0)) n0 F.PCI_PORT_CTL_RETRAIN = decide (top = 2 ^ 30) := by
      rw [wroteOne_map, Bool.eq_iff_iff]
      show (true && decide (n0 / 2 ^ 30 % 2 ^ 1 ≠ 0)) = true ↔ _
      simp only [Bool.true_and, decide_eq_true_eq, n0]
      omega
    refine (regHook_unit (by decide)).trans ?_
    have hook (q : Part) : q.unitHook p m .pcip n (F.PCI_PORT_CTL_EN.word 0) n0 ([F.PCI_PORT_CTL_RELEASE, F.PCI_PORT_CTL_RETRAIN,
        F.PCI_PORT_CTL_MAXSPEED, F.PCI_PORT_CTL_ECRC, F.PCI_PORT_CTL_EN].map (fun g => At.mk g n 0)) =
        let r := if decide (top = 2 ^ 31) = true then q.portRelease n else q
        let r' := r.portEnable n (p.rgOn F.PCI_PORT_CTL_EN n) (r.rgOn F.PCI_PORT_CTL_EN n)
        if decide (top = 2 ^ 30) = true then r'.portRetrain n else r' := by
      rw [← e1, ← e2]
      rfl
    refine (hook _).trans ?_
    have keep (q : Part) : (if decide (top = 2 ^ 31) = true then q.portRelease n else q).rgOn F.PCI_PORT_CTL_EN n =
        q.rgOn F.PCI_PORT_CTL_EN n := by
      split
      · exact portRelease_rgOn_en q n
      · rfl
    simp only [keep]
    simp only [decide_eq_true_eq]

/-- RELEASE and RETRAIN keep EN and do what they say; a write of EN enables or disables the port. -/
theorem portReleaseWrite_open (he : p.rg F.PCI_PORT_CTL_EN n < 2) :
    Part.portReleaseWrite n m p = (p.takes n 0 [(F.PCI_PORT_CTL_MAXSPEED, p.rg F.PCI_PORT_CTL_MAXSPEED n),
      (F.PCI_PORT_CTL_ECRC, p.rg F.PCI_PORT_CTL_ECRC n), (F.PCI_PORT_CTL_EN, p.rg F.PCI_PORT_CTL_EN n)]).portRelease n := by
  refine (portCtl_open h hs hc he (.inr (.inr rfl))).trans ?_
  exact if_pos (Or.inr (setRg_rgOn_rg rfl).symm)

theorem portRetrainWrite_open (he : p.rg F.PCI_PORT_CTL_EN n < 2) :
    Part.portRetrainWrite n m p = (p.takes n 0 [(F.PCI_PORT_CTL_MAXSPEED, p.rg F.PCI_PORT_CTL_MAXSPEED n),
      (F.PCI_PORT_CTL_ECRC, p.rg F.PCI_PORT_CTL_ECRC n), (F.PCI_PORT_CTL_EN, p.rg F.PCI_PORT_CTL_EN n)]).portRetrain n := by
  refine (portCtl_open h hs hc he (.inr (.inl rfl))).trans ?_
  exact congrArg (Part.portRetrain · n) (if_pos (Or.inr (setRg_rgOn_rg rfl).symm))

theorem portEnWrite_open {en : Bool} :
    Part.portEnWrite n en m p = (p.takes n 0 [(F.PCI_PORT_CTL_MAXSPEED, p.rg F.PCI_PORT_CTL_MAXSPEED n),
      (F.PCI_PORT_CTL_ECRC, p.rg F.PCI_PORT_CTL_ECRC n), (F.PCI_PORT_CTL_EN, en.toNat)]).portEnable n (p.rgOn F.PCI_PORT_CTL_EN n) en :=
  (portCtl_open h hs hc en.toNat_lt (.inl rfl)).trans (congrArg (Part.portEnable _ n _) (setRg_rgOn_toNat rfl))

end

/-- A write of PCI_GRP_CTL moves the group into reset or out of it. -/
theorem grpRstWrite_open {p : Part} {m : Master} {g : Nat} {rst : Bool} (h : p.opens F.PCI_GRP_CTL_RST g 0 [F.PCI_GRP_CTL_RST]) :
    Part.grpRstWrite g rst m p = (p.takes g 0 [(F.PCI_GRP_CTL_RST, rst.toNat)]).grpRst g (p.rgOn F.PCI_GRP_CTL_RST g) rst := by
  have hb : rst.toNat / 2 ^ F.PCI_GRP_CTL_RST.lo % 2 ^ F.PCI_GRP_CTL_RST.width = rst.toNat := by cases rst <;> rfl
  refine regPut_open h (by unfold ownPage; decide) (.inr (by decide)) (n := rst.toNat) (by cases rst <;> rfl)
    (q := p.takes g 0 [(F.PCI_GRP_CTL_RST, rst.toNat)]) ?_ ?_
  · simp (disch := decide) only [List.foldl_cons, List.foldl_nil, putFld_rw, hb]
    rfl
  · exact congrArg (Part.grpRst _ g (p.rgOn F.PCI_GRP_CTL_RST g)) (setRg_rgOn_toNat rfl)

/-- A write of the endpoint's host interrupt. -/
theorem epHintWrite_open {p : Part} {m : Master} {v : BitVec 32} (h : p.opens F.EP_HINT_VEC 0 0 [F.EP_HINT_VEC]) :
    Part.epHintWrite v m p = p.epHint (v.toNat % 2 ^ 11) :=
  regPut_open h (by unfold ownPage; decide) (.inr (by decide)) rfl rfl rfl

/-- Settles O24: each register by what its open write comes to. -/
theorem unitRegisterWrites : Obligations.UnitRegisterWrites := by
  intro s k on groups tile freeze arm en rst i g d n v m
  refine ⟨fun hm h => exec_run rfl (llcWaypwrWrite_open hm h), fun h op c hc => ?maint, fun h => exec_run rfl (fabStatClr_open h),
    fun hm h => exec_run rfl (ilvCommit_open hm h), fun hm h => exec_run rfl (varCtlWrite_open hm h), fun h => ?link,
    fun h => ?port, fun h => exec_run rfl (grpRstWrite_open h), fun h => exec_run rfl (epHintWrite_open h)⟩
  case maint =>
    intro q
    have hop : op < 2 := by
      simp only [List.mem_cons, Prod.mk.injEq, List.not_mem_nil, or_false] at hc
      omega
    have hexec : exec c s = s.run (Part.llcMaintWrite op k.val groups m) := by
      simp only [List.mem_cons, Prod.mk.injEq, List.not_mem_nil, or_false] at hc
      obtain ⟨rfl, rfl⟩ | ⟨rfl, rfl⟩ := hc <;> rfl
    have hw := llcMaintWrite_open (m := m) (groups := groups) hop h
    obtain ⟨hbusy, hidle⟩ := llcMaint_takes (q := q) hop rfl
    exact ⟨fun hb => exec_run hexec (hw.trans (hbusy hb)), fun hb => exec_run hexec (hw.trans (hidle hb))⟩
  case link =>
    exact ⟨fun hw he => exec_run rfl (dvtCtlRetrain_open h hw he), fun hw => exec_run rfl (dvtCtlEn_open h hw)⟩
  case port =>
    intro sp ec e same hs hc he
    exact ⟨exec_run rfl (portReleaseWrite_open h hs hc he), exec_run rfl (portRetrainWrite_open h hs hc he),
      exec_run rfl (portEnWrite_open h hs hc)⟩

end Sys2Proof.Machine
end

section
/-!
PROOFS. The registers of the packet and crypto engines, error logs, counters and the collector (O25).
-/
namespace Sys2Proof.Machine
open Sys2Proof
set_option Elab.async false

/-! ### Pages with checks of their own -/

/-- F and Easel pass the FO check, and so does everyone at fields that are not FO. -/
theorem fo_passes {m : Master} {u i : Nat} {l : List Fld} (hf : m.top = true ∨ ∀ g ∈ l, g.fo = false) :
    (l.map (fun g => At.mk g u i)).filter (fun a => m.top || !a.f.fo) = l.map (fun g => At.mk g u i) ∧
    (!m.top && (l.map (fun g => At.mk g u i)).any (fun a => a.f.fo)) = false := by
  have hpass : ∀ a ∈ l.map (fun g => At.mk g u i), m.top = true ∨ a.f.fo = false := by
    intro a ha
    obtain ⟨g, hg, rfl⟩ := List.mem_map.mp ha
    exact hf.imp_right (fun h => h g hg)
  constructor
  · rw [List.filter_eq_self]
    intro a ha
    rcases hpass a ha with h | h <;> simp [h]
  · cases hm : m.top with
    | true => rfl
    | false =>
      rw [Bool.not_false, Bool.true_and, List.any_eq_false]
      intro a ha
      rcases hpass a ha with h | h <;> simp_all

/-- A write of an open register whose block's check lets the fields `l'` through: `q` is the part after the bucket of a share has
been filled, `r` the part after the fields have taken the word. -/
theorem regPut_checked {p q r e : Part} {m : Master} {f : Fld} {u i n : Nat} {v : BitVec 32} {l l' : List Fld} (h : p.opens f u i l)
    (hf : m.top = true ∨ ∀ g ∈ l, g.fo = false) (hv : v.toNat = n)
    (hc : p.blockCheck m (f.blk.place u) (f.word i) n (l.map (fun g => At.mk g u i)) = (p, l'.map (fun g => At.mk g u i)))
    (hl : l' ≠ [] ∧ ∀ g ∈ l', g.blk = f.blk)
    (hq : (if F.VEN_BW_EN ∈ l' then (l'.map (fun g => At.mk g u i)).foldl (fun (r : Part) (a : At) =>
      if a.f = F.VEN_BW_EN ∧ r.rgOn F.VEN_BW_EN a.u then r.tokenFill a.u else r) p else p) = q)
    (hr : l'.foldl (fun (r : Part) (g : Fld) => r.putFld m ⟨g, u, i⟩ n) q = r)
    (he : r.regHook q m f.blk u (f.word i) n (l'.map (fun g => At.mk g u i)) = e) : p.regPut m f u i v = e := by
  obtain ⟨hp, ha⟩ := h
  obtain ⟨hn, hb⟩ := hl
  obtain ⟨hfil, hfo⟩ := fo_passes (u := u) (i := i) hf
  have hd : ((l'.map (fun g => At.mk g u i)).map (fun a => (a.f.blk, a.u))).eraseDups = [(f.blk, u)] := by
    have hrep : (l'.map (fun g => At.mk g u i)).map (fun a => (a.f.blk, a.u)) = List.replicate l'.length (f.blk, u) := by
      rw [List.map_map, List.eq_replicate_iff]
      refine ⟨by simp, fun x hx => ?_⟩
      obtain ⟨g, hg, rfl⟩ := List.mem_map.mp hx
      simp [hb g hg]
    obtain ⟨k, hk⟩ := Nat.exists_eq_succ_of_ne_zero (fun h0 => hn (List.length_eq_zero_iff.mp h0))
    rw [hrep, hk]
    simp [List.replicate_succ, List.eraseDups_cons]
  have hbl : (l'.map (fun g => At.mk g u i)).filter (fun a => a.f.blk = f.blk) = l'.map (fun g => At.mk g u i) := by
    rw [List.filter_eq_self]
    intro x hx
    obtain ⟨g, hg, rfl⟩ := List.mem_map.mp hx
    simp [hb g hg]
  have hw := wrote_map l' u i F.VEN_BW_EN
  simp only [Part.regPut, hp, ha, Part.ctlWrite, hfo, hfil, Bool.false_eq_true, if_false, hv, hc, hw, decide_eq_true_eq, hd,
    List.foldl_cons, List.foldl_nil, hbl, hq]
  rw [List.foldl_map, hr, he]

/-- A write of an open register that its block's check keeps out leaves what the check leaves. -/
theorem regPut_kept_out {p q : Part} {m : Master} {f : Fld} {u i n : Nat} {v : BitVec 32} {l : List Fld} (h : p.opens f u i l)
    (hf : m.top = true ∨ ∀ g ∈ l, g.fo = false) (hv : v.toNat = n)
    (hc : p.blockCheck m (f.blk.place u) (f.word i) n (l.map (fun g => At.mk g u i)) = (q, [])) : p.regPut m f u i v = q := by
  obtain ⟨hp, ha⟩ := h
  obtain ⟨hfil, hfo⟩ := fo_passes (u := u) (i := i) hf
  simp only [Part.regPut, hp, ha, Part.ctlWrite, hfo, hfil, Bool.false_eq_true, if_false, hv, hc]
  rfl

/-- A write does not reach a field of another register. -/
theorem not_wrote {l : List Fld} {u i : Nat} {f : Fld} (h : f ∉ l) : ¬ wrote (l.map (fun g => At.mk g u i)) f = true := by
  rw [wrote_map, decide_eq_false h]; exact Bool.false_ne_true

theorem not_wroteOne {l : List Fld} {u i n : Nat} {f : Fld} (h : f ∉ l) :
    ¬ wroteOne (l.map (fun g => At.mk g u i)) n f = true := by
  rw [wroteOne_map, decide_eq_false h]; exact Bool.false_ne_true

theorem wrote_of_mem {l : List Fld} {u i : Nat} {f : Fld} (h : f ∈ l) : wrote (l.map (fun g => At.mk g u i)) f = true := by
  rw [wrote_map, decide_eq_true h]

/-! ### The packet engine -/

/-- What a write of the engine's global page sets in motion. -/
theorem regHook_netg (r p : Part) (m : Master) (u w v : Nat) (l : List At) :
    r.regHook p m .netg u w v l = if wrote l F.NET_CTL_RST then r.netRstAll (p.rg F.NET_CTL_RST)
      else if wroteOne l v F.NET_FLOWCMD_GO then r.flowCmd else if wroteOne l v F.NET_QCMD_GO then r.qCmd else r := rfl

/-- What a write of the first word of a MAC's page sets in motion. -/
theorem regHook_mac (r p : Part) (m : Master) (u v : Nat) (l : List At) :
    r.regHook p m .mac u 0 v l = r.macWritten u (p.rg F.NET_MAC_CFG_SPEED u) (p.rg F.NET_MAC_CFG_AN u) := rfl

/-- A write of a MAC's configuration. -/
theorem macCfgWrite_open {p : Part} {m : Master} {k : Nat} {v : BitVec 32}
    (h : p.opens F.NET_MAC_CFG_SPEED k 0 [F.NET_MAC_CFG_AN, F.NET_MAC_CFG_MAXLEN, F.NET_MAC_CFG_SPEED]) :
    Part.macCfgWrite k v m p = (p.takes k 0 [(F.NET_MAC_CFG_AN, v.toNat / 2 ^ 18 % 2), (F.NET_MAC_CFG_MAXLEN, v.toNat / 2 ^ 4 % 2 ^ 14),
      (F.NET_MAC_CFG_SPEED, v.toNat % 4)]).macWritten k (p.rg F.NET_MAC_CFG_SPEED k) (p.rg F.NET_MAC_CFG_AN k) := by
  have h1 : v.toNat / 2 ^ F.NET_MAC_CFG_SPEED.lo % 2 ^ F.NET_MAC_CFG_SPEED.width = v.toNat % 4 :=
    congrArg (· % 4) (Nat.div_one _)
  have h2 : v.toNat / 2 ^ F.NET_MAC_CFG_MAXLEN.lo % 2 ^ F.NET_MAC_CFG_MAXLEN.width = v.toNat / 2 ^ 4 % 2 ^ 14 := rfl
  have h3 : v.toNat / 2 ^ F.NET_MAC_CFG_AN.lo % 2 ^ F.NET_MAC_CFG_AN.width = v.toNat / 2 ^ 18 % 2 := rfl
  refine regPut_open h (by unfold ownPage; decide) (.inr (by decide)) rfl
    (q := p.takes k 0 [(F.NET_MAC_CFG_AN, v.toNat / 2 ^ 18 % 2), (F.NET_MAC_CFG_MAXLEN, v.toNat / 2 ^ 4 % 2 ^ 14),
      (F.NET_MAC_CFG_SPEED, v.toNat % 4)]) ?_ (regHook_mac ..)
  simp (disch := decide) only [List.foldl_cons, List.foldl_nil, putFld_rw, h1, h2, h3]
  rfl

/-- NET_QCMD with GO stores the command's fields and acts on them. -/
theorem queueCmd_open {p : Part} {m : Master} {op : Nat} {qn : BitVec 14} {clr : Bool} (hop : op < 4)
    (h : p.opens F.NET_QCMD_GO 0 0 [F.NET_QCMD_GO, F.NET_QCMD_OP, F.NET_QCMD_CLR, F.NET_QCMD_QUEUE]) :
    Part.queueCmd op qn clr m p =
      (p.takes 0 0 [(F.NET_QCMD_OP, op), (F.NET_QCMD_CLR, clr.toNat), (F.NET_QCMD_QUEUE, qn.toNat)]).qCmd := by
  have hq := qn.isLt
  have hz := clr.toNat_lt
  let n := 2 ^ 31 + op * 2 ^ 29 + clr.toNat * 2 ^ 28 + qn.toNat
  have hgo : n / 2 ^ F.NET_QCMD_GO.lo % 2 ^ F.NET_QCMD_GO.width ≠ 0 := by
    show (2 ^ 31 + op * 2 ^ 29 + clr.toNat * 2 ^ 28 + qn.toNat) / 2 ^ 31 % 2 ^ 1 ≠ 0
    omega
  have ho : n / 2 ^ F.NET_QCMD_OP.lo % 2 ^ F.NET_QCMD_OP.width = op := by
    show (2 ^ 31 + op * 2 ^ 29 + clr.toNat * 2 ^ 28 + qn.toNat) / 2 ^ 29 % 2 ^ 2 = op
    omega
  have hc : n / 2 ^ F.NET_QCMD_CLR.lo % 2 ^ F.NET_QCMD_CLR.width = clr.toNat := by
    show (2 ^ 31 + op * 2 ^ 29 + clr.toNat * 2 ^ 28 + qn.toNat) / 2 ^ 28 % 2 ^ 1 = clr.toNat
    omega
  have hn : n / 2 ^ F.NET_QCMD_QUEUE.lo % 2 ^ F.NET_QCMD_QUEUE.width = qn.toNat := by
    show (2 ^ 31 + op * 2 ^ 29 + clr.toNat * 2 ^ 28 + qn.toNat) / 2 ^ 0 % 2 ^ 14 = qn.toNat
    omega
  refine regPut_open h (by unfold ownPage; decide) (.inr (by decide)) (n := n) ?_
    (q := p.takes 0 0 [(F.NET_QCMD_OP, op), (F.NET_QCMD_CLR, clr.toNat), (F.NET_QCMD_QUEUE, qn.toNat)]) ?_ ?_
  · rw [BitVec.toNat_ofNat]; omega
  · simp (disch := decide) only [List.foldl_cons, List.foldl_nil, putFld_w1s, putFld_rw, ho, hc, hn]
    rfl
  · exact (regHook_netg ..).trans ((if_neg (not_wrote (by decide))).trans ((if_neg (not_wroteOne (by decide))).trans
      (if_pos (wroteOne_of_bits (by decide) hgo))))

/-- NET_FLOWCMD with GO stores the command's fields and acts on them. -/
theorem flowCmd_open {p : Part} {m : Master} {all bk : Nat} {v : BitVec 32} (ha : all < 2) (hb : bk < 2 ^ 16)
    (hv : v.toNat = 2 ^ 31 + all * 2 ^ 30 + bk)
    (h : p.opens F.NET_FLOWCMD_GO 0 0 [F.NET_FLOWCMD_GO, F.NET_FLOWCMD_ALL, F.NET_FLOWCMD_BUCKET]) :
    p.regPut m F.NET_FLOWCMD_GO 0 0 v = (p.takes 0 0 [(F.NET_FLOWCMD_ALL, all), (F.NET_FLOWCMD_BUCKET, bk)]).flowCmd := by
  have hgo : (2 ^ 31 + all * 2 ^ 30 + bk) / 2 ^ F.NET_FLOWCMD_GO.lo % 2 ^ F.NET_FLOWCMD_GO.width ≠ 0 := by
    show (2 ^ 31 + all * 2 ^ 30 + bk) / 2 ^ 31 % 2 ^ 1 ≠ 0
    omega
  have h1 : (2 ^ 31 + all * 2 ^ 30 + bk) / 2 ^ F.NET_FLOWCMD_ALL.lo % 2 ^ F.NET_FLOWCMD_ALL.width = all := by
    show (2 ^ 31 + all * 2 ^ 30 + bk) / 2 ^ 30 % 2 ^ 1 = all
    omega
  have h2 : (2 ^ 31 + all * 2 ^ 30 + bk) / 2 ^ F.NET_FLOWCMD_BUCKET.lo % 2 ^ F.NET_FLOWCMD_BUCKET.width = bk := by
    show (2 ^ 31 + all * 2 ^ 30 + bk) / 2 ^ 0 % 2 ^ 16 = bk
    omega
  refine regPut_open h (by unfold ownPage; decide) (.inr (by decide)) hv
    (q := p.takes 0 0 [(F.NET_FLOWCMD_ALL, all), (F.NET_FLOWCMD_BUCKET, bk)]) ?_ ?_
  · simp (disch := decide) only [List.foldl_cons, List.foldl_nil, putFld_w1s, putFld_rw, h1, h2]
    rfl
  · exact (regHook_netg ..).trans ((if_neg (not_wrote (by decide))).trans (if_pos (wroteOne_of_bits (by decide) hgo)))

/-- NET_CTL.RST resets the engine or lets it go. -/
theorem netCtlRst_open {p : Part} {m : Master} {rst : Bool} (h : p.opens F.NET_CTL_RST 0 0 [F.NET_CTL_RST]) :
    Part.netCtlRst rst m p = (p.takes 0 0 [(F.NET_CTL_RST, rst.toNat)]).netRstAll (p.rg F.NET_CTL_RST) := by
  have hb : rst.toNat / 2 ^ F.NET_CTL_RST.lo % 2 ^ F.NET_CTL_RST.width = rst.toNat := by cases rst <;> rfl
  refine regPut_open h (by unfold ownPage; decide) (.inr (by decide)) (n := rst.toNat) (by cases rst <;> rfl)
    (q := p.takes 0 0 [(F.NET_CTL_RST, rst.toNat)]) ?_ rfl
  simp (disch := decide) only [List.foldl_cons, List.foldl_nil, putFld_rw, hb]
  rfl

/-- KEY_CMD with GO stores the command's fields and acts on them. -/
theorem keyCmd_open {p : Part} {m : Master} {op sl : Nat} {v : BitVec 32} (ho : op < 4) (hs : sl < 2 ^ 13)
    (hv : v.toNat = 2 ^ 31 + op * 2 ^ 29 + sl) (h : p.opens F.KEY_CMD_GO 0 0 [F.KEY_CMD_GO, F.KEY_CMD_OP, F.KEY_CMD_SLOT]) :
    p.regPut m F.KEY_CMD_GO 0 0 v = (p.takes 0 0 [(F.KEY_CMD_OP, op), (F.KEY_CMD_SLOT, sl)]).keyCmd := by
  have hgo : (2 ^ 31 + op * 2 ^ 29 + sl) / 2 ^ F.KEY_CMD_GO.lo % 2 ^ F.KEY_CMD_GO.width ≠ 0 := by
    show (2 ^ 31 + op * 2 ^ 29 + sl) / 2 ^ 31 % 2 ^ 1 ≠ 0
    omega
  have h1 : (2 ^ 31 + op * 2 ^ 29 + sl) / 2 ^ F.KEY_CMD_OP.lo % 2 ^ F.KEY_CMD_OP.width = op := by
    show (2 ^ 31 + op * 2 ^ 29 + sl) / 2 ^ 29 % 2 ^ 2 = op
    omega
  have h2 : (2 ^ 31 + op * 2 ^ 29 + sl) / 2 ^ F.KEY_CMD_SLOT.lo % 2 ^ F.KEY_CMD_SLOT.width = sl := by
    show (2 ^ 31 + op * 2 ^ 29 + sl) / 2 ^ 0 % 2 ^ 13 = sl
    omega
  refine regPut_open h (by unfold ownPage; decide) (.inr (by decide)) hv
    (q := p.takes 0 0 [(F.KEY_CMD_OP, op), (F.KEY_CMD_SLOT, sl)]) ?_ ?_
  · simp (disch := decide) only [List.foldl_cons, List.foldl_nil, putFld_w1s, putFld_rw, h1, h2]
    rfl
  · exact if_pos (wroteOne_of_bits (by decide) hgo)

/-! ### Counters and the collector -/

/-- PERF_CTL with CLR stores FREEZE and clears the tile's counters, from VMID 0. -/
theorem perfCtlClr_open {p : Part} {m : Master} {t : Nat} {freeze : Bool} (hm : m.vm = 0)
    (h : p.opens F.PERF_CTL_CLR t 0 [F.PERF_CTL_CLR, F.PERF_CTL_FREEZE, F.PERF_CTL_RUN]) :
    Part.perfCtlClr t freeze m p = (p.takes t 0 [(F.PERF_CTL_FREEZE, freeze.toNat)]).perfClear t := by
  have hz := freeze.toNat_lt
  have hclr : (2 ^ 31 + freeze.toNat * 2 ^ 30) / 2 ^ F.PERF_CTL_CLR.lo % 2 ^ F.PERF_CTL_CLR.width ≠ 0 := by
    show (2 ^ 31 + freeze.toNat * 2 ^ 30) / 2 ^ 31 % 2 ^ 1 ≠ 0
    omega
  have hfr : (2 ^ 31 + freeze.toNat * 2 ^ 30) / 2 ^ F.PERF_CTL_FREEZE.lo % 2 ^ F.PERF_CTL_FREEZE.width = freeze.toNat := by
    show (2 ^ 31 + freeze.toNat * 2 ^ 30) / 2 ^ 30 % 2 ^ 1 = freeze.toNat
    omega
  refine regPut_checked h (.inr (by decide)) (n := 2 ^ 31 + freeze.toNat * 2 ^ 30) ?_ (if_pos hm) (by decide) (if_neg (by decide))
    (r := p.takes t 0 [(F.PERF_CTL_FREEZE, freeze.toNat)]) ?_ ?_
  · rw [BitVec.toNat_ofNat]; omega
  · simp (disch := decide) only [List.foldl_cons, List.foldl_nil, putFld_w1s, putFld_rw, putFld_ro, hfr]
    rfl
  · exact if_pos (wroteOne_of_bits (by decide) hclr)

/-- The collector's registers answer always. -/
theorem opens_perfGctl (p : Part) : p.opens F.PERF_GCTL_RUN 0 0 [F.PERF_GCTL_RUN, F.PERF_GCTL_CLRALL, F.PERF_GCTL_SNAP] := ⟨rfl, rfl⟩

/-- What a write of the collector's control word sets in motion. -/
theorem regHook_gctl (r p : Part) (m : Master) (u v : Nat) (a : At) (l : List At) :
    r.regHook p m .gperf u 0 v (a :: l) =
      if wroteOne (a :: l) v F.PERF_GCTL_CLRALL ∨ wroteOne (a :: l) v F.PERF_GCTL_SNAP then
        r.gctlHold (wroteOne (a :: l) v F.PERF_GCTL_CLRALL) (wroteOne (a :: l) v F.PERF_GCTL_SNAP) else r := rfl

/-- What a write of another word of the collector sets in motion. -/
theorem regHook_gperf (r p : Part) (m : Master) (u w v : Nat) (l : List At) (hw : w ≠ 0) :
    r.regHook p m .gperf u w v l = if wrote l F.PERF_SNAPPER_US then r.snapperWritten
      else if wrote l F.PERF_BWSEL_EN then r.bwSelect ((w - 0x40) / 8) else r :=
  if_neg (fun h => hw h.1)

/-- PERF_GCTL: RUN waits for the tick, CLRALL and SNAP are held for it, from VMID 0. -/
theorem gctlWrite_open (p : Part) {m : Master} (run clr snap : Bool) (hm : m.vm = 0) :
    let q : Part := { p with held := p.held.put (F.PERF_GCTL_RUN.key 0 0) run.toNat }
    Part.gctlWrite run clr snap m p = if clr || snap then q.gctlHold clr snap else q := by
  intro q
  have hr := run.toNat_lt
  have hc := clr.toNat_lt
  have hs := snap.toNat_lt
  let n := run.toNat * 2 ^ 31 + clr.toNat * 2 ^ 30 + snap.toNat * 2 ^ 29
  have h1 : n / 2 ^ F.PERF_GCTL_RUN.lo % 2 ^ F.PERF_GCTL_RUN.width = run.toNat := by
    show (run.toNat * 2 ^ 31 + clr.toNat * 2 ^ 30 + snap.toNat * 2 ^ 29) / 2 ^ 31 % 2 ^ 1 = run.toNat
    omega
  have h2 : wroteOne ([F.PERF_GCTL_RUN, F.PERF_GCTL_CLRALL, F.PERF_GCTL_SNAP].map (fun g => At.mk g 0 0)) n F.PERF_GCTL_CLRALL = clr := by
    rw [wroteOne_map]
    show (true && decide ((run.toNat * 2 ^ 31 + clr.toNat * 2 ^ 30 + snap.toNat * 2 ^ 29) / 2 ^ 30 % 2 ^ 1 ≠ 0)) = clr
    cases run <;> cases clr <;> cases snap <;> rfl
  have h3 : wroteOne ([F.PERF_GCTL_RUN, F.PERF_GCTL_CLRALL, F.PERF_GCTL_SNAP].map (fun g => At.mk g 0 0)) n F.PERF_GCTL_SNAP = snap := by
    rw [wroteOne_map]
    show (true && decide ((run.toNat * 2 ^ 31 + clr.toNat * 2 ^ 30 + snap.toNat * 2 ^ 29) / 2 ^ 29 % 2 ^ 1 ≠ 0)) = snap
    cases run <;> cases clr <;> cases snap <;> rfl
  have hrun : p.putFld m ⟨F.PERF_GCTL_RUN, 0, 0⟩ n = q := by
    show { p with held := p.held.put _ (n / 2 ^ F.PERF_GCTL_RUN.lo % 2 ^ F.PERF_GCTL_RUN.width) } = q
    rw [h1]
  refine regPut_checked (opens_perfGctl p) (.inr (by decide)) (n := n) ?_ (if_pos hm) (by decide) (if_neg (by decide)) (r := q) ?_ ?_
  · rw [BitVec.toNat_ofNat]; exact Nat.mod_eq_of_lt (by omega)
  · simp (disch := decide) only [List.foldl_cons, List.foldl_nil, putFld_w1s, hrun]
  · refine (regHook_gctl ..).trans ?_
    simp only [List.map_cons, List.map_nil] at h2 h3
    simp only [List.map_cons, List.map_nil, h2, h3, Bool.or_eq_true]

/-- The selection registers of the collector's monitors answer always. -/
theorem opens_bwSel (p : Part) (b : BitVec 4) : p.opens F.PERF_BWSEL_EN 0 b.toNat
    [F.PERF_BWSEL_EN, F.PERF_BWSEL_KIND, F.PERF_BWSEL_DIR, F.PERF_BWSEL_WEXP, F.PERF_BWSEL_INDEX, F.PERF_BWSEL_SUB] := by
  have key : ∀ b : BitVec 4, fldsAt (F.PERF_BWSEL_EN.blk.place 0) (F.PERF_BWSEL_EN.word b.toNat) =
      [F.PERF_BWSEL_EN, F.PERF_BWSEL_KIND, F.PERF_BWSEL_DIR, F.PERF_BWSEL_WEXP, F.PERF_BWSEL_INDEX, F.PERF_BWSEL_SUB].map
        (fun g => ⟨g, 0, b.toNat⟩) := by decide +kernel
  refine ⟨rfl, ?_⟩
  rw [Part.answering, key b]
  rfl

/-- A write of a monitor's selection stores it and starts it anew, from VMID 0. -/
theorem bwSelWrite_open (p : Part) {m : Master} (b : BitVec 4) (v : BitVec 32) (hm : m.vm = 0) :
    Part.bwSelWrite b v m p = (p.takes 0 b.toNat [(F.PERF_BWSEL_EN, v.toNat / 2 ^ 31 % 2), (F.PERF_BWSEL_KIND, v.toNat / 2 ^ 28 % 8),
      (F.PERF_BWSEL_DIR, v.toNat / 2 ^ 27 % 2), (F.PERF_BWSEL_WEXP, v.toNat / 2 ^ 22 % 32), (F.PERF_BWSEL_INDEX, v.toNat / 2 ^ 14 % 256),
      (F.PERF_BWSEL_SUB, v.toNat / 2 ^ 11 % 8)]).bwSelect b.toNat := by
  have hb : F.PERF_BWSEL_EN.word b.toNat = 0x40 + 8 * b.toNat := by
    have := b.isLt
    show (0x100 + 32 * b.toNat) / 4 % 256 = _
    omega
  have h1 : v.toNat / 2 ^ F.PERF_BWSEL_EN.lo % 2 ^ F.PERF_BWSEL_EN.width = v.toNat / 2 ^ 31 % 2 := rfl
  have h2 : v.toNat / 2 ^ F.PERF_BWSEL_KIND.lo % 2 ^ F.PERF_BWSEL_KIND.width = v.toNat / 2 ^ 28 % 8 := rfl
  have h3 : v.toNat / 2 ^ F.PERF_BWSEL_DIR.lo % 2 ^ F.PERF_BWSEL_DIR.width = v.toNat / 2 ^ 27 % 2 := rfl
  have h4 : v.toNat / 2 ^ F.PERF_BWSEL_WEXP.lo % 2 ^ F.PERF_BWSEL_WEXP.width = v.toNat / 2 ^ 22 % 32 := rfl
  have h5 : v.toNat / 2 ^ F.PERF_BWSEL_INDEX.lo % 2 ^ F.PERF_BWSEL_INDEX.width = v.toNat / 2 ^ 14 % 256 := rfl
  have h6 : v.toNat / 2 ^ F.PERF_BWSEL_SUB.lo % 2 ^ F.PERF_BWSEL_SUB.width = v.toNat / 2 ^ 11 % 8 := rfl
  refine regPut_checked (opens_bwSel p b) (.inr (by decide)) rfl (if_pos hm) (by decide) (if_neg (by decide))
    (r := p.takes 0 b.toNat [(F.PERF_BWSEL_EN, v.toNat / 2 ^ 31 % 2), (F.PERF_BWSEL_KIND, v.toNat / 2 ^ 28 % 8),
      (F.PERF_BWSEL_DIR, v.toNat / 2 ^ 27 % 2), (F.PERF_BWSEL_WEXP, v.toNat / 2 ^ 22 % 32), (F.PERF_BWSEL_INDEX, v.toNat / 2 ^ 14 % 256),
      (F.PERF_BWSEL_SUB, v.toNat / 2 ^ 11 % 8)]) ?_ ?_
  · simp (disch := decide) only [List.foldl_cons, List.foldl_nil, putFld_rw, h1, h2, h3, h4, h5, h6]
    rfl
  · refine (regHook_gperf _ _ _ _ _ _ _ (by omega)).trans ((if_neg (not_wrote (by decide))).trans
      ((if_pos (wrote_of_mem (by decide))).trans ?_))
    rw [hb, show (0x40 + 8 * b.toNat - 0x40) / 8 = b.toNat by omega]

/-- A read of the log's data marks the selected entry as read. -/
theorem rasLogRead_open {p : Part} {m : Master} {t : Nat} {idx : BitVec 3} (h : p.opens F.RAS_LOGD_DATA t idx.toNat [F.RAS_LOGD_DATA]) :
    Part.rasLogRead t idx m p = p.rasRead t := by
  obtain ⟨-, ha⟩ := h
  have hs : ([F.RAS_LOGD_DATA].map (fun g => At.mk g t idx.toNat)).filter (fun a => p.shows m a (F.RAS_LOGD_DATA.word idx.toNat)) =
      [⟨F.RAS_LOGD_DATA, t, idx.toNat⟩] := by
    refine List.filter_eq_self.mpr fun a hx => ?_
    obtain rfl := List.mem_singleton.mp hx
    show ((m.top || !false) && true) = true
    rw [Bool.not_false, Bool.or_true]; rfl
  show (p.ctlRead m (F.RAS_LOGD_DATA.blk.place t) (F.RAS_LOGD_DATA.word idx.toNat)).1 = _
  simp only [Part.ctlRead, ha, hs]
  rfl

/-! ### What a command's GO starts -/

/-- A queue command while another runs is rejected. -/
theorem qCmd_busy {q : Part} (ho : q.netOn = true) (hb : q.pkt.qcmd.isSome = true) : q.qCmd = q.setRg F.NET_QCMDSTAT_REJ 1 := by
  rw [Part.qCmd, if_neg (not_not_intro ho), if_pos hb]

/-- A read of a queue completes at once. -/
theorem qCmd_read {q : Part} (ho : q.netOn = true) (hb : q.pkt.qcmd = none) (hop : q.rg F.NET_QCMD_OP = 2)
    (hc : q.rgOn F.NET_QCMD_CLR = false) :
    q.qCmd = ((q.queueRead (q.rg F.NET_QCMD_QUEUE)).setRg F.NET_QCMDSTAT_ERRCODE 0).setRg F.NET_QCMDSTAT_DONE 1 := by
  rw [Part.qCmd, if_neg (not_not_intro ho), hb, if_neg (by decide), hop]
  simp only [hc]
  rfl

/-- A disable or an abort of a queue that is not DISABLED drains it. -/
theorem qCmd_drain {q : Part} {op : Nat} (ho : q.netOn = true) (hb : q.pkt.qcmd = none) (hop : q.rg F.NET_QCMD_OP = op)
    (h13 : op = 1 ∨ op = 3) (hd : (q.queueOf (q.rg F.NET_QCMD_QUEUE)).state ≠ .disabled) :
    q.qCmd = ((q.setRg F.NET_QCMDSTAT_BUSY 1).modPkt (fun x => { x with qcmd := some (.direct, q.rg F.NET_QCMD_QUEUE) })).queueDrain
      (q.rg F.NET_QCMD_QUEUE) (decide (op = 3)) := by
  rw [Part.qCmd, if_neg (not_not_intro ho), hb, if_neg (by decide), hop]
  obtain rfl | rfl := h13
  · exact if_neg hd
  · exact if_neg hd

/-- A flow command is rejected while another runs, and starts otherwise. -/
theorem flowCmd_busy {q : Part} (ho : q.netOn = true) (hb : q.pkt.flowcmd.isSome = true) :
    q.flowCmd = q.setRg F.NET_FLOWSTAT_REJ 1 := by
  rw [Part.flowCmd, if_neg (not_not_intro ho), if_pos hb]

theorem flowCmd_start {q : Part} (ho : q.netOn = true) (hb : q.pkt.flowcmd = none) :
    q.flowCmd = (q.setRg F.NET_FLOWSTAT_BUSY 1).flowStart .direct (q.rgOn F.NET_FLOWCMD_ALL) (q.rg F.NET_FLOWCMD_BUCKET) := by
  rw [Part.flowCmd, if_neg (not_not_intro ho), hb, if_neg (by decide)]

/-- A key command is rejected while another runs. -/
theorem keyCmd_busy {q : Part} {op : Nat} (hop : q.rg F.KEY_CMD_OP = op) (h3 : op < 3) (hb : q.key.cmd.isSome = true) :
    q.keyCmd = q.setRg F.KEY_CMDSTAT_REJ 1 := by
  rw [Part.keyCmd, hop]
  obtain rfl | rfl | rfl : op = 0 ∨ op = 1 ∨ op = 2 := by omega
  · exact if_pos hb
  · exact if_pos hb
  · exact if_pos hb

section
variable {q : Part} (hb : q.key.cmd = none)
include hb

/-- A load takes the staged key, when nothing is wrong with it. -/
theorem keyCmd_load (hop : q.rg F.KEY_CMD_OP = 0) (r : Part) (hr : r = q.setRg F.KEY_CMDSTAT_ERRCODE 0) (sl : Nat)
    (hs : q.rg F.KEY_CMD_SLOT = sl) :
    (r.keyLoadError sl r.keyStaged = 0 →
      q.keyCmd = ((r.keyUnstage.keyLoad sl r.keyStaged).setRg F.KEY_CMDSTAT_BUSY 1).keyStart .direct [sl]) ∧
    (r.keyLoadError sl r.keyStaged ≠ 0 →
      q.keyCmd = ((r.keyUnstage.setRg F.KEY_CMDSTAT_ERR 1).setRg F.KEY_CMDSTAT_ERRCODE (r.keyLoadError sl r.keyStaged)).setRg
        F.KEY_CMDSTAT_DONE 1) := by
  have hn : ¬ q.key.cmd.isSome = true := by rw [hb]; decide
  subst hr hs
  constructor <;> intro he <;> rw [Part.keyCmd, hop] <;> dsimp only
  · simp only [hn, he, ne_eq, not_true_eq_false, if_true, if_false, Bool.false_eq_true]
  · simp only [hn, he, ne_eq, not_false_eq_true, if_true, if_false, Bool.false_eq_true]

/-- An erase of one slot, and of all. -/
theorem keyCmd_erase (hop : q.rg F.KEY_CMD_OP = 1) :
    q.keyCmd = (((q.setRg F.KEY_CMDSTAT_ERRCODE 0).keyErase (q.rg F.KEY_CMD_SLOT)).setRg F.KEY_CMDSTAT_BUSY 1).keyStart .direct
      [q.rg F.KEY_CMD_SLOT] := by
  have hn : ¬ q.key.cmd.isSome = true := by rw [hb]; decide
  rw [Part.keyCmd, hop]
  exact if_neg hn

theorem keyCmd_eraseAll (hop : q.rg F.KEY_CMD_OP = 2) :
    q.keyCmd = (((List.range 8192).foldl (fun (x : Part) (i : Nat) => x.keyErase i) (q.setRg F.KEY_CMDSTAT_ERRCODE 0)).setRg
      F.KEY_CMDSTAT_BUSY 1).keyStart .direct [] := by
  have hn : ¬ q.key.cmd.isSome = true := by rw [hb]; decide
  rw [Part.keyCmd, hop]
  exact if_neg hn

end

/-- Settles O25: each command register stores its fields and then starts its command, or rejects it. -/
theorem networkAndCounterWrites : Obligations.NetworkAndCounterWrites := by
  refine ⟨fun s k v qn clr rst b ks m => ⟨fun h => exec_run rfl (macCfgWrite_open h), fun h op c hc => ?queue, fun h all bk c hc => ?flow,
    fun h => exec_run rfl (netCtlRst_open h), fun h op sl c hc => ?key⟩, fun s tile idx freeze run clrall snap b v m hm =>
    ⟨fun h => exec_run rfl (rasLogRead_open h), fun h => exec_run rfl (perfCtlClr_open hm h), exec_run rfl (gctlWrite_open _ run clrall snap hm),
      exec_run rfl (bwSelWrite_open _ b v hm)⟩⟩
  case queue =>
    intro q
    simp only [List.mem_cons, Prod.mk.injEq, List.not_mem_nil, or_false] at hc
    have hop : op < 4 := by omega
    have hexec : exec c s = s.run (Part.queueCmd op qn clr m) := by
      obtain ⟨rfl, rfl⟩ | ⟨rfl, rfl⟩ | ⟨rfl, rfl⟩ | ⟨rfl, rfl⟩ := hc <;> rfl
    have hgo : exec c s = s.after q.qCmd := exec_run hexec (queueCmd_open hop h)
    have hqop : q.rg F.NET_QCMD_OP = op := by
      have := Nat.mod_eq_of_lt (show op < 2 ^ F.NET_QCMD_OP.width from hop)
      simp (disch := decide) only [q, Part.takes, List.foldl_cons, List.foldl_nil, setRg_rg_of_lo_ne, Part.setRg_rg_self, this]
    have hqclr : q.rgOn F.NET_QCMD_CLR = clr := by
      have := setRg_rgOn_toNat (p := s.part.setRg F.NET_QCMD_OP op) (b := clr) (u := 0) (i := 0) (f := F.NET_QCMD_CLR) rfl
      rw [Part.rgOn] at this ⊢
      simp (disch := decide) only [q, Part.takes, List.foldl_cons, List.foldl_nil, setRg_rg_of_lo_ne, this]
    have hqq : q.rg F.NET_QCMD_QUEUE = qn.toNat := setRg_rg_fits (by exact qn.isLt)
    refine ⟨hgo, fun ho hb => hgo.trans (congrArg s.after (qCmd_busy ho hb)), fun ho hb h2 hcl => ?read, fun ho hb h13 hd => ?drain⟩
    case read =>
      rw [hgo, qCmd_read ho hb (hqop.trans h2) (hqclr.trans hcl), hqq]
    case drain =>
      rw [hgo, qCmd_drain ho hb hqop h13 (by rw [hqq]; exact hd), hqq]
  case flow =>
    intro q
    simp only [List.mem_cons, Prod.mk.injEq, List.not_mem_nil, or_false] at hc
    have hb16 := b.isLt
    have hgo : exec c s = s.after q.flowCmd := by
      obtain ⟨rfl, rfl, rfl⟩ | ⟨rfl, rfl, rfl⟩ := hc
      · refine exec_run rfl (flowCmd_open (by decide) hb16 ?_ h)
        rw [BitVec.toNat_ofNat]; omega
      · exact exec_run rfl (flowCmd_open (by decide) (by decide) rfl h)
    have hall : all < 2 := by omega
    have hbk : bk < 2 ^ 16 := by omega
    have hqall : q.rgOn F.NET_FLOWCMD_ALL = decide (all = 1) := by
      have := Nat.mod_eq_of_lt (show all < 2 ^ F.NET_FLOWCMD_ALL.width from hall)
      rw [Part.rgOn]
      simp (disch := decide) only [q, Part.takes, List.foldl_cons, List.foldl_nil, setRg_rg_of_lo_ne, Part.setRg_rg_self, this,
        Nat.mod_eq_of_lt hall]
    have hqbk : q.rg F.NET_FLOWCMD_BUCKET = bk := setRg_rg_fits (by exact hbk)
    refine ⟨fun ho hb => hgo.trans (congrArg s.after (flowCmd_busy ho hb)), fun ho hb => ?_⟩
    rw [hgo, flowCmd_start ho hb, hqall, hqbk]
  case key =>
    intro q r
    simp only [List.mem_cons, Prod.mk.injEq, List.not_mem_nil, or_false] at hc
    have hk := ks.isLt
    have hop : op < 3 := by omega
    have hsl : sl < 2 ^ 13 := by omega
    have hgo : exec c s = s.after q.keyCmd := by
      obtain ⟨rfl, rfl, rfl⟩ | ⟨rfl, rfl, rfl⟩ | ⟨rfl, rfl, rfl⟩ := hc
      · refine exec_run rfl (keyCmd_open (by decide) hk ?_ h)
        rw [BitVec.toNat_ofNat]; omega
      · refine exec_run rfl (keyCmd_open (by decide) hk ?_ h)
        rw [BitVec.toNat_ofNat]; omega
      · exact exec_run rfl (keyCmd_open (by decide) (by decide) rfl h)
    have hqop : q.rg F.KEY_CMD_OP = op := by
      have := Nat.mod_eq_of_lt (show op < 2 ^ F.KEY_CMD_OP.width from Nat.lt_trans hop (by decide))
      simp (disch := decide) only [q, Part.takes, List.foldl_cons, List.foldl_nil, setRg_rg_of_lo_ne, Part.setRg_rg_self, this]
    have hqsl : q.rg F.KEY_CMD_SLOT = sl := setRg_rg_fits (by exact hsl)
    refine ⟨fun hb => ?_, fun hb h0 he => ?_, fun hb h0 he => ?_, fun hb h1 => ?_, fun hb h2 => ?_⟩
    · rw [hgo, keyCmd_busy hqop hop hb]
    · rw [hgo, (keyCmd_load hb (hqop.trans h0) r rfl sl hqsl).1 he]
    · rw [hgo, (keyCmd_load hb (hqop.trans h0) r rfl sl hqsl).2 he]
    · rw [hgo, keyCmd_erase hb (hqop.trans h1), hqsl]
    · rw [hgo, keyCmd_eraseAll hb (hqop.trans h2)]

end Sys2Proof.Machine
end

section
/-!
PROOFS. The register page of a Veneer tenant (O26).
-/
namespace Sys2Proof.Machine
open Sys2Proof
set_option Elab.async false

/-! ### The block's check -/

/-- A write of a tenant's page that nothing keeps out reaches the fields of its half. -/
theorem blockCheck_ven {p : Part} {m : Master} {pg : Pg} {w v : Nat} {a : At} {l r : List At} (hb : a.f.blk = .ven)
    (hr : p.venReach m.vm a.u w (a :: l) = some r) (hl : p.rangeLocked a.u (4 * w) = false) (hp : p.poolRefuses a.u (4 * w) v = false)
    (ho : r.any (fun x => x.f = F.VEN_MBOUT_DATA) = false) (hi : r.any (fun x => x.f = F.VEN_MBIN_DATA) = false) :
    p.blockCheck m pg w v (a :: l) = (p, r) := by
  simp only [Part.blockCheck, hb, hr, hl, hp, ho, hi, Bool.false_eq_true, if_false, false_and]

/-- One that the pool refuses sets POOLREJ. -/
theorem blockCheck_pool {p : Part} {m : Master} {pg : Pg} {w v : Nat} {a : At} {l r : List At} (hb : a.f.blk = .ven)
    (hr : p.venReach m.vm a.u w (a :: l) = some r) (hl : p.rangeLocked a.u (4 * w) = false) (hp : p.poolRefuses a.u (4 * w) v = true) :
    p.blockCheck m pg w v (a :: l) = (p.setRg F.VEN_MSTAT_POOLREJ 1 a.u, []) := by
  simp only [Part.blockCheck, hb, hr, hl, hp, Bool.false_eq_true, if_false, if_true]

/-- The manager reaches every field of its half. -/
theorem venReach_manager (p : Part) (i w : Nat) (l : List At) (hw : 0x80 ≤ w) : p.venReach 0 i w l = some l := by
  rw [Part.venReach, if_pos hw, if_pos rfl]

/-- The owner reaches every field of the tenant's half that is not the manager's alone. -/
theorem venReach_owner {p : Part} {i w : Nat} {l : List At} (hw : ¬ w ≥ 0x80) (hl : ∀ a ∈ l, managerOnly a.f = false) :
    p.venReach (p.ownerOf i) i w l = some l := by
  have hown : decide (p.ownerOf i = p.ownerOf i) = true := decide_eq_true rfl
  rw [Part.venReach, if_neg hw, if_neg (by rw [hown]; simp), hown]
  refine congrArg some (List.filter_eq_self.mpr fun a ha => ?_)
  rw [hl a ha, Bool.true_or, Bool.true_and, Bool.not_false, Bool.or_true]

/-! ### What a write sets in motion -/

/-- The commands of a tenant's page. -/
theorem regHook_venCmd {r p : Part} {m : Master} {u w v : Nat} {l : List At} (h : wroteOne l v F.VEN_CMD_GO = true) :
    r.regHook p m .ven u w v l = r.venCmd u := if_pos h

theorem regHook_venMcmd {r p : Part} {m : Master} {u w v : Nat} {l : List At} (h0 : ¬ wroteOne l v F.VEN_CMD_GO = true)
    (h : wroteOne l v F.VEN_MCMD_GO = true) : r.regHook p m .ven u w v l = r.venMcmd u := (if_neg h0).trans (if_pos h)

/-- A quota and a share: the tenant's use is compared anew. -/
theorem regHook_venQuota {r p : Part} {m : Master} {u w v : Nat} {l : List At} (h0 : ¬ wroteOne l v F.VEN_CMD_GO = true)
    (h1 : ¬ wroteOne l v F.VEN_MCMD_GO = true) (hb : ¬ wrote l F.VEN_BW_EN = true) (hl : l.isEmpty = false) (hw : 0x88 ≤ w ∧ w ≤ 0x8A) :
    r.regHook p m .ven u w v l = r.venQuota u := by
  refine (if_neg h0).trans ((if_neg h1).trans ((if_neg (by omega)).trans ((if_neg hb).trans (if_pos ⟨hw.1, hw.2, ?_⟩))))
  rw [hl]; exact Bool.false_ne_true

theorem regHook_venBw {r p : Part} {m : Master} {u w v : Nat} {l : List At} (h0 : ¬ wroteOne l v F.VEN_CMD_GO = true)
    (h1 : ¬ wroteOne l v F.VEN_MCMD_GO = true) (hw : w ≠ 0x40) (hb : wrote l F.VEN_BW_EN = true) :
    r.regHook p m .ven u w v l = (r.bwWritten u (p.rgOn F.VEN_BW_EN u)).venQuota u :=
  (if_neg h0).trans ((if_neg h1).trans ((if_neg hw).trans (if_pos hb)))

/-- The mailbox word: the bits are taken in turn. -/
theorem regHook_venMbox {r p : Part} {m : Master} {u v : Nat} {l : List At} (h0 : ¬ wroteOne l v F.VEN_CMD_GO = true)
    (h1 : ¬ wroteOne l v F.VEN_MCMD_GO = true) : r.regHook p m .ven u 0x40 v l =
      (let a := if wroteOne l v F.VEN_MBCTL_OUTACK then r.outAck u else r
       let b := if wroteOne l v F.VEN_MBCTL_OUTSEND then a.outSend u else a
       let c := if wroteOne l v F.VEN_MBCTL_INACK then b.inAck u else b
       if wroteOne l v F.VEN_MBCTL_INSEND then c.inSend u else c) :=
  (if_neg h0).trans (if_neg h1)

/-! ### The manager's registers -/

/-- The fields of one register of the manager's half that no state of the tenant locks and that hold no mailbox word. -/
def managerPage (f : Fld) (l : List Fld) : Prop :=
  (l ≠ [] ∧ ∀ g ∈ l, g.blk = f.blk) ∧ f.blk = .ven ∧ 0x80 ≤ f.word 0 ∧ 4 * f.word 0 ∉ [0x208, 0x210, 0x214, 0x218] ∧
    ∀ g ∈ l, g.fo = false ∧ g ≠ F.VEN_MBOUT_DATA ∧ g ≠ F.VEN_MBIN_DATA

theorem managerPage.locked {f : Fld} {l : List Fld} (h : managerPage f l) (p : Part) (i : Nat) :
    p.rangeLocked i (4 * f.word 0) = false := by
  obtain ⟨-, -, -, h, -⟩ := h
  simp only [List.mem_cons, List.not_mem_nil, or_false, not_or] at h
  obtain ⟨h1, h2, h3, h4⟩ := h
  rw [Part.rangeLocked, decide_eq_false h1, decide_eq_false h2, decide_eq_false h3, decide_eq_false h4]
  exact Bool.and_false _

/-- The fields of a register of a tenant hold no mailbox word. -/
theorem no_mailbox_word {l : List Fld} {u : Nat} {f : Fld} (h : ∀ g ∈ l, g ≠ f) :
    (l.map (fun g => At.mk g u 0)).any (fun x => decide (x.f = f)) = false := by
  rw [List.any_eq_false]
  intro a ha
  obtain ⟨g, hg, rfl⟩ := List.mem_map.mp ha
  exact fun hd => h g hg (of_decide_eq_true hd)

section
variable {p q r e : Part} {m : Master} (hm : m.vm = 0) {f : Fld} {i n : Nat} {v : BitVec 32} {l : List Fld} (h : p.opens f i 0 l)
  (hs : managerPage f l) (hv : v.toNat = n)
include hm h hs hv

/-- A write of the manager's that the pool does not refuse. -/
theorem regPut_manager (hp : p.poolRefuses i (4 * f.word 0) n = false)
    (hq : (if F.VEN_BW_EN ∈ l then (l.map (fun g => At.mk g i 0)).foldl (fun (r : Part) (a : At) =>
      if a.f = F.VEN_BW_EN ∧ r.rgOn F.VEN_BW_EN a.u then r.tokenFill a.u else r) p else p) = q)
    (hr : l.foldl (fun (r : Part) (g : Fld) => r.putFld m ⟨g, i, 0⟩ n) q = r)
    (he : r.regHook q m .ven i (f.word 0) n (l.map (fun g => At.mk g i 0)) = e) : p.regPut m f i 0 v = e := by
  have hlock := hs.locked p i
  obtain ⟨hl, hb, hw, -, hg⟩ := hs
  refine regPut_checked h (.inr fun g hg' => (hg g hg').1) hv ?_ hl hq hr (by rw [hb]; exact he)
  cases l with
  | nil => exact absurd rfl hl.1
  | cons g0 l =>
    exact blockCheck_ven ((hl.2 g0 List.mem_cons_self).trans hb) (by rw [hm]; exact venReach_manager p i _ _ hw) hlock hp
      (no_mailbox_word fun g hg' => (hg g hg').2.1) (no_mailbox_word fun g hg' => (hg g hg').2.2)

/-- One that it refuses. -/
theorem regPut_manager_refused (hp : p.poolRefuses i (4 * f.word 0) n = true) :
    p.regPut m f i 0 v = p.setRg F.VEN_MSTAT_POOLREJ 1 i := by
  have hlock := hs.locked p i
  obtain ⟨hl, hb, hw, -, hg⟩ := hs
  refine regPut_kept_out h (.inr fun g hg' => (hg g hg').1) hv ?_
  cases l with
  | nil => exact absurd rfl hl.1
  | cons g0 l =>
    exact blockCheck_pool ((hl.2 g0 List.mem_cons_self).trans hb) (by rw [hm]; exact venReach_manager p i _ _ hw) hlock hp

end

section
variable {p : Part} {m : Master} (hm : m.vm = 0) {i : Nat} {v : BitVec 32}
include hm

/-- VEN_MCMD with GO stores the command's fields and acts on them. -/
theorem venMcmd_open {op rs : Nat} (ho : op < 8) (hr : rs < 8) (hv : v.toNat = 2 ^ 31 + op * 2 ^ 28 + rs)
    (h : p.opens F.VEN_MCMD_GO i 0 [F.VEN_MCMD_GO, F.VEN_MCMD_OP, F.VEN_MCMD_RES]) :
    p.regPut m F.VEN_MCMD_GO i 0 v = (p.takes i 0 [(F.VEN_MCMD_OP, op), (F.VEN_MCMD_RES, rs)]).venMcmd i := by
  have hgo : (2 ^ 31 + op * 2 ^ 28 + rs) / 2 ^ F.VEN_MCMD_GO.lo % 2 ^ F.VEN_MCMD_GO.width ≠ 0 := by
    show (2 ^ 31 + op * 2 ^ 28 + rs) / 2 ^ 31 % 2 ^ 1 ≠ 0
    omega
  have h1 : (2 ^ 31 + op * 2 ^ 28 + rs) / 2 ^ F.VEN_MCMD_OP.lo % 2 ^ F.VEN_MCMD_OP.width = op := by
    show (2 ^ 31 + op * 2 ^ 28 + rs) / 2 ^ 28 % 2 ^ 3 = op
    omega
  have h2 : (2 ^ 31 + op * 2 ^ 28 + rs) / 2 ^ F.VEN_MCMD_RES.lo % 2 ^ F.VEN_MCMD_RES.width = rs := by
    show (2 ^ 31 + op * 2 ^ 28 + rs) / 2 ^ 0 % 2 ^ 3 = rs
    omega
  refine regPut_manager hm h (by unfold managerPage; decide) hv (Bool.and_false _) (if_neg (by decide))
    (r := p.takes i 0 [(F.VEN_MCMD_OP, op), (F.VEN_MCMD_RES, rs)]) ?_ ?_
  · simp (disch := decide) only [List.foldl_cons, List.foldl_nil, putFld_w1s, putFld_rw, h1, h2]
    rfl
  · exact regHook_venMcmd (not_wroteOne (by decide)) (wroteOne_of_bits (by decide) hgo)

/-- The quotas of queues and keys, of flows, and of doorbells. -/
theorem venQuotaQk_open (h : p.opens F.VEN_QUOTA_QK_QMAX i 0 [F.VEN_QUOTA_QK_QMAX, F.VEN_QUOTA_QK_KMAX]) :
    p.regPut m F.VEN_QUOTA_QK_QMAX i 0 v =
      (p.takes i 0 [(F.VEN_QUOTA_QK_QMAX, v.toNat / 2 ^ 16 % 2 ^ 15), (F.VEN_QUOTA_QK_KMAX, v.toNat % 2 ^ 14)]).venQuota i := by
  have h1 : v.toNat / 2 ^ F.VEN_QUOTA_QK_QMAX.lo % 2 ^ F.VEN_QUOTA_QK_QMAX.width = v.toNat / 2 ^ 16 % 2 ^ 15 := rfl
  have h2 : v.toNat / 2 ^ F.VEN_QUOTA_QK_KMAX.lo % 2 ^ F.VEN_QUOTA_QK_KMAX.width = v.toNat % 2 ^ 14 := congrArg (· % 2 ^ 14) (Nat.div_one _)
  refine regPut_manager hm h (by unfold managerPage; decide) rfl (Bool.and_false _) (if_neg (by decide))
    (r := p.takes i 0 [(F.VEN_QUOTA_QK_QMAX, v.toNat / 2 ^ 16 % 2 ^ 15), (F.VEN_QUOTA_QK_KMAX, v.toNat % 2 ^ 14)]) ?_ ?_
  · simp (disch := decide) only [List.foldl_cons, List.foldl_nil, putFld_rw, h1, h2]
    rfl
  · exact regHook_venQuota (not_wroteOne (by decide)) (not_wroteOne (by decide)) (not_wrote (by decide)) rfl (by decide)

theorem venQuotaF_open (h : p.opens F.VEN_QUOTA_F_FMAX i 0 [F.VEN_QUOTA_F_FMAX]) (hp : p.poolRefuses i 0x224 v.toNat = false) :
    p.regPut m F.VEN_QUOTA_F_FMAX i 0 v = (p.takes i 0 [(F.VEN_QUOTA_F_FMAX, v.toNat % 2 ^ 19)]).venQuota i := by
  have h1 : v.toNat / 2 ^ F.VEN_QUOTA_F_FMAX.lo % 2 ^ F.VEN_QUOTA_F_FMAX.width = v.toNat % 2 ^ 19 := congrArg (· % 2 ^ 19) (Nat.div_one _)
  refine regPut_manager hm h (by unfold managerPage; decide) rfl hp (if_neg (by decide))
    (r := p.takes i 0 [(F.VEN_QUOTA_F_FMAX, v.toNat % 2 ^ 19)]) ?_ ?_
  · simp (disch := decide) only [List.foldl_cons, List.foldl_nil, putFld_rw, h1]
    rfl
  · exact regHook_venQuota (not_wroteOne (by decide)) (not_wroteOne (by decide)) (not_wrote (by decide)) rfl (by decide)

theorem venQuotaD_open (h : p.opens F.VEN_QUOTA_D_DMAX i 0 [F.VEN_QUOTA_D_DMAX]) :
    p.regPut m F.VEN_QUOTA_D_DMAX i 0 v = (p.takes i 0 [(F.VEN_QUOTA_D_DMAX, v.toNat % 2 ^ 13)]).venQuota i := by
  have h1 : v.toNat / 2 ^ F.VEN_QUOTA_D_DMAX.lo % 2 ^ F.VEN_QUOTA_D_DMAX.width = v.toNat % 2 ^ 13 := congrArg (· % 2 ^ 13) (Nat.div_one _)
  refine regPut_manager hm h (by unfold managerPage; decide) rfl (Bool.and_false _) (if_neg (by decide))
    (r := p.takes i 0 [(F.VEN_QUOTA_D_DMAX, v.toNat % 2 ^ 13)]) ?_ ?_
  · simp (disch := decide) only [List.foldl_cons, List.foldl_nil, putFld_rw, h1]
    rfl
  · exact regHook_venQuota (not_wroteOne (by decide)) (not_wroteOne (by decide)) (not_wrote (by decide)) rfl (by decide)

/-- A share: its bucket is filled at the old rate first. -/
theorem venBw_open (h : p.opens F.VEN_BW_EN i 0 [F.VEN_BW_EN, F.VEN_BW_BURST, F.VEN_BW_RATE]) (hp : p.poolRefuses i 0x22C v.toNat = false) :
    p.regPut m F.VEN_BW_EN i 0 v =
      ((((if p.rgOn F.VEN_BW_EN i then p.tokenFill i else p).takes i 0 [(F.VEN_BW_EN, v.toNat / 2 ^ 31 % 2),
        (F.VEN_BW_BURST, v.toNat / 2 ^ 16 % 2 ^ 15), (F.VEN_BW_RATE, v.toNat % 2 ^ 14)]).bwWritten i (p.rgOn F.VEN_BW_EN i)).venQuota i) := by
  let f := if p.rgOn F.VEN_BW_EN i then p.tokenFill i else p
  have h1 : v.toNat / 2 ^ F.VEN_BW_EN.lo % 2 ^ F.VEN_BW_EN.width = v.toNat / 2 ^ 31 % 2 := rfl
  have h2 : v.toNat / 2 ^ F.VEN_BW_BURST.lo % 2 ^ F.VEN_BW_BURST.width = v.toNat / 2 ^ 16 % 2 ^ 15 := rfl
  have h3 : v.toNat / 2 ^ F.VEN_BW_RATE.lo % 2 ^ F.VEN_BW_RATE.width = v.toNat % 2 ^ 14 := congrArg (· % 2 ^ 14) (Nat.div_one _)
  have hon : f.rgOn F.VEN_BW_EN i = p.rgOn F.VEN_BW_EN i := by
    simp only [f]
    split <;> rfl
  refine regPut_manager hm h (by unfold managerPage; decide) rfl hp (q := f) ?_
    (r := f.takes i 0 [(F.VEN_BW_EN, v.toNat / 2 ^ 31 % 2), (F.VEN_BW_BURST, v.toNat / 2 ^ 16 % 2 ^ 15), (F.VEN_BW_RATE, v.toNat % 2 ^ 14)]) ?_ ?_
  · refine (if_pos (by decide)).trans ?_
    have n2 : ¬ F.VEN_BW_BURST = F.VEN_BW_EN := by decide
    have n3 : ¬ F.VEN_BW_RATE = F.VEN_BW_EN := by decide
    simp only [List.map_cons, List.map_nil, List.foldl_cons, List.foldl_nil, n2, n3, false_and, if_false, true_and, f]
  · simp (disch := decide) only [List.foldl_cons, List.foldl_nil, putFld_rw, h1, h2, h3]
    rfl
  · rw [regHook_venBw (not_wroteOne (by decide)) (not_wroteOne (by decide)) (by decide) (wrote_of_mem (by decide)), hon]

end

/-- The tenant that a change names is changed. -/
theorem modInst_instOf_self (p : Part) (i : Nat) (f : VenSt → VenSt) : (p.modInst i f).instOf i = f (p.instOf i) := by
  simp [Part.modInst, Part.instOf, Part.modVen]

/-- A manager command is rejected while another is under way; else it starts, or waits for a tenant's command. -/
theorem venMcmd_busy {q : Part} {i : Nat} (hb : (q.instOf i).mcmd.isSome = true) : q.venMcmd i = q.setRg F.VEN_MSTAT_REJ 1 i :=
  if_pos (.inr hb)

theorem venMcmd_taken {q : Part} {i op rs : Nat} (ho : q.rg F.VEN_MCMD_OP i = op) (hr : q.rg F.VEN_MCMD_RES i = rs) (h4 : op < 4)
    (hb : (q.instOf i).mcmd = none) {r : Part} (hr' : r = (q.setRg F.VEN_MSTAT_BUSY 1 i).modInst i
      (fun x => { x with mcmd := some { op := op, res := rs, started := false, time := q.time } })) :
    ((q.instOf i).cmd = none → q.venMcmd i = r.mgrStart i) ∧ ((q.instOf i).cmd.isSome = true → q.venMcmd i = r) := by
  have hn : ¬ (q.rg F.VEN_MCMD_OP i ≥ 4 ∨ (q.instOf i).mcmd.isSome = true) := by
    rw [ho, hb]
    exact not_or.mpr ⟨Nat.not_le.mpr h4, Bool.false_ne_true⟩
  have hcmd : (r.instOf i).cmd = (q.instOf i).cmd := by
    rw [hr', modInst_instOf_self]
    rfl
  subst ho hr
  constructor <;> intro hc <;> refine (if_neg hn).trans ?_ <;> rw [← hr']
  · exact if_neg (by rw [hcmd, hc]; exact Bool.false_ne_true)
  · exact if_pos (by rw [hcmd]; exact hc)

/-! ### The tenant's commands -/

/-- VEN_CMD with GO, from the owner, stores the command's fields and acts on them. -/
theorem venCmd_open {p : Part} {m : Master} {i op : Nat} {index : BitVec 18} {v : BitVec 32} (hm : m.vm = p.ownerOf i) (ho : op < 16)
    (hv : v.toNat = 2 ^ 31 + op * 2 ^ 27 + index.toNat) (h : p.opens F.VEN_CMD_GO i 0 [F.VEN_CMD_GO, F.VEN_CMD_OP, F.VEN_CMD_INDEX]) :
    p.regPut m F.VEN_CMD_GO i 0 v = (p.takes i 0 [(F.VEN_CMD_OP, op), (F.VEN_CMD_INDEX, index.toNat)]).venCmd i := by
  have hx := index.isLt
  have hgo : (2 ^ 31 + op * 2 ^ 27 + index.toNat) / 2 ^ F.VEN_CMD_GO.lo % 2 ^ F.VEN_CMD_GO.width ≠ 0 := by
    show (2 ^ 31 + op * 2 ^ 27 + index.toNat) / 2 ^ 31 % 2 ^ 1 ≠ 0
    omega
  have h1 : (2 ^ 31 + op * 2 ^ 27 + index.toNat) / 2 ^ F.VEN_CMD_OP.lo % 2 ^ F.VEN_CMD_OP.width = op := by
    show (2 ^ 31 + op * 2 ^ 27 + index.toNat) / 2 ^ 27 % 2 ^ 4 = op
    omega
  have h2 : (2 ^ 31 + op * 2 ^ 27 + index.toNat) / 2 ^ F.VEN_CMD_INDEX.lo % 2 ^ F.VEN_CMD_INDEX.width = index.toNat := by
    show (2 ^ 31 + op * 2 ^ 27 + index.toNat) / 2 ^ 0 % 2 ^ 18 = index.toNat
    omega
  have hreach : p.venReach m.vm i (F.VEN_CMD_GO.word 0) ([F.VEN_CMD_GO, F.VEN_CMD_OP, F.VEN_CMD_INDEX].map (fun g => At.mk g i 0)) =
      some ([F.VEN_CMD_GO, F.VEN_CMD_OP, F.VEN_CMD_INDEX].map (fun g => At.mk g i 0)) := by
    rw [hm]
    refine venReach_owner (by decide) fun a ha => ?_
    obtain ⟨g, hg, rfl⟩ := List.mem_map.mp ha
    exact (by decide : ∀ g ∈ [F.VEN_CMD_GO, F.VEN_CMD_OP, F.VEN_CMD_INDEX], managerOnly g = false) g hg
  refine regPut_checked h (.inr (by decide)) hv (blockCheck_ven rfl hreach (Bool.and_false _) (Bool.and_false _) (no_mailbox_word (by decide))
    (no_mailbox_word (by decide))) (by decide) (if_neg (by decide)) (r := p.takes i 0 [(F.VEN_CMD_OP, op), (F.VEN_CMD_INDEX, index.toNat)]) ?_ ?_
  · simp (disch := decide) only [List.foldl_cons, List.foldl_nil, putFld_w1s, putFld_rw, h1, h2]
    rfl
  · exact regHook_venCmd (wroteOne_of_bits (by decide) hgo)

/-- A tenant command is rejected outside ACTIVE and while another command is under way; else it starts or waits. -/
theorem venCmd_rejected {q : Part} {i : Nat} (h : (q.instOf i).cmd.isSome = true ∨ q.venState i ≠ 1 ∨ (q.instOf i).mcmd.isSome = true) :
    q.venCmd i = q.setRg F.VEN_CMDSTAT_REJ 1 i := by
  refine if_pos ?_
  rcases h with h | h | h
  · exact .inl h
  · exact .inr (.inl h)
  · exact .inr (.inr (.inl h))

theorem venCmd_taken {q : Part} {i op idx : Nat} (ho : q.rg F.VEN_CMD_OP i = op) (hx : q.rg F.VEN_CMD_INDEX i = idx) (h10 : op < 10)
    (hc : (q.instOf i).cmd = none) (hs : q.venState i = 1) (hm : (q.instOf i).mcmd = none) :
    q.venCmd i = ((q.setRg F.VEN_CMDSTAT_BUSY 1 i).modInst i (fun x => { x with cmd := some (op, idx, false) })).venTry i := by
  have hn : ¬ ((q.instOf i).cmd.isSome = true ∨ q.venState i ≠ 1 ∨ (q.instOf i).mcmd.isSome = true ∨ q.rg F.VEN_CMD_OP i ≥ 10) := by
    rw [hc, hs, hm, ho]
    simp only [Option.isSome_none, Bool.false_eq_true, ne_eq, not_true_eq_false, false_or]
    omega
  subst ho hx
  exact if_neg hn

/-! ### The mailbox -/

/-- The fields of the mailbox word that a write reaches: the tenant's bits when the owner writes, the manager's from VMID 0. -/
def mboxFields (own mgr : Bool) : List Fld :=
  [F.VEN_MBCTL_OUTSEND, F.VEN_MBCTL_OUTACK, F.VEN_MBCTL_INSEND, F.VEN_MBCTL_INACK, F.VEN_MBCTL_OUTOVR, F.VEN_MBCTL_INOVR,
    F.VEN_MBCTL_OUTFULL, F.VEN_MBCTL_INFULL].filter (fun g => (own || !tenantField g) && (mgr || !managerOnly g))

/-- Whether a write of the single bit `bit` sets the bit of `f`. -/
def mboxOn (own mgr : Bool) (bit : Nat) (f : Fld) : Bool :=
  decide (f ∈ mboxFields own mgr) && decide (2 ^ bit / 2 ^ f.lo % 2 ^ f.width ≠ 0)

/-- A write of one of the mailbox's command bits keeps the overrun bits and takes the command. -/
theorem venMbox_open {p : Part} {m : Master} {idx : BitVec 10} {bit : Nat} (hb : bit = 4 ∨ bit = 5 ∨ bit = 6 ∨ bit = 7)
    (hm : m.vm = p.ownerOf idx.toNat ∨ m.vm = 0)
    (h : p.opens F.VEN_MBCTL_OUTSEND idx.toNat 0 [F.VEN_MBCTL_OUTSEND, F.VEN_MBCTL_OUTACK, F.VEN_MBCTL_INSEND, F.VEN_MBCTL_INACK,
      F.VEN_MBCTL_OUTOVR, F.VEN_MBCTL_INOVR, F.VEN_MBCTL_OUTFULL, F.VEN_MBCTL_INFULL]) :
    Part.venMbox bit idx m p =
      let i := idx.toNat
      let q := p.takes i 0 [(F.VEN_MBCTL_OUTOVR, p.rg F.VEN_MBCTL_OUTOVR i), (F.VEN_MBCTL_INOVR, p.rg F.VEN_MBCTL_INOVR i)]
      let on := mboxOn (decide (m.vm = p.ownerOf i)) (decide (m.vm = 0)) bit
      let a := if on F.VEN_MBCTL_OUTACK then q.outAck i else q
      let b := if on F.VEN_MBCTL_OUTSEND then a.outSend i else a
      let c := if on F.VEN_MBCTL_INACK then b.inAck i else b
      if on F.VEN_MBCTL_INSEND then c.inSend i else c := by
  have hreach : p.venReach m.vm idx.toNat (F.VEN_MBCTL_OUTSEND.word 0) ([F.VEN_MBCTL_OUTSEND, F.VEN_MBCTL_OUTACK, F.VEN_MBCTL_INSEND,
      F.VEN_MBCTL_INACK, F.VEN_MBCTL_OUTOVR, F.VEN_MBCTL_INOVR, F.VEN_MBCTL_OUTFULL, F.VEN_MBCTL_INFULL].map (fun g => At.mk g idx.toNat 0)) =
      some ((mboxFields (decide (m.vm = p.ownerOf idx.toNat)) (decide (m.vm = 0))).map (fun g => At.mk g idx.toNat 0)) := by
    rw [Part.venReach, if_neg (by decide), if_neg (by rcases hm with h | h <;> simp [h]), mboxFields, List.filter_map]
    rfl
  have hv : (BitVec.ofNat 32 (2 ^ bit)).toNat = 2 ^ bit := by
    rcases hb with rfl | rfl | rfl | rfl <;> rfl
  have key : ∀ own mgr : Bool, (mboxFields own mgr ≠ [] ∧ ∀ g ∈ mboxFields own mgr, g.blk = F.VEN_MBCTL_OUTSEND.blk) ∧
      (∀ g ∈ mboxFields own mgr, g ≠ F.VEN_MBOUT_DATA) ∧ (∀ g ∈ mboxFields own mgr, g ≠ F.VEN_MBIN_DATA) ∧ F.VEN_BW_EN ∉ mboxFields own mgr ∧
      F.VEN_CMD_GO ∉ mboxFields own mgr ∧ F.VEN_MCMD_GO ∉ mboxFields own mgr := by decide
  generalize hown : decide (m.vm = p.ownerOf idx.toNat) = own at hreach
  generalize hmgr : decide (m.vm = 0) = mgr at hreach
  obtain ⟨hl, hbox, hboxi, hbw, hcmd, hmcmd⟩ := key own mgr
  refine regPut_checked h (.inr (by decide)) hv (blockCheck_ven rfl hreach (Bool.and_false _) (Bool.and_false _) (no_mailbox_word hbox)
    (no_mailbox_word hboxi)) hl (if_neg hbw) (r := p.takes idx.toNat 0 [(F.VEN_MBCTL_OUTOVR, p.rg F.VEN_MBCTL_OUTOVR idx.toNat),
      (F.VEN_MBCTL_INOVR, p.rg F.VEN_MBCTL_INOVR idx.toNat)]) ?fields ?hook
  case fields =>
    have z1 : 2 ^ bit / 2 ^ F.VEN_MBCTL_OUTOVR.lo % 2 ^ F.VEN_MBCTL_OUTOVR.width = 0 := by rcases hb with rfl | rfl | rfl | rfl <;> rfl
    have z2 : 2 ^ bit / 2 ^ F.VEN_MBCTL_INOVR.lo % 2 ^ F.VEN_MBCTL_INOVR.width = 0 := by rcases hb with rfl | rfl | rfl | rfl <;> rfl
    have e1 : mboxFields true true = [F.VEN_MBCTL_OUTSEND, F.VEN_MBCTL_OUTACK, F.VEN_MBCTL_INSEND, F.VEN_MBCTL_INACK, F.VEN_MBCTL_OUTOVR,
      F.VEN_MBCTL_INOVR, F.VEN_MBCTL_OUTFULL, F.VEN_MBCTL_INFULL] := by decide
    have e2 : mboxFields true false = [F.VEN_MBCTL_OUTSEND, F.VEN_MBCTL_INACK, F.VEN_MBCTL_OUTOVR, F.VEN_MBCTL_INOVR, F.VEN_MBCTL_OUTFULL,
      F.VEN_MBCTL_INFULL] := by decide
    have e3 : mboxFields false true = [F.VEN_MBCTL_OUTACK, F.VEN_MBCTL_INSEND, F.VEN_MBCTL_OUTOVR, F.VEN_MBCTL_INOVR, F.VEN_MBCTL_OUTFULL,
      F.VEN_MBCTL_INFULL] := by decide
    have e4 : mboxFields false false = [F.VEN_MBCTL_OUTOVR, F.VEN_MBCTL_INOVR, F.VEN_MBCTL_OUTFULL, F.VEN_MBCTL_INFULL] := by decide
    cases own <;> cases mgr <;> simp (disch := decide) only [e1, e2, e3, e4, List.foldl_cons, List.foldl_nil, putFld_w1s, putFld_w1c, putFld_ro,
      z1, z2, Nat.and_zero, Nat.sub_zero, setRg_rg_of_lo_ne] <;> rfl
  case hook =>
    refine (regHook_venMbox (not_wroteOne hcmd) (not_wroteOne hmcmd)).trans ?_
    simp only [wroteOne_map]
    subst hown hmgr
    rfl

/-- Which command bits a write of one bit sets, whatever else the writer may do. -/
theorem mboxOn_owner (mgr : Bool) :
    (mboxOn true mgr 7 F.VEN_MBCTL_OUTACK = false ∧ mboxOn true mgr 7 F.VEN_MBCTL_OUTSEND = true ∧
      mboxOn true mgr 7 F.VEN_MBCTL_INACK = false ∧ mboxOn true mgr 7 F.VEN_MBCTL_INSEND = false) ∧
    (mboxOn true mgr 4 F.VEN_MBCTL_OUTACK = false ∧ mboxOn true mgr 4 F.VEN_MBCTL_OUTSEND = false ∧
      mboxOn true mgr 4 F.VEN_MBCTL_INACK = true ∧ mboxOn true mgr 4 F.VEN_MBCTL_INSEND = false) := by
  revert mgr; decide

theorem mboxOn_manager (own : Bool) :
    (mboxOn own true 5 F.VEN_MBCTL_OUTACK = false ∧ mboxOn own true 5 F.VEN_MBCTL_OUTSEND = false ∧
      mboxOn own true 5 F.VEN_MBCTL_INACK = false ∧ mboxOn own true 5 F.VEN_MBCTL_INSEND = true) ∧
    (mboxOn own true 6 F.VEN_MBCTL_OUTACK = true ∧ mboxOn own true 6 F.VEN_MBCTL_OUTSEND = false ∧
      mboxOn own true 6 F.VEN_MBCTL_INACK = false ∧ mboxOn own true 6 F.VEN_MBCTL_INSEND = false) := by
  revert own; decide

section
variable {p : Part} {m : Master} {idx : BitVec 10}
  (h : p.opens F.VEN_MBCTL_OUTSEND idx.toNat 0 [F.VEN_MBCTL_OUTSEND, F.VEN_MBCTL_OUTACK, F.VEN_MBCTL_INSEND, F.VEN_MBCTL_INACK,
    F.VEN_MBCTL_OUTOVR, F.VEN_MBCTL_INOVR, F.VEN_MBCTL_OUTFULL, F.VEN_MBCTL_INFULL])
  (q : Part) (hq : q = p.takes idx.toNat 0 [(F.VEN_MBCTL_OUTOVR, p.rg F.VEN_MBCTL_OUTOVR idx.toNat),
    (F.VEN_MBCTL_INOVR, p.rg F.VEN_MBCTL_INOVR idx.toNat)])
include h hq

/-- OUTSEND and INACK from the owner; INSEND and OUTACK from the manager. -/
theorem venMbox_owner (hm : m.vm = p.ownerOf idx.toNat) :
    Part.venMbox 7 idx m p = q.outSend idx.toNat ∧ Part.venMbox 4 idx m p = q.inAck idx.toNat := by
  obtain ⟨⟨a1, a2, a3, a4⟩, b1, b2, b3, b4⟩ := mboxOn_owner (decide (m.vm = 0))
  rw [venMbox_open (by decide) (.inl hm) h, venMbox_open (by decide) (.inl hm) h]
  simp only [decide_eq_true hm, ← hq, a1, a2, a3, a4, b1, b2, b3, b4, if_true, Bool.false_eq_true, if_false, and_self]

theorem venMbox_manager (hm : m.vm = 0) :
    Part.venMbox 5 idx m p = q.inSend idx.toNat ∧ Part.venMbox 6 idx m p = q.outAck idx.toNat := by
  obtain ⟨⟨a1, a2, a3, a4⟩, b1, b2, b3, b4⟩ := mboxOn_manager (decide (m.vm = p.ownerOf idx.toNat))
  rw [venMbox_open (by decide) (.inr hm) h, venMbox_open (by decide) (.inr hm) h]
  simp only [decide_eq_true hm, ← hq, a1, a2, a3, a4, b1, b2, b3, b4, if_true, Bool.false_eq_true, if_false, and_self]

omit h in
/-- The overrun bits that are kept leave the full bits alone. -/
theorem mbox_full : q.rgOn F.VEN_MBCTL_OUTFULL idx.toNat = p.rgOn F.VEN_MBCTL_OUTFULL idx.toNat ∧
    q.rgOn F.VEN_MBCTL_INFULL idx.toNat = p.rgOn F.VEN_MBCTL_INFULL idx.toNat := by
  subst hq
  unfold Part.rgOn
  constructor <;> simp (disch := decide) only [Part.takes, List.foldl_cons, List.foldl_nil, setRg_rg_of_lo_ne]

end

/-- Settles O26: the manager's and the tenant's commands and the mailbox, each by its register's write and what the command bit
then starts. -/
theorem veneerRegisterWrites : Obligations.VeneerRegisterWrites := by
  refine ⟨fun s idx res v m hm => ⟨fun h op rs c hc => ?mcmd, fun h => exec_run rfl (venQuotaQk_open hm h),
      fun h => ⟨fun hp => exec_run rfl (regPut_manager_refused hm h (by unfold managerPage; decide) rfl hp),
        fun hp => exec_run rfl (venQuotaF_open hm h hp)⟩,
      fun h => exec_run rfl (venQuotaD_open hm h),
      fun h => ⟨fun hp => exec_run rfl (regPut_manager_refused hm h (by unfold managerPage; decide) rfl hp),
        fun hp => exec_run rfl (venBw_open hm h hp)⟩⟩,
    fun s idx index m hm => ?tenant, fun s idx m => ?mbox⟩
  case mcmd =>
    intro q r
    have hres := res.isLt
    simp only [List.mem_cons, Prod.mk.injEq, List.not_mem_nil, or_false] at hc
    have hop : op < 4 := by omega
    have hrs : rs < 8 := by omega
    have hgo : exec c s = s.after (q.venMcmd idx.toNat) := by
      obtain ⟨rfl, rfl, rfl⟩ | ⟨rfl, rfl, rfl⟩ | ⟨rfl, rfl, rfl⟩ | ⟨rfl, rfl, rfl⟩ := hc
      · exact exec_run rfl (venMcmd_open hm (by decide) (by decide) rfl h)
      · exact exec_run rfl (venMcmd_open hm (by decide) (by decide) rfl h)
      · exact exec_run rfl (venMcmd_open hm (by decide) (by decide) rfl h)
      · refine exec_run rfl (venMcmd_open hm (by decide) hres ?_ h)
        rw [BitVec.toNat_ofNat]; omega
    have hqop : q.rg F.VEN_MCMD_OP idx.toNat = op := by
      have := Nat.mod_eq_of_lt (show op < 2 ^ F.VEN_MCMD_OP.width from Nat.lt_trans hop (by decide))
      simp (disch := decide) only [q, Part.takes, List.foldl_cons, List.foldl_nil, setRg_rg_of_lo_ne, Part.setRg_rg_self, this]
    have hqrs : q.rg F.VEN_MCMD_RES idx.toNat = rs := setRg_rg_fits (by exact hrs)
    refine ⟨fun hb => hgo.trans (congrArg s.after (venMcmd_busy hb)), fun hb hcm => hgo.trans (congrArg s.after ?_),
      fun hb hcm => hgo.trans (congrArg s.after ?_)⟩
    · exact (venMcmd_taken hqop hqrs hop hb rfl).1 hcm
    · exact (venMcmd_taken hqop hqrs hop hb rfl).2 hcm
  case tenant =>
    intro p i h op c hc q
    have hx := index.isLt
    simp only [List.mem_cons, Prod.mk.injEq, List.not_mem_nil, or_false] at hc
    have hop : op < 10 := by omega
    have hexec : exec c s = s.run (Part.venTenant op idx index m) := by
      rcases hc with ⟨rfl, rfl⟩ | ⟨rfl, rfl⟩ | ⟨rfl, rfl⟩ | ⟨rfl, rfl⟩ | ⟨rfl, rfl⟩ | ⟨rfl, rfl⟩ | ⟨rfl, rfl⟩ | ⟨rfl, rfl⟩ | ⟨rfl, rfl⟩ |
        ⟨rfl, rfl⟩ <;> rfl
    have hgo : exec c s = s.after (q.venCmd i) := by
      refine exec_run hexec (venCmd_open hm (Nat.lt_trans hop (by decide)) ?_ h)
      rw [BitVec.toNat_ofNat]; omega
    have hqop : q.rg F.VEN_CMD_OP i = op := by
      have := Nat.mod_eq_of_lt (show op < 2 ^ F.VEN_CMD_OP.width from Nat.lt_trans hop (by decide))
      simp (disch := decide) only [q, Part.takes, List.foldl_cons, List.foldl_nil, setRg_rg_of_lo_ne, Part.setRg_rg_self, this]
    have hqx : q.rg F.VEN_CMD_INDEX i = index.toNat := setRg_rg_fits (by exact hx)
    exact ⟨fun hr => hgo.trans (congrArg s.after (venCmd_rejected hr)),
      fun hcm hs hmc => hgo.trans (congrArg s.after (venCmd_taken hqop hqx hop hcm hs hmc))⟩
  case mbox =>
    intro p i q h
    obtain ⟨hof, hif⟩ := mbox_full q rfl
    refine ⟨fun hm => ?_, fun hm => ?_⟩
    · obtain ⟨hsend, hack⟩ := venMbox_owner h q rfl hm
      exact ⟨fun hf => exec_run rfl (hsend.trans (if_pos (hof.trans hf))),
        fun hf => exec_run rfl (hsend.trans (if_neg (by rw [hof, hf]; exact Bool.false_ne_true))),
        fun hf => exec_run rfl (hack.trans (if_pos (hif.trans hf))),
        fun hf => exec_run rfl (hack.trans (if_neg (by rw [hif, hf]; exact Bool.false_ne_true)))⟩
    · obtain ⟨hsend, hack⟩ := venMbox_manager h q rfl hm
      exact ⟨fun hf => exec_run rfl (hsend.trans (if_pos (hif.trans hf))),
        fun hf => exec_run rfl (hsend.trans (if_neg (by rw [hif, hf]; exact Bool.false_ne_true))),
        fun hf => exec_run rfl (hack.trans (if_pos (hof.trans hf))),
        fun hf => exec_run rfl (hack.trans (if_neg (by rw [hof, hf]; exact Bool.false_ne_true)))⟩

end Sys2Proof.Machine
end

section
/-!
PROOFS. Easel's mailbox and Primer's commands (O27).
-/
namespace Sys2Proof.Machine
open Sys2Proof
set_option Elab.async false

/-! ### Fields of other words and pages -/

/-- A put leaves a field of another word alone. -/
theorem setRg_rg_of_word_ne {p : Part} {f g : Fld} {v u i x y : Nat} (hf : f.lo < 32) (hg : g.lo < 32) (h : g.word y ≠ f.word i) :
    (p.setRg f v u i).rg g x y = p.rg g x y := by
  have h1 : f.word i < 256 := Nat.mod_lt _ (by decide)
  have h2 : g.word y < 256 := Nat.mod_lt _ (by decide)
  refine Part.setRg_rg_other _ f g v u i x y ?_
  unfold Fld.key fldKey
  omega

/-- A put leaves a field of another page alone. -/
theorem setRg_rg_of_page_ne {p : Part} {f g : Fld} {v u i x y : Nat} (hf : f.lo < 32) (hg : g.lo < 32)
    (pf : (f.blk.place u).page < 4096) (pg : (g.blk.place x).page < 4096) (h : (g.blk.place x).page ≠ (f.blk.place u).page) :
    (p.setRg f v u i).rg g x y = p.rg g x y := by
  have h1 : f.word i < 256 := Nat.mod_lt _ (by decide)
  have h2 : g.word y < 256 := Nat.mod_lt _ (by decide)
  refine Part.setRg_rg_other _ f g v u i x y ?_
  unfold Fld.key fldKey
  omega

/-- Easel's and Primer's own registers: what is known of cores, slices and their power does not read them. -/
def controllerPage (f : Fld) : Prop := f.lo < 32 ∧ (f.blk = .eas ∨ f.blk = .prm)

section
variable {p : Part} {f : Fld} (h : controllerPage f) (v i : Nat)
include h

theorem controllerPage.page : (f.blk.place 0).page = 0x030 ∨ (f.blk.place 0).page = 0x031 := by
  obtain ⟨-, h | h⟩ := h
  · rw [h]; exact .inl rfl
  · rw [h]; exact .inr rfl

/-- A field of a page below 0x030 is not touched by a put of a controller's field. -/
theorem setRg_rg_low {g : Fld} {x y : Nat} (hg : g.lo < 32) (hp : (g.blk.place x).page < 0x030) :
    (p.setRg f v 0 i).rg g x y = p.rg g x y := by
  have := h.page
  exact setRg_rg_of_page_ne h.1 hg (by omega) (by omega) (by omega)

theorem coreInSvc_setRg (c : Nat) : (p.setRg f v 0 i).coreInSvc c = p.coreInSvc c := by
  have := setRg_rg_low (p := p) h v i (g := F.PAL_CORE_MAP_INSVC) (x := 0) (y := c / 32) (by decide) (by decide)
  rw [Part.coreInSvc, this, ← Part.coreInSvc]

theorem sliceInSvc_setRg (k : Nat) : (p.setRg f v 0 i).sliceInSvc k = p.sliceInSvc k := by
  have := setRg_rg_low (p := p) h v i (g := F.PAL_SLICE_MAP_INSVC) (x := 0) (y := k / 32) (by decide) (by decide)
  rw [Part.sliceInSvc, this, ← Part.sliceInSvc]

theorem coreBusy_setRg (c : Nat) : (p.setRg f v 0 i).coreBusy c = p.coreBusy c := by
  have hp : (F.CORE_PLUMB_STAT_ACTIVE.blk.place c).page < 0x030 := by
    show 0x010 + 8 * (c % 2) < 0x030
    omega
  have := setRg_rg_low (p := p) h v i (g := F.CORE_PLUMB_STAT_ACTIVE) (x := c) (y := 0) (by decide) hp
  rw [Part.coreBusy, Part.plumb, Part.rgOn, this]
  rfl

theorem pwrRst_setRg (t j : Nat) : (p.setRg f v 0 i).rgOn F.PWR_C_RST t j = p.rgOn F.PWR_C_RST t j := by
  have := setRg_rg_low (p := p) h v i (g := F.PWR_C_RST) (x := t) (y := j) (by decide) (by show 7 < 0x030; decide)
  rw [Part.rgOn, this, ← Part.rgOn]

end

/-! ### Easel's mailbox -/

/-- What a write of Easel's page sets in motion. -/
theorem regHook_eas (r p : Part) (m : Master) (u w v : Nat) (l : List At) :
    r.regHook p m .eas u w v l = if wroteOne l v F.EAS_CMD_GO then r.easCmd m.top else r := rfl

theorem opens_easCmd (p : Part) : p.opens F.EAS_CMD_GO 0 0 [F.EAS_CMD_GO, F.EAS_CMD_OP] := ⟨rfl, rfl⟩
theorem opens_easArg0 (p : Part) : p.opens F.EAS_ARG_ARG 0 0 [F.EAS_ARG_ARG] := ⟨rfl, rfl⟩
theorem opens_easArg1 (p : Part) : p.opens F.EAS_ARG_ARG 0 1 [F.EAS_ARG_ARG] := ⟨rfl, rfl⟩
theorem opens_easArg2 (p : Part) : p.opens F.EAS_ARG_ARG 0 2 [F.EAS_ARG_ARG] := ⟨rfl, rfl⟩

/-- An argument is stored. -/
theorem easArg_open {p : Part} {m : Master} {i n : Nat} {v : BitVec 32} (hm : m.top = true) (h : p.opens F.EAS_ARG_ARG 0 i [F.EAS_ARG_ARG])
    (hv : v.toNat = n) : p.regPut m F.EAS_ARG_ARG 0 i v = p.setRg F.EAS_ARG_ARG n 0 i := by
  have hn : n < 2 ^ F.EAS_ARG_ARG.width := hv ▸ v.isLt
  have hb : n / 2 ^ F.EAS_ARG_ARG.lo % 2 ^ F.EAS_ARG_ARG.width = n := by
    rw [show F.EAS_ARG_ARG.lo = 0 from rfl, Nat.pow_zero, Nat.div_one, Nat.mod_eq_of_lt hn]
  refine regPut_open h (by unfold ownPage; decide) (.inl hm) hv (q := p.setRg F.EAS_ARG_ARG n 0 i) ?_ ?_
  · simp (disch := decide) only [List.foldl_cons, List.foldl_nil, putFld_rw, hb]
  · exact (regHook_eas ..).trans (if_neg (not_wroteOne (by decide)))

/-- EAS_CMD with GO stores the command and acts on it. -/
theorem easCmd_open {p : Part} {m : Master} {op : Nat} (hm : m.top = true) (ho : op < 256) :
    p.regPut m F.EAS_CMD_GO 0 0 (BitVec.ofNat 32 (2 ^ 31 + op)) = (p.setRg F.EAS_CMD_OP op).easCmd true := by
  have hgo : (2 ^ 31 + op) / 2 ^ F.EAS_CMD_GO.lo % 2 ^ F.EAS_CMD_GO.width ≠ 0 := by
    show (2 ^ 31 + op) / 2 ^ 31 % 2 ^ 1 ≠ 0
    omega
  have h1 : (2 ^ 31 + op) / 2 ^ F.EAS_CMD_OP.lo % 2 ^ F.EAS_CMD_OP.width = op := by
    show (2 ^ 31 + op) / 2 ^ 0 % 2 ^ 8 = op
    omega
  refine regPut_open (opens_easCmd p) (by unfold ownPage; decide) (.inl hm) (n := 2 ^ 31 + op) ?_ (q := p.setRg F.EAS_CMD_OP op) ?_ ?_
  · rw [BitVec.toNat_ofNat]; omega
  · simp (disch := decide) only [List.foldl_cons, List.foldl_nil, putFld_w1s, putFld_rw, h1]
  · refine (regHook_eas ..).trans ((if_pos (wroteOne_of_bits (by decide) hgo)).trans ?_)
    rw [hm]

/-- A command of Easel's that is not busy. -/
theorem easCmd_idle {q : Part} {op : Nat} (hb : q.rgOn F.EAS_CMDSTAT_BUSY = false) (ho : q.rg F.EAS_CMD_OP = op) :
    (op = 1 → q.easCmd true = q.easStart) ∧ (op = 2 → q.easCmd true = q.easLogRead) ∧ (op = 3 → q.easCmd true = q.easWarm) := by
  subst ho
  refine ⟨fun h => ?_, fun h => ?_, fun h => ?_⟩ <;>
    simp only [Part.easCmd, hb, h, Bool.false_eq_true, if_false, if_true]

/-- The arguments are not the status. -/
theorem easBusy_setRg {p : Part} {v i : Nat} (hi : i < 8) :
    (p.setRg F.EAS_ARG_ARG v 0 i).rgOn F.EAS_CMDSTAT_BUSY = p.rgOn F.EAS_CMDSTAT_BUSY := by
  have hw : F.EAS_CMDSTAT_BUSY.word 0 ≠ F.EAS_ARG_ARG.word i := by
    show 1 ≠ (8 + 4 * i) / 4 % 256
    omega
  rw [Part.rgOn, setRg_rg_of_word_ne (by decide) (by decide) hw, ← Part.rgOn]

theorem easBusy_setOp (p : Part) (v : Nat) : (p.setRg F.EAS_CMD_OP v).rgOn F.EAS_CMDSTAT_BUSY = p.rgOn F.EAS_CMDSTAT_BUSY := by
  rw [Part.rgOn, setRg_rg_of_word_ne (by decide) (by decide) (by decide), ← Part.rgOn]

/-- What CORE_START leaves in the mailbox. -/
def startArgs (p : Part) (t : Nat) (pc : Dword) : Part :=
  (((p.setRg F.EAS_ARG_ARG t 0 0).setRg F.EAS_ARG_ARG (pc.toNat % 2 ^ 32) 0 1).setRg F.EAS_ARG_ARG (pc.toNat / 2 ^ 32) 0 2).setRg F.EAS_CMD_OP 1

/-- CORE_START writes its arguments and starts the thread that they name. -/
theorem coreStart_eq {p : Part} {m : Master} {t : Nat} {pc : Dword} (hm : m.top = true) (ht : t < 2 ^ 32)
    (hb : p.rgOn F.EAS_CMDSTAT_BUSY = false) : Part.coreStart t pc m p = (startArgs p t pc).easStart := by
  have hpc := pc.isLt
  have h1 : (pc.setWidth 32).toNat = pc.toNat % 2 ^ 32 := BitVec.toNat_setWidth ..
  have h2 : ((pc >>> 32).setWidth 32).toNat = pc.toNat / 2 ^ 32 := by
    rw [BitVec.toNat_setWidth, BitVec.toNat_ushiftRight, Nat.shiftRight_eq_div_pow]
    omega
  have h0 : (BitVec.ofNat 32 t).toNat = t := by rw [BitVec.toNat_ofNat, Nat.mod_eq_of_lt ht]
  have hargs : Part.coreStart t pc m p = ((((p.regPut m F.EAS_ARG_ARG 0 0 (BitVec.ofNat 32 t)).regPut m F.EAS_ARG_ARG 0 1 (pc.setWidth 32)).regPut m
      F.EAS_ARG_ARG 0 2 ((pc >>> 32).setWidth 32)).regPut m F.EAS_CMD_GO 0 0 (BitVec.ofNat 32 (2 ^ 31 + 1))) := rfl
  rw [hargs, easArg_open hm (opens_easArg0 _) h0, easArg_open hm (opens_easArg1 _) h1, easArg_open hm (opens_easArg2 _) h2,
    easCmd_open hm (by decide)]
  refine (easCmd_idle ?_ (setRg_rg_fits (by decide))).1 rfl
  rw [easBusy_setOp, easBusy_setRg (by decide), easBusy_setRg (by decide), easBusy_setRg (by decide), hb]

/-- The arguments read back. -/
theorem startArgs_rg (p : Part) (t : Nat) (pc : Dword) (ht : t < 2 ^ 32) : (startArgs p t pc).rg F.EAS_ARG_ARG 0 0 = t ∧
    (startArgs p t pc).rg F.EAS_ARG_ARG 0 1 = pc.toNat % 2 ^ 32 ∧ (startArgs p t pc).rg F.EAS_ARG_ARG 0 2 = pc.toNat / 2 ^ 32 := by
  have hpc := pc.isLt
  have e0 : t % 2 ^ F.EAS_ARG_ARG.width = t := Nat.mod_eq_of_lt ht
  have e1 : pc.toNat % 2 ^ 32 % 2 ^ F.EAS_ARG_ARG.width = pc.toNat % 2 ^ 32 := Nat.mod_mod _ _
  have e2 : pc.toNat / 2 ^ 32 % 2 ^ F.EAS_ARG_ARG.width = pc.toNat / 2 ^ 32 := Nat.mod_eq_of_lt (by show _ < 2 ^ 32; omega)
  unfold startArgs
  refine ⟨?_, ?_, ?_⟩ <;> simp (disch := decide) only [setRg_rg_of_word_ne, Part.setRg_rg_self, e0, e1, e2]

/-- The mailbox's fields say nothing of cores and threads. -/
theorem startArgs_core (p : Part) (t : Nat) (pc : Dword) (c j : Nat) : (startArgs p t pc).coreInSvc c = p.coreInSvc c ∧
    (startArgs p t pc).rgOn F.PWR_C_RST c j = p.rgOn F.PWR_C_RST c j := by
  have ha : controllerPage F.EAS_ARG_ARG := by unfold controllerPage; decide
  have ho : controllerPage F.EAS_CMD_OP := by unfold controllerPage; decide
  unfold startArgs
  exact ⟨by rw [coreInSvc_setRg ho, coreInSvc_setRg ha, coreInSvc_setRg ha, coreInSvc_setRg ha],
    by rw [pwrRst_setRg ho, pwrRst_setRg ha, pwrRst_setRg ha, pwrRst_setRg ha]⟩

/-- CORE_START starts a thread in reset of a core in service that nothing holds, and ends with code 3 elsewhere. -/
theorem easStart_startArgs {p : Part} {t : Nat} {pc : Dword} (ht : t < 1024) :
    (p.coreInSvc (t / 2) = true → p.runOf t = .inReset → p.rgOn F.PWR_C_RST (tileOfCore (t / 2)) (t / 2 % 2) = false →
      p.sys.pwr.entering.find? (t / 2) = none → (startArgs p t pc).easStart = ((startArgs p t pc).startThread t pc).easEnd 0) ∧
    (p.coreInSvc (t / 2) = false ∨ p.runOf t ≠ .inReset → (startArgs p t pc).easStart = (startArgs p t pc).easEnd 3) := by
  obtain ⟨h0, h1, h2⟩ := startArgs_rg p t pc (Nat.lt_trans ht (by decide))
  obtain ⟨hsvc, -⟩ := startArgs_core p t pc (t / 2) 0
  obtain ⟨-, hrst⟩ := startArgs_core p t pc (tileOfCore (t / 2)) (t / 2 % 2)
  have hrun : (startArgs p t pc).runOf t = p.runOf t := rfl
  have hent : (startArgs p t pc).sys.pwr.entering = p.sys.pwr.entering := rfl
  have hpc : dw (pc.toNat % 2 ^ 32 + pc.toNat / 2 ^ 32 * 2 ^ 32) = pc := by
    rw [Nat.mul_comm, Nat.mod_add_div]
    exact (BitVec.ofNat_toNat 64 pc).trans (BitVec.setWidth_eq pc)
  have ht' : t % 1024 = t := Nat.mod_eq_of_lt ht
  constructor
  · intro hs hr hw he
    simp only [Part.easStart, h0, h1, h2, ht', hsvc, hrst, hrun, hent, hs, hr, hw, he, hpc, ne_eq, not_true_eq_false, Option.isSome_none,
      Bool.false_eq_true, or_self, if_false]
  · intro h
    have hc : ¬ p.coreInSvc (t / 2) = true ∨ p.runOf t ≠ .inReset ∨ p.rgOn F.PWR_C_RST (tileOfCore (t / 2)) (t / 2 % 2) = true ∨
        (p.sys.pwr.entering.find? (t / 2)).isSome = true := by
      rcases h with h | h
      · exact .inl (by rw [h]; exact Bool.false_ne_true)
      · exact .inr (.inl h)
    simp only [Part.easStart, h0, ht', hsvc, hrst, hrun, hent, if_pos hc]

/-- LOG_READ and WARM_RESET write one argument and their command. -/
theorem easCall_one {p : Part} {m : Master} {op n : Nat} {v : BitVec 32} (hm : m.top = true) (ho : op < 256) (hv : v.toNat = n) :
    Part.easCall op [v] m p = ((p.setRg F.EAS_ARG_ARG n 0 0).setRg F.EAS_CMD_OP op).easCmd true := by
  have hargs : Part.easCall op [v] m p = (p.regPut m F.EAS_ARG_ARG 0 0 v).regPut m F.EAS_CMD_GO 0 0 (BitVec.ofNat 32 (2 ^ 31 + op)) := rfl
  rw [hargs, easArg_open hm (opens_easArg0 _) hv, easCmd_open hm ho]

theorem easCall_idle {p : Part} (hb : p.rgOn F.EAS_CMDSTAT_BUSY = false) (n op : Nat) :
    ((p.setRg F.EAS_ARG_ARG n 0 0).setRg F.EAS_CMD_OP op).rgOn F.EAS_CMDSTAT_BUSY = false := by
  rw [easBusy_setOp, easBusy_setRg (by decide), hb]

/-- A warm reset of the socket is done; one of the machine is refused at a socket that is not the master. -/
theorem easCmd_warmReset_of_args {p : Part} (n : Nat) (hn : n < 2) :
    (n = 0 → ((p.setRg F.EAS_ARG_ARG n 0 0).setRg F.EAS_CMD_OP 3).easWarm = (((p.setRg F.EAS_ARG_ARG 0 0 0).setRg F.EAS_CMD_OP 3).warmReset).easEnd 0) ∧
    (n = 1 → p.rgOn F.DVT_ENUM_MASTER = false →
      ((p.setRg F.EAS_ARG_ARG n 0 0).setRg F.EAS_CMD_OP 3).easWarm = ((p.setRg F.EAS_ARG_ARG 1 0 0).setRg F.EAS_CMD_OP 3).easEnd 5) := by
  have ha : ((p.setRg F.EAS_ARG_ARG n 0 0).setRg F.EAS_CMD_OP 3).rg F.EAS_ARG_ARG 0 0 = n := by
    rw [setRg_rg_of_word_ne (by decide) (by decide) (by decide), Part.setRg_rg_self]
    exact Nat.mod_eq_of_lt (Nat.lt_trans hn (by decide))
  have hm : ((p.setRg F.EAS_ARG_ARG n 0 0).setRg F.EAS_CMD_OP 3).rgOn F.DVT_ENUM_MASTER = p.rgOn F.DVT_ENUM_MASTER := by
    rw [Part.rgOn, setRg_rg_of_page_ne (by decide) (by decide) (by decide) (by decide) (by decide),
      setRg_rg_of_page_ne (by decide) (by decide) (by decide) (by decide) (by decide), ← Part.rgOn]
  constructor
  · rintro rfl
    exact if_neg (fun h => absurd (ha ▸ h.1) (by decide))
  · rintro rfl hmas
    refine if_pos ⟨?_, ?_⟩
    · rw [ha]
    · rw [hm, hmas]; exact Bool.false_ne_true

/-! ### Primer -/

theorem regHook_prm (r p : Part) (m : Master) (u w v : Nat) (l : List At) :
    r.regHook p m .prm u w v l = if wroteOne l v F.PRM_CMD_GO then r.prmCmd else r := rfl

theorem opens_prmCmd (p : Part) : p.opens F.PRM_CMD_GO 0 0 [F.PRM_CMD_GO, F.PRM_CMD_OP, F.PRM_CMD_TARGET] := ⟨rfl, rfl⟩

/-- The operation and target of a Primer command are stored. -/
def prmArgs (p : Part) (op u : Nat) : Part := p.takes 0 0 [(F.PRM_CMD_OP, op), (F.PRM_CMD_TARGET, u)]

/-- PRM_CMD with GO stores the command and acts on it. -/
theorem prmCall_open {p : Part} {m : Master} {op : Nat} {target : BitVec 9} (hm : m.top = true) (ho : op < 8) :
    Part.prmCall op target m p = (prmArgs p op target.toNat).prmCmd := by
  have ht := target.isLt
  have hgo : (2 ^ 31 + op * 2 ^ 28 + target.toNat) / 2 ^ F.PRM_CMD_GO.lo % 2 ^ F.PRM_CMD_GO.width ≠ 0 := by
    show (2 ^ 31 + op * 2 ^ 28 + target.toNat) / 2 ^ 31 % 2 ^ 1 ≠ 0
    omega
  have h1 : (2 ^ 31 + op * 2 ^ 28 + target.toNat) / 2 ^ F.PRM_CMD_OP.lo % 2 ^ F.PRM_CMD_OP.width = op := by
    show (2 ^ 31 + op * 2 ^ 28 + target.toNat) / 2 ^ 28 % 2 ^ 3 = op
    omega
  have h2 : (2 ^ 31 + op * 2 ^ 28 + target.toNat) / 2 ^ F.PRM_CMD_TARGET.lo % 2 ^ F.PRM_CMD_TARGET.width = target.toNat := by
    show (2 ^ 31 + op * 2 ^ 28 + target.toNat) / 2 ^ 0 % 2 ^ 9 = target.toNat
    omega
  refine regPut_open (opens_prmCmd p) (by unfold ownPage; decide) (.inl hm) (n := 2 ^ 31 + op * 2 ^ 28 + target.toNat) ?_
    (q := prmArgs p op target.toNat) ?_ ?_
  · rw [BitVec.toNat_ofNat]; omega
  · simp (disch := decide) only [List.foldl_cons, List.foldl_nil, putFld_w1s, putFld_rw, h1, h2]
    rfl
  · exact (regHook_prm ..).trans (if_pos (wroteOne_of_bits (by decide) hgo))

/-- What the stored operation and target leave as it was. -/
theorem prmArgs_keeps (p : Part) (op u : Nat) : (∀ c, (prmArgs p op u).coreInSvc c = p.coreInSvc c) ∧
    (∀ k, (prmArgs p op u).sliceInSvc k = p.sliceInSvc k) ∧ (∀ c, (prmArgs p op u).coreBusy c = p.coreBusy c) ∧
    (prmArgs p op u).lcs = p.lcs ∧ (prmArgs p op u).rgOn F.PRM_CMDSTAT_BUSY = p.rgOn F.PRM_CMDSTAT_BUSY := by
  have ho : controllerPage F.PRM_CMD_OP := by unfold controllerPage; decide
  have ht : controllerPage F.PRM_CMD_TARGET := by unfold controllerPage; decide
  have e : prmArgs p op u = (p.setRg F.PRM_CMD_OP op).setRg F.PRM_CMD_TARGET u := rfl
  rw [e]
  refine ⟨fun c => by rw [coreInSvc_setRg ht, coreInSvc_setRg ho], fun k => by rw [sliceInSvc_setRg ht, sliceInSvc_setRg ho],
    fun c => by rw [coreBusy_setRg ht, coreBusy_setRg ho], ?_, ?_⟩
  · rw [Part.lcs, setRg_rg_of_page_ne (by decide) (by decide) (by decide) (by decide) (by decide),
      setRg_rg_of_page_ne (by decide) (by decide) (by decide) (by decide) (by decide), ← Part.lcs]
  · rw [Part.rgOn, setRg_rg_of_word_ne (by decide) (by decide) (by decide), setRg_rg_of_word_ne (by decide) (by decide) (by decide), ← Part.rgOn]

/-- The stored operation and target read back. -/
theorem prmArgs_rg (p : Part) {op u : Nat} (ho : op < 8) (hu : u < 2 ^ 9) :
    (prmArgs p op u).rg F.PRM_CMD_OP = op ∧ (prmArgs p op u).rg F.PRM_CMD_TARGET = u := by
  have h1 : op % 2 ^ F.PRM_CMD_OP.width = op := Nat.mod_eq_of_lt ho
  have h2 : u % 2 ^ F.PRM_CMD_TARGET.width = u := Nat.mod_eq_of_lt hu
  unfold prmArgs Part.takes
  constructor <;> simp (disch := decide) only [List.foldl_cons, List.foldl_nil, setRg_rg_of_lo_ne, Part.setRg_rg_self, h1, h2]

section
variable {p q : Part} {u : Nat} (hb : p.rgOn F.PRM_CMDSTAT_BUSY = false) (hu : u < 2 ^ 9)
include hb hu

/-- A test of a core and its sparing (R527, R538). -/
theorem prmCmd_core (hl : p.lcs ≠ 4) :
    (p.coreInSvc u = true → p.coreBusy u = false → (prmArgs p 0 u).prmCmd = (prmArgs p 0 u).testStart false u true ∧
      (prmArgs p 2 u).prmCmd = ((prmArgs p 2 u).setRg F.PRM_CMDSTAT_BUSY 1).coreAim u (.spare tileD 0xFF true)) ∧
    (p.coreInSvc u = false → (prmArgs p 0 u).prmCmd = (prmArgs p 0 u).prmEnd 2 ∧ (prmArgs p 2 u).prmCmd = (prmArgs p 2 u).prmEnd 2) := by
  obtain ⟨hs0, -, hc0, hl0, hb0⟩ := prmArgs_keeps p 0 u
  obtain ⟨hs2, -, hc2, hl2, hb2⟩ := prmArgs_keeps p 2 u
  obtain ⟨ho0, ht0⟩ := prmArgs_rg p (op := 0) (by decide) hu
  obtain ⟨ho2, ht2⟩ := prmArgs_rg p (op := 2) (by decide) hu
  have hd : decide (p.lcs ≠ 4) = true := decide_eq_true hl
  constructor
  · intro hs hc
    constructor <;> simp only [Part.prmCmd, hs0, hc0, hl0, hb0, ho0, ht0, hs2, hc2, hl2, hb2, ho2, ht2, hb, hs, hc, hd, Bool.false_eq_true,
      not_true_eq_false, if_false]
  · intro hs
    constructor <;> simp only [Part.prmCmd, hs0, hl0, hb0, ho0, ht0, hs2, hl2, hb2, ho2, ht2, hb, hs, hd, Bool.false_eq_true,
      not_true_eq_false, not_false_eq_true, if_false, if_true]

/-- A test of a slice and its removal. -/
theorem prmCmd_slice (hl : p.lcs ≠ 4) :
    (p.sliceInSvc u = true → (prmArgs p 1 u).prmCmd = (prmArgs p 1 u).testStart true u true ∧
      (prmArgs p 3 u).prmCmd = ((prmArgs p 3 u).sliceOut u).prmEnd 0) ∧
    (p.sliceInSvc u = false → (prmArgs p 1 u).prmCmd = (prmArgs p 1 u).prmEnd 2 ∧ (prmArgs p 3 u).prmCmd = (prmArgs p 3 u).prmEnd 2) := by
  obtain ⟨-, hs1, -, hl1, hb1⟩ := prmArgs_keeps p 1 u
  obtain ⟨-, hs3, -, hl3, hb3⟩ := prmArgs_keeps p 3 u
  obtain ⟨ho1, ht1⟩ := prmArgs_rg p (op := 1) (by decide) hu
  obtain ⟨ho3, ht3⟩ := prmArgs_rg p (op := 3) (by decide) hu
  have hd : decide (p.lcs ≠ 4) = true := decide_eq_true hl
  constructor
  · intro hs
    constructor
    · simp only [Part.prmCmd, hs1, hl1, hb1, ho1, ht1, hb, hs, hd, Bool.false_eq_true, not_true_eq_false, if_false]
    · simp only [Part.prmCmd, hs3, hl3, hb3, ho3, ht3, hb, hs, hd, Bool.false_eq_true, not_true_eq_false, if_false]
      rw [ht3]
  · intro hs
    constructor <;> simp only [Part.prmCmd, hs1, hl1, hb1, ho1, ht1, hs3, hl3, hb3, ho3, ht3, hb, hs, hd, Bool.false_eq_true,
      not_true_eq_false, not_false_eq_true, if_false, if_true]

/-- Restores and the full test, in the life cycle states that allow them. -/
theorem prmCmd_allowed (h2 : p.lcs ≠ 2) (h4 : p.lcs ≠ 4) :
    (u < nCores → (prmArgs p 5 u).prmCmd = ((prmArgs p 5 u).restore false u).prmEnd 0) ∧
    (u < nSlices → (prmArgs p 6 u).prmCmd = ((prmArgs p 6 u).restore true u).prmEnd 0) ∧
    (prmArgs p 4 u).prmCmd = (prmArgs p 4 u).used.fullTest (prmArgs p 4 u).openFails := by
  obtain ⟨-, -, -, hl4, hb4⟩ := prmArgs_keeps p 4 u
  obtain ⟨-, -, -, hl5, hb5⟩ := prmArgs_keeps p 5 u
  obtain ⟨-, -, -, hl6, hb6⟩ := prmArgs_keeps p 6 u
  obtain ⟨ho4, ht4⟩ := prmArgs_rg p (op := 4) (by decide) hu
  obtain ⟨ho5, ht5⟩ := prmArgs_rg p (op := 5) (by decide) hu
  obtain ⟨ho6, ht6⟩ := prmArgs_rg p (op := 6) (by decide) hu
  have hd2 : decide (p.lcs ≠ 2) = true := decide_eq_true h2
  have hd4 : decide (p.lcs ≠ 4) = true := decide_eq_true h4
  refine ⟨fun hn => ?_, fun hn => ?_, ?_⟩
  · have hn' : ¬ u ≥ nCores := Nat.not_le.mpr hn
    simp only [Part.prmCmd, hl5, hb5, ho5, ht5, hb, hd2, hd4, hn', Bool.and_self, Bool.false_eq_true, not_true_eq_false, if_false]
    rw [ht5]
  · have hn' : ¬ u ≥ nSlices := Nat.not_le.mpr hn
    simp only [Part.prmCmd, hl6, hb6, ho6, ht6, hb, hd2, hd4, hn', Bool.and_self, Bool.false_eq_true, not_true_eq_false, if_false]
    rw [ht6]
  · simp only [Part.prmCmd, hl4, hb4, ho4, hb, hd2, hd4, Bool.and_self, Bool.false_eq_true, not_true_eq_false, if_false]

/-- In the others they end with code 1. -/
theorem prmCmd_barred {op : Nat} (ho : op = 4 ∨ op = 5 ∨ op = 6) (h : p.lcs = 2 ∨ p.lcs = 4) :
    (prmArgs p op u).prmCmd = (prmArgs p op u).prmEnd 1 := by
  obtain ⟨-, -, -, hl, hbq⟩ := prmArgs_keeps p op u
  obtain ⟨hop, ht⟩ := prmArgs_rg p (op := op) (by omega) hu
  have hd : (decide (p.lcs ≠ 2) && decide (p.lcs ≠ 4)) = false := by rcases h with h | h <;> rw [h] <;> rfl
  obtain rfl | rfl | rfl := ho <;>
    simp only [Part.prmCmd, hl, hbq, hop, hb, hd, Bool.false_eq_true, not_false_eq_true, if_true, if_false]

/-- An audit begins. -/
theorem prmCmd_audit : (prmArgs p 7 u).prmCmd =
    ((prmArgs p 7 u).setRg F.PRM_CMDSTAT_BUSY 1).modPrm (fun x => { x with audit := some p.time }) := by
  obtain ⟨-, -, -, hl, hbq⟩ := prmArgs_keeps p 7 u
  obtain ⟨hop, ht⟩ := prmArgs_rg p (op := 7) (by decide) hu
  simp only [Part.prmCmd, hbq, hop, hb, Bool.false_eq_true, not_true_eq_false, if_false]
  rfl

end

/-- Settles O27: what each command's write comes to. -/
theorem easelAndPrimerCommands : Obligations.EaselAndPrimerCommands := by
  intro s t pc n whole target m hm
  have ht := t.isLt
  have hu := target.isLt
  refine ⟨fun hb => ⟨?start, ?refused, ?logs, fun hw => ?warm, fun hw hmas => ?machine⟩, fun hb => ?primer⟩
  case start =>
    intro hs hr hw he
    exact exec_run rfl ((coreStart_eq hm (by omega) hb).trans ((easStart_startArgs (by omega)).1 hs hr hw he))
  case refused =>
    exact fun h => exec_run rfl ((coreStart_eq hm (by omega) hb).trans ((easStart_startArgs (by omega)).2 h))
  case logs =>
    exact exec_run rfl ((easCall_one hm (by decide) rfl).trans
      ((easCmd_idle (easCall_idle hb n.toNat 2) (setRg_rg_fits (by decide))).2.1 rfl))
  case warm =>
    subst hw
    exact exec_run rfl ((easCall_one hm (by decide) (n := 0) rfl).trans
      (((easCmd_idle (easCall_idle hb 0 3) (setRg_rg_fits (by decide))).2.2 rfl).trans ((easCmd_warmReset_of_args 0 (by decide)).1 rfl)))
  case machine =>
    subst hw
    exact exec_run rfl ((easCall_one hm (by decide) (n := 1) rfl).trans
      (((easCmd_idle (easCall_idle hb 1 3) (setRg_rg_fits (by decide))).2.2 rfl).trans ((easCmd_warmReset_of_args 1 (by decide)).2 rfl hmas)))
  case primer =>
    have call {op : Nat} (ho : op < 8) {c : Instr} {r : Part} (hc : exec c s = s.run (Part.prmCall op target m))
        (h : (prmArgs s.part op target.toNat).prmCmd = r) : exec c s = s.after r := exec_run hc ((prmCall_open hm ho).trans h)
    have call0 {op : Nat} (ho : op < 8) {c : Instr} {r : Part} (hc : exec c s = s.run (Part.prmCall op 0 m))
        (h : (prmArgs s.part op 0).prmCmd = r) : exec c s = s.after r := exec_run hc ((prmCall_open hm ho).trans h)
    refine ⟨fun hl hs hc => ?_, fun hl hs => ?_, fun hl hs => ?_, fun hl hs => ?_, fun h2 h4 => ⟨fun hn => ?_, fun hn => ?_, ?_⟩, fun h => ⟨?_, ?_, ?_⟩, ?_⟩
    · obtain ⟨h0, h2⟩ := (prmCmd_core hb hu hl).1 hs hc
      exact ⟨call (by decide) rfl h0, call (by decide) rfl h2⟩
    · obtain ⟨h0, h2⟩ := (prmCmd_core hb hu hl).2 hs
      exact ⟨call (by decide) rfl h0, call (by decide) rfl h2⟩
    · obtain ⟨h1, h3⟩ := (prmCmd_slice hb hu hl).1 hs
      exact ⟨call (by decide) rfl h1, call (by decide) rfl h3⟩
    · obtain ⟨h1, h3⟩ := (prmCmd_slice hb hu hl).2 hs
      exact ⟨call (by decide) rfl h1, call (by decide) rfl h3⟩
    · exact call (by decide) rfl ((prmCmd_allowed hb hu h2 h4).1 hn)
    · exact call (by decide) rfl ((prmCmd_allowed hb hu h2 h4).2.1 hn)
    · exact call0 (by decide) rfl (prmCmd_allowed hb (by decide) h2 h4).2.2
    · exact call (by decide) rfl (prmCmd_barred hb hu (by decide) h)
    · exact call (by decide) rfl (prmCmd_barred hb hu (by decide) h)
    · exact call0 (by decide) rfl (prmCmd_barred hb (by decide) (by decide) h)
    · exact call0 (by decide) rfl (prmCmd_audit hb (by decide))

end Sys2Proof.Machine
end

section
/-!
PROOFS. The interleave decode is one to one within a range (O58).
-/
namespace Sys2Proof.Machine
open Sys2Proof
set_option Elab.async false

/-- Different ones of a mask lie at different bits. -/
theorem nthOne_inj {n x j k : Nat} (hj : j < onesBelow n x) (hk : k < onesBelow n x) (h : nthOne n x j = nthOne n x k) : j = k := by
  have hnd : ((List.range n).filter (fun i => x.testBit i)).Nodup := List.nodup_range.filter _
  unfold onesBelow at hj hk
  unfold nthOne at h
  rw [List.getD_eq_getElem _ _ hj, List.getD_eq_getElem _ _ hk] at h
  exact (hnd.getElem_inj_iff).mp h

/-- Two positions within `s × n` that agree in the low part and in the high part are equal. -/
theorem eq_of_mod_of_div {s a b : Nat} (hm : a % s = b % s) (hd : a / s = b / s) : a = b := by
  rw [← Nat.div_add_mod a s, ← Nat.div_add_mod b s, hm, hd]

/-- Two positions of a group that the same fold moves to one place are equal. -/
theorem mod_eq_of_add_mod_eq {w a b c : Nat} (ha : a < w) (hb : b < w) (h : (a + c) % w = (b + c) % w) : a = b := by
  have hmod : a % w = b % w := Nat.ModEq.add_right_cancel' c h
  rwa [Nat.mod_eq_of_lt ha, Nat.mod_eq_of_lt hb] at hmod

theorem gsize_pos (t : Ilv) : 0 < t.gsize := by
  unfold Ilv.gsize
  split <;> decide

theorem socks_pos (t : Ilv) : 0 < t.socks := Nat.pow_pos (by decide)

/-- How far the hash of a group moves its granules. -/
def Ilv.shift (t : Ilv) (grp : Nat) : Nat :=
  let fold := ((grp % 2 ^ 16) ^^^ (grp / 2 ^ 16 % 2 ^ 16)) ^^^ (grp / 2 ^ 32 % 2 ^ 16)
  if t.hash then fold % t.ways else 0

/-- Where a granule of a group goes: its place among the ways. -/
def Ilv.place (t : Ilv) (g : Nat) : Nat := (g % t.ways + t.shift (g / t.ways)) % t.ways

/-- The decode by the granule's place. -/
theorem decode_eq (t : Ilv) (pa : Nat) : t.decode pa =
    let g := (pa - t.base * 2 ^ 30) / t.gsize
    { cxl := t.cxl, pers := t.pers, skt := t.sktbase + t.place g % t.socks, chan := nthOne 16 t.chmask (t.place g / t.socks),
      ca := t.choff * 2 ^ 30 + g / t.ways * t.gsize + (pa - t.base * 2 ^ 30) % t.gsize } := rfl

/-- A place is one of the ways: its quotient by the sockets is one of the targets. -/
theorem place_div_lt {t : Ilv} (h : 0 < t.targets) (g : Nat) : t.place g / t.socks < t.targets := by
  refine Nat.div_lt_of_lt_mul ?_
  exact Nat.mod_lt _ (Nat.mul_pos (socks_pos t) h)

/-- Two granules of one group with one place are the same. -/
theorem granule_eq_of_place {t : Ilv} (h : 0 < t.targets) {g k : Nat} (hgrp : g / t.ways = k / t.ways) (hp : t.place g = t.place k) : g = k := by
  have hw : 0 < t.ways := Nat.mul_pos (socks_pos t) h
  refine eq_of_mod_of_div ?_ hgrp
  unfold Ilv.place at hp
  rw [← hgrp] at hp
  exact mod_eq_of_add_mod_eq (Nat.mod_lt g hw) (Nat.mod_lt k hw) hp

/-- The channel address tells the group and the byte of the granule. -/
theorem channel_address_inj {c s grp grp' r r' : Nat} (hs : 0 < s) (hr : r < s) (hr' : r' < s) (h : c + grp * s + r = c + grp' * s + r') :
    grp = grp' ∧ r = r' := by
  have h' : s * grp + r = s * grp' + r' := by
    rw [Nat.mul_comm s, Nat.mul_comm s]; omega
  have hd : grp = grp' := by
    have := congrArg (· / s) h'
    simpa [Nat.mul_add_div hs, Nat.div_eq_of_lt hr, Nat.div_eq_of_lt hr'] using this
  subst hd
  exact ⟨rfl, by omega⟩

/-- Settles O58: the channel address gives the group and the byte of the granule, socket and channel give the place within the
group. -/
theorem interleaveOneToOne : Obligations.InterleaveOneToOne := by
  intro t a b ht ha hb h
  rw [decode_eq, decode_eq] at h
  injection h with _ _ hskt hchan hca
  have hs := gsize_pos t
  obtain ⟨hgrp, hbyte⟩ := channel_address_inj hs (Nat.mod_lt _ hs) (Nat.mod_lt _ hs) hca
  have hplace : t.place ((a - t.base * 2 ^ 30) / t.gsize) = t.place ((b - t.base * 2 ^ 30) / t.gsize) :=
    eq_of_mod_of_div (Nat.add_left_cancel hskt) (nthOne_inj (place_div_lt ht _) (place_div_lt ht _) hchan)
  have hoff : a - t.base * 2 ^ 30 = b - t.base * 2 ^ 30 := eq_of_mod_of_div hbyte (granule_eq_of_place ht hgrp hplace)
  omega

end Sys2Proof.Machine
end

section
/-!
PROOFS. Routes of the torus and the bound on the rounds that a requester of an arbiter loses (O60).
-/
namespace Sys2Proof.Machine
open Sys2Proof
set_option Elab.async false

/-! ### Rings of twelve -/

/-- Links from `a` to `b` along the shorter half of a ring. -/
def ringGap (a b : Nat) : Nat := min ((a + 12 - b) % 12) ((b + 12 - a) % 12)

/-- On a ring, a step upward where `b` lies at most six above, and a step downward where it lies at least six above, is one
link closer. -/
theorem ringGap_step {a b : Nat} (ha : a < 12) (hb : b < 12) :
    ((b + 12 - a) % 12 ≠ 0 → (b + 12 - a) % 12 ≤ 6 → ringGap ((a + 1) % 12) b + 1 = ringGap a b) ∧
    (6 ≤ (b + 12 - a) % 12 → ringGap ((a + 11) % 12) b + 1 = ringGap a b) := by
  have key : ∀ a < 12, ∀ b < 12,
      ((b + 12 - a) % 12 ≠ 0 → (b + 12 - a) % 12 ≤ 6 → ringGap ((a + 1) % 12) b + 1 = ringGap a b) ∧
      (6 ≤ (b + 12 - a) % 12 → ringGap ((a + 11) % 12) b + 1 = ringGap a b) := by decide
  exact key a ha b hb

/-- A ring's distance upward is zero only at the place itself. -/
theorem ring_ahead_eq_zero {a b : Nat} (ha : a < 12) (hb : b < 12) : (b + 12 - a) % 12 = 0 ↔ a = b := by omega

/-! ### The route (R248, R249) -/

/-- Links left on the way to `b`. -/
def linksLeft (a b : Nat) : Nat := ringGap (a % 12) (b % 12) + ringGap (a / 12) (b / 12)

/-- Column and row of the neighbour along x and along y. -/
theorem torusNext_x (t : Nat) : torusNext t 0 % 12 = (t % 12 + 1) % 12 ∧ torusNext t 0 / 12 = t / 12 ∧
    torusNext t 1 % 12 = (t % 12 + 11) % 12 ∧ torusNext t 1 / 12 = t / 12 := by
  simp only [torusNext]; omega

theorem torusNext_y (t : Nat) : torusNext t 2 % 12 = t % 12 ∧ torusNext t 2 / 12 = (t / 12 + 1) % 12 ∧
    torusNext t 3 % 12 = t % 12 ∧ torusNext t 3 / 12 = (t / 12 + 11) % 12 := by
  simp only [torusNext]; omega

section
variable {src dst cur : Nat}

/-- In another column the packet goes along x, by the shorter half; at six links its source's column decides. -/
theorem torusOut_column (h : cur % 12 ≠ dst % 12) :
    (torusOut src dst cur = 0 ∧ ((dst % 12 + 12 - cur % 12) % 12 < 6 ∨ (dst % 12 + 12 - cur % 12) % 12 = 6 ∧ src % 12 % 2 = 0)) ∨
    (torusOut src dst cur = 1 ∧ 6 ≤ (dst % 12 + 12 - cur % 12) % 12 ∧ ((dst % 12 + 12 - cur % 12) % 12 = 6 → src % 12 % 2 ≠ 0)) := by
  have hd : (dst % 12 + 12 - cur % 12) % 12 ≠ 0 := by omega
  simp only [torusOut, hd, ne_eq, not_false_eq_true, if_true]
  split
  · next h => exact .inl ⟨rfl, h⟩
  · next h => exact .inr ⟨rfl, by omega, by omega⟩

/-- In the column, in another row, it goes along y. -/
theorem torusOut_row (hc : cur < 144) (hd : dst < 144) (h : cur % 12 = dst % 12) (hne : cur ≠ dst) :
    (torusOut src dst cur = 2 ∧ ((dst / 12 + 12 - cur / 12) % 12 < 6 ∨ (dst / 12 + 12 - cur / 12) % 12 = 6 ∧ src / 12 % 2 = 0)) ∨
    (torusOut src dst cur = 3 ∧ 6 ≤ (dst / 12 + 12 - cur / 12) % 12 ∧ ((dst / 12 + 12 - cur / 12) % 12 = 6 → src / 12 % 2 ≠ 0)) := by
  have hx : (dst % 12 + 12 - cur % 12) % 12 = 0 := by omega
  have hy : (dst / 12 + 12 - cur / 12) % 12 ≠ 0 := by omega
  simp only [torusOut, hx, hy, ne_eq, not_true_eq_false, if_false]
  split
  · next h => exact .inl ⟨rfl, h⟩
  · next h => exact .inr ⟨rfl, by omega, by omega⟩

/-- At the destination it is delivered. -/
theorem torusOut_self (src dst : Nat) : torusOut src dst dst = 4 := by
  have hx : (dst % 12 + 12 - dst % 12) % 12 = 0 := by omega
  have hy : (dst / 12 + 12 - dst / 12) % 12 = 0 := by omega
  simp only [torusOut, hx, hy, ne_eq, not_true_eq_false, if_false, if_true]

/-- Each router's output brings the packet one link closer. -/
theorem linksLeft_step (hc : cur < 144) (hd : dst < 144) (hne : cur ≠ dst) :
    linksLeft (torusNext cur (torusOut src dst cur)) dst + 1 = linksLeft cur dst := by
  unfold linksLeft
  by_cases h : cur % 12 = dst % 12
  · obtain ⟨h2, q2, h3, q3⟩ := torusNext_y cur
    have hrow := ringGap_step (a := cur / 12) (b := dst / 12) (by omega) (by omega)
    obtain ⟨ho, hy⟩ | ⟨ho, hy, -⟩ := torusOut_row (src := src) hc hd h hne
    · rw [ho, h2, q2, Nat.add_assoc, hrow.1 (by omega) (by omega)]
    · rw [ho, h3, q3, Nat.add_assoc, hrow.2 hy]
  · obtain ⟨h0, q0, h1, q1⟩ := torusNext_x cur
    have hcol := ringGap_step (a := cur % 12) (b := dst % 12) (by omega) (by omega)
    obtain ⟨ho, hx⟩ | ⟨ho, hx, -⟩ := torusOut_column (src := src) h
    · rw [ho, h0, q0, Nat.add_right_comm, hcol.1 (by omega) (by omega)]
    · rw [ho, h1, q1, Nat.add_right_comm, hcol.2 hx]

end

/-- The neighbour of a tile is a tile. -/
theorem torusNext_lt {t o : Nat} (h : t < 144) : torusNext t o < 144 := by
  unfold torusNext
  split <;> omega

/-- The upper VC is taken at a dateline and kept within its ring. -/
theorem torusUp_iff {t inp o : Nat} {up : Bool} (h : o < 4) :
    torusUp t inp o up = true ↔ torusWraps t o = true ∨ up = true ∧ inp < 4 ∧ inp / 2 = o / 2 := by
  rw [torusUp, if_neg (by omega)]
  simp only [Bool.or_eq_true, Bool.and_eq_true, decide_eq_true_eq]
  tauto

/-! ### The shared-resource arbiter (R258, R259) -/

/-- The highest priority among the requesters bounds each of them. -/
theorem le_foldl_max (f : Nat → Nat) (l : List Nat) (a : Nat) : a ≤ l.foldl (fun x r => max x (f r)) a ∧
    ∀ j ∈ l, f j ≤ l.foldl (fun x r => max x (f r)) a := by
  induction l generalizing a with
  | nil => exact ⟨Nat.le_refl _, fun j hj => absurd hj List.not_mem_nil⟩
  | cons b l ih =>
    obtain ⟨h1, h2⟩ := ih (max a (f b))
    refine ⟨Nat.le_trans (Nat.le_max_left _ _) h1, fun j hj => ?_⟩
    rcases List.mem_cons.mp hj with rfl | hj
    · exact Nat.le_trans (Nat.le_max_right _ _) h1
    · exact h2 j hj

/-- What a round of the arbiter grants, and the priorities and the pointer that it leaves. -/
theorem arbitrate_some {prio base req prio' : List Nat} {ptr w ptr' : Nat} (h : arbitrate prio base ptr req = some (w, prio', ptr')) :
    w ∈ req ∧ w < prio.length ∧ (∀ j ∈ req, prio.getD j 0 ≤ prio.getD w 0) ∧ prio'.length = prio.length ∧
    (∀ j < prio.length, prio'.getD j 0 =
      if j = w then base.getD j 0 else if req.contains j then min 15 (prio.getD j 0 + 1) else prio.getD j 0) ∧
    ptr' = (w + 1) % prio.length ∧
    ∃ k < prio.length, w = (ptr + k) % prio.length ∧ ∀ j < k, (ptr + j) % prio.length ∈ req →
      prio.getD ((ptr + j) % prio.length) 0 ≠ prio.getD w 0 := by
  unfold arbitrate at h
  dsimp only at h
  generalize htop : req.foldl (fun a r => max a (prio.getD r 0)) 0 = top at h
  rw [List.find?_map] at h
  cases hf : (List.range prio.length).find? ((fun r => req.contains r && decide (prio.getD r 0 = top)) ∘ fun k => (ptr + k) % prio.length) with
  | none => rw [hf] at h; exact absurd h (by simp)
  | some k =>
    rw [hf] at h
    simp only [Option.map_some, Option.some.injEq, Prod.mk.injEq] at h
    obtain ⟨hw, hprio, hptr⟩ := h
    obtain ⟨hk, hmem, hfirst⟩ := List.find?_range_eq_some.mp hf
    simp only [Function.comp, Bool.and_eq_true, List.contains_iff_mem, decide_eq_true_eq, hw] at hk
    obtain ⟨hreq, hwtop⟩ := hk
    have hkn : k < prio.length := List.mem_range.mp hmem
    have hwn : w < prio.length := hw ▸ Nat.mod_lt _ (by omega)
    subst hprio hptr
    rw [hw]
    refine ⟨hreq, hwn, fun j hj => ?_, by simp, fun j hj => ?_, rfl, k, hkn, hw.symm, fun j hj hr heq => ?_⟩
    · rw [hwtop, ← htop]
      exact (le_foldl_max (fun r => prio.getD r 0) req 0).2 j hj
    · rw [List.getD_eq_getElem _ _ (by simpa using hj)]
      simp
    · have := hfirst j hj
      simp only [Function.comp, Bool.not_and, Bool.or_eq_true, Bool.not_eq_true', decide_eq_false_iff_not] at this
      rcases this with hc | ht
      · rw [List.contains_iff_mem.mpr hr] at hc
        exact Bool.noConfusion hc
      · exact ht (heq.trans hwtop)

section
variable {base : List Nat} {prio : Nat → List Nat} {ptr won : Nat → Nat} {req : Nat → List Nat} {i : Nat} (hi : i < base.length)
  (hlen : (prio 0).length = base.length) (h15 : ∀ j, base.getD j 0 ≤ 15 ∧ (prio 0).getD j 0 ≤ 15)
  (hreq : ∀ k, i ∈ req k) (hrun : ∀ k, arbitrate (prio k) base (ptr k) (req k) = some (won k, prio (k + 1), ptr (k + 1)))

include hlen hrun in
/-- Every round keeps the number of requesters. -/
theorem prio_length (k : Nat) : (prio k).length = base.length := by
  induction k with
  | zero => exact hlen
  | succ k ih =>
    obtain ⟨-, -, -, hl, -⟩ := arbitrate_some (hrun k)
    exact hl.trans ih

include h15 hrun in
/-- No priority passes 15. -/
theorem prio_le (k j : Nat) : (prio k).getD j 0 ≤ 15 := by
  induction k generalizing j with
  | zero => exact (h15 j).2
  | succ k ih =>
    obtain ⟨-, -, -, hl, hp, -⟩ := arbitrate_some (hrun k)
    by_cases hj : j < (prio k).length
    · rw [hp j hj]
      have := (h15 j).1
      have := ih j
      split
      · assumption
      · split <;> omega
    · rw [List.getD_eq_default _ _ (by omega)]
      exact Nat.zero_le _

include hi hlen h15 hreq hrun in
/-- The priority of a requester is never below its base. -/
theorem base_le_prio (hb : base.getD i 0 ≤ (prio 0).getD i 0) (k : Nat) : base.getD i 0 ≤ (prio k).getD i 0 := by
  induction k with
  | zero => exact hb
  | succ k ih =>
    obtain ⟨-, -, -, -, hp, -⟩ := arbitrate_some (hrun k)
    have := (h15 i).1
    rw [hp i (by rw [prio_length hlen hrun]; exact hi)]
    split
    · exact Nat.le_refl _
    · rw [if_pos (List.contains_iff_mem.mpr (hreq k))]
      omega

include hi hlen hreq hrun in
/-- A lost round raises the priority by one, up to 15. -/
theorem prio_lost {k : Nat} (hl : won k ≠ i) : (prio (k + 1)).getD i 0 = min 15 ((prio k).getD i 0 + 1) := by
  obtain ⟨-, -, -, -, hp, -⟩ := arbitrate_some (hrun k)
  rw [hp i (by rw [prio_length hlen hrun]; exact hi), if_neg hl.symm, if_pos (List.contains_iff_mem.mpr (hreq k))]

include hi hlen hreq hrun in
/-- After `d` lost rounds it has risen by `d`, or to 15. -/
theorem prio_after_losses {m d : Nat} (hl : ∀ k < d, won (m + k) ≠ i) : min 15 ((prio m).getD i 0 + d) ≤ (prio (m + d)).getD i 0 := by
  induction d with
  | zero => exact Nat.min_le_right _ _
  | succ d ih =>
    have hd := ih fun k hk => hl k (Nat.lt_succ_of_lt hk)
    have hstep := prio_lost hi hlen hreq hrun (hl d (Nat.lt_succ_self d))
    rw [← Nat.add_assoc m d 1, hstep]
    omega

include hlen h15 hreq hrun in
/-- At priority 15 a requester `d` places behind the pointer wins, or comes closer to it. -/
theorem closer_of_lost {k d : Nat} (hp : (prio k).getD i 0 = 15) (hd : (ptr k + d) % base.length = i)
    (hl : won k ≠ i) : ∃ e < d, (ptr (k + 1) + e) % base.length = i := by
  obtain ⟨-, -, hmax, -, -, hptr, j, hj, hw, hfirst⟩ := arbitrate_some (hrun k)
  rw [prio_length hlen hrun] at hptr hj hw hfirst
  have hwon : (prio k).getD (won k) 0 = 15 := Nat.le_antisymm (prio_le h15 hrun k _) (hp ▸ hmax i (hreq k))
  have hjd : j < d := by
    rcases Nat.lt_trichotomy j d with h | h | h
    · exact h
    · exact absurd (hw.trans (h ▸ hd)) hl
    · exact absurd (by rw [hd, hp, hwon]) (hfirst d h (by rw [hd]; exact hreq k))
  refine ⟨d - j - 1, by omega, ?_⟩
  rw [hptr, hw, Nat.mod_add_mod, Nat.add_assoc, Nat.mod_add_mod, ← hd]
  congr 1
  omega

include hi hlen h15 hreq hrun in
/-- At priority 15 a requester `d` places behind the pointer wins within `d` lost rounds. -/
theorem wins_at_top {d : Nat} : ∀ k, (prio k).getD i 0 = 15 → (ptr k + d) % base.length = i → d < base.length → ∃ e ≤ d, won (k + e) = i := by
  induction d using Nat.strong_induction_on with
  | _ d ih =>
    intro k hp hd hdn
    by_cases hl : won k = i
    · exact ⟨0, Nat.zero_le _, hl⟩
    · obtain ⟨e, he, hptr⟩ := closer_of_lost hlen h15 hreq hrun hp hd hl
      have hp' : (prio (k + 1)).getD i 0 = 15 := by rw [prio_lost hi hlen hreq hrun hl, hp]; rfl
      obtain ⟨f, hf, hwin⟩ := ih e he (k + 1) hp' hptr (by omega)
      exact ⟨f + 1, by omega, by rw [← hwin]; congr 1; omega⟩

include hi hlen h15 hreq hrun in
/-- A requester that keeps asking loses at most `15 − B` rounds below priority 15 and `n − 1` at it. -/
theorem wins_within (hb : base.getD i 0 ≤ (prio 0).getD i 0) (m : Nat) :
    ∃ k, k ≤ (15 - base.getD i 0) + (base.length - 1) ∧ won (m + k) = i := by
  by_cases hwin : ∃ k < 15 - base.getD i 0, won (m + k) = i
  · obtain ⟨k, hk, hw⟩ := hwin
    exact ⟨k, by omega, hw⟩
  · have hlost : ∀ k < 15 - base.getD i 0, won (m + k) ≠ i := fun k hk hw => hwin ⟨k, hk, hw⟩
    have hup := prio_after_losses hi hlen hreq hrun hlost
    have hbm := base_le_prio hi hlen h15 hreq hrun hb m
    have htop := prio_le h15 hrun (m + (15 - base.getD i 0)) i
    have hB := (h15 i).1
    let p := ptr (m + (15 - base.getD i 0)) % base.length
    have hp : p < base.length := Nat.mod_lt _ (by omega)
    have hdist : (ptr (m + (15 - base.getD i 0)) + (i + base.length - p) % base.length) % base.length = i := by
      rw [Nat.add_mod_mod, ← Nat.mod_add_mod]
      show (p + (i + base.length - p)) % base.length = i
      rw [show p + (i + base.length - p) = i + base.length by omega, Nat.add_mod_right, Nat.mod_eq_of_lt hi]
    have hlt : (i + base.length - p) % base.length < base.length := Nat.mod_lt _ (by omega)
    obtain ⟨e, he, hw⟩ := wins_at_top hi hlen h15 hreq hrun _ (by omega) hdist hlt
    exact ⟨15 - base.getD i 0 + e, by omega, by rw [← Nat.add_assoc]; exact hw⟩

end

/-- Settles O60: the route by rings of twelve, and the lost rounds below and at the highest priority. -/
theorem torusRoutesAndArbiters : Obligations.TorusRoutesAndArbiters := by
  refine ⟨?routes, ?arbiter⟩
  case routes =>
    intro gap left src dst cur inp up hs hd hc o
    have hcol (h : cur % 12 ≠ dst % 12) := torusOut_column (src := src) h
    have hrow (h : cur % 12 = dst % 12) (hne : cur ≠ dst) := torusOut_row (src := src) hc hd h hne
    have hself (h : cur = dst) : o = 4 := by
      subst h
      exact torusOut_self src cur
    have hnext := torusNext_lt (t := cur) (o := o) hc
    refine ⟨⟨fun h => ?_, hself⟩, ?_, hnext, linksLeft_step hc hd, fun h => ?_, fun h hne => ?_, fun h => ?_, fun h hy => ?_, torusUp_iff⟩
    · by_contra hne
      by_cases hx : cur % 12 = dst % 12
      · obtain ⟨ho, -⟩ | ⟨ho, -⟩ := hrow hx hne <;> omega
      · obtain ⟨ho, -⟩ | ⟨ho, -⟩ := hcol hx <;> omega
    · by_cases hx : cur % 12 = dst % 12
      · by_cases hne : cur = dst
        · exact Nat.le_of_eq (hself hne)
        · obtain ⟨ho, -⟩ | ⟨ho, -⟩ := hrow hx hne <;> omega
      · obtain ⟨ho, -⟩ | ⟨ho, -⟩ := hcol hx <;> omega
    · obtain ⟨-, q0, -, q1⟩ := torusNext_x cur
      obtain ⟨ho, -⟩ | ⟨ho, -⟩ := hcol h
      · exact ⟨by omega, by rw [show o = 0 from ho, q0]⟩
      · exact ⟨by omega, by rw [show o = 1 from ho, q1]⟩
    · obtain ⟨q2, -, q3, -⟩ := torusNext_y cur
      obtain ⟨ho, -⟩ | ⟨ho, -⟩ := hrow h hne
      · exact ⟨.inl ho, by rw [show o = 2 from ho, q2]⟩
      · exact ⟨.inr ho, by rw [show o = 3 from ho, q3]⟩
    · obtain ⟨ho, hx⟩ | ⟨ho, -, hx⟩ := hcol (by omega) <;> omega
    · obtain ⟨ho, hx⟩ | ⟨ho, -, hx⟩ := hrow h (by intro he; subst he; omega) <;> omega
  case arbiter =>
    intro base prio ptr won req i hi hlen h15 hb hreq hrun
    refine ⟨fun k => ?_, wins_within hi hlen h15 hreq hrun hb⟩
    obtain ⟨hw, hn, hmax, -⟩ := arbitrate_some (hrun k)
    exact ⟨hw, prio_length hlen hrun k ▸ hn, hmax⟩

end Sys2Proof.Machine
end

section
/-!
PROOFS. Canonical memory (O56), the state after reset (O52), and what a retirement leaves unchanged (O54).
-/
namespace Sys2Proof.Machine
open Sys2Proof
set_option Elab.async false

/-! ### Memories in canonical form -/

theorem Tab.find_isSome {α : Type} (t : Tab α) (k : Nat) : (Tab.find? t k).isSome = true → k ∈ t.map Prod.fst := by
  induction t with
  | nil => simp [Tab.find?]
  | cons e t ih =>
    obtain ⟨j, v⟩ := e
    by_cases hk : j = k
    · simp [hk]
    · simpa [Tab.find?, hk, Ne.symm hk] using ih

/-- In a table of rising keys an entry is what its key reads. -/
theorem Tab.mem_iff_find {α : Type} {t : Tab α} (hs : Tab.sorted t = true) (k : Nat) (v : α) :
    (k, v) ∈ t ↔ Tab.find? t k = some v := by
  rw [Tab.sorted_iff] at hs
  induction t with
  | nil => simp [Tab.find?]
  | cons e t ih =>
    obtain ⟨j, w⟩ := e
    rw [List.map_cons, List.pairwise_cons] at hs
    obtain ⟨hlt, hs⟩ := hs
    by_cases hk : j = k
    · subst hk
      have hnot : ∀ x, (j, x) ∉ t := fun x hx => Nat.lt_irrefl j (hlt j (List.mem_map.2 ⟨_, hx, rfl⟩))
      simp [Tab.find?, hnot v, eq_comm]
    · simpa [Tab.find?, hk, Ne.symm hk] using ih hs

/-- What a memory in canonical form lists: the bytes that differ from the value of a byte never written. -/
theorem Memory.mem_iff {m : List (Nat × Byte)} (hm : Memory.wf m = true) (e : Nat × Byte) :
    e ∈ m ↔ Memory.get m e.1 = e.2 ∧ e.2 ≠ Config.dramReset := by
  obtain ⟨hsorted, hlisted⟩ := (Memory.wf_iff m).1 hm
  obtain ⟨k, v⟩ := e
  constructor
  · intro he
    refine ⟨?_, hlisted _ he⟩
    show Tab.get Config.dramReset m k = v
    rw [Tab.get, (Tab.mem_iff_find hsorted k v).1 he]
  · rintro ⟨hget, hne⟩
    refine (Tab.mem_iff_find hsorted k v).2 ?_
    change Tab.get Config.dramReset m k = v at hget
    rw [Tab.get] at hget
    cases hfind : Tab.find? m k with
    | none => rw [hfind] at hget; exact absurd hget.symm hne
    | some w => rw [hfind] at hget; exact congrArg some hget

theorem Memory.pairwise_of_wf {m : List (Nat × Byte)} (hm : Memory.wf m = true) :
    m.Pairwise (fun a b => a.1 < b.1) :=
  List.pairwise_map.1 ((Tab.sorted_iff m).1 ((Memory.wf_iff m).1 hm).1)

/-- Memories in canonical form that read alike are equal. -/
theorem Memory.ext_of_wf {m n : List (Nat × Byte)} (hm : Memory.wf m = true) (hn : Memory.wf n = true)
    (hread : ∀ k, Memory.get m k = Memory.get n k) : m = n := by
  have hnodup {l : List (Nat × Byte)} (hl : Memory.wf l = true) : l.Nodup :=
    (Memory.pairwise_of_wf hl).imp fun hab he => by rw [he] at hab; exact Nat.lt_irrefl _ hab
  have hperm : m.Perm n := (List.perm_ext_iff_of_nodup (hnodup hm) (hnodup hn)).2 fun e => by
    rw [Memory.mem_iff hm, Memory.mem_iff hn, hread]
  exact hperm.eq_of_pairwise (fun a b _ _ hab hba => absurd hab (Nat.lt_asymm hba)) (Memory.pairwise_of_wf hm)
    (Memory.pairwise_of_wf hn)

/-- Settles O56: the laws of bytes and of lines, and the canonical form. -/
theorem memoryLaws : Obligations.MemoryLaws := by
  unfold Obligations.MemoryLaws
  exact ⟨Memory.get_put, Memory.get_putLine, Memory.line_putLine_self, fun m n => Memory.ext_of_wf⟩

/-! ### The state after reset -/

/-- Settles O52: every table is empty at reset, so every unit reads its reset state. -/
theorem resetState : Obligations.ResetState := by
  unfold Obligations.ResetState
  refine ⟨fun h => absurd h (by decide), State.reset_memWf, rfl, rfl, rfl, fun t => ?_, fun f u i => rfl⟩
  refine ⟨rfl, rfl, rfl, fun i => ?_, fun i => rfl, fun i => ?_, fun i hi => ?_, fun n => ?_⟩
  · show (if i = 0 then (0 : Dword) else 0) = 0
    exact ite_self _
  · show (if i = 0 then true else (1 : BitVec 8).getLsbD i.toNat) = decide (i = 0)
    revert i; decide
  · show (if i = 0 then BitVec.allOnes 64 else (0 : Dword)) = 0
    exact if_neg hi
  · exact BitVec.getLsbD_zero

/-! ### What a retirement may change

One relation for every part of a retirement: it allows what counting, moving on and the passing of time do, is reflexive and
transitive, and each operation of a retirement meets it. -/

/-- The fields of Plumb mode's overrun record (R182). -/
def overrunFields : List Fld := [F.CORE_PLUMB_OVR_OVR, F.CORE_PLUMB_OVR_COUNT, F.CORE_PLUMB_OVR_MAXEX]

/-- Everything of a thread that moving on leaves alone. -/
structure Thr.MovesOn (a b : Thr) : Prop where
  g : b.g = a.g
  c : b.c = a.c
  v : b.v = a.v
  m : b.m = a.m
  level : b.level = a.level
  vm : b.vm = a.vm
  sys : ∀ n, n ≠ srLC 0 → n ≠ srLC 1 → n ≠ srLACT → b.sys n = a.sys n

/-- Everything of a core that counting and fetching onward leave alone. -/
structure CoreSt.Counts (a b : CoreSt) : Prop where
  l1d : b.l1d = a.l1d
  l2 : b.l2 = a.l2
  mb : b.mb = a.mb
  tlb : b.tlb = a.tlb
  btb : b.btb = a.btb

/-- `r` is `q` but for what a retirement of thread `t` may change. -/
structure Part.Retiring (t : Nat) (q r : Part) : Prop where
  mem : r.mem = q.mem
  pois : r.pois = q.pois
  slice : r.slice = q.slice
  chan : r.chan = q.chan
  mt : r.mt = q.mt
  ras : r.ras = q.ras
  elog : r.elog = q.elog
  pci : r.pci = q.pci
  pkt : r.pkt = q.pkt
  key : r.key = q.key
  ven : r.ven = q.ven
  held : r.held = q.held
  others : ∀ u, u ≠ t → r.thread u = q.thread u
  self : (q.thread t).MovesOn (r.thread t)
  cores : ∀ c, c ≠ t / 2 → r.coreOf c = q.coreOf c
  core : (q.coreOf (t / 2)).Counts (r.coreOf (t / 2))
  ctl : ∀ k, (∀ tile, inPage ⟨tile, 0x004⟩ k = false) → (∀ g ∈ overrunFields, k ≠ g.key (t / 2) 0) →
    r.ctl.find? k = q.ctl.find? k

theorem Thr.MovesOn.refl (a : Thr) : a.MovesOn a := ⟨rfl, rfl, rfl, rfl, rfl, rfl, fun _ _ _ _ => rfl⟩

theorem Thr.MovesOn.trans {a b c : Thr} (h : a.MovesOn b) (k : b.MovesOn c) : a.MovesOn c :=
  ⟨k.g.trans h.g, k.c.trans h.c, k.v.trans h.v, k.m.trans h.m, k.level.trans h.level, k.vm.trans h.vm,
    fun n h0 h1 ha => (k.sys n h0 h1 ha).trans (h.sys n h0 h1 ha)⟩

theorem CoreSt.Counts.refl (a : CoreSt) : a.Counts a := ⟨rfl, rfl, rfl, rfl, rfl⟩

theorem CoreSt.Counts.trans {a b c : CoreSt} (h : a.Counts b) (k : b.Counts c) : a.Counts c :=
  ⟨k.l1d.trans h.l1d, k.l2.trans h.l2, k.mb.trans h.mb, k.tlb.trans h.tlb, k.btb.trans h.btb⟩

namespace Part.Retiring

theorem refl (t : Nat) (q : Part) : Retiring t q q :=
  ⟨rfl, rfl, rfl, rfl, rfl, rfl, rfl, rfl, rfl, rfl, rfl, rfl, fun _ _ => rfl, .refl _, fun _ _ => rfl, .refl _,
    fun _ _ _ => rfl⟩

theorem trans {t : Nat} {p q r : Part} (h : Retiring t p q) (k : Retiring t q r) : Retiring t p r :=
  ⟨k.mem.trans h.mem, k.pois.trans h.pois, k.slice.trans h.slice, k.chan.trans h.chan, k.mt.trans h.mt, k.ras.trans h.ras,
    k.elog.trans h.elog, k.pci.trans h.pci, k.pkt.trans h.pkt, k.key.trans h.key, k.ven.trans h.ven, k.held.trans h.held,
    fun u hu => (k.others u hu).trans (h.others u hu), h.self.trans k.self, fun c hc => (k.cores c hc).trans (h.cores c hc),
    h.core.trans k.core, fun x hpage hover => (k.ctl x hpage hover).trans (h.ctl x hpage hover)⟩

variable {t : Nat} {p q : Part}

theorem used (h : Retiring t p q) : Retiring t p q.used := h.trans { refl t q with }

theorem send (h : Retiring t p q) (m : Msg) : Retiring t p (q.send m) := h.trans { refl t q with }

theorem modIc (h : Retiring t p q) (u : Nat) (f : Ic → Ic) : Retiring t p (q.modIc u f) := h.trans { refl t q with }

theorem advance (h : Retiring t p q) (ns : Nat) : Retiring t p (q.advance ns) := by
  unfold Part.advance
  split
  · exact h
  · exact h.trans { refl t q with }

theorem modThread (h : Retiring t p q) {f : Thr → Thr} (hf : (q.thread t).MovesOn (f (q.thread t))) :
    Retiring t p (q.modThread t f) :=
  h.trans { refl t q with
    others := fun u hu => by simp [Part.thread, Part.modThread, hu]
    self := by simpa [Part.thread, Part.modThread] using hf }

theorem modCore (h : Retiring t p q) {f : CoreSt → CoreSt} (hf : ∀ s : CoreSt, s.Counts (f s)) :
    Retiring t p (q.modCore (t / 2) f) :=
  h.trans { refl t q with
    cores := fun c hc => by simp [Part.coreOf, Part.modCore, hc]
    core := by simpa [Part.coreOf, Part.modCore] using hf (q.coreOf (t / 2)) }

/-- A control field may change when it is a tile counter's or one of the core's overrun record. -/
theorem setRg (h : Retiring t p q) {g : Fld} {v u i : Nat}
    (hg : inPage ⟨u, 0x004⟩ (g.key u i) = true ∨ g.key u i ∈ overrunFields.map (·.key (t / 2) 0)) :
    Retiring t p (q.setRg g v u i) :=
  h.trans { refl t q with
    ctl := fun k hpage hover => by
      have hk : k ≠ g.key u i := by
        rintro rfl
        rcases hg with hg | hg
        · rw [hpage u] at hg; exact Bool.false_ne_true hg
        · obtain ⟨f, hf, hkey⟩ := List.mem_map.1 hg
          exact hover f hf hkey.symm
      exact (Tab.find_ins_other _ _ hk).trans (Tab.find_del_other _ hk) }

/-- A field of the page of a tile's counters. -/
theorem setPerf (h : Retiring t p q) {g : Fld} {v u i : Nat} (hb : (g.blk.place u) = ⟨u, 0x004⟩) (hlo : g.lo < 32) :
    Retiring t p (q.setRg g v u i) := by
  refine h.setRg (.inl ?_)
  rw [Fld.key, hb]
  have hw : g.word i < 256 := Nat.mod_lt _ (by decide)
  have : fldKey ⟨u, 0x004⟩ (g.word i) g.lo / 8192 = u * 4096 + 4 := by
    show (((u * 4096 + 4) * 256 + g.word i) * 32 + g.lo) / 8192 = _
    omega
  exact decide_eq_true this

theorem of_ite {a : Prop} [Decidable a] {r s : Part} (h : Retiring t p r) (k : Retiring t p s) :
    Retiring t p (if a then r else s) := by
  split
  · exact h
  · exact k

theorem signalReg (h : Retiring t p q) (tile init : Nat) (en skt core thread vec : Fld) (u : Nat) :
    Retiring t p (q.signalReg tile init en skt core thread vec u) := by
  unfold Part.signalReg
  split
  · exact h.send _
  · exact h

theorem perfAdd (h : Retiring t p q) (tile c n : Nat) : Retiring t p (q.perfAdd tile c n) := by
  have hset (v : Nat) : Retiring t p (q.perfSet tile c v) :=
    (h.setPerf rfl (by decide)).setPerf rfl (by decide)
  have hovf (v w : Nat) : Retiring t p ((q.perfSet tile c v).setRg F.PERF_OVF_OVF w tile) := (hset v).setPerf rfl (by decide)
  unfold Part.perfAdd
  dsimp only
  split
  · exact hset _
  · split
    · exact (hovf _ _).signalReg ..
    · exact hovf _ _

theorem perfEvent (h : Retiring t p q) (tile first cnt evt n : Nat) (vmid : Option Nat) (level : Option Level) :
    Retiring t p (q.perfEvent tile first cnt evt n vmid level) := by
  unfold Part.perfEvent
  split
  · exact h
  · refine foldl_keeps (Retiring t p) _ _ _ h fun r j hr => ?_
    exact of_ite (hr.perfAdd ..) hr

theorem coreEvent (h : Retiring t p q) (u evt n : Nat) : Retiring t p (q.coreEvent u evt n) := by
  unfold Part.coreEvent
  exact h.perfEvent ..

theorem setPend (h : Retiring t p q) (u v : Nat) (notify : Bool) : Retiring t p (q.setPend u v notify) := by
  unfold Part.setPend
  dsimp only
  split
  · exact (h.modIc ..).modIc ..
  · exact h.modIc ..

theorem setOverrun (h : Retiring t p q) {g : Fld} (hg : g ∈ overrunFields) (v : Nat) :
    Retiring t p (q.setRg g v (t / 2)) :=
  h.setRg (.inr (List.mem_map.2 ⟨g, hg, rfl⟩))

theorem plumbExcess (n : Nat) (h : Retiring t p q) : Retiring t p (q.plumbExcess (t / 2) n).1 := by
  induction n generalizing q with
  | zero => exact h
  | succ n ih =>
    unfold Part.plumbExcess
    dsimp only
    split
    · exact ih h.used
    · have hcount : Retiring t p ((q.used.setRg F.CORE_PLUMB_OVR_OVR 1 (t / 2)).countSat F.CORE_PLUMB_OVR_COUNT (t / 2)) :=
        (h.used.setOverrun (by decide) _).setOverrun (by decide) _
      refine ih (coreEvent ?_ _ _ _)
      split
      · exact of_ite ((hcount.setOverrun (by decide) _).setPend ..) (hcount.setOverrun (by decide) _)
      · exact of_ite (hcount.setPend ..) hcount

theorem tick (h : Retiring t p q) (cost : Nat) : Retiring t p (q.tick t cost) := by
  unfold Part.tick
  dsimp only
  generalize hx : (if q.plumb (t / 2) = true then _ else _ : Part × Nat) = x
  have hpassed : Retiring t p x.1 := by
    rw [← hx]
    split
    · exact plumbExcess _ h
    · exact h.used
  have hcore := (hpassed.modCore (f := fun s => { s with cycle := (s.cycle + x.2) % 2 ^ 64, acc := 0, accKept := 0 })
    fun _ => ⟨rfl, rfl, rfl, rfl, rfl⟩).coreEvent t 0 x.2
  exact hcore.used.advance _

theorem capStep (h : Retiring t p q) (edge : Bool) : Retiring t p (q.capStep t edge) := by
  have hcap (s : CoreSt) (k : Nat) (b : Option LoopCap) : s.Counts (s.setCap k b) := by
    unfold CoreSt.setCap
    split <;> exact ⟨rfl, rfl, rfl, rfl, rfl⟩
  unfold Part.capStep
  dsimp only
  split
  · exact of_ite h (h.modCore fun s => hcap s _ _)
  · exact h

theorem parkCheck (h : Retiring t p q) : Retiring t p (q.parkCheck t) := by
  unfold Part.parkCheck
  split
  · exact h.modThread ⟨rfl, rfl, rfl, rfl, rfl, rfl, fun _ _ _ _ => rfl⟩
  · exact h

end Part.Retiring

/-! ### Moving on -/

theorem Thr.MovesOn.setSys {a b : Thr} (h : a.MovesOn b) {n : Nat} (v : Dword) (hn : n = srLC 0 ∨ n = srLC 1 ∨ n = srLACT) :
    a.MovesOn (b.setSys n v) :=
  h.trans { MovesOn.refl b with
    sys := fun k h0 h1 ha => by
      have hk : k ≠ n := by rintro rfl; rcases hn with hn | hn | hn <;> contradiction
      exact Tab.get_put_other _ _ _ hk }

theorem Thr.MovesOn.goOn {a b : Thr} (h : a.MovesOn b) (next : Dword) (jump : Bool) : a.MovesOn (b.goOn next jump) :=
  h.trans ⟨rfl, rfl, rfl, rfl, rfl, rfl, fun _ _ _ _ => rfl⟩

theorem Thr.backEdge_movesOn (th : Thr) (a next : Dword) : th.MovesOn (th.backEdge a next).1 := by
  have h0 : th.MovesOn th := .refl th
  unfold Thr.backEdge
  dsimp only
  split
  · split
    · exact h0.setSys _ (by decide)
    · have h1 := (h0.setSys (n := srLC 1) 0 (by decide)).setSys (n := srLACT) (th.sys srLACT &&& ~~~ (dw (2 ^ 1))) (by decide)
      split
      · split
        · exact h1.setSys _ (by decide)
        · exact (h1.setSys _ (by decide)).setSys _ (by decide)
      · exact h1
  · split
    · split
      · exact h0.setSys _ (by decide)
      · exact (h0.setSys _ (by decide)).setSys _ (by decide)
    · exact h0

theorem Thr.advance_movesOn (th : Thr) (next : Dword) : th.MovesOn (th.advance next).1 := by
  unfold Thr.advance
  split
  · exact (show th.MovesOn { th with slot := none } from ⟨rfl, rfl, rfl, rfl, rfl, rfl, fun _ _ _ _ => rfl⟩).goOn ..
  · exact (Thr.backEdge_movesOn th _ _).goOn ..

theorem Part.retired_retiring {t : Nat} {p q : Part} (h : Part.Retiring t p q) (cost : Nat) :
    Part.Retiring t p (q.retired t cost) :=
  (((h.modThread ⟨rfl, rfl, rfl, rfl, rfl, rfl, fun _ _ _ _ => rfl⟩).coreEvent t 1 1).tick cost).parkCheck

theorem Part.retires_retiring (q : Part) (t cost : Nat) : Part.Retiring t q (q.retires t cost) := by
  unfold Part.retires Part.retireNext
  exact Part.retired_retiring
    (((Part.Retiring.refl t q).modThread (Thr.advance_movesOn _ _)).capStep _) cost

/-- Settles O54: a change of the thread's own registers reaches nothing else, and the retirement only what `Retiring` allows. -/
theorem retiringFrame : Obligations.RetiringFrame := by
  unfold Obligations.RetiringFrame
  intro q t cost f r
  have h : Part.Retiring t (q.modThread t f) r := Part.retires_retiring _ t cost
  have hself : (q.modThread t f).thread t = f (q.thread t) := by simp [Part.thread, Part.modThread]
  have hmoves := h.self
  rw [hself] at hmoves
  refine ⟨fun k => by rw [h.mem]; rfl, h.pois, h.slice, h.chan, h.mt, h.ras, h.elog, h.pci, h.pkt, h.key, h.ven, h.held,
    fun u hu => (h.others u hu).trans (by simp [Part.thread, Part.modThread, hu]), h.cores, fun c => ?_,
    fun i => by simp [Thr.gr, hmoves.g], fun i => by simp [Thr.cr, hmoves.c], fun i => by simp [Thr.vr, hmoves.v],
    fun i => by simp [Thr.mr, hmoves.m], hmoves.level, hmoves.vm, hmoves.sys, h.ctl⟩
  by_cases hc : c = t / 2
  · subst hc
    exact ⟨h.core.l1d, h.core.l2, h.core.mb, h.core.tlb, h.core.btb⟩
  · rw [h.cores c hc]
    exact ⟨rfl, rfl, rfl, rfl, rfl⟩

end Sys2Proof.Machine
end

section
/-!
PROOFS. A fetch from a line that the core's L2 holds (O55).
-/
namespace Sys2Proof.Machine
open Sys2Proof
set_option Elab.async false

variable {p : Part} {c t line : Nat} {x : L2Line}

/-- Where no table is in force a fetch of cacheable memory goes to the address itself (R187). -/
theorem Part.translate_fetch_identity (hlevel : (p.thread t).level = .f ∨ (p.thread t).level = .h) {va : Dword}
    (hva : va.toNat < 2 ^ 52) (htype : regionType va.toNat = .cacheable) :
    p.translate t .fetch va = .ok p va.toNat .cacheable 0 := by
  unfold Part.translate
  simp only [or_comm.1 hlevel, if_true]
  unfold Part.identity
  simp only [Nat.not_le.2 hva, htype, ne_eq, not_true_eq_false, and_false, if_false]

theorem Part.cohRead_held (h : p.l2Get c line = some x) : p.cohRead c line t = .done (p.l2Touch c line) x.line := by
  unfold Part.cohRead
  simp only [h]

theorem Part.coreAsks_held (h : p.l2Get c line = some x) : p.coreAsks c line false false = none := by
  unfold Part.coreAsks
  simp only [h]
  rfl

/-- A coherent read of a held line is served by the L2. -/
theorem Part.cohLine_held (h : p.l2Get (t / 2) line = some x) (hplumb : p.plumb (t / 2) = false) (hdev : (p.thread t).dev = [])
    (chunk : Nat) : p.cohLine t line chunk = .done (p.l2Touch (t / 2) line) x.line := by
  have hans : p.devAnswer t (line * 64) 64 = none := by simp [Part.devAnswer, hdev]
  unfold Part.cohLine
  simp only [hplumb, Bool.false_eq_true, if_false, hans, h, Part.cohRead_held h, Part.coreAsks_held h, Part.heard,
    Option.isSome_some, if_true]

theorem Part.l2Touch_held (h : p.l2Get c line = some x) : (p.l2Touch c line).l2Get c line = some x := by
  unfold Part.l2Touch
  simp only [h]
  unfold Part.l2Get
  rw [Part.modCore_coreOf_self]
  exact h

theorem Part.l2Touch_plumb (c k : Nat) : (p.l2Touch c line).plumb k = p.plumb k := by
  unfold Part.l2Touch
  split <;> rfl

theorem Part.charge_of_not_plumb (h : p.plumb c = false) (n : Nat) : p.charge c n = p := by
  unfold Part.charge
  simp only [h, Bool.false_eq_true, if_false]

/-- Settles O55: the address is its own translation, and the line is served where it is held. -/
theorem heldLineFetch : Obligations.HeldLineFetch := by
  unfold Obligations.HeldLineFetch
  intro p t x hlevel halign hva htype hplumb hbuf hdev hheld hpois line
  have hline : p.cohLine t ((p.thread t).pc.toNat / 64) ((p.thread t).pc.toNat % 64 / 16) =
      .done (p.l2Touch (t / 2) line) x.line := Part.cohLine_held hheld hplumb hdev _
  unfold Part.fetch
  simp only [halign, ne_eq, not_true_eq_false, if_false, Part.translate_fetch_identity hlevel hva htype, hbuf,
    Bool.false_eq_true, hplumb, false_and, Part.charge_of_not_plumb hplumb, hline, Part.l2Touch_plumb,
    show (p.l2Touch (t / 2) line).l2Get (t / 2) ((p.thread t).pc.toNat / 64) = some x from Part.l2Touch_held hheld,
    Option.isNone_some, hpois]
  rfl

end Sys2Proof.Machine
end

section
/-!
PROOFS. I/O translation: the refutation of O28.
-/
namespace Sys2Proof.Machine
open Sys2Proof
set_option Elab.async false

/-- A requester behind port 0, on its bus 1. -/
def containedRid : Nat := 0x108

/-- The part after reset with tile P0, but that requester holds an ATS grant, and its port has been contained (R388). -/
def containedGrant : Part :=
  (((((Part.reset.setRg F.PAL_UNITS_P0 1).setRg F.PCI_PORT_STAT_CONTAINED 1 0).setRg F.PCI_PORT_BUS_SEC 1 0).setRg F.PCI_PORT_BUS_SUB 1 0).modIot 0
    (fun x => { x with ats := [{ rid := containedRid, domain := 0, psid := none, va := 0x1000, size := 0x1000 }] }))

def containedGrantState : State := { pending := [], part := containedGrant }

theorem containedGrant_opens : containedGrant.opens F.IOT_INV_PSID_PSID 0 0 [F.IOT_INV_PSID_PSID] ∧
    containedGrant.opens F.IOT_INV_ADDR_LO_ADDR 0 0 [F.IOT_INV_ADDR_LO_ADDR] ∧
    containedGrant.opens F.IOT_INV_ADDR_HI_ADDR 0 0 [F.IOT_INV_ADDR_HI_ADDR] ∧
    containedGrant.opens F.IOT_INV_CMD_GO 0 0 [F.IOT_INV_CMD_GO, F.IOT_INV_CMD_SCOPE, F.IOT_INV_CMD_DOMAIN, F.IOT_INV_CMD_RID] := by
  unfold Part.opens; decide +kernel

/-- The devices that unit 0 awaits after a command. -/
def awaitedAfter (o : Host.Outcome State Fault Refusal) : Option (List Nat) :=
  match o with
  | .next s => (s.part.iotOf 0).inv.map (fun i => i.wait)
  | _ => none

/-- Refutes O28: its clause on IOT_INV_CMD awaits every device with a grant in scope. A requester below a contained port is not
awaited, as an invalidation directed at it completes at once (R388 step 5): IOT_INV_ALL at such a grant awaits nobody, while
the statement awaits the requester. -/
theorem not_ioTranslation : ¬ Obligations.IoTranslation := by
  unfold Obligations.IoTranslation
  intro h
  obtain ⟨hpsid, hlo, hhi, hcmd⟩ := containedGrant_opens
  have hall := (h.1 containedGrantState 0 0 0 0 0 ⟨false, .f, 0, 0, 0, false⟩ hpsid hlo hhi hcmd 0 0 0 0 0
    (.iotInvAll 0 ⟨false, .f, 0, 0, 0, false⟩) (List.mem_cons_self ..)).2 (by decide +kernel)
  exact absurd (congrArg awaitedAfter hall) (by decide +kernel)

end Sys2Proof.Machine
end

section
/-!
PROOFS. The merging buffer, the prefetchers and the slices (O29).
-/
namespace Sys2Proof.Machine
open Sys2Proof
set_option Elab.async false

variable {p q : Part} {c t k g idx : Nat} {l2 : Bool}

theorem Part.mergeDrain_entry {e : MbEnt} (h : (p.coreOf c).mb[idx]? = some e) :
    Part.mergeDrain c idx p = (p.drainEntry c e).2.sqPump c := by
  unfold Part.mergeDrain
  simp only [h]

/-- An entry that has been sent, or that stays behind an older one, does not drain. -/
theorem Part.drainEntry_kept {e : MbEnt} (h : e.sent = true ∨ p.mbBehind c e = true) : p.drainEntry c e = (none, p) := by
  unfold Part.drainEntry
  simp only [h, if_true]

/-- A prefetch of a line that its trackers reach and a TLB entry translates. -/
theorem Part.hwPrefetch_done {va : Dword} {pa : Nat} {x : Line} (hon : p.pfOn (t / 2) l2 = true)
    (hplumb : p.plumb (t / 2) = false) (hrun : (p.thread t).run ≠ .inReset) (hreach : p.pfReaches t va.toNat l2 = true)
    (hpeek : p.tlbPeek t va.toNat = some pa)
    (hread : p.heard (p.threadAgent t) (pa / 64) (p.coreAsks (t / 2) (pa / 64) false false)
      (p.cohRead (t / 2) (pa / 64) t) = .done q x) :
    Part.hwPrefetch t va l2 p = if l2 = true ∨ (q.l2Get (t / 2) (pa / 64)).isNone = true then q
      else q.modCore (t / 2) (fun y => y.l1dUse (pa / 64)) := by
  unfold Part.hwPrefetch
  simp only [hon, hplumb, hrun, hreach, hpeek, hread, not_true_eq_false, Bool.false_eq_true, or_self, if_false]

theorem Part.hwPrefetch_idle {va : Dword}
    (h : p.pfOn (t / 2) l2 = false ∨ p.pfReaches t va.toNat l2 = false ∨ p.tlbPeek t va.toNat = none) :
    Part.hwPrefetch t va l2 p = p := by
  unfold Part.hwPrefetch
  rcases h with h | h | h
  · simp [h]
  · simp [h]
  · simp only [h, ite_self]

theorem Part.wayGroupCleaned_cleaning (h : (p.rg F.LLC_WAYSTAT_CLEANING k).testBit g = true) :
    Part.wayGroupCleaned k g p = (p.sweepLines k (fun y => y / 4 = g) true).setRg F.LLC_WAYSTAT_CLEANING
      (setBit ((p.sweepLines k (fun y => y / 4 = g) true).rg F.LLC_WAYSTAT_CLEANING k) g false) k := by
  unfold Part.wayGroupCleaned
  simp only [h, not_true_eq_false, if_false]

/-- The way group `g` of slice `k` that was waking is there to allocate in. -/
def Part.wayGroupUp (p : Part) (k g : Nat) : Part :=
  (p.setRg F.LLC_WAYSTAT_WAKING (setBit (p.rg F.LLC_WAYSTAT_WAKING k) g false) k).setRg F.LLC_WAYSTAT_POWERED
    (setBit (p.rg F.LLC_WAYSTAT_POWERED k) g true) k

/-- A woken group stays up when ON still names it, and is cleaned again otherwise. -/
theorem Part.wayGroupWoken_waking (h : (p.rg F.LLC_WAYSTAT_WAKING k).testBit g = true) :
    Part.wayGroupWoken k g p = if (p.rg F.LLC_WAYPWR_ON k).testBit g = true then p.wayGroupUp k g
      else (p.wayGroupUp k g).wayGroupSet k g false := by
  have hpowered (v : Nat) : (p.setRg F.LLC_WAYSTAT_WAKING v k).rg F.LLC_WAYSTAT_POWERED k = p.rg F.LLC_WAYSTAT_POWERED k :=
    setRg_rg_of_lo_ne (by decide) (by decide) (by decide)
  have hon (v w : Nat) : ((p.setRg F.LLC_WAYSTAT_WAKING v k).setRg F.LLC_WAYSTAT_POWERED w k).rg F.LLC_WAYPWR_ON k =
      p.rg F.LLC_WAYPWR_ON k :=
    (setRg_rg_of_word_ne (by decide) (by decide) (by decide)).trans
      (setRg_rg_of_word_ne (by decide) (by decide) (by decide))
  unfold Part.wayGroupWoken
  simp only [h, not_true_eq_false, if_false, hpowered, hon, Part.wayGroupUp]

theorem Part.llcSweepDone_sweeping {w : Sweep} (h : (p.sliceOf k).sweep = some w) :
    Part.llcSweepDone k p = ((((p.homeGrant k 3).sweepLines k (fun y => w.groups.testBit (y / 4)) w.flush).modSlice k
      (fun x => { x with sweep := none })).setRg F.LLC_MSTAT_BUSY 0 k).setRg F.LLC_MSTAT_DONE 1 k := by
  unfold Part.llcSweepDone
  simp only [h]

/-- Settles O29: each event by its own lemma. -/
theorem cacheEvents : Obligations.CacheEvents := by
  unfold Obligations.CacheEvents
  refine ⟨fun s c idx t va l2 e => ⟨fun h => ⟨exec_run rfl (Part.mergeDrain_entry h), Part.drainEntry_kept⟩,
    fun q pa x hon hplumb hrun hreach hpeek hread =>
      exec_run rfl (Part.hwPrefetch_done hon hplumb hrun hreach hpeek hread),
    fun h => exec_run rfl (Part.hwPrefetch_idle h)⟩, fun s k g w => ⟨?cleaned, ?woken, ?swept⟩⟩
  case cleaned => exact fun h => exec_run rfl (Part.wayGroupCleaned_cleaning h)
  case woken =>
    intro h
    have hwoken := Part.wayGroupWoken_waking h
    exact ⟨fun hon => exec_run rfl (hwoken.trans (if_pos hon)),
      fun hoff => exec_run rfl (hwoken.trans (if_neg (Bool.eq_false_iff.1 hoff)))⟩
  case swept => exact fun h => exec_run rfl (Part.llcSweepDone_sweeping h)

end Sys2Proof.Machine
end

section
/-!
PROOFS. The fabric's events and the homes' timers (O30).
-/
namespace Sys2Proof.Machine
open Sys2Proof
set_option Elab.async false

variable {p q : Part} {k c tile port times line : Nat}

/-! ### Ticks -/

/-- The number of the frame that a tick begins. -/
def Part.nextFrame (p : Part) : Nat := match p.sys.epoch with | none => 0 | some k => (k + 1) % 2 ^ 32

/-- The part at the start of frame `n`, before the collector's held write (R560). -/
def Part.frameStart (p : Part) (n : Nat) : Part :=
  ((List.range nTiles).foldl (fun (y : Part) (t : Nat) =>
    (if y.rgOn F.FAB_STNCTL_EN t ∧ y.rg F.CLK_UNC_FEFF t < 96 then y.setRg F.FAB_STNSTAT_SHORT 1 t else y).stencilFrame t n)
    ((p.fabFrame.advance (if n % 3 = 0 then 106 else 107)).modSys (fun x => { x with epoch := some n }))).applyHeld
      (inPage gperfPage)

theorem Part.epochTick_clocked {n : Nat} (hn : p.nextFrame = n) (href : p.sys.pwr.refLoss = false) (hboot : p.sys.boot ≠ .off)
    (hhold : (p.frameStart n).sys.gperf.hold = none) :
    p.epochTick = (p.frameStart n).modDvt (fun x => { x with ticks := x.ticks + 1 }) := by
  unfold Part.nextFrame at hn
  unfold Part.frameStart at hhold ⊢
  unfold Part.epochTick
  cases hepoch : p.sys.epoch with
  | none =>
    simp only [hepoch] at hn
    subst hn
    simp only [Nat.zero_mod, if_true] at hhold
    simp only [href, hboot, Bool.false_eq_true, or_self, if_false, Nat.zero_mod, if_true, hhold]
  | some k =>
    simp only [hepoch] at hn
    simp only [href, hboot, Bool.false_eq_true, or_self, if_false, hn, hhold]

theorem Part.epochTick_no_clock (href : p.sys.pwr.refLoss = true) : p.epochTick = p := by
  unfold Part.epochTick
  simp only [href, true_or, if_true]

theorem Part.tickLost_running (htile : tile < nTiles) (hepoch : p.sys.epoch ≠ none) :
    Part.tickLost tile p = ((p.fabRun (p.fab.frame + 512 * 96 / max 1 (p.rg F.CLK_UNC_FEFF tile) - p.fab.now)).setRg
      F.FAB_STNSTAT_TICKLOST 1 tile).rasLog tile 0xFF 13 0 0xFF 0 (.named [10]) := by
  unfold Part.tickLost
  simp only [Nat.not_le.2 htile, hepoch, or_self, if_false]

/-! ### Errors of a link -/

/-- A link without a flit under way only counts the error. -/
theorem Part.torusCrcError_idle (htile : tile < nTiles) (hport : port < 4) (htimes : times ≠ 0)
    (h0 : (p.linkEnd tile port 0).cross = []) (h1 : (p.linkEnd tile port 1).cross = [])
    (hwire : ∀ x ∈ (p.tileFab tile).wire, x.inp ≠ port) :
    Part.torusCrcError tile port times p = p.linkError tile port times := by
  have hnone (plane : Nat) :
      (p.tileFab tile).wire.find? (fun w => decide (w.inp = port) && decide (w.flit.cls / 2 = plane)) = none :=
    List.find?_eq_none.2 fun x hx => by simp [hwire x hx]
  unfold Part.torusCrcError
  simp only [Nat.not_le.2 htile, Nat.not_le.2 hport, htimes, or_self, if_false, h0, h1, hnone, Option.map_none]

theorem Part.linkError_eq (p : Part) (tile port times : Nat) :
    p.linkError tile port times =
      let r := ((p.count F.FAB_LINKERR_REPLAYS F.FAB_STATSTAT_OVF tile port).rasCount tile 11 1 1 0xFF 0 .unstated port 0).perfEvent
        tile 20 4 5 1 none none
      if 8 ≤ times then ((r.modLinkEnd tile port 0 (fun e => { e with dead := true })).modLinkEnd tile port 1
        (fun e => { e with dead := true })).socketCheck tile [1, tile, port] else r := rfl

/-- No CRC is its own complement. -/
theorem complement_ne_self (x : BitVec 16) : ~~~ x ≠ x := by
  intro h
  have hbit := congrArg (fun y => y.getLsbD 0) h
  simp at hbit

theorem Part.linkCrc_modLinkEnd (f : LinkEnd → LinkEnd) (x : Flit) (up : Bool) (seq : Nat) :
    (p.modLinkEnd tile port 0 f).linkCrc x up seq = p.linkCrc x up seq := rfl

/-- The flit that has crossed fails its check and is sent again. -/
theorem Part.torusCrcError_crossed {w : Wire} {b : Bool} {l : List (Wire × Bool)} (htile : tile < nTiles) (hport : port < 4)
    (htimes : times ≠ 0) (h0 : (p.linkEnd tile port 0).cross = (w, b) :: l) :
    Part.torusCrcError tile port times p =
      (p.modLinkEnd tile port 0 (fun e => { e with fails := times - 1 })).replay tile port 0 w.seq times := by
  have hfails : ((p.modLinkEnd tile port 0 (fun e => { e with fails := times - 1 })).linkEnd tile port 0).fails + 1 = times := by
    simp only [Part.linkEnd, Part.modLinkEnd, Part.modTileFab_tileFab_self, Tab.get_upd_self]
    exact Nat.succ_pred_eq_of_ne_zero htimes
  unfold Part.torusCrcError
  simp only [Nat.not_le.2 htile, Nat.not_le.2 hport, htimes, or_self, if_false, h0]
  unfold Part.linkTake
  simp only [Part.linkCrc_modLinkEnd, complement_ne_self, false_and, if_false, hfails]

/-! ### The homes -/

section waitList

variable {t : Trk} (hbusy : p.lineBusy k line = false)
    (hfind : (p.sliceOf k).trk.find? (fun t => decide (t.req.line = line)) = some t)
include hbusy hfind

theorem Part.waitListStart_turn {r : Part} (hturn : p.homeTurn k 2 = some r) :
    Part.waitListStart k line p = (r.modSlice k (fun y => { y with trk := y.trk.erase t })).homeBegin k t.req t.time t.tmo := by
  unfold Part.waitListStart
  simp only [hbusy, Bool.false_eq_true, if_false, hfind, hturn]

theorem Part.waitListStart_no_turn (hturn : p.homeTurn k 2 = none) : Part.waitListStart k line p = p := by
  unfold Part.waitListStart
  simp only [hbusy, Bool.false_eq_true, if_false, hfind, hturn]

end waitList

theorem Part.deferralEnd_held {x : L2Line} (h : p.l2Get c line = some x) :
    Part.deferralEnd c line p = p.modCore c (fun y => { y with l2 := y.l2.put line { x with held := false, hold := 0 } }) := by
  unfold Part.deferralEnd
  simp only [h]

/-- A home whose answers are late goes to the deadline, and the line fails. -/
theorem Part.homeTimeout_oldest {t : Trk} (h : p.oldestOf k line = some t) :
    Part.homeTimeout k line p = ({ p with time := max p.time (t.time + t.tmo * 1000) } : Part).lineFails k line t := by
  unfold Part.homeTimeout
  simp only [h]

section lineFails

variable {t : Trk}

/-- The records of a line that fails, but for the core and what is waited on (R318). -/
def Part.failAddr (p : Part) (k line : Nat) (t : Trk) : Part :=
  (p.homeGrant k 4).takes k 0 [(F.COH_TMOADDR_LO_ADDR, line % 2 ^ 26), (F.COH_TMOADDR_HI_ADDR, line / 2 ^ 26),
    (F.COH_TMOHOLD_VALID, 1), (F.COH_TMOHOLD_SOCKET, (p.waitsFor k t).2 / 256), (F.COH_TMOHOLD_TILE, (p.waitsFor k t).2 % 256)]

/-- The core that a line that fails waited on. -/
def Part.failCore (p : Part) (k line : Nat) (t : Trk) : Nat :=
  if (p.waitsFor k t).1 = 2 then t.req.src.init / 2 % 2
  else match (p.failAddr k line t).tileCopy ((p.waitsFor k t).2 % 256) line with | some (c, _) => c % 2 | none => 0

/-- A line that fails, with its records, before the agent is reported. -/
def Part.failed (p : Part) (k line : Nat) (t : Trk) : Part :=
  ((((((p.failAddr k line t).takes k 0 [(F.COH_TMOHOLD_CORE, p.failCore k line t), (F.COH_TMOHOLD_WHAT, (p.waitsFor k t).1)]).count
    F.COH_TMOCNT_COUNT F.COH_STAT_OVF k).setRg F.COH_STAT_TMO 1 k).rasCount
    (coreTile k) 12 11 2 4 (line * 64) (.named [18, (p.waitsFor k t).1, (p.waitsFor k t).2, p.failCore k line t]) k line).poisonLine
    k line).perfEvent (coreTile k) 16 4 8 1 (some t.req.vmid) none

/-- Whom a failing line reports: a core of this socket to Easel, an agent of another socket to that socket. -/
theorem Part.lineFails_eq (p : Part) (k line : Nat) (t : Trk) :
    p.lineFails k line t =
      let w := p.waitsFor k t
      let r := p.failed k line t
      if (w.1 = 1 ∨ w.1 = 2) ∧ w.2 / 256 = r.sktId ∧ (coreOrd (w.2 % 256)).isSome then
        r.easelResets (2 * (coreOrd (w.2 % 256)).getD 0 + p.failCore k line t)
      else if w.2 / 256 ≠ r.sktId then
        r.modDvt (fun y => { y with mail := y.mail ++ [(w.2 / 256, .report r.sktId (w.2 / 256) line (w.2 % 256) (2 * p.failCore k line t))] })
      else r := rfl

theorem Part.lineFails_nobody (h1 : (p.waitsFor k t).1 ≠ 1) (h2 : (p.waitsFor k t).1 ≠ 2)
    (hskt : (p.waitsFor k t).2 / 256 = (p.failed k line t).sktId) : p.lineFails k line t = p.failed k line t := by
  rw [Part.lineFails_eq]
  simp only [h1, h2, hskt, or_self, false_and, if_false, ne_eq, not_true_eq_false]

theorem Part.lineFails_remote (hskt : (p.waitsFor k t).2 / 256 ≠ (p.failed k line t).sktId) :
    p.lineFails k line t = (p.failed k line t).modDvt (fun y => { y with mail := y.mail ++ [((p.waitsFor k t).2 / 256,
      .report (p.failed k line t).sktId ((p.waitsFor k t).2 / 256) line ((p.waitsFor k t).2 % 256) (2 * p.failCore k line t))] }) := by
  rw [Part.lineFails_eq]
  simp only [hskt, false_and, and_false, if_false, ne_eq, not_false_eq_true, if_true]

theorem Part.lineFails_core {n : Nat} (hwhat : (p.waitsFor k t).1 = 1 ∨ (p.waitsFor k t).1 = 2)
    (hskt : (p.waitsFor k t).2 / 256 = (p.failed k line t).sktId) (hord : coreOrd ((p.waitsFor k t).2 % 256) = some n) :
    p.lineFails k line t = (p.failed k line t).easelResets (2 * n + p.failCore k line t) := by
  rw [Part.lineFails_eq]
  simp only [hwhat, hskt, hord, Option.isSome_some, and_self, if_true, Option.getD_some]

end lineFails

theorem Part.coreDrainTimeout_running {a : AimSt} (h : p.sys.pwr.entering.find? c = some a) (hheld : a.held = none) :
    Part.coreDrainTimeout c p = { p with time := max p.time (a.since + 100000) } := by
  unfold Part.coreDrainTimeout
  simp only [h, hheld]

/-- A core that has not drained in time is taken down (R309). -/
theorem Part.coreDrainTimeout_taken {a : AimSt} (h : p.sys.pwr.entering.find? c = some a) (hheld : a.held ≠ none) :
    Part.coreDrainTimeout c p = ((({ p with time := max p.time (a.since + 100000) } : Part).coreDark c).modCore c
      (fun y => { y with draining := true })).aimEnd c a := by
  obtain ⟨held, hsome⟩ := Option.ne_none_iff_exists'.1 hheld
  unfold Part.coreDrainTimeout
  simp only [h, hsome]

/-- Settles O30: each event by its own lemma. -/
theorem fabricAndHomeTimers : Obligations.FabricAndHomeTimers := by
  unfold Obligations.FabricAndHomeTimers
  refine ⟨fun s tile port times w b l => ⟨?tick, ?noClock, ?lost, ?idle, ?crossed⟩,
    fun s k c line t x a => ⟨?waits, ?deferral, ?timeout, ?drain⟩⟩
  case tick =>
    intro href hboot _ n q r u hhold
    have hn : s.part.nextFrame = n := rfl
    have hu : u = s.part.frameStart n := rfl
    rw [hu] at hhold ⊢
    exact exec_run rfl (Part.epochTick_clocked hn href hboot hhold)
  case noClock => exact fun href => exec_run rfl (Part.epochTick_no_clock href)
  case lost => exact fun hepoch => exec_run rfl (Part.tickLost_running tile.isLt hepoch)
  case idle =>
    intro htimes h0 h1 hwire q r
    have hidle := Part.torusCrcError_idle tile.isLt port.isLt htimes h0 h1 hwire
    rw [Part.linkError_eq] at hidle
    exact ⟨fun hlt => exec_run rfl (hidle.trans (if_neg (Nat.not_le.2 hlt))), fun hge => exec_run rfl (hidle.trans (if_pos hge))⟩
  case crossed => exact fun htimes h0 => exec_run rfl (Part.torusCrcError_crossed tile.isLt port.isLt htimes h0)
  case waits =>
    intro hbusy hfind
    exact ⟨fun r hturn => exec_run rfl (Part.waitListStart_turn hbusy hfind hturn),
      fun hturn => exec_run rfl (Part.waitListStart_no_turn hbusy hfind hturn)⟩
  case deferral => exact fun hx => exec_run rfl (Part.deferralEnd_held hx)
  case timeout =>
    intro hold q0 w v core q r
    have hfails := Part.homeTimeout_oldest hold
    exact ⟨fun h1 h2 hskt => exec_run rfl (hfails.trans (Part.lineFails_nobody h1 h2 hskt)),
      fun hskt => exec_run rfl (hfails.trans (Part.lineFails_remote hskt)),
      fun n hwhat hskt hord => exec_run rfl (hfails.trans (Part.lineFails_core hwhat hskt hord))⟩
  case drain =>
    intro haim q
    exact ⟨fun hnone => exec_run rfl (Part.coreDrainTimeout_running haim hnone),
      fun hsome => exec_run rfl (Part.coreDrainTimeout_taken haim hsome)⟩

end Sys2Proof.Machine
end

section
/-!
PROOFS. Requests at their home, and the snoops that serve them (O31); write-backs and persistent writes (O32).
-/
namespace Sys2Proof.Machine
open Sys2Proof
set_option Elab.async false

/-! ### A request at its home -/

section homeRequest

variable {p r g : Part} {q m : Msg} {k : Nat} (ha : p.arrive q = (m, r))
include ha

/-- With every tracker used, or at another requester's turn, a request stays. -/
theorem Part.homeRequest_stays (hk : r.homeHere m.line = some k) (hfull : 64 ≤ r.trkUsed k ∨ r.homeTurn k 0 = none) :
    Part.homeRequest q p = p.stays m r := by
  have hturn : (if r.trkUsed k ≥ 64 then none else r.homeTurn k 0) = none := by
    split
    · rfl
    next hroom => exact hfull.resolve_left hroom
  unfold Part.homeRequest
  simp only [ha, hk, hturn]

/-- A request whose line has another is queued behind it. -/
theorem Part.homeRequest_queued (hk : r.homeHere m.line = some k) (hroom : r.trkUsed k < 64) (hturn : r.homeTurn k 0 = some g)
    (hbusy : (((g.homeEvent k 1 m.vmid).sliceOf k).trk.any fun t => t.req.line = m.line) = true) :
    Part.homeRequest q p = (((g.homeEvent k 1 m.vmid).modSlice k (fun x => { x with trk := x.trk ++
      [⟨m, false, [], false, false, false, false, false, false, none, 0, (g.homeEvent k 1 m.vmid).time,
        (g.homeEvent k 1 m.vmid).homeTmo k⟩] })).homeEvent k 6 m.vmid) := by
  unfold Part.homeRequest
  simp only [ha, hk, Nat.not_le.2 hroom, if_false, hturn, hbusy, if_true]

/-- A request of a free line begins. -/
theorem Part.homeRequest_begins (hk : r.homeHere m.line = some k) (hroom : r.trkUsed k < 64) (hturn : r.homeTurn k 0 = some g)
    (hfree : (((g.homeEvent k 1 m.vmid).sliceOf k).trk.any fun t => t.req.line = m.line) = false) :
    Part.homeRequest q p = (g.homeEvent k 1 m.vmid).homeBegin k m (g.homeEvent k 1 m.vmid).time
      ((g.homeEvent k 1 m.vmid).homeTmo k) := by
  unfold Part.homeRequest
  simp only [ha, hk, Nat.not_le.2 hroom, if_false, hturn, hfree, Bool.false_eq_true]

/-- A line of no home is answered as unassigned. -/
theorem Part.homeRequest_unassigned (hhere : r.homeHere m.line = none) (hskt : r.homeSkt m.line = none) :
    Part.homeRequest q p = r.send (Msg.withStat { Msg.blank with
      opc := .dna, src := ⟨r.sktId, m.dst.tile, 4⟩, dst := m.src, txid := m.txid, addr := m.line * 64, pois := 0xF } 3) := by
  unfold Part.homeRequest
  simp only [ha, hhere, hskt, Option.isNone_none, if_true]

end homeRequest

/-- The commands of requests at a home are one effect under their codes. -/
theorem exec_homeRequest (s : State) (q : Msg) {o : Opc} {c : Instr}
    (h : (o, c) ∈ [(Opc.rds, Instr.rds q), (Opc.rdo, Instr.rdo q), (Opc.upg, Instr.upg q), (Opc.own, Instr.own q), (Opc.rdna, Instr.rdna q),
       (Opc.wrna, Instr.wrna q), (Opc.wrnap, Instr.wrnap q), (Opc.amof, Instr.amof q), (Opc.cmoc, Instr.cmoc q), (Opc.cmof, Instr.cmof q),
       (Opc.cmoi, Instr.cmoi q), (Opc.cmoii, Instr.cmoii q), (Opc.wbm, Instr.wbm q), (Opc.wbc, Instr.wbc q)]) :
    exec c s = s.run (Part.onArrival { q with opc := o } (Part.homeRequest { q with opc := o })) := by
  simp only [List.mem_cons, Prod.mk.injEq, List.not_mem_nil, or_false] at h
  rcases h with ⟨rfl, rfl⟩ | ⟨rfl, rfl⟩ | ⟨rfl, rfl⟩ | ⟨rfl, rfl⟩ | ⟨rfl, rfl⟩ | ⟨rfl, rfl⟩ | ⟨rfl, rfl⟩ | ⟨rfl, rfl⟩ |
    ⟨rfl, rfl⟩ | ⟨rfl, rfl⟩ | ⟨rfl, rfl⟩ | ⟨rfl, rfl⟩ | ⟨rfl, rfl⟩ | ⟨rfl, rfl⟩ <;> rfl

/-! ### The snoops of a request -/

theorem DirEnt.snoopTiles_listed (d : DirEnt) (me : Nat) (h : d.fmt ≠ .bcast) : d.snoopTiles me = d.tiles := by
  unfold DirEnt.snoopTiles
  rw [if_pos h]

/-- Where a broadcast goes. -/
theorem DirEnt.mem_snoopTiles_bcast (d : DirEnt) (me n : Nat) (h : d.fmt = .bcast) :
    n ∈ d.snoopTiles me ↔ ((∃ t ∈ d.tiles, t / 256 = me) ∧ (∃ k < nSlices, n = me * 256 + coreTile k)) ∨
      (∃ t ∈ d.tiles, t / 256 ≠ me ∧ n = t / 256 * 256 + tileD) := by
  have hskt (x : Nat) : x ∈ (d.tiles.map (· / 256)).eraseDups ↔ ∃ t ∈ d.tiles, t / 256 = x := by
    rw [List.mem_eraseDups, List.mem_map]
  unfold DirEnt.snoopTiles
  simp only [h, ne_eq, not_true_eq_false, if_false, List.mem_append, List.contains_eq_mem, decide_eq_true_eq]
  refine or_congr ?_ ?_
  · split
    next hin =>
      simp only [(hskt me).1 hin, true_and, List.mem_map, List.mem_range]
      exact ⟨fun ⟨k, hk, e⟩ => ⟨k, hk, e.symm⟩, fun ⟨k, hk, e⟩ => ⟨k, hk, e.symm⟩⟩
    next hout =>
      exact ⟨fun hn => absurd hn (List.not_mem_nil), fun hn => absurd ((hskt me).2 hn.1) hout⟩
  · simp only [List.mem_map, List.mem_filter, hskt, decide_eq_true_eq]
    constructor
    · rintro ⟨x, ⟨⟨t, ht, rfl⟩, hne⟩, rfl⟩
      exact ⟨t, ht, hne, rfl⟩
    · rintro ⟨t, ht, hne, rfl⟩
      exact ⟨t / 256, ⟨⟨t, ht, rfl⟩, hne⟩, rfl⟩

/-- Settles O31: the four ends of a request at its home, and the table of the first snoops. -/
theorem homeRequests : Obligations.HomeRequests := by
  unfold Obligations.HomeRequests
  refine ⟨fun s q m r o c hc h => ⟨fun k hk => ⟨fun hfull => ?stays, ?turn⟩, ?unassigned⟩, fun me q d => ?_⟩
  case stays => exact exec_receives (exec_homeRequest s q hc) h (Part.homeRequest_stays h.2 hk hfull)
  case turn =>
    intro g hroom hturn a
    refine ⟨fun hfree => ?begins, ?queued⟩
    case begins => exact exec_receives (exec_homeRequest s q hc) h (Part.homeRequest_begins h.2 hk hroom hturn hfree)
    case queued =>
      intro hbusy w
      exact exec_receives (exec_homeRequest s q hc) h (Part.homeRequest_queued h.2 hk hroom hturn hbusy)
  case unassigned =>
    intro hhere hskt d
    exact exec_receives (exec_homeRequest s q hc) h (Part.homeRequest_unassigned h.2 hhere hskt)
  · intro inval all em
    refine ⟨fun ho => ?rds, fun ho => ⟨fun hs => ?rdoS, fun hs => ?rdoEM, fun hs => ?rdoO⟩, fun ho => ?all, fun ho => ?rdna, fun ho => ?cmoc,
      fun ho => ?cmoii, fun ho => ?flush, d.snoopTiles_listed me, fun h n => d.mem_snoopTiles_bcast me n h⟩
    case rds => exact ⟨fun hs => by simp [startSnoops, ho, hs], fun hs => by simp [startSnoops, ho, hs]⟩
    case rdna => exact ⟨fun hs => by simp [startSnoops, ho, hs], fun hs => by simp [startSnoops, ho, hs]⟩
    case cmoc => exact ⟨fun hs => by simp [startSnoops, ho, hs], fun hs => by simp [startSnoops, ho, hs]⟩
    case rdoS => simp [startSnoops, ho, hs, all, inval]
    case rdoEM => rcases hs with hs | hs <;> simp [startSnoops, ho, hs]
    case rdoO => simp [startSnoops, ho, hs, inval]
    case all => rcases ho with ho | ho | ho | ho <;> simp [startSnoops, ho, all, inval]
    case cmoii => simp [startSnoops, ho]
    case flush =>
      have hdefault : startSnoops me q d = (if d.st = .s then [] else [(Opc.snpf, d.ownerTile)]) ++
          (if d.fmt = .bcast ∨ d.st = .s then all else inval (d.sharers.filter (· ≠ d.ownerTile))) := by
        rcases ho with ho | ho | ho | ho <;> simp only [startSnoops, ho] <;> rfl
      exact ⟨fun hs => by simp [hdefault, hs], fun hs hb => by simp [hdefault, hs, hb], fun hs hb => by simp [hdefault, hs, hb]⟩

/-! ### Write-backs and persistent writes -/

section writeBack

variable {a : Part} {k : Nat} {m : Msg} {d : DirEnt} (time tmo : Nat)

theorem Part.homeBegin_wbm (hm : m.opc = .wbm) : a.homeBegin k m time tmo = a.wbmServe k m := by
  unfold Part.homeBegin
  rw [if_pos hm]

theorem Part.homeBegin_wbc (hm : m.opc = .wbc) : a.homeBegin k m time tmo = a.wbcServe k m := by
  unfold Part.homeBegin
  rw [if_neg (by rw [hm]; decide), if_pos hm]

/-- CMP for a write-back. -/
def Part.wbmDone (w : Part) (k : Nat) (m : Msg) : Part := w.send { w.answerMsg k .cmp m Line.zero 0 with hint := true }

theorem Part.wbmServe_owner (hd : a.dirGet k m.line = some d) (hs : d.st ≠ .s) (ho : d.owner = m.src.ocode) :
    a.wbmServe k m = ((a.homeWriteBack k m.line m.partNo ⟨m.data, m.pois⟩).dirLeave k m.line m.src).wbmDone k m := by
  unfold Part.wbmServe Part.wbmDone
  simp only [hd, hs, ho, ne_eq, not_false_eq_true, decide_true, Bool.and_self, if_true]

theorem Part.wbmServe_unlisted (hd : a.dirGet k m.line = none) : a.wbmServe k m = (a.homeLate k).wbmDone k m := by
  unfold Part.wbmServe Part.wbmDone
  simp only [hd, Bool.false_eq_true, if_false]

theorem Part.wbcServe_unlisted (hd : a.dirGet k m.line = none) : a.wbcServe k m = a.wbTaken m.src m.line := by
  unfold Part.wbcServe
  simp only [hd, Bool.false_eq_true, not_false_eq_true, if_true]

/-- A clean line that leaves a listed L2 may enter the slice. -/
theorem Part.wbcServe_listed (hd : a.dirGet k m.line = some d) (hl : d.lists m.src = true) :
    a.wbcServe k m =
      let e := (a.wbTaken m.src m.line).dirLeave k m.line m.src
      if m.mask ≠ 0 ∧ e.rgOn F.LLC_CFG_CLEANVICT k = true ∧ ((e.sliceOf k).llc.find? m.line).isNone = true then
        e.sliceAlloc k m.line m.partNo ⟨m.data, m.pois⟩ false
      else e := by
  unfold Part.wbcServe
  simp only [hd, hl, not_true_eq_false, if_false]

end writeBack

section pwt

variable {p r g t u : Part} {q m : Msg} {k : Nat} (ha : p.arrive q = (m, r)) (hk : r.homeHere m.line = some k)
include ha hk

theorem Part.pwtArrive_accepted (hbc : m.bc = false) (hturn : r.homeTurn k 0 = some g)
    (hp : g.persist k m.line m.data m.mask m.pois = (some t, u)) :
    Part.pwtArrive q p = t.answer k .pack m Line.zero 0 := by
  unfold Part.pwtArrive Part.pwtServe
  simp only [ha, hk, hbc, Bool.false_eq_true, if_false, hturn, hp]

theorem Part.pwtArrive_sent (hbc : m.bc = false) (hturn : r.homeTurn k 0 = some g)
    (hp : g.persist k m.line m.data m.mask m.pois = (none, u)) :
    Part.pwtArrive q p = (u.sliceMerge k m.line m.data m.mask m.pois).mpwtSend k m m.data m.mask m.pois := by
  unfold Part.pwtArrive Part.pwtServe
  simp only [ha, hk, hbc, Bool.false_eq_true, if_false, hturn, hp]

/-- A persistent write of write-combining or device stores is a request as any other. -/
theorem Part.pwtArrive_request (hbc : m.bc = true) : Part.pwtArrive q p = Part.homeRequest q p := by
  unfold Part.pwtArrive
  simp only [ha, hk, hbc, if_true]

end pwt

/-- Settles O32: what the home does with each of the three. -/
theorem writeBacks : Obligations.WriteBacks := by
  unfold Obligations.WriteBacks
  intro s q m r g k hk hturn a
  refine ⟨fun hroom hfree => ⟨?wbm, ?wbc⟩, fun h hbc => ⟨fun t u hp => ?accepted, fun u hp => ?sent⟩, fun h hbc hroom hfree => ?request⟩
  case wbm =>
    intro h done
    have hbegin := (Part.homeRequest_begins h.2 hk hroom hturn hfree).trans (Part.homeBegin_wbm _ _ (receives_opc h))
    exact ⟨fun d hd hs ho => exec_receives rfl h (hbegin.trans (Part.wbmServe_owner hd hs ho)),
      fun hd => exec_receives rfl h (hbegin.trans (Part.wbmServe_unlisted hd))⟩
  case wbc =>
    intro h b
    have hbegin := (Part.homeRequest_begins h.2 hk hroom hturn hfree).trans (Part.homeBegin_wbc _ _ (receives_opc h))
    refine ⟨fun hd => exec_receives rfl h (hbegin.trans (Part.wbcServe_unlisted hd)), fun d hd hl => ?_⟩
    have hserve := hbegin.trans (Part.wbcServe_listed hd hl)
    intro e
    refine ⟨fun hout => exec_receives rfl h (hserve.trans (if_neg ?_)), fun hmask hvict hnone =>
      exec_receives rfl h (hserve.trans (if_pos ⟨hmask, hvict, Option.isNone_iff_eq_none.2 hnone⟩))⟩
    rintro ⟨hmask, hvict, hnone⟩
    rcases hout with hout | hout | hout
    · exact hmask hout
    · exact Bool.false_ne_true (hout.symm.trans hvict)
    · rw [Option.isNone_iff_eq_none.1 hnone] at hout
      exact Bool.false_ne_true hout
  case accepted => exact exec_receives rfl h (Part.pwtArrive_accepted h.2 hk hbc hturn hp)
  case sent => exact exec_receives rfl h (Part.pwtArrive_sent h.2 hk hbc hturn hp)
  case request =>
    exact exec_receives rfl h ((Part.pwtArrive_request h.2 hk hbc).trans (Part.homeRequest_begins h.2 hk hroom hturn hfree))

end Sys2Proof.Machine
end

section
/-!
PROOFS. Snoops at a core tile and their answers at the home (O33).
-/
namespace Sys2Proof.Machine
open Sys2Proof
set_option Elab.async false

/-! ### Snoops at a core tile -/

section snoopAt

variable {p r : Part} {q m : Msg} {c : Nat} {x : L2Line} (ha : p.arrive q = (m, r)) (hskt : m.dst.skt = r.sktId)

/-- The stand-in answers for a tile with an absent core and no copy (R276). -/
def Part.standInAns (r : Part) (m : Msg) : Part := (r.standInLog m.dst.tile m).snoopAns m .acki Line.zero 2

include ha hskt

/-- A snoop that takes or weakens a copy that a core holds back stays on the way. -/
theorem Part.snoopAt_stays (act : Part → Msg → Nat → L2Line → Part)
    (hheld : ((snoopCores m.dst.tile).any fun c => r.coreKeeps c m.line) = true) : Part.snoopAt q true act p = p.stays m r := by
  unfold Part.snoopAt
  simp only [ha, hskt, ne_eq, not_true_eq_false, if_false, hheld, Bool.and_self, if_true]

theorem Part.snoopAt_copy {removes : Bool} (act : Part → Msg → Nat → L2Line → Part)
    (hfree : (removes && (snoopCores m.dst.tile).any fun c => r.coreKeeps c m.line) = false)
    (hcopy : r.tileCopy m.dst.tile m.line = some (c, x)) : Part.snoopAt q removes act p = act r m c x := by
  unfold Part.snoopAt
  simp only [ha, hskt, ne_eq, not_true_eq_false, if_false, hfree, Bool.false_eq_true, hcopy]

/-- A tile without a copy answers so, or its stand-in does. -/
theorem Part.snoopAt_none {removes : Bool} (act : Part → Msg → Nat → L2Line → Part)
    (hfree : (removes && (snoopCores m.dst.tile).any fun c => r.coreKeeps c m.line) = false)
    (hcopy : r.tileCopy m.dst.tile m.line = none) :
    Part.snoopAt q removes act p = if m.dst.tile ≠ tileD ∧ (snoopCores m.dst.tile).any r.coreAway = true then r.standInAns m
      else r.snoopAns m .acki Line.zero := by
  unfold Part.snoopAt
  simp only [ha, hskt, ne_eq, not_true_eq_false, if_false, hfree, Bool.false_eq_true, hcopy]
  rfl

theorem Part.snpbi_stays (hheld : ((snoopCores m.dst.tile).any fun c => r.coreKeeps c m.line) = true) :
    Part.snpbi q p = p.stays m r := by
  unfold Part.snpbi
  simp only [ha, hskt, ne_eq, not_true_eq_false, if_false, hheld, if_true]

section free

variable (hfree : ((snoopCores m.dst.tile).any fun c => r.coreKeeps c m.line) = false)
include hfree

theorem Part.snpbi_modified (hx : r.modifiedIn m.dst.tile m.line = some x) :
    Part.snpbi q p = (r.dropTile m.dst.tile m.line).snoopAns m .sdat x.line := by
  unfold Part.snpbi
  simp only [ha, hskt, ne_eq, not_true_eq_false, if_false, hfree, Bool.false_eq_true, hx]

theorem Part.snpbi_clean (hx : r.modifiedIn m.dst.tile m.line = none) :
    Part.snpbi q p = (r.dropTile m.dst.tile m.line).snoopAns m .acki Line.zero := by
  unfold Part.snpbi
  simp only [ha, hskt, ne_eq, not_true_eq_false, if_false, hfree, Bool.false_eq_true, hx]

end free

/-- The cores that an SNPI takes a copy from. -/
def Part.snpiGoes (r : Part) (m : Msg) (c : Nat) : Bool :=
  match r.copyGet c m.line with | some x => !m.snpiKeeps r.sktId c x | none => false

/-- The three ends of an SNPI: it stays, the stand-in answers, or the copies go. -/
theorem Part.snpi_eq :
    Part.snpi q p =
      if (snoopCores m.dst.tile).any (fun c => r.snpiGoes m c && r.coreKeeps c m.line) = true then p.stays m r
      else if m.dst.tile ≠ tileD ∧ (snoopCores m.dst.tile).all (fun c => (r.copyGet c m.line).isNone) = true ∧
          (snoopCores m.dst.tile).any r.coreAway = true then r.standInAns m
      else (r.dropCopies m.dst.tile m.line (m.snpiKeeps r.sktId)).snoopAns m .acki Line.zero := by
  unfold Part.snpi
  simp only [ha, hskt, ne_eq, not_true_eq_false, if_false]
  rfl

theorem Part.snpii_here : Part.snpii q p = (r.iinvAll m.line).snoopAns m .acki Line.zero := by
  unfold Part.snpii
  simp only [ha, hskt, ne_eq, not_true_eq_false, if_false]

end snoopAt

/-- The answer to an SNPF carries the line only from a modified copy. -/
theorem Part.snpfAns_eq (r : Part) (m : Msg) (x : L2Line) :
    r.snoopAns m (if x.modified then .sdat else .acki) (if x.modified then x.line else Line.zero) =
      if x.modified then r.snoopAns m .sdat x.line else r.snoopAns m .acki Line.zero := by
  cases x.modified <;> rfl

/-! ### Answers at the home -/

section homeAnswer

variable {p r g : Part} {q m : Msg} {k : Nat} {t : Trk} (ha : p.arrive q = (m, r)) (hk : r.homeHere m.line = some k)
    (hturn : r.homeTurn k 1 = some g)
include ha hk hturn

theorem Part.homeAnswer_unknown (data : Bool) (upd : Part → Nat → Msg → Trk → Part) (ht : g.trkFind k m.line = none) :
    Part.homeAnswer q data upd p = g.homeLate k := by
  unfold Part.homeAnswer
  simp only [ha, hk, hturn, ht]

theorem Part.homeAnswer_unawaited (data : Bool) (upd : Part → Nat → Msg → Trk → Part) (ht : g.trkFind k m.line = some t)
    (hw : t.ans.contains m.src.tcode = false) : Part.homeAnswer q data upd p = g.homeLate k := by
  unfold Part.homeAnswer
  simp only [ha, hk, hturn, ht, hw, Bool.false_eq_true, not_false_eq_true, if_true]

/-- An owner that a stand-in answers for has lost its data. -/
theorem Part.homeAnswer_lost (data : Bool) (upd : Part → Nat → Msg → Trk → Part) {e : DirEnt} (ht : g.trkFind k m.line = some t)
    (hw : t.ans.contains m.src.tcode = true) (hstatus : m.status = 2) (hopc : t.req.opc ≠ .cmoii)
    (he : g.dirGet k m.line = some e) (hs : e.st ≠ .s) (ho : e.ownerTile = m.src.tcode) :
    Part.homeAnswer q data upd p = g.lineFails k m.line t := by
  unfold Part.homeAnswer
  simp only [ha, hk, hturn, ht, hw, not_true_eq_false, if_false, he, hstatus, hs, hopc, ho, ne_eq, not_false_eq_true,
    decide_true, Bool.and_self, Bool.true_or, if_true]

/-- An answer that the line's request awaits: its effect on the directory, and the request goes on. -/
theorem Part.homeAnswer_awaited (data : Bool) (upd : Part → Nat → Msg → Trk → Part) (ht : g.trkFind k m.line = some t)
    (hw : t.ans.contains m.src.tcode = true) (hstatus : m.status ≠ 2) :
    Part.homeAnswer q data upd p =
      let v : Trk := { t with ans := t.ans.erase m.src.tcode, data := if data then some ⟨m.data, m.pois⟩ else t.data }
      ((upd g k m t).trkPut k v).homeNext k v := by
  have hlost (d : DirEnt) : (decide (m.status = 2) && decide (d.st ≠ .s) && decide (t.req.opc ≠ .cmoii)
      && (decide (d.ownerTile = m.src.tcode) || (decide (m.src.tile = tileD) && decide (d.owner / 512 = m.src.skt)))) = false := by
    rw [decide_eq_false hstatus]; rfl
  unfold Part.homeAnswer
  simp only [ha, hk, hturn, ht, hw, not_true_eq_false, if_false, hlost]
  cases g.dirGet k m.line <;> rfl

section sdat

theorem Part.sdat_copy_unknown (hh : m.hint = true) (ht : g.trkFind k m.line = none) : Part.sdat q p = g.homeLate k := by
  unfold Part.sdat
  simp only [ha, hh, if_true, hk, hturn, ht]

theorem Part.sdat_copy_unawaited (hh : m.hint = true) (ht : g.trkFind k m.line = some t) (hf : t.fill = false) :
    Part.sdat q p = g.homeLate k := by
  unfold Part.sdat
  simp only [ha, hh, if_true, hk, hturn, ht, hf, Bool.false_eq_true, not_false_eq_true]

/-- The copy of memory's line that a request waits for. -/
theorem Part.sdat_copy_awaited (hh : m.hint = true) (ht : g.trkFind k m.line = some t) (hf : t.fill = true) :
    Part.sdat q p =
      let a := if g.rgOn F.LLC_CFG_MEMFILL k = true ∧ m.stat = 0 then
          g.sliceAlloc k m.line { m with src := agentOf m.aux }.partNo ⟨m.data, m.pois⟩ false else g
      if t.cacked then a.trkDel k m.line else a.trkPut k { t with memw := false, fill := false } := by
  unfold Part.sdat
  simp only [ha, hh, if_true, hk, hturn, ht, hf, not_true_eq_false, if_false]

end sdat

end homeAnswer

/-- What SDAT from an owner does to the directory. -/
def Part.sdatDir (r : Part) (k : Nat) (q : Msg) (t : Trk) : Part :=
  if t.req.opc = .cmoc then
    match r.dirGet k q.line with
    | some d =>
      if d.st = .o then r.dirPut k q.line (r.addSharer { d with st := .s, owner := 0 } q.src.tcode)
      else r.dirPut k q.line { d with st := .e }
    | none => r
  else r.dirGone k q.line q.src.tcode true

theorem Part.sdat_owner {p r : Part} {q m : Msg} (ha : p.arrive q = (m, r)) (hh : m.hint = false) :
    Part.sdat q p = Part.homeAnswer q true Part.sdatDir p := by
  unfold Part.sdat
  simp only [ha, hh, Bool.false_eq_true, if_false]
  rfl

/-- Settles O33: the ends of a snoop at its tile, and those of its answer at the home. -/
theorem snoopsAndAnswers : Obligations.SnoopsAndAnswers := by
  unfold Obligations.SnoopsAndAnswers
  refine ⟨?snoops, ?answers⟩
  case snoops =>
    intro s q m r c x o h hskt t l cores held away gone standIn
    have ha := h.2
    refine ⟨fun hheld d hd => ?stays, fun hfree hcopy d hd => ?none, fun hfree hcopy => ⟨?snps, ?snpo, ?snpc, ?snpf⟩,
      fun ho hfree => ?snpbi, fun ho => ?snpi, fun ho hcopy => ?snpna, fun ho => ?snpii⟩
    case stays =>
      simp only [List.mem_cons, Prod.mk.injEq, List.not_mem_nil, or_false] at hd
      rcases hd with ⟨rfl, rfl⟩ | ⟨rfl, rfl⟩ | ⟨rfl, rfl⟩ | ⟨rfl, rfl⟩ | ⟨rfl, rfl⟩
      · exact exec_receives rfl h (Part.snoopAt_stays ha hskt _ hheld)
      · exact exec_receives rfl h (Part.snoopAt_stays ha hskt _ hheld)
      · exact exec_receives rfl h (Part.snoopAt_stays ha hskt _ hheld)
      · exact exec_receives rfl h (Part.snoopAt_stays ha hskt _ hheld)
      · exact exec_receives rfl h (Part.snpbi_stays ha hskt hheld)
    case none =>
      have hnone (removes : Bool) (act) := Part.snoopAt_none (removes := removes) ha hskt act
        (Bool.and_eq_false_imp.2 fun _ => hfree) hcopy
      simp only [List.mem_cons, Prod.mk.injEq, List.not_mem_nil, or_false] at hd
      rcases hd with ⟨rfl, rfl⟩ | ⟨rfl, rfl⟩ | ⟨rfl, rfl⟩ | ⟨rfl, rfl⟩ | ⟨rfl, rfl⟩ <;>
        exact ⟨fun haway => exec_receives rfl h ((hnone _ _).trans (if_pos haway)),
          fun hhere => exec_receives rfl h ((hnone _ _).trans (if_neg hhere))⟩
    case snps => rintro rfl; exact exec_receives rfl h (Part.snoopAt_copy (removes := true) ha hskt _ hfree hcopy)
    case snpo => rintro rfl; exact exec_receives rfl h (Part.snoopAt_copy (removes := true) ha hskt _ hfree hcopy)
    case snpc => rintro rfl; exact exec_receives rfl h (Part.snoopAt_copy (removes := true) ha hskt _ hfree hcopy)
    case snpf =>
      rintro rfl
      exact exec_receives rfl h ((Part.snoopAt_copy (removes := true) ha hskt _ hfree hcopy).trans (Part.snpfAns_eq _ _ _))
    case snpbi =>
      subst ho
      exact ⟨fun hx => exec_receives rfl h (Part.snpbi_modified ha hskt hfree hx),
        fun hx => exec_receives rfl h (Part.snpbi_clean ha hskt hfree hx)⟩
    case snpi =>
      subst ho
      intro goes absent
      have hi := Part.snpi_eq ha hskt
      exact ⟨fun hkeep => exec_receives rfl h (hi.trans (if_pos hkeep)),
        fun hkeep habs => exec_receives rfl h (hi.trans ((if_neg (Bool.eq_false_iff.1 hkeep)).trans (if_pos habs))),
        fun hkeep habs => exec_receives rfl h (hi.trans ((if_neg (Bool.eq_false_iff.1 hkeep)).trans (if_neg habs)))⟩
    case snpna => subst ho; exact exec_receives rfl h (Part.snoopAt_copy ha hskt _ rfl hcopy)
    case snpii => subst ho; exact exec_receives rfl h (Part.snpii_here ha hskt)
  case answers =>
    intro s q m r g k t o h hk hturn l me u ud on kinds
    have ha := h.2
    refine ⟨fun ht d hd => ?unknown, fun ht hw d hd => ?unawaited, fun ht hw hstatus hopc e he hs howner d hd => ?lost,
      fun ht hw hstatus => ?awaited, fun ho hh => ?copy⟩
    case unknown =>
      simp only [kinds, List.mem_cons, Prod.mk.injEq, List.not_mem_nil, or_false] at hd
      rcases hd with ⟨rfl, rfl⟩ | ⟨rfl, rfl⟩ | ⟨rfl, rfl⟩ | ⟨rfl, rfl⟩ <;>
        exact exec_receives rfl h (Part.homeAnswer_unknown ha hk hturn _ _ ht)
    case unawaited =>
      simp only [kinds, List.mem_cons, Prod.mk.injEq, List.not_mem_nil, or_false] at hd
      rcases hd with ⟨rfl, rfl⟩ | ⟨rfl, rfl⟩ | ⟨rfl, rfl⟩ | ⟨rfl, rfl⟩ <;>
        exact exec_receives rfl h (Part.homeAnswer_unawaited ha hk hturn _ _ ht hw)
    case lost =>
      simp only [kinds, List.mem_cons, Prod.mk.injEq, List.not_mem_nil, or_false] at hd
      rcases hd with ⟨rfl, rfl⟩ | ⟨rfl, rfl⟩ | ⟨rfl, rfl⟩ | ⟨rfl, rfl⟩ <;>
        exact exec_receives rfl h (Part.homeAnswer_lost ha hk hturn _ _ ht hw hstatus hopc he hs howner)
    case awaited =>
      have hgoes (data : Bool) (upd) := Part.homeAnswer_awaited ha hk hturn data upd ht hw hstatus
      refine ⟨?acki, ?acks, fun d ho hd => ?acko, ?acke, fun ho hh hopc => ?sdat, fun d ho hh hopc hd => ?sdatClean⟩
      case acki => rintro rfl; exact exec_receives rfl h (hgoes _ _)
      case acks => rintro rfl; exact exec_receives rfl h (hgoes _ _)
      case acko =>
        subst ho
        refine exec_receives rfl h ((hgoes _ _).trans ?_)
        simp only [l, me, on, u] at hd ⊢
        simp only [hd, Bool.false_eq_true, if_false]
      case acke => rintro rfl; exact exec_receives rfl h (hgoes _ _)
      case sdat =>
        subst ho
        refine exec_receives rfl h ((Part.sdat_owner ha hh).trans ((hgoes _ _).trans ?_))
        simp only [Part.sdatDir, hopc, if_false, if_true]
        rfl
      case sdatClean =>
        subst ho
        refine exec_receives rfl h ((Part.sdat_owner ha hh).trans ((hgoes _ _).trans ?_))
        have hdir : g.sdatDir k m t = g.dirPut k l (if d.st = .o then g.addSharer { d with st := .s, owner := 0 } me
            else { d with st := .e }) := by
          simp only [Part.sdatDir, hopc, if_true, show g.dirGet k m.line = some d from hd]
          exact (apply_ite _ _ _ _).symm
        rw [hdir]
        rfl
    case copy =>
      subst ho
      exact ⟨fun ht => exec_receives rfl h (Part.sdat_copy_unknown ha hk hturn hh ht),
        fun ht hf => exec_receives rfl h (Part.sdat_copy_unawaited ha hk hturn hh ht hf),
        fun ht hf => exec_receives rfl h (Part.sdat_copy_awaited ha hk hturn hh ht hf)⟩

end Sys2Proof.Machine
end

section
/-!
PROOFS. Data, grants, completions and acknowledgements (O34).
-/
namespace Sys2Proof.Machine
open Sys2Proof
set_option Elab.async false

/-! ### Responses at a core -/

section atCore

variable {p r : Part} {q m : Msg} (ha : p.arrive q = (m, r))
include ha

theorem Part.atCore_other (other act : Part → Msg → Part) (h : m.dst.isThread r.sktId = false) :
    Part.atCore q other act p = other r m := by
  unfold Part.atCore
  simp only [ha, h, Bool.false_eq_true, not_false_eq_true, if_true]

theorem Part.atCore_away (other act : Part → Msg → Part) (h : m.dst.isThread r.sktId = true)
    (haway : r.coreAway m.dst.coreNo = true) : Part.atCore q other act p = r.standInLog m.dst.tile m := by
  unfold Part.atCore
  simp only [ha, h, not_true_eq_false, if_false, haway, if_true]

theorem Part.atCore_here (other act : Part → Msg → Part) (h : m.dst.isThread r.sktId = true)
    (haway : r.coreAway m.dst.coreNo = false) : Part.atCore q other act p = act r m := by
  unfold Part.atCore
  simp only [ha, h, not_true_eq_false, if_false, haway, Bool.false_eq_true]

/-- A completion of a store that nothing else waits for (R287). -/
theorem Part.cmpRow_store (hcore : coreOrd m.dst.tile = none ∨ m.dst.init ≠ 4) (hbc : m.bc = false) (hplb : m.plb = false)
    (hhint : m.hint = false) (hstat : m.stat = 0) (h : m.dst.isThread r.sktId = true) (haway : r.coreAway m.dst.coreNo = false)
    {x : Msg} (hx : { x with opc := .cmp } = q) :
    Part.cmpRow x p = (r.devFill m.dst.threadNo (m.line * 64) 66 (0, 0, 0)).storeSeen m.dst m.line := by
  have hhome : ¬ (m.dst.skt = p.sktId ∧ (coreOrd m.dst.tile).isSome = true ∧ m.dst.init = 4) := by
    rintro ⟨-, hsome, hinit⟩
    rcases hcore with hcore | hcore
    · rw [hcore] at hsome; exact Bool.false_ne_true hsome
    · exact hcore hinit
  subst hx
  unfold Part.cmpRow Part.cmpAt
  simp only [ha, hstat, hplb, Bool.false_eq_true, and_false, if_false, hhome, Part.atCore_here ha _ _ h haway, hbc, hhint,
    if_true, OfNat.zero_ne_ofNat]

end atCore

/-- What DNA does at a core whose miss for the line is over (R293, R307). -/
def Part.dnaCore (r : Part) (q : Msg) : Part :=
  let t := q.dst.threadNo
  let c := q.dst.coreNo
  let waits (e : MbEnt) : Bool := decide (e.line = q.line) && decide (e.ty = MemType.cacheable)
  match (r.coreOf c).miss.find? (fun x => decide (x.1 = q.line)) with
  | none => r.devFill t (q.line * 64) 64 (q.data, q.pois, q.stat)
  | some (_, own) =>
    let a := r.missEnd c q.line
    let b := if q.stat ≥ 2 then a.sendCack q (a.homeOfData q) q.stat else a
    (if own && (r.coreOf c).mb.any waits then
      (b.modCore c (fun s => { s with mb := s.mb.filter (fun e => !waits e) })).lostStore t q.line
    else b.devNote t (q.line * 64) 64).devFill t (q.line * 64) 64 (q.data, q.pois, q.stat)

theorem Part.dna_core {p r : Part} {q m : Msg} (ha : p.arrive q = (m, r)) (h : m.dst.isThread r.sktId = true)
    (haway : r.coreAway m.dst.coreNo = false) : Part.dna q p = r.dnaCore m := by
  refine (Part.atCore_here ha _ _ h haway).trans ?_
  unfold Part.dnaCore
  cases hmiss : (r.coreOf m.dst.coreNo).miss.find? (fun x => decide (x.1 = m.line)) with
  | none => simp only [hmiss]
  | some x => simp only [hmiss]

section dnaCore

variable {r : Part} {m : Msg}

theorem Part.dnaCore_no_miss (hmiss : (r.coreOf m.dst.coreNo).miss.find? (fun x => decide (x.1 = m.line)) = none) :
    r.dnaCore m = r.devFill m.dst.threadNo (m.line * 64) 64 (m.data, m.pois, m.stat) := by
  unfold Part.dnaCore
  simp only [hmiss]

/-- The core after its miss has ended, and the CACK of an answer without a line. -/
def Part.dnaAcked (r : Part) (m : Msg) : Part :=
  if m.stat ≥ 2 then (r.missEnd m.dst.coreNo m.line).sendCack m ((r.missEnd m.dst.coreNo m.line).homeOfData m) m.stat
  else r.missEnd m.dst.coreNo m.line

/-- An entry of the merging buffer that waits for the line. -/
def Msg.waitsAt (m : Msg) (e : MbEnt) : Bool := decide (e.line = m.line) && decide (e.ty = MemType.cacheable)

variable {x : Nat × Bool} (hmiss : (r.coreOf m.dst.coreNo).miss.find? (fun x => decide (x.1 = m.line)) = some x)
include hmiss

theorem Part.dnaCore_kept (h : x.2 = false ∨ (r.coreOf m.dst.coreNo).mb.any m.waitsAt = false) :
    r.dnaCore m = ((r.dnaAcked m).devNote m.dst.threadNo (m.line * 64) 64).devFill m.dst.threadNo (m.line * 64) 64
      (m.data, m.pois, m.stat) := by
  have hlost : (x.2 && (r.coreOf m.dst.coreNo).mb.any m.waitsAt) = false := Bool.and_eq_false_iff.2 h
  unfold Part.dnaCore
  simp only [hmiss]
  exact congrArg (fun y : Part => y.devFill m.dst.threadNo (m.line * 64) 64 (m.data, m.pois, m.stat))
    (if_neg (Bool.eq_false_iff.1 hlost))

theorem Part.dnaCore_lost (hown : x.2 = true) (h : (r.coreOf m.dst.coreNo).mb.any m.waitsAt = true) :
    r.dnaCore m = (((r.dnaAcked m).modCore m.dst.coreNo (fun s => { s with mb := s.mb.filter (fun e => !m.waitsAt e) })).lostStore
      m.dst.threadNo m.line).devFill m.dst.threadNo (m.line * 64) 64 (m.data, m.pois, m.stat) := by
  have hlost : (x.2 && (r.coreOf m.dst.coreNo).mb.any m.waitsAt) = true := Bool.and_eq_true_iff.2 ⟨hown, h⟩
  unfold Part.dnaCore
  simp only [hmiss]
  exact congrArg (fun y : Part => y.devFill m.dst.threadNo (m.line * 64) 64 (m.data, m.pois, m.stat)) (if_pos hlost)

end dnaCore

/-- The accesses of a thread that an answer is for take it. -/
theorem Part.modThread_answers (r : Part) (t : Nat) (f : DevAcc → Bool) (P : DevAcc → Prop) [DecidablePred P]
    (x : Vec × BitVec 4 × Nat) (hP : ∀ d, P d ↔ f d = true ∧ d.ans = none) :
    r.modThread t (fun th => { th with dev := th.dev.map (fun d => if P d then { d with ans := some x } else d) }) =
      r.modThread t (fun th => { th with dev := th.dev.map (fun d => if f d = true ∧ d.ans = none then { d with ans := some x } else d) }) := by
  simp only [hP]

/-! ### Acknowledgements at the home -/

section home

variable {p r g : Part} {q m : Msg} {k : Nat} {t : Trk} (ha : p.arrive q = (m, r)) (hk : r.homeHere m.line = some k)
    (hturn : r.homeTurn k 1 = some g)
include ha hk hturn

theorem Part.cack_unknown (ht : g.trkFind k m.line = none) : Part.cack q p = g.homeLate k := by
  unfold Part.cack
  simp only [ha, hk, hturn, ht]

/-- The CACK of the requester: it ends the request, or is kept while an answer or memory's copy is outstanding. -/
theorem Part.cack_requester (ht : g.trkFind k m.line = some t) (hopc : t.req.opc ∈ [Opc.rds, Opc.rdo, Opc.upg, Opc.own])
    (hsrc : t.req.src = m.src) :
    Part.cack q p =
      let a := if m.stat = 0 then g else g.dirLeave k m.line m.src
      if t.cack = true ∧ ¬ t.fill = true then a.trkDel k m.line else a.trkPut k { t with cack := false, cacked := true } := by
  have hgrants : (decide (t.req.opc = .rds) || decide (t.req.opc = .rdo) || decide (t.req.opc = .upg) ||
      decide (t.req.opc = .own)) = true := by
    simpa only [Bool.or_eq_true, decide_eq_true_eq, List.mem_cons, List.not_mem_nil, or_false, or_assoc] using hopc
  unfold Part.cack
  simp only [ha, hk, hturn, ht, hgrants, hsrc, not_true_eq_false, ne_eq, or_self, if_false]

theorem Part.vis_unknown (ht : g.trkFind k m.line = none) : Part.vis q p = g.homeLate k := by
  unfold Part.vis
  simp only [ha, hk, hturn, ht]

theorem Part.vis_requester (ht : g.trkFind k m.line = some t) (hvis : t.vis = true) (hsrc : t.req.src = m.src) :
    Part.vis q p = if t.req.pers = true ∧ t.req.plb = true then g.visWrite k t else (g.visWrite k t).storeSeen m.src m.line := by
  unfold Part.vis
  simp only [ha, hk, hturn, ht, hvis, hsrc, and_self, if_true]

omit ha in
/-- Memory's line for the far atomic that asked for it. -/
theorem Part.amoFill_awaited (ht : g.trkFind k m.line = some t) (hopc : t.req.opc = .amof) (hmem : t.memw = true) :
    p.amoFill m r = if m.stat ≥ 2 then (g.answer k .amor t.req ⟨0, 1⟩ m.stat).trkDel k m.line
      else g.amofServe k t (some ⟨m.data, m.pois⟩) := by
  unfold Part.amoFill
  simp only [hk, hturn, ht, hopc, hmem, not_true_eq_false, ne_eq, or_self, if_false]

end home

section visWrite

variable {g : Part} {k : Nat} {t : Trk}

/-- What a visible write writes: its bytes, over the owner's line if one was collected. -/
def Trk.written (t : Trk) : Vec × Dword × BitVec 4 := withOwner t.data t.req.data t.req.mask t.req.pois

theorem Part.visWrite_volatile (h : ¬ (t.req.pers = true ∧ t.req.plb = true)) :
    g.visWrite k t = (g.naPut k t.req.line t.written.1 t.written.2.1 t.written.2.2 (!t.req.fromThread)).trkDel k t.req.line := by
  unfold Part.visWrite
  simp only [h, if_false]
  rfl

theorem Part.visWrite_accepted (h : t.req.pers = true ∧ t.req.plb = true) {a b : Part}
    (hp : g.persist k t.req.line t.written.1 t.written.2.1 t.written.2.2 = (some a, b)) :
    g.visWrite k t = (a.answer k .cmp t.req Line.zero 0).trkDel k t.req.line := by
  unfold Trk.written at hp
  unfold Part.visWrite
  simp only [h, and_self, if_true, hp]

theorem Part.visWrite_sent (h : t.req.pers = true ∧ t.req.plb = true) {b : Part}
    (hp : g.persist k t.req.line t.written.1 t.written.2.1 t.written.2.2 = (none, b)) :
    g.visWrite k t = ((b.sliceMerge k t.req.line t.written.1 t.written.2.1 t.written.2.2).mpwtSend k t.req t.written.1 t.written.2.1
      t.written.2.2).trkPut k { t with vis := false, memw := true } := by
  unfold Trk.written at hp ⊢
  unfold Part.visWrite
  simp only [h, and_self, if_true, hp]

end visWrite

/-- Settles O34: responses by where they arrive, acknowledgements by the request that awaits them. -/
theorem responsesAndCompletions : Obligations.ResponsesAndCompletions := by
  unfold Obligations.ResponsesAndCompletions
  refine ⟨?responses, ?acks⟩
  case responses =>
    intro s q m r o h c t l ans answers
    have ha := h.2
    refine ⟨fun hcore haway d hd => ?away, fun hcore haway => ⟨fun st d hd => ?data, fun ho hmiss => ?noMiss, fun x ho hmiss => ?miss,
      fun ho hh => ?visible, fun ho hh => ?granted, fun ho => ?amor, fun ho => ?drdr, fun ho => ?pack,
      fun ho hcmp hbc hplb hhint hstat hskt => ?cmp⟩,
      fun hio => ⟨fun k g w ho hinit hord hk hturn ht hopc hmem => ?amo, fun d hdst hd => ?read, fun ho => ?grantIo⟩⟩
    case away =>
      simp only [List.mem_cons, Prod.mk.injEq, List.not_mem_nil, or_false] at hd
      rcases hd with ⟨rfl, rfl⟩ | ⟨rfl, rfl⟩ | ⟨rfl, rfl⟩ | ⟨rfl, rfl⟩ | ⟨rfl, rfl⟩ | ⟨rfl, rfl⟩ | ⟨rfl, rfl⟩ | ⟨rfl, rfl⟩ <;>
        exact exec_receives rfl h (Part.atCore_away ha _ _ hcore haway)
    case data =>
      simp only [List.mem_cons, Prod.mk.injEq, List.not_mem_nil, or_false] at hd
      rcases hd with ⟨rfl, rfl, rfl⟩ | ⟨rfl, rfl, rfl⟩ | ⟨rfl, rfl, rfl⟩ <;>
        exact exec_receives rfl h (Part.atCore_here ha _ _ hcore haway)
    case noMiss =>
      subst ho
      exact exec_receives rfl h ((Part.dna_core ha hcore haway).trans (Part.dnaCore_no_miss hmiss))
    case miss =>
      subst ho
      intro waits a b
      exact ⟨fun hkept => exec_receives rfl h ((Part.dna_core ha hcore haway).trans (Part.dnaCore_kept hmiss hkept)),
        fun hown hany => exec_receives rfl h ((Part.dna_core ha hcore haway).trans (Part.dnaCore_lost hmiss hown hany))⟩
    case visible =>
      subst ho
      refine exec_receives rfl h ((Part.atCore_here ha _ _ hcore haway).trans ?_)
      simp only [hh, if_true]
      rfl
    case granted =>
      subst ho
      intro a b
      refine exec_receives rfl h ((Part.atCore_here ha _ _ hcore haway).trans ?_)
      simp only [hh, Bool.false_eq_true, if_false]
      rfl
    case amor =>
      subst ho
      exact exec_receives rfl h ((Part.atCore_here ha _ _ hcore haway).trans
        (Part.modThread_answers _ _ _ _ _ fun d => by simp only [Bool.and_eq_true, decide_eq_true_eq, and_assoc]; rfl))
    case drdr =>
      subst ho
      exact exec_receives rfl h ((Part.atCore_here ha _ _ hcore haway).trans
        (Part.modThread_answers _ _ _ _ _ fun d => by simp only [decide_eq_true_eq]))
    case pack => subst ho; exact exec_receives rfl h (Part.atCore_here ha _ _ hcore haway)
    case cmp =>
      subst ho
      exact exec_receives rfl h (Part.cmpRow_store ha hcmp hbc hplb hhint hstat hcore haway rfl)
    case amo =>
      subst ho
      have hfill : Part.dna { q with opc := .dna } s.part = s.part.amoFill m r :=
        (Part.atCore_other ha _ _ hio).trans (if_pos ⟨hinit, Option.isSome_iff_ne_none.2 hord⟩)
      have hserve := hfill.trans (Part.amoFill_awaited hk hturn ht hopc hmem)
      exact ⟨fun hbad => exec_receives rfl h (hserve.trans (if_pos hbad)),
        fun hgood => exec_receives rfl h (hserve.trans (if_neg (Nat.not_le.2 hgood)))⟩
    case read =>
      have hno : ¬ (m.dst.init = 4 ∧ (coreOrd m.dst.tile).isSome = true) := by
        rintro ⟨hinit, hsome⟩
        rcases hdst with hdst | hdst
        · exact hdst hinit
        · rw [hdst] at hsome; exact Bool.false_ne_true hsome
      simp only [List.mem_cons, Prod.mk.injEq, List.not_mem_nil, or_false] at hd
      rcases hd with ⟨rfl, rfl⟩ | ⟨rfl, rfl⟩
      · exact exec_receives rfl h ((Part.atCore_other ha _ _ hio).trans (if_neg hno))
      · exact exec_receives rfl h (Part.atCore_other ha _ _ hio)
    case grantIo => subst ho; exact exec_receives rfl h (Part.atCore_other ha _ _ hio)
  case acks =>
    intro s q m r g k t o h hk hturn
    have ha := h.2
    refine ⟨fun ho ht hopc hsrc => ?cack, fun ho ht => ?cackLate, fun ho ht => ?visLate, fun ho ht hvis hsrc => ?vis⟩
    case cack =>
      subst ho
      intro a
      have hcack := Part.cack_requester ha hk hturn ht hopc hsrc
      refine ⟨fun hc hf => exec_receives rfl h (hcack.trans (if_pos ⟨hc, Bool.eq_false_iff.1 hf⟩)),
        fun hkept => exec_receives rfl h (hcack.trans (if_neg ?_))⟩
      rintro ⟨hc, hf⟩
      rcases hkept with hkept | hkept
      · rw [hkept] at hc; exact Bool.false_ne_true hc
      · exact hf hkept
    case cackLate => subst ho; exact exec_receives rfl h (Part.cack_unknown ha hk hturn ht)
    case visLate => subst ho; exact exec_receives rfl h (Part.vis_unknown ha hk hturn ht)
    case vis =>
      subst ho
      intro d
      have hmade := Part.vis_requester ha hk hturn ht hvis hsrc
      refine ⟨fun hvol => ?_, fun hpers hplb => ⟨fun a b hp => ?_, fun b hp => ?_⟩⟩
      · have hnot : ¬ (t.req.pers = true ∧ t.req.plb = true) := by
          rintro ⟨hpers, hplb⟩
          rcases hvol with hvol | hvol
          · exact Bool.false_ne_true (hvol.symm.trans hpers)
          · exact Bool.false_ne_true (hvol.symm.trans hplb)
        exact exec_receives rfl h (hmade.trans ((if_neg hnot).trans
          (congrArg (fun y : Part => y.storeSeen m.src m.line) (Part.visWrite_volatile hnot))))
      · exact exec_receives rfl h (hmade.trans ((if_pos ⟨hpers, hplb⟩).trans (Part.visWrite_accepted ⟨hpers, hplb⟩ hp)))
      · exact exec_receives rfl h (hmade.trans ((if_pos ⟨hpers, hplb⟩).trans (Part.visWrite_sent ⟨hpers, hplb⟩ hp)))

end Sys2Proof.Machine
end

section
/-!
PROOFS. Requests at memory tiles and accesses of devices (O35).
-/
namespace Sys2Proof.Machine
open Sys2Proof
set_option Elab.async false

section memTile

variable {p r : Part} {q m : Msg} {t : Target} (ha : p.arrive q = (m, r))
include ha

theorem Part.mrd_no_target (h : r.target m = none) : Part.mrd q p = r.mrdAnswer m.dst m ⟨0, 0xF⟩ 3 := by
  unfold Part.mrd
  simp only [ha, h]

theorem Part.mwr_no_target (h : r.target m = none) : Part.mwr q p = r.memCmp m.dst m 3 := by
  unfold Part.mwr
  simp only [ha, h]

theorem Part.mpwt_no_target (h : r.target m = none) : Part.mpwt q p = r.memCmp m.dst m 3 := by
  unfold Part.mpwt
  simp only [ha, h]

section channel

variable (ht : r.target m = some t) (hcxl : t.cxl = false)
include ht hcxl

/-- A read at its channel: beyond the capacity, at a channel that is off, or into its queue if there is room. -/
theorem Part.mrd_channel :
    Part.mrd q p =
      if r.overCap t.chan t.ca = true then (r.setRg F.MC_STAT_OVERCAP 1 t.chan).mrdAnswer (r.chanAgent t.chan) m ⟨0, 0xF⟩ 3
      else if (r.chanOf t.chan).off = true then (r.standInLog (tileOfChan t.chan) m).mrdAnswer (r.chanAgent t.chan) m ⟨0, 0xF⟩ 2
      else if (r.chanOf t.chan).rq.length ≥ 64 then p.stays m r
      else r.modChan t.chan (fun x => { x with rq := x.rq ++ [{ m with data := BitVec.ofNat 512 t.ca }] }) := by
  unfold Part.mrd
  simp only [ha, ht, hcxl, Bool.false_eq_true, if_false]

theorem Part.mwr_over (h : r.overCap t.chan t.ca = true) :
    Part.mwr q p = (r.setRg F.MC_STAT_OVERCAP 1 t.chan).memCmp (r.chanAgent t.chan) m 3 := by
  unfold Part.mwr
  simp only [ha, ht, hcxl, Bool.false_eq_true, if_false, h, if_true]

section inCap

variable (hcap : r.overCap t.chan t.ca = false)
include hcap

theorem Part.mwr_off (h : (r.chanOf t.chan).off = true) :
    Part.mwr q p = (r.standInLog (tileOfChan t.chan) m).memCmp (r.chanAgent t.chan) m 2 := by
  unfold Part.mwr
  simp only [ha, ht, hcxl, Bool.false_eq_true, if_false, hcap, h, if_true]

theorem Part.mwr_room (h : (r.chanOf t.chan).off = false) (hroom : (r.chanOf t.chan).wq.length < 64) :
    Part.mwr q p = ((r.chanWrite t.chan ⟨t.ca, m.data, m.mask, m.pois⟩).chanServed t.chan true (some m.vmid)).memCmp
      (r.chanAgent t.chan) m 0 := by
  unfold Part.mwr
  simp only [ha, ht, hcxl, Bool.false_eq_true, if_false, hcap, h, ge_iff_le, Nat.not_le.2 hroom, and_false]

theorem Part.mpwt_accepted (h : (r.chanOf t.chan).off = false) {a b : Part}
    (hacc : r.pwbAccept t.chan ⟨t.ca, m.data, m.mask, m.pois⟩ = (some a, b)) :
    Part.mpwt q p = (a.perfEvent (tileOfChan t.chan) 16 4 1 1 none none).memCmp ⟨a.sktId, tileOfChan t.chan, 2⟩ m 0 := by
  unfold Part.mpwt
  simp only [ha, ht, hcxl, Bool.false_eq_true, if_false, hcap, h, hacc]

end inCap
end channel
end memTile

section devArrive

variable {p r : Part} {q m : Msg} {off k : Nat} (ha : p.arrive q = (m, r))
include ha

/-- A device access of this socket's control window, under either address of it. -/
theorem Part.devArrive_ctl (h : regionOf m.addr = .ctl r.sktId off ∨ regionOf m.addr = .loc off) :
    Part.devArrive q p = r.ctlAccess m off := by
  unfold Part.devArrive
  rcases h with h | h
  · simp only [ha, h, if_true]
  · simp only [ha, h]

theorem Part.devArrive_pcie (h : regionOf m.addr = .pcieWin) (hskt : (aperture m.addr).1 = r.sktId) :
    Part.devArrive q p = r.pcieAccess m := by
  unfold Part.devArrive
  simp only [ha, h, hskt, if_true]

/-- A device access of no socket, or of memory. -/
theorem Part.devArrive_nowhere (h : (regionOf m.addr = .ctl k off ∧ k ≠ r.sktId ∧ r.sktCnt ≤ k) ∨ regionOf m.addr = .mem) :
    Part.devArrive q p = r.devUnassigned ⟨r.sktId, tileD, 0⟩ m := by
  unfold Part.devArrive
  rcases h with ⟨h, hskt, hcnt⟩ | h
  · simp only [ha, h, hskt, Nat.not_lt.2 hcnt, if_false]
  · simp only [ha, h]

end devArrive

/-- An invalidation of another socket: every core's entries go, and one CMP answers. -/
theorem Part.tinvRow_remote {p r : Part} {q m : Msg} (hskt : q.src.skt ≠ p.sktId) (h : p.receives { q with opc := .tinv } m r) (c : Nat) :
    Part.tinvRow q c p =
      let b := (r.tlbTargets nCores).foldl (fun (x : Part) (n : Nat) => x.tlbInval n m.tlbReq) r
      b.send { Msg.blank with opc := .cmp, src := ⟨b.sktId, tileD, 0⟩, dst := m.src, txid := m.txid, bc := true } := by
  unfold Part.tinvRow
  rw [if_neg hskt, onArrival_now h.1]
  simp only [h.2]

/-- Settles O35: each request by where its address leads. -/
theorem memoryAndDeviceRequests : Obligations.MemoryAndDeviceRequests := by
  unfold Obligations.MemoryAndDeviceRequests
  refine ⟨fun s q m r o h => ⟨fun hnone => ⟨?_, ?_, ?_⟩, ?channel⟩, fun s q m r c off k o i => ⟨fun hi h => ?device, ?own, ?remote⟩⟩
  · rintro rfl; exact exec_receives rfl h (Part.mrd_no_target h.2 hnone)
  · rintro rfl; exact exec_receives rfl h (Part.mwr_no_target h.2 hnone)
  · rintro rfl; exact exec_receives rfl h (Part.mpwt_no_target h.2 hnone)
  case channel =>
    intro t ht hcxl ch e
    refine ⟨fun hover => ⟨?_, ?_⟩, fun hcap hoff => ⟨?_, ?_⟩, fun hcap hon => ⟨?_, ?_, ?_, ?_⟩⟩
    · rintro rfl
      exact exec_receives rfl h ((Part.mrd_channel h.2 ht hcxl).trans (if_pos hover))
    · rintro rfl
      exact exec_receives rfl h (Part.mwr_over h.2 ht hcxl hover)
    · rintro rfl
      exact exec_receives rfl h ((Part.mrd_channel h.2 ht hcxl).trans ((if_neg (Bool.eq_false_iff.1 hcap)).trans (if_pos hoff)))
    · rintro rfl
      exact exec_receives rfl h (Part.mwr_off h.2 ht hcxl hcap hoff)
    · rintro rfl hroom
      exact exec_receives rfl h ((Part.mrd_channel h.2 ht hcxl).trans ((if_neg (Bool.eq_false_iff.1 hcap)).trans
        ((if_neg (Bool.eq_false_iff.1 hon)).trans (if_neg (Nat.not_le.2 hroom)))))
    · rintro rfl hfull
      exact exec_receives rfl h ((Part.mrd_channel h.2 ht hcxl).trans ((if_neg (Bool.eq_false_iff.1 hcap)).trans
        ((if_neg (Bool.eq_false_iff.1 hon)).trans (if_pos hfull))))
    · rintro rfl hroom
      exact exec_receives rfl h (Part.mwr_room h.2 ht hcxl hcap hon hroom)
    · rintro a b rfl hacc
      exact exec_receives rfl h (Part.mpwt_accepted h.2 ht hcxl hcap hon hacc)
  case device =>
    have hexec : exec i s = s.run (Part.onArrival { q with opc := o } (Part.devArrive { q with opc := o })) := by
      simp only [List.mem_cons, Prod.mk.injEq, List.not_mem_nil, or_false] at hi
      rcases hi with ⟨rfl, rfl⟩ | ⟨rfl, rfl⟩ <;> rfl
    exact ⟨fun ha => exec_receives hexec h (Part.devArrive_ctl h.2 (.inl ha)),
      fun ha => exec_receives hexec h (Part.devArrive_ctl h.2 (.inr ha)),
      fun ha hskt => exec_receives hexec h (Part.devArrive_pcie h.2 ha hskt),
      fun ha hskt hcnt => exec_receives hexec h (Part.devArrive_nowhere h.2 (.inl ⟨ha, hskt, hcnt⟩)),
      fun ha => exec_receives hexec h (Part.devArrive_nowhere (off := off) (k := k) h.2 (.inr ha))⟩
  case own => exact fun hskt => exec_run rfl (if_pos hskt)
  case remote =>
    intro hskt h b a
    exact exec_run rfl (Part.tinvRow_remote hskt h c.val)

end Sys2Proof.Machine
end

section
/-!
PROOFS. Training, scrubbing, sparing and transfers of the channels (O36).
-/
namespace Sys2Proof.Machine
open Sys2Proof
set_option Elab.async false

variable {p g : Part} {c : Nat}

/-! ### Held writes -/

theorem Tab.get_putAll_of_ne {α : Type} (d : α) (l : List (Nat × α)) (t : Tab α) {k : Nat} (h : ∀ e ∈ l, k ≠ e.1) :
    Tab.get d (Tab.putAll t l) k = Tab.get d t k := by
  induction l generalizing t with
  | nil => rfl
  | cons e l ih =>
    refine (ih (Tab.put t e.1 e.2) fun x hx => h x (List.mem_cons_of_mem _ hx)).trans ?_
    exact Tab.get_put_other d t e.2 (h e (List.mem_cons_self ..))

/-- A boundary leaves a field that it does not select. -/
theorem Part.applyHeld_rg {sel : Nat → Bool} {f : Fld} {u i : Nat} (h : sel (f.key u i) = false) :
    (p.applyHeld sel).rg f u i = p.rg f u i :=
  Tab.get_putAll_of_ne _ _ _ fun e he hk => by
    rw [hk, (List.mem_filter.1 he).2] at h
    exact absurd h (Bool.false_ne_true ∘ Eq.symm)

theorem mcCfgKey_trained (c : ChanId) : mcCfgKey c.val (F.MC_STAT_TRAINED.key c.val 0) = false := by
  revert c; decide

/-! ### Training and the refresh boundary -/

section training

variable {speed ranks dpc gb : Nat} (hc : c < 16) (hthere : p.memTilePresent (c / 2) = true)
    (htrained : p.rgOn F.MC_STAT_TRAINED c = false) (hboot : p.sys.boot = .configured ∨ p.sys.boot = .released)
    (hoff : (p.rg F.PWR_BOFF_OFF).testBit c = false)
include hc hthere htrained hboot hoff

theorem Part.not_channelTrained_refused : ¬ (c ≥ 16 ∨ ¬ p.memTilePresent (c / 2) = true ∨ p.rgOn F.MC_STAT_TRAINED c = true ∨
    (p.sys.boot ≠ .configured ∧ p.sys.boot ≠ .released) ∨ (p.rg F.PWR_BOFF_OFF).testBit c = true) := by
  rintro (h | h | h | ⟨h1, h2⟩ | h)
  · exact absurd hc (Nat.not_lt.2 h)
  · exact h hthere
  · exact Bool.false_ne_true (htrained.symm.trans h)
  · exact hboot.elim h1 h2
  · exact Bool.false_ne_true (hoff.symm.trans h)

theorem Part.channelTrained_failed :
    Part.channelTrained c false speed ranks dpc gb p = (p.setRg F.MC_STAT_TRAINING 0 c).modChan c (fun x => { x with off := true }) := by
  unfold Part.channelTrained
  rw [if_neg (Part.not_channelTrained_refused hc hthere htrained hboot hoff)]
  rfl

/-- A trained channel takes its rate, its ranks and its capacity, and the record's offline ranks. -/
theorem Part.channelTrained_done :
    Part.channelTrained c true speed ranks dpc gb p =
      let r := (p.setRg F.MC_STAT_TRAINING 0 c).modChan c (fun x => { x with off := false, gb := min 512 gb })
      ((r.takes c 0 [(F.MC_STAT_SPEED, r.trainRate dpc speed), (F.MC_STAT_RANKS, ranks), (F.MC_STAT_DPC, dpc), (F.MC_STAT_SELFREF, 0),
        (F.MC_STAT_TRAINED, 1)]).capUpdate c).setRg F.MC_RANKOFF_OFF (p.sys.prm.record.get 0 (146 + c / 4) / 2 ^ (8 * (c % 4)) % 256) c := by
  unfold Part.channelTrained
  rw [if_neg (Part.not_channelTrained_refused hc hthere htrained hboot hoff)]
  rfl

end training

theorem Part.refreshBoundary_untrained (c : ChanId) (hthere : p.memTilePresent (c.val / 2) = true)
    (htrained : p.rgOn F.MC_STAT_TRAINED c.val = false) (h0 : c.val ≠ 0) :
    Part.refreshBoundary c.val p = p.applyHeld (mcCfgKey c.val) := by
  have hstill : (p.applyHeld (mcCfgKey c.val)).rgOn F.MC_STAT_TRAINED c.val = false := by
    unfold Part.rgOn at htrained ⊢
    rw [Part.applyHeld_rg (mcCfgKey_trained c)]
    exact htrained
  unfold Part.refreshBoundary
  simp only [Nat.not_le.2 c.isLt, hthere, not_true_eq_false, or_self, if_false, hstill, Bool.false_eq_true,
    false_and, h0]

theorem Part.ilvApply_committed (hthere : p.memTilePresent 0 = true) (hcommit : p.rgOn F.MC_ILVCTL_COMMIT = true)
    (htrained : (p.applyHeld (mcCfgKey 0)).rgOn F.MC_STAT_TRAINED 0 = false)
    (hstill : (p.applyHeld (mcCfgKey 0)).rgOn F.MC_ILVCTL_COMMIT = true) :
    p.ilvApply = ((p.applyHeld (mcCfgKey 0)).applyHeld ilvKey).setRg F.MC_ILVCTL_COMMIT 0 := by
  unfold Part.ilvApply Part.refreshBoundary
  rw [if_pos hcommit, if_neg (by simp [hthere])]
  simp only [htrained, Bool.false_eq_true, false_and, if_false, hstill, and_self, if_true]

theorem Part.ilvApply_idle (h : p.rgOn F.MC_ILVCTL_COMMIT = false) : p.ilvApply = p := by
  unfold Part.ilvApply
  simp only [h, Bool.false_eq_true, if_false]

/-! ### Scrubbing -/

theorem Part.scrubStep_no_turn {ce ue : BitVec 4} {rank device : Nat} (hturn : p.chanTurn c 3 = none) : Part.scrubStep c ce ue rank device p = p := by
  unfold Part.scrubStep
  simp only [hturn, ite_self]

section scrub

variable {ce ue : BitVec 4} {rank device : Nat} (hen : p.rgOn F.MC_SCRUB_EN c = true) (htrained : p.rgOn F.MC_STAT_TRAINED c = true)
    (hoff : (p.chanOf c).off = false) (hself : p.rgOn F.MC_STAT_SELFREF c = false) (hflush : p.flushOn = false)
    (hcap : 0 < p.rg F.MC_CAP_GB c)
include hen htrained hoff hself hflush hcap

/-- The scrub of the next line, with nothing queued for writing. -/
theorem Part.scrubStep_next (hturn : p.chanTurn c 3 = some g) (hwq : (g.chanOf c).wq = []) (hpwb : (g.mtOf (c / 2)).pwb = [])
    (hpos : (g.chanOf c).scrub / 2 ^ 24 < p.rg F.MC_CAP_GB c) :
    Part.scrubStep c ce ue rank device p =
      let n := (g.chanOf c).scrub
      let bad := ue &&& g.checked c (n * 64)
      ((((g.dramErrors c (n * 64) 1 (ce &&& g.checked c (n * 64)) bad rank device).dramPoison c (n * 64) bad).modChan c
        (fun x => { x with scrub := n + 1 })).setRg F.MC_SCRUBPOS_GB ((n + 1) / 2 ^ 24) c) := by
  have hskip : skipQueued [] (g.chanOf c).scrub (([] : List Nat).length + 1) = (g.chanOf c).scrub := by
    simp [skipQueued]
  unfold Part.scrubStep
  simp only [hen, htrained, hoff, hself, hflush, Nat.pos_iff_ne_zero.1 hcap, not_true_eq_false, Bool.false_eq_true, or_self, if_false,
    hturn, hwq, hpwb, List.map_nil, List.filterMap_nil, List.append_nil, hskip, ge_iff_le, Nat.not_le.2 hpos]

end scrub

/-! ### Retraining and sparing -/

/-- The channel after `n` recorded errors of its link. -/
def Part.linkErrors (p : Part) (c n : Nat) : Part :=
  (List.range n).foldl (fun (r : Part) (_ : Nat) =>
    (r.count F.MC_LINKERR_COUNT F.MC_STAT_OVF c).rasCount (tileOfChan c) (4 + c % 2) 1 1 0xFF 0 .unstated c 0) p

/-- A channel that a fourth failure has retrained. -/
def Part.retrained (p : Part) (c : Nat) : Part :=
  ((p.linkErrors c 3).setRg F.MC_STAT_RETRAIN 1 c).setRg F.MC_STAT_TRAINING 0 c

section retrain

variable {retries : Nat} (hc : c < 16) (htrained : p.rgOn F.MC_STAT_TRAINED c = true) (hcrc : p.rgOn F.MC_CFG_WRCRC c = true)
include hc htrained hcrc

theorem Part.retrainDone_few (h : retries < 3) : Part.retrainDone c retries true p = p.linkErrors c retries := by
  unfold Part.retrainDone
  simp only [Nat.not_le.2 hc, htrained, hcrc, not_true_eq_false, or_self, if_false, if_true,
    Nat.min_eq_right (Nat.le_of_lt h), h]
  rfl

theorem Part.retrainDone_fourth (h : 3 ≤ retries) : Part.retrainDone c retries true p = p.retrained c := by
  unfold Part.retrainDone
  simp only [Nat.not_le.2 hc, htrained, hcrc, not_true_eq_false, or_self, if_false, if_true,
    Nat.min_eq_left h, Nat.lt_irrefl]
  rfl

theorem Part.retrainDone_failed :
    Part.retrainDone c retries false p =
      (((p.retrained c).chanFinish c).setRg F.MC_STAT_TRAINED 0 c).modChan c (fun x => { x with off := true }) := by
  unfold Part.retrainDone
  simp only [Nat.not_le.2 hc, htrained, hcrc, not_true_eq_false, or_self, if_false, Bool.false_eq_true,
    Nat.lt_irrefl]
  rfl

end retrain

theorem Part.sparingCopyDone_copying {errs : List (Nat × DramErr)} (h : p.rg F.MC_SPARE_STATE c = 1) :
    Part.sparingCopyDone c errs p =
      let f := p.rg F.MC_SPARE_FROM c
      let v := errs.foldl (fun (x : Part) (a : Nat × DramErr) => x.spareCopied c f a.1 a.2) p
      let q := (v.chanGrant c 4).takes c 0 [(F.MC_SPARE_STATE, 2), (F.MC_SPARE_PCT, 100), (F.MC_RANKOFF_OFF, setBit (v.rg F.MC_RANKOFF_OFF c) f true)]
      let j := 146 + c / 4
      (q.modPrm (fun x => { x with record := x.record.put j (setBit (x.record.get 0 j) (8 * (c % 4) + f) true) })).rasPut (tileOfChan c) 0xFF 5 0 0xFF 0 .unstated := by
  unfold Part.sparingCopyDone
  rw [if_neg (not_not.2 h)]
  rfl

/-! ### Transfers -/

section reads

variable {ce ue : BitVec 4} {rank device : Nat} {q : Msg} {rest : List Msg} (hrq : (p.chanOf c).rq = q :: rest)
    (hflush : p.flushOn = false)
include hrq hflush

theorem Part.channelReadDone_no_turn (hturn : p.chanTurn c 0 = none) : Part.channelReadDone c ce ue rank device p = p := by
  unfold Part.channelReadDone
  simp only [hrq, hflush, Bool.false_eq_true, if_false, hturn]

/-- A read that completes, with what its check found. -/
theorem Part.channelReadDone_turn (hturn : p.chanTurn c 0 = some g) :
    Part.channelReadDone c ce ue rank device p =
      let ca := q.data.toNat
      let l := g.chanRead c ca
      let bad := ue &&& g.checked c ca
      let b := ((g.modChan c (fun x => { x with rq := rest })).dramErrors c ca 0 (ce &&& g.checked c ca) bad rank device).chanServed c false
        (some q.vmid)
      b.mrdAnswer (b.chanAgent c) q ⟨l.data, l.pois ||| bad⟩ (if bad = 0 then 0 else 1) := by
  unfold Part.channelReadDone
  simp only [hrq, hflush, Bool.false_eq_true, if_false, hturn]

end reads

theorem Part.writeQueueDrain_idle (h : p.wqWants c = false ∨ p.chanTurn c 1 = none) : Part.writeQueueDrain c p = p := by
  have hnone : (if p.wqWants c = true then p.chanTurn c 1 else none) = none := by
    rcases h with h | h
    · simp only [h, Bool.false_eq_true, if_false]
    · simp only [h, ite_self]
  unfold Part.writeQueueDrain
  simp only [hnone]

theorem Part.writeQueueDrain_turn (h : p.wqWants c = true) (hturn : p.chanTurn c 1 = some g) :
    Part.writeQueueDrain c p =
      (g.wqDrain c).modChan c (fun x => { x with
        high := ((g.chanOf c).high || decide ((g.chanOf c).wq.length ≥ g.whwm c)) && decide (x.wq.length > (g.wqDrain c).wlwm c) }) := by
  unfold Part.writeQueueDrain
  simp only [h, if_true, hturn]

section pwb

variable {i n : Nat} {e : WqEnt} {x : DramErr} (h : (p.mtOf i).pwb.find? (fun x => !(p.chanOf x.1).off) = some (n, e))
include h

theorem Part.pwbDrainStep_no_turn (hturn : p.chanTurn n 2 = none) : Part.pwbDrainStep i x p = p := by
  unfold Part.pwbDrainStep
  simp only [h, hturn]

theorem Part.pwbDrainStep_turn (hturn : p.chanTurn n 2 = some g) :
    Part.pwbDrainStep i x p = (((g.pwbRead i n e x).pwbDrain i).perfEvent (memTile i) 16 4 2 1 none none).chanServed n true none := by
  unfold Part.pwbDrainStep
  simp only [h, hturn]

theorem Part.pwbDrain_oldest :
    p.pwbDrain i = ((p.modMt i (fun x => { x with pwb := x.pwb.erase (n, e) })).wqLine n e.ca).dramWrite n e := by
  unfold Part.pwbDrain
  simp only [h]

end pwb

/-- The answer of a CXL device to its oldest request. -/
theorem Part.cxlMemResponse_oldest {u : Nat} {data : Vec} {pois : Bool} {q : Msg} {rest : List Msg}
    (hq : p.pci.cxl.get [] u = q :: rest) (hup : p.cxlUp u = true) :
    Part.cxlMemResponse u data pois p =
      let a := p.modPci (fun x => { x with cxl := x.cxl.put u rest })
      if q.opc = .mrd then a.mrdAnswer (a.grpAgent u) q ⟨data, if pois then 0xF else 0⟩ 0 else a.memCmp (a.grpAgent u) q 0 := by
  unfold Part.cxlMemResponse
  simp only [hq, hup, not_true_eq_false, if_false]

/-- Settles O36: each event of a channel by its own lemma. -/
theorem channelMaintenance : Obligations.ChannelMaintenance := by
  unfold Obligations.ChannelMaintenance
  refine ⟨?upkeep, ?transfers⟩
  case upkeep =>
    intro s c speed ranks dpc gb retries rank device ce ue errs p k
    refine ⟨?trained, fun hthere htr h0 => ?refresh, fun hthere htr hco hstill hagain => ?ilv, fun hco => ?ilvIdle,
      fun hen htr hoff hself hflush hcap => ⟨fun hturn => ?scrubWaits, ?scrubbed⟩, ?retrain, ?spared⟩
    case trained =>
      intro hthere htr hboot hoff q r
      exact ⟨exec_run rfl (Part.channelTrained_failed c.isLt hthere htr hboot hoff),
        exec_run rfl (Part.channelTrained_done c.isLt hthere htr hboot hoff)⟩
    case refresh => exact exec_run rfl (Part.refreshBoundary_untrained c hthere htr h0)
    case ilv => exact exec_run rfl (Part.ilvApply_committed hthere hco hstill hagain)
    case ilvIdle => exact exec_run rfl (Part.ilvApply_idle hco)
    case scrubWaits => exact exec_run rfl (Part.scrubStep_no_turn hturn)
    case scrubbed =>
      intro g hturn hwq hpwb hpos n ok bad q r
      exact exec_run rfl (Part.scrubStep_next hen htr hoff hself hflush hcap hturn hwq hpwb hpos)
    case retrain =>
      intro htr hcrc q r
      exact ⟨fun h => exec_run rfl (Part.retrainDone_few c.isLt htr hcrc h),
        fun h => exec_run rfl (Part.retrainDone_fourth c.isLt htr hcrc h),
        exec_run rfl (Part.retrainDone_failed c.isLt htr hcrc)⟩
    case spared =>
      intro h f v q j d
      exact exec_run rfl (Part.sparingCopyDone_copying h)
  case transfers =>
    intro s c ce ue rank device i g q rest e n x data pois p k
    refine ⟨fun hrq hflush => ⟨fun hturn => ?readWaits, ?read⟩, fun hw => ⟨fun hturn => ?writeWaits, ?write⟩, fun hw => ?noWrite,
      fun hx => ⟨fun hturn => ?drainWaits, fun g hturn => ?drain⟩, fun g => rfl, fun g hx => Part.pwbDrain_oldest hx, ?cxl⟩
    case readWaits => exact exec_run rfl (Part.channelReadDone_no_turn hrq hflush hturn)
    case read =>
      intro g hturn ca l ok bad b
      exact exec_run rfl (Part.channelReadDone_turn hrq hflush hturn)
    case writeWaits => exact exec_run rfl (Part.writeQueueDrain_idle (.inr hturn))
    case write =>
      intro g hturn high a
      exact exec_run rfl (Part.writeQueueDrain_turn hw hturn)
    case noWrite => exact exec_run rfl (Part.writeQueueDrain_idle (.inl hw))
    case drainWaits => exact exec_run rfl (Part.pwbDrainStep_no_turn hx hturn)
    case drain => exact exec_run rfl (Part.pwbDrainStep_turn hx hturn)
    case cxl =>
      intro hq hup a
      have holdest := Part.cxlMemResponse_oldest (data := data) (pois := pois) hq hup
      exact ⟨fun h => exec_run rfl (holdest.trans (if_pos h)), fun h => exec_run rfl (holdest.trans (if_neg h))⟩

end Sys2Proof.Machine
end

section
/-!
PROOFS. A power failure and its flush (O37).
-/
namespace Sys2Proof.Machine
open Sys2Proof
set_option Elab.async false

variable {p : Part}

/-! ### Easel's log leaves the system's state alone -/

theorem Part.signalReg_sys (tile init : Nat) (en skt core thread vec : Fld) (u : Nat) :
    (p.signalReg tile init en skt core thread vec u).sys = p.sys := by
  unfold Part.signalReg
  split <;> rfl

theorem Part.easEvent_sys (f : Fld) : (p.easEvent f).sys = p.sys := by
  unfold Part.easEvent
  split
  · rfl
  · exact Part.signalReg_sys ..

theorem Part.easelLog_sys (code sev addr info : Nat) : (p.easelLog code sev addr info).sys = p.sys :=
  Part.easEvent_sys _

theorem Part.flushLog_sys (code fails tiles lost : Nat) : (p.flushLog code fails tiles lost).sys = p.sys :=
  (Part.easEvent_sys _).trans (Part.easelLog_sys ..)

theorem Part.selfRefresh_sys : p.selfRefresh.sys = p.sys :=
  foldl_keeps (fun r : Part => r.sys = p.sys) _ _ p rfl fun _ _ hr => hr

/-! ### The pins -/

section pins

variable (hstby : p.sys.pins.stbyOk = true)
include hstby

theorem Part.pwrfailFall_high (h : p.sys.pins.pwrfailLow = false) :
    p.pwrfailFall = ((p.modPins (fun x => { x with pwrfailLow := true })).advance 200).powerFall := by
  unfold Part.pwrfailFall
  rw [if_neg (by simp [hstby, h])]

theorem Part.pwrfailRise_stby : p.pwrfailRise = (p.modPins (fun x => { x with pwrfailLow := false })).flushReset := by
  unfold Part.pwrfailRise
  rw [if_neg (by simp [hstby])]

theorem Part.vddBaseLow_running (h : p.sys.pins.rstLow = false) :
    p.vddBaseLow = ((p.advance 1000).easelLog 8 0 0 0).powerFall := by
  unfold Part.vddBaseLow
  rw [if_neg (by simp [hstby, h])]

end pins

theorem Part.pwrfailFall_low (h : p.sys.pins.stbyOk = false ∨ p.sys.pins.pwrfailLow = true) : p.pwrfailFall = p := by
  unfold Part.pwrfailFall
  exact if_pos (h.imp_left Bool.eq_false_iff.1)

/-! ### The flush in progress -/

theorem Part.advance_armedLeft (ns : Nat) : (p.advance ns).armedLeft = p.armedLeft := by
  unfold Part.advance
  split <;> rfl

section flush

variable {f : Flush} (hf : p.sys.varn.flush = some f) (hdone : p.sys.varn.flushdone = false)
include hf hdone

theorem Part.modFlush_running (g : Flush → Part → Part) : p.modFlush g = g f p := by
  unfold Part.modFlush
  simp only [hf, hdone, Bool.false_eq_true, if_false]

theorem Part.gpfPhase1_first (h : f.phase1 = false) : p.gpfPhase1 = p.setFlush { f with phase1 := true, start := p.time } :=
  (Part.modFlush_running hf hdone _).trans (if_neg (Bool.eq_false_iff.1 h))

/-- A lane group whose device is lost completes no phase 2 (R391). -/
theorem Part.gpfPhase2_lost (hlost : p.gpfLost ≠ 0) : p.gpfPhase2 = p :=
  (Part.modFlush_running hf hdone _).trans (if_neg fun h => hlost h.2.2)

section phase2

variable (h1 : f.phase1 = true) (h2 : f.phase2 = false)
include h1 h2

theorem Part.gpfPhase2_done (hlost : p.gpfLost = 0) : p.gpfPhase2 = p.setFlush { f with phase2 := true } :=
  (Part.modFlush_running hf hdone _).trans (if_pos ⟨h1, Bool.eq_false_iff.1 h2, hlost⟩)

theorem Part.gpfTimeout_late {groups : BitVec 8} (hlate : (groups.toNat &&& p.gpfGroups) ||| p.gpfLost ≠ 0) :
    Part.gpfTimeout groups p = ({ p with time := max p.time (f.start + p.gpfTmo * 1000) } : Part).setFlush
      { f with phase2 := true, fails := (groups.toNat &&& p.gpfGroups) ||| p.gpfLost } := by
  refine (Part.modFlush_running hf hdone _).trans (if_neg ?_)
  rintro (h | h | h)
  · exact h h1
  · exact Bool.false_ne_true (h2.symm.trans h)
  · exact hlate h

end phase2

theorem Part.flushReport_running :
    p.flushReport = (p.advance 10000).setFlush { f with report := (p.advance 10000).armedLeft } := by
  rw [Part.advance_armedLeft]
  exact Part.modFlush_running hf hdone _

theorem Part.flushSilent_running :
    p.flushSilent = (((p.flushLog 3 f.fails 0 f.report).armed.foldl (fun (r : Part) (i : Nat) => r.drainOpen i)
      (p.flushLog 3 f.fails 0 f.report)).selfRefresh.socketReset .cold) :=
  Part.modFlush_running hf hdone _

theorem Part.flushDone_early (h2 : f.phase2 = false) : p.flushDone = p :=
  (Part.modFlush_running hf hdone _).trans (if_pos (.inl (Bool.eq_false_iff.1 h2)))

end flush

/-- The part once the armed buffers are empty and the outcome is recorded. -/
def Part.flushed (p : Part) (f : Flush) : Part :=
  (((p.armed.foldl (fun (r : Part) (i : Nat) => (r.setRg F.VAR_STAT_FLUSHING 0 i).setRg F.VAR_STAT_DONE 1 i) p.selfRefresh).flushLog
    (flushCode f.fails p.armedLeft) f.fails (p.armed.foldl (fun a i => if p.pwbUsed i = 0 then a else a + 2 ^ i) 0) p.armedLeft).modVarn
    (fun v => { v with flushdone := true }))

theorem Part.modVarn_sys_pins (g : VarnSt → VarnSt) : (p.modVarn g).sys.pins = p.sys.pins := rfl

theorem Part.flushed_pins (p : Part) (f : Flush) : (p.flushed f).sys.pins = p.sys.pins := by
  have hdrained : (p.armed.foldl (fun (r : Part) (i : Nat) => (r.setRg F.VAR_STAT_FLUSHING 0 i).setRg F.VAR_STAT_DONE 1 i)
      p.selfRefresh).sys = p.sys :=
    foldl_keeps (fun r : Part => r.sys = p.sys) _ _ _ Part.selfRefresh_sys fun _ _ hr => hr
  unfold Part.flushed
  rw [Part.modVarn_sys_pins, Part.flushLog_sys, hdrained]

/-- FLUSHDONE with GPF over and the armed buffers drained. -/
theorem Part.flushDone_drained {f : Flush} (hf : p.sys.varn.flush = some f) (hdone : p.sys.varn.flushdone = false)
    (h2 : f.phase2 = true) (hempty : p.armed.any (fun i => (p.mtOf i).pwb.any (fun x => !(p.chanOf x.1).off)) = false)
    (hwaits : p.sys.pins.coldWaits = false) : p.flushDone = (p.flushed f).flushReset := by
  have hcold : ¬ (p.flushed f).sys.pins.coldWaits = true := by
    rw [Part.flushed_pins, hwaits]
    exact Bool.false_ne_true
  exact (Part.modFlush_running hf hdone _).trans ((if_neg (by rw [h2, hempty]; decide)).trans (if_neg hcold))

/-- Settles O37: the pins start the flush, and each of its events by the state that it is in. -/
theorem flushEvents : Obligations.FlushEvents := by
  unfold Obligations.FlushEvents
  intro s groups f p
  refine ⟨fun hs h => exec_run rfl (Part.pwrfailFall_high hs h), fun h => exec_run rfl (Part.pwrfailFall_low h),
    fun hs => exec_run rfl (Part.pwrfailRise_stby hs), fun hs h => exec_run rfl (Part.vddBaseLow_running hs h), fun hf hdone => ?_⟩
  refine ⟨fun h => exec_run rfl (Part.gpfPhase1_first hf hdone h), fun h1 h2 =>
    ⟨fun hl => exec_run rfl (Part.gpfPhase2_done hf hdone h1 h2 hl), fun hl => exec_run rfl (Part.gpfPhase2_lost hf hdone hl), ?late⟩,
    exec_run rfl (Part.flushReport_running hf hdone), ?done, fun h2 => exec_run rfl (Part.flushDone_early hf hdone h2),
    exec_run rfl (Part.flushSilent_running hf hdone)⟩
  case late =>
    intro late hlate
    exact exec_run rfl (Part.gpfTimeout_late hf hdone h1 h2 hlate)
  case done =>
    intro h2 hempty hwaits tiles q r
    exact exec_run rfl (Part.flushDone_drained hf hdone h2 hempty hwaits)

end Sys2Proof.Machine
end

section
/-!
PROOFS. Enumeration: the refutation of O38.
-/
namespace Sys2Proof.Machine
open Sys2Proof
set_option Elab.async false

/-- The part after reset, but a master that has committed the count 0 with the tag 0. -/
def zeroCount : Part :=
  (Part.reset.modPins (fun x => { x with master := true })).modDvt (fun x => { x with phase := .committed, count := 0, tag := 0 })

def zeroCountState : State := { pending := [], part := zeroCount }

/-- A commit frame of count 0 and tag 0, with its parity bit. -/
def zeroCommit : BitVec 28 := 0x4000002

theorem read_zeroCommit : EnumFrame.read zeroCommit.toNat = some ⟨true, 0, 0, 0⟩ := by decide +kernel

/-- The phase of enumeration after a command. -/
def phaseAfter (o : Host.Outcome State Fault Refusal) : Option EnumPhase :=
  match o with
  | .next s => some s.part.sys.dvt.phase
  | _ => none

/-- Refutes O38: its clause on the master's own commit frame speaks of every committed count, also of 0. A commit frame of
count 0 is the failure commit (R346), so a master that had committed 0 with tag 0 fails at the frame that the statement has it
complete enumeration with. -/
theorem not_enumeration : ¬ Obligations.Enumeration := by
  unfold Obligations.Enumeration
  intro h
  obtain ⟨-, -, -, -, hcommit, -⟩ := h.1 zeroCountState zeroCommit ⟨true, 0, 0, 0⟩
  have hdone := (hcommit read_zeroCommit rfl).2.1 rfl rfl rfl rfl
  exact absurd (congrArg phaseAfter hdone) (by decide +kernel)

end Sys2Proof.Machine
end

section
/-!
PROOFS. Flits of a link and what sockets tell each other (O39).
-/
namespace Sys2Proof.Machine
open Sys2Proof
set_option Elab.async false

/-! ### Flits of a link that is up (R352 to R354) -/

section
variable {p : Part} {d : Nat}

theorem Part.dvtFlit_of_down (f : RxFlit) (h : p.linkState d ≠ 4) : Part.dvtFlit d f p = p := if_pos (.inr h)

theorem Part.dvtNak_of_down (ack : Nat) (h : p.linkState d ≠ 4) : Part.dvtNak d ack p = p := if_pos (.inr h)

variable (hd : d < 4) (hs : p.linkState d = 4)
include hd hs

/-- A link that is up is no guard's. -/
theorem link_serves : ¬ (d ≥ 4 ∨ p.linkState d ≠ 4) := by
  rintro (h | h)
  · exact absurd hd (Nat.not_lt.2 h)
  · exact h hs

theorem Part.dvtFlit_lost {f : RxFlit}
    (h : f.crcOk = false ∨ f.seq ≠ (((p.modLink d fun x => { x with wire := [] }).linkOf d).rxSeq + 1) % 4096) :
    Part.dvtFlit d f p = ((((p.modLink d fun x => { x with wire := [] }).modLink d
      fun x => { x with nak := true, nakDue := !x.nak }).transmit d).sweepLost) := by
  unfold Part.dvtFlit
  rw [if_neg (link_serves hd hs)]
  dsimp only
  rw [if_pos (by simpa using h)]

theorem Part.dvtFlit_taken {f : RxFlit} (hc : f.crcOk = true)
    (h : f.seq = (((p.modLink d fun x => { x with wire := [] }).linkOf d).rxSeq + 1) % 4096) :
    Part.dvtFlit d f p = (((p.modLink d fun x => { x with wire := [] }).flitIn d f).transmit d).sweepLost := by
  unfold Part.dvtFlit
  rw [if_neg (link_serves hd hs)]
  dsimp only
  rw [if_neg]
  rintro (h' | h')
  · exact h' hc
  · exact h' h

theorem Part.dvtNak_up (ack : Nat) : Part.dvtNak d ack p = (p.modLink d fun x => { x with wire := [] }).resend d ack :=
  if_neg (link_serves hd hs)

end

section
variable {p : Part} {d : Nat}

/-- A message flit without ACK and NAK. -/
theorem Part.flitIn_messages {f : RxFlit} (hty : f.ty = 0) (hack : f.ack = none) (hnak : f.nak = false) :
    p.flitIn d f = f.msgs.foldl (fun (r : Part) (m : Nat × Msg) =>
        (r.received d { m.2 with detour := decide (m.1 ≥ 4) }).fwdEvent 2 (if m.2.opc.cls = 0 then some m.2.vmid else none))
      (((p.creditAdd d f.credits).bwCount 4 0 d 0 (16 * f.slotVcs.length)).modLink d (fun x =>
        { x with rxSeq := f.seq, nak := false, owed := f.slotVcs.foldl (fun o v => Tab.upd 0 o v (fun n => min 511 (n + 1))) x.owed })) := by
  unfold Part.flitIn
  simp only [hty, hack, hnak, ne_eq, not_true_eq_false, Bool.false_eq_true, if_false]

/-- A resend before the eighth in a row, and the eighth. -/
theorem Part.resend_before_eighth {ack n : Nat} {l : List DFlit} (hl : l = ackTx (p.linkOf d).tx ack)
    (hn : n = if l.length < (p.linkOf d).tx.length then 1 else (p.linkOf d).resends + 1) (h : n < 8) :
    p.resend d ack = l.foldl (fun (r : Part) (y : DFlit) => r.driveAgain d y)
      ((((p.modLink d (fun x => { x with tx := l, resends := n })).count F.DVT_REPLAYS_COUNT F.DVT_STAT_OVF d).linkEvent d 2 1).rasCount
        tileD d 1 1 d 0 .unstated d 0) := by
  subst hl hn
  exact if_neg (Nat.not_le.2 h)

theorem Part.resend_eighth {ack n : Nat} {l : List DFlit} (hl : l = ackTx (p.linkOf d).tx ack)
    (hn : n = if l.length < (p.linkOf d).tx.length then 1 else (p.linkOf d).resends + 1) (h : 8 ≤ n) :
    p.resend d ack = ((((p.modLink d (fun x => { x with tx := l, resends := n })).count F.DVT_REPLAYS_COUNT F.DVT_STAT_OVF d).linkEvent
      d 2 1).rasCount tileD d 1 1 d 0 .unstated d 0).retrainStart d := by
  subst hl hn
  exact if_pos h

end

/-! ### Messages that are sent again (R364) -/

section
variable {p : Part} {src d : Nat}

theorem Part.reinjected_passes {dst : Nat} (seq : Nat) (m : Msg) (h : dst ≠ p.sktId) :
    Part.reinjected src dst d seq m p = p.modDvt (fun v => { v with again := v.again ++ [⟨src, dst, d, .msg (seq % 4096) { m with detour := true }⟩] }) :=
  if_pos h

theorem Part.reinjEnd_passes {dst : Nat} (cls : Nat) (h : dst ≠ p.sktId) :
    Part.reinjEnd src dst d cls p = p.modDvt (fun v => { v with again := v.again ++ [⟨src, dst, d, .stop cls⟩] }) :=
  if_pos h

theorem Part.reinjected_idle (seq : Nat) (m : Msg) (h : p.rgOn F.DVT_REINJ_ACTIVE d = false) :
    Part.reinjected src p.sktId d seq m p = p :=
  (if_neg (fun h' => h' rfl)).trans (if_pos (.inr (by simp [h])))

variable (hd : d < 4) (ha : p.rgOn F.DVT_REINJ_ACTIVE d = true)
include hd ha

/-- A link whose re-injection runs is no guard's. -/
theorem reinj_serves : ¬ (d ≥ 4 ∨ ¬ p.rgOn F.DVT_REINJ_ACTIVE d) := by
  rintro (h | h)
  · exact absurd hd (Nat.not_lt.2 h)
  · exact h ha

theorem Part.reinjected_again {seq : Nat} (m : Msg) (h : (p.rg F.DVT_REINJ_ALAST d + 4096 - seq % 4096) % 4096 < 1024) :
    Part.reinjected src p.sktId d seq m p = (p.count F.DVT_DUPS_COUNT F.DVT_STAT_OVF d).fwdEvent 4 none :=
  (if_neg (fun h' => h' rfl)).trans ((if_neg (reinj_serves hd ha)).trans (if_pos h))

theorem Part.reinjected_new {seq : Nat} (m : Msg) (h : 1024 ≤ (p.rg F.DVT_REINJ_ALAST d + 4096 - seq % 4096) % 4096) :
    Part.reinjected src p.sktId d seq m p =
      (p.received d { m with detour := true }).fwdEvent 2 (if m.opc.cls = 0 then some m.vmid else none) :=
  (if_neg (fun h' => h' rfl)).trans ((if_neg (reinj_serves hd ha)).trans (if_neg (Nat.not_lt.2 h)))

theorem Part.reinjEnd_open {cls : Nat} (h : ((p.modLink d fun x => { x with ends := x.ends.filter (· ≠ cls) }).linkOf d).ends ≠ []) :
    Part.reinjEnd src p.sktId d cls p = p.modLink d fun x => { x with ends := x.ends.filter (· ≠ cls) } :=
  (if_neg (fun h' => h' rfl)).trans ((if_neg (reinj_serves hd ha)).trans (if_neg (fun h' => h (List.isEmpty_iff.1 h'))))

theorem Part.reinjEnd_last {cls : Nat} (h : ((p.modLink d fun x => { x with ends := x.ends.filter (· ≠ cls) }).linkOf d).ends = []) :
    Part.reinjEnd src p.sktId d cls p =
      (((p.modLink d fun x => { x with ends := x.ends.filter (· ≠ cls) }).setRg F.DVT_REINJ_DONE 1 d).modLink d
        fun x => { x with rxSeq := 4095 }).reinjOver d :=
  (if_neg (fun h' => h' rfl)).trans ((if_neg (reinj_serves hd ha)).trans (if_pos (List.isEmpty_iff.2 h)))

end

/-! ### Link states, isolation and drains (R361, R362, R367) -/

section
variable {p : Part}

/-- A link-state message that brings nothing new takes the agreeing socket off the list of those that differ. -/
theorem Part.linkStateMessage_known {d k up weight sum : Nat} (hd : d < 4) (hs : p.linkState d = 4) (hk : k < 16) (hne : k ≠ p.sktId)
    (hup : p.rg (if k < 8 then F.DVT_MAP_LO_UP else F.DVT_MAP_HI_UP) / 2 ^ (4 * (k % 8)) % 16 = up % 16) (hsum : sum = p.ilvSum)
    (hw : p.sys.dvt.weight.get 1 k = max 1 weight) (hold : p.sys.dvt.sum.find? k = some sum) {a : Part}
    (ha : a = p.modDvt (fun x => { x with weight := x.weight.put k (max 1 weight), sum := x.sum.put k sum, differ := x.differ.del k })) :
    Part.linkStateMessage d k up weight sum p = a.setRg F.DVT_ILVMIS_SKT (setBit (a.rg F.DVT_ILVMIS_SKT) k false) := by
  have hg : ¬ (d ≥ 4 ∨ p.linkState d ≠ 4 ∨ k ≥ 16 ∨ k = p.sktId) := by
    rintro (h | h | h | h)
    · exact absurd hd (Nat.not_lt.2 h)
    · exact h hs
    · exact absurd hk (Nat.not_lt.2 h)
    · exact hne h
  have hi (f : DvtSt → DvtSt) : (p.modDvt f).ilvSum = p.ilvSum := rfl
  unfold Part.linkStateMessage
  rw [if_neg hg]
  simp only [hup, hsum ▸ hold, hsum, hw, hi, ne_eq, not_true_eq_false, decide_false, Bool.or_self, Bool.false_eq_true, not_false_eq_true,
    if_true, ha]

theorem Part.isolationHold_due {q : Part} (h : p.isolationDue = some q) :
    p.isolationHold =
      (List.range nCores).foldl (fun (r : Part) (c : Nat) => if r.coreInSvc c then (r.testAbort c).coreAim c .reset else r) q := by
  unfold Part.isolationHold
  rw [h]

theorem Part.isolationHold_none (h : p.isolationDue = none) : p.isolationHold = p := by
  unfold Part.isolationHold
  rw [h]

theorem Part.drainMarker_here (src cls : Nat) :
    Part.drainMarker src p.sktId cls p = p.mailTo src (.drainAck p.sktId src cls (p.markerVc src 2)) := if_pos rfl

theorem Part.drainMarker_passes {src dst cls : Nat} (h : dst ≠ p.sktId) :
    Part.drainMarker src dst cls p = p.mailTo dst (.drain src dst cls (p.markerVc dst cls)) := if_neg h

theorem Part.drainAck_passes {src dst cls : Nat} (h : dst ≠ p.sktId) :
    Part.drainAck src dst cls p = p.mailTo dst (.drainAck src dst cls (p.markerVc dst 2)) := if_pos h

theorem Part.drainAck_here (src cls : Nat) :
    Part.drainAck src p.sktId cls p = p.modDvt (fun x =>
      let l := x.drain.map (fun y => if y.dst = src then { y with left := y.left.filter (· ≠ cls) } else y)
      { x with drain := l.filter (fun y => !y.left.isEmpty) }) := if_neg (fun h => h rfl)

/-! ### TIME, timeouts and interleave sums (R368, R369, R372) -/

theorem Part.timeBroadcast_no_cap (hm : p.sktId = 0) (hdone : p.rgOn F.DVT_ENUM_DONE = true) (ht : 1024 ≤ p.sys.dvt.ticks)
    (hcap : p.rgOn F.DVT_GPWR_EN = false) :
    p.timeBroadcast = ((List.range 4).foldl (fun (r : Part) (x : Nat) => if r.linkState x = 4 then r.mgmt x (.time r.time []) else r)
      ((p.modDvt (fun x => { x with ticks := 0 })).modDvt (fun x => { x with capOn := false }))).tellState := by
  have hg : ¬ (p.sktId ≠ 0 ∨ ¬ p.rgOn F.DVT_ENUM_DONE ∨ p.sys.dvt.ticks < 1024) := by
    rintro (h | h | h)
    · exact h hm
    · exact h hdone
    · exact absurd ht (Nat.not_le.2 h)
  have hcap' : (p.modDvt (fun x => { x with ticks := 0 })).rgOn F.DVT_GPWR_EN = false := hcap
  unfold Part.timeBroadcast
  rw [if_neg hg]
  simp only [hcap', Bool.false_eq_true, if_false, false_and]

/-- The first time message of a socket whose TIME is behind steps it. -/
theorem Part.timeMessage_first {d ref : Nat} (hd : d < 4) (hs : p.linkState d = 4) (hp : p.timeParent = some d) (ht : p.time ≤ ref)
    (hl : p.rgOn F.DVT_TSYNC_LOCKED = false) {now : Nat} (hnow : now = ref + (p.linkOf d).rtt / 2) {a : Part}
    (ha : a = (({ p.setRg F.DVT_TSYNC_OFFSET (min (now - p.time) 32767) with time := now } : Part).setRg F.DVT_TSYNC_LOCKED 1).modDvt
      (fun x => { x with capOn := false })) :
    Part.timeMessage d ref [] p = ((List.range 4).foldl (fun (r : Part) (x : Nat) =>
      if x ≠ d ∧ r.linkState x = 4 then r.mgmt x (.time r.time []) else r) a).tellState := by
  subst ha
  have hg : ¬ (d ≥ 4 ∨ p.linkState d ≠ 4 ∨ p.timeParent ≠ some d) := by
    rintro (h | h | h)
    · exact absurd hd (Nat.not_lt.2 h)
    · exact h hs
    · exact h hp
  have hb : ¬ p.time > now := by omega
  have hl' (v : Nat) : (p.setRg F.DVT_TSYNC_OFFSET v).rgOn F.DVT_TSYNC_LOCKED = false := by
    rw [Part.rgOn, setRg_rg_of_lo_ne (by decide) (by decide) (by decide)]
    exact hl
  unfold Part.timeMessage
  simp only [← hnow]
  rw [if_neg hg]
  simp only [hb, decide_false, Bool.false_eq_true, if_false, hl', not_false_eq_true, if_true, List.getElem?_nil, List.isEmpty_nil,
    Bool.not_true]

theorem Part.timeoutReport_passes {skt dst line tile init : Nat} (h : dst ≠ p.sktId) :
    Part.timeoutReport skt dst line tile init p = p.mailTo dst (.report skt dst line tile init) := if_pos h

theorem Part.timeoutReport_here {skt line tile init n : Nat} (h : coreOrd tile = some n) (hi : init < 4) :
    Part.timeoutReport skt p.sktId line tile init p =
      (p.easelLog 14 2 (line * 64) (skt % 16 * 2 ^ 8 + tile % 256 * 2 ^ 12)).easelResets (2 * n + init / 2) := by
  unfold Part.timeoutReport
  simp only [h, hi, ne_eq, not_true_eq_false, if_false, if_true]

theorem Part.ilvMismatch_differs {skt t : Nat} (hm : p.sktId = 0) (hc : p.sktCnt ≠ 1) (ht : p.sys.dvt.differ.find? skt = some t)
    (hs : p.sys.dvt.sum.get 0 skt ≠ p.ilvSum) {a : Part} (ha : a = { p with time := max p.time (t + 1000000) }) :
    p.ilvMismatch skt =
      ((a.setRg F.DVT_ILVMIS_SKT (setBit (a.rg F.DVT_ILVMIS_SKT) skt true)).setRg F.DVT_GSTAT_ILVMIS 1).easEvent F.EAS_EVT_LOG := by
  subst ha
  unfold Part.ilvMismatch
  simp only [hm, hc, ht, hs, ne_eq, not_true_eq_false, or_self, if_false]

end

/-- Settles O39: each command is one call of an operation of the part, and each clause one of that operation's branches. -/
theorem linkTraffic : Obligations.LinkTraffic := by
  unfold Obligations.LinkTraffic
  constructor
  · intro s d f ack seq q cls src dst p k w
    have hd : k < 4 := d.isLt
    refine ⟨fun hs => ⟨fun h => exec_run rfl (Part.dvtFlit_lost hd hs h), fun hc hty hseq hack hnak => ?_, ?_⟩, fun hs =>
      ⟨exec_run rfl (Part.dvtFlit_of_down f hs), exec_run rfl (Part.dvtNak_of_down _ hs)⟩, fun h =>
      ⟨exec_run rfl (Part.reinjected_passes _ q h), exec_run rfl (Part.reinjEnd_passes _ h)⟩, fun h ha => ⟨?_, ?_, ?_⟩, fun h ha => ?_⟩
    · refine exec_run rfl ((Part.dvtFlit_taken hd hs hc hseq).trans ?_)
      rw [Part.flitIn_messages hty hack hnak]
    · exact ⟨fun h => exec_run rfl ((Part.dvtNak_up hd hs _).trans (Part.resend_before_eighth rfl rfl h)),
        fun h => exec_run rfl ((Part.dvtNak_up hd hs _).trans (Part.resend_eighth rfl rfl h))⟩
    · exact fun h' => exec_run rfl ((congrArg (Part.reinjected _ · k _ q p) h).trans (Part.reinjected_again hd ha q h'))
    · exact fun h' => exec_run rfl ((congrArg (Part.reinjected _ · k _ q p) h).trans (Part.reinjected_new hd ha q h'))
    · exact ⟨fun h' => exec_run rfl ((congrArg (Part.reinjEnd _ · k _ p) h).trans (Part.reinjEnd_open hd ha h')),
        fun h' => exec_run rfl ((congrArg (Part.reinjEnd _ · k _ p) h).trans (Part.reinjEnd_last hd ha h'))⟩
    · exact exec_run rfl ((congrArg (Part.reinjected _ · k _ q p) h).trans (Part.reinjected_idle _ q ha))
  · intro s d skt up init weight sum cls ref line tile shares dst n q p k
    refine ⟨fun hs hne hup hsum hw hold => ?_, fun h => exec_run rfl (Part.isolationHold_due h),
      fun h => exec_run rfl (Part.isolationHold_none h), fun h => ?_, fun h => exec_run rfl (Part.drainMarker_passes h),
      fun h => exec_run rfl (Part.drainAck_passes h), fun h => ?_,
      fun hm hdone ht hcap => exec_run rfl (Part.timeBroadcast_no_cap hm hdone ht hcap), fun hs hp ht hl hsh => ?_,
      fun h => exec_run rfl (Part.timeoutReport_passes h), fun h hn hi => ?_, fun hm hc t ht hne => ?_⟩
    · exact exec_run rfl (Part.linkStateMessage_known d.isLt hs skt.isLt hne (hup.trans (Nat.mod_eq_of_lt up.isLt).symm) hsum hw hold rfl)
    · refine exec_run rfl ((congrArg (Part.drainMarker k · cls.val p) h).trans ((Part.drainMarker_here k cls.val).trans ?_))
      rw [h]
    · exact exec_run rfl ((congrArg (Part.drainAck k · cls.val p) h).trans (Part.drainAck_here k cls.val))
    · subst hsh
      exact exec_run rfl (Part.timeMessage_first d.isLt hs hp ht hl rfl rfl)
    · exact exec_run rfl ((congrArg (Part.timeoutReport k · line.toNat tile.val init.toNat p) h).trans (Part.timeoutReport_here hn hi))
    · exact exec_run rfl (Part.ilvMismatch_differs hm hc ht hne rfl)

end Sys2Proof.Machine
end

section
/-!
PROOFS. Outbound and inbound traffic of the ports (O40).
-/
namespace Sys2Proof.Machine
open Sys2Proof
set_option Elab.async false

/-! ### The answers to requests that a port sent (R381, R388) -/

/-- The request of a tag that a port has outstanding. -/
def Part.outstanding (p : Part) (n tag : Nat) : Option OutReq := (p.portOf n).out.find? (fun x => decide (x.tag = tag))

section
variable {p : Part} {n tag : Nat} {data : Vec}

theorem Part.pcieCompletion_unknown (st : CplStatus) (pois : Bool) (h : p.outstanding n tag = none) :
    Part.pcieCompletion n tag st data pois p = p := by
  unfold Part.outstanding at h
  unfold Part.pcieCompletion
  rw [h, ite_self]

theorem Part.completionTimeout_unknown (h : p.outstanding n tag = none) : Part.completionTimeout n tag p = p := by
  unfold Part.outstanding at h
  unfold Part.completionTimeout
  rw [h]

section
variable {o : OutReq} (h : p.outstanding n tag = some o) (hu : p.portUp n = true)
include h hu

/-- A completion of a request that the port sent, by its status. -/
theorem Part.pcieCompletion_success (pois : Bool) :
    Part.pcieCompletion n tag .success data pois p =
      (let q := ((((p.bwCount 2 0 n 0 (if o.cfgWrite = true then 0 else 8 * 2 ^ o.msg.sz / 8)).endRead n o
          (data.toNat % 2 ^ (8 * 2 ^ o.msg.sz)) pois 0).modPort n (fun x => { x with out := x.out.erase o })).portPump n 300)
       if pois then q.portErr n [F.PCI_PORT_ERR_POISON] else q) := by
  unfold Part.outstanding at h
  unfold Part.pcieCompletion
  rw [h, if_neg (not_not_intro hu)]

theorem Part.pcieCompletion_ur (pois : Bool) :
    Part.pcieCompletion n tag .ur data pois p =
      ((((p.endRead n o (allOnes o.msg) false 0).modPort n (fun x => { x with out := x.out.erase o })).portPump n 300).portErr n
        [F.PCI_PORT_ERR_UR]) := by
  unfold Part.outstanding at h
  unfold Part.pcieCompletion
  rw [h, if_neg (not_not_intro hu)]

theorem Part.pcieCompletion_ca (pois : Bool) :
    Part.pcieCompletion n tag .ca data pois p =
      ((((p.endRead n o (allOnes o.msg) false 0).modPort n (fun x => { x with out := x.out.erase o })).portPump n 300).portErr n
        [F.PCI_PORT_ERR_CA]) := by
  unfold Part.outstanding at h
  unfold Part.pcieCompletion
  rw [h, if_neg (not_not_intro hu)]

end

/-- A request without an answer ends with all ones; on a containment port that is a containment. -/
theorem Part.completionTimeout_known {o : OutReq} (h : p.outstanding n tag = some o) {q r : Part}
    (hq : q = { p with time := max p.time (o.time + max 1 (p.rg F.PCI_PORT_CTO_MS n) * 1000000) })
    (hr : r = (q.modPort n (fun x => { x with out := x.out.erase o })).endRead n o (allOnes o.msg) false 0) :
    Part.completionTimeout n tag p =
      if r.rgOn F.PCI_PORT_STAT_CMODE n then r.contain n [F.PCI_PORT_ERR_CTO]
      else (r.portPump n 300).portErr n [F.PCI_PORT_ERR_CTO] := by
  subst hq hr
  unfold Part.outstanding at h
  unfold Part.completionTimeout
  rw [h]

end

/-! ### Requests that arrive at a port (R209, R211, R377, R382, R392) -/

section
variable {p : Part} {r : InReq} (hu : p.portUp r.port = true)
include hu

theorem Part.inboundRead_malformed {len : Nat} (h : r.addr.badSpan len 4096 = true) :
    Part.inboundRead r len p = Part.containmentTrigger r.port .malformed p :=
  (if_neg (not_not_intro hu)).trans (if_pos h)

theorem Part.inboundWrite_malformed {data : List (Option Byte)} (pois : Bool) (h : r.addr.badSpan data.length 512 = true) :
    Part.inboundWrite r data pois p = Part.containmentTrigger r.port .malformed p :=
  (if_neg (not_not_intro hu)).trans (if_pos h)

theorem Part.inboundRead_host {len : Nat} (h : r.addr.badSpan len 4096 = false) (hh : p.fromHost r.port = true) :
    Part.inboundRead r len p = p.hostRead r len :=
  (if_neg (not_not_intro hu)).trans ((if_neg (Bool.eq_false_iff.1 h)).trans (if_pos hh))

theorem Part.inboundWrite_host {data : List (Option Byte)} (pois : Bool) (h : r.addr.badSpan data.length 512 = false)
    (hh : p.fromHost r.port = true) :
    Part.inboundWrite r data pois p = (p.bwCount 2 0 r.port 0 data.length).hostWrite r data :=
  (if_neg (not_not_intro hu)).trans ((if_neg (Bool.eq_false_iff.1 h)).trans (if_pos hh))

variable {addr : Nat} (hh : p.fromHost r.port = false) (ha : r.addr = .mem addr)
include hh ha

theorem Part.inboundRead_root {len : Nat} (h : r.addr.badSpan len 4096 = false) :
    Part.inboundRead r len p = p.rootRead r addr len := by
  refine (if_neg (not_not_intro hu)).trans ((if_neg (Bool.eq_false_iff.1 h)).trans ((if_neg (Bool.eq_false_iff.1 hh)).trans ?_))
  rw [ha]

theorem Part.inboundWrite_root {data : List (Option Byte)} (pois : Bool) (h : r.addr.badSpan data.length 512 = false) :
    Part.inboundWrite r data pois p = p.rootWrite r addr data pois := by
  refine (if_neg (not_not_intro hu)).trans ((if_neg (Bool.eq_false_iff.1 h)).trans ((if_neg (Bool.eq_false_iff.1 hh)).trans ?_))
  rw [ha]

end

/-- The length that a write asks translation for: that of one run of all its bytes. -/
def runLength : List (Nat × List Byte) → Nat
  | [(0, l)] => l.length
  | _ => 0

section
variable {p : Part} {r : InReq} {addr : Nat}

theorem Part.rootRead_bad_source {q : Part} (len : Nat) (h : p.sourceBad r.port r.rid = some q) :
    p.rootRead r addr len = (q.grpEvent (r.port / 8) 1 none).answerTlp r.port .ur [] false := by
  unfold Part.rootRead
  dsimp only
  rw [h]

theorem Part.rootWrite_bad_source {q : Part} (data : List (Option Byte)) (pois : Bool) (h : p.sourceBad r.port r.rid = some q) :
    p.rootWrite r addr data pois = (q.grpEvent (r.port / 8) 1 none).bwCount 2 0 r.port 0 data.length := by
  unfold Part.rootWrite
  dsimp only
  rw [h]

/-- A read of memory that nothing refuses and nothing holds up. -/
theorem Part.rootRead_memory {len pa x y v : Nat} {pe : BitVec 8} {b : Bool} {q t : Part} (h : p.sourceBad r.port r.rid = none)
    (hw : p.pci.iow.any (fun w => decide (w.agent = p.grpAgent (r.port / 8)) && decide (w.port = r.port)) = false)
    (ht : p.ioTranslate (if r.port < 32 then 0 else 1) (r.toIo addr (if r.exec then .exec else .read) len) = .ok q pa x y pe)
    (hpa : regionOf pa ≠ .pcieWin) (hb : q.ioBytes (p.grpAgent (r.port / 8)) r.port pa len (lineFuel len) = .got t v b) :
    p.rootRead r addr len = (t.grpEvent (r.port / 8) 1 none).answerTlp r.port .success (natBytes len v) b addr := by
  unfold Part.rootRead
  simp only [h, hw, ht, hpa, hb, Bool.false_eq_true, if_false]

theorem Part.rootWrite_stored {pa x y : Nat} {pe : BitVec 8} {data : List (Option Byte)} {pois : Bool} {q t : Part}
    (h : p.sourceBad r.port r.rid = none)
    (ht : p.ioTranslate (if r.port < 32 then 0 else 1) (r.toIo addr .write (runLength (runsAt 0 data))) = .ok q pa x y pe)
    (hs : q.storeTlp (p.grpAgent (r.port / 8)) r.port pa pois data = some t) :
    p.rootWrite r addr data pois = (t.grpEvent (r.port / 8) 1 none).bwCount 2 0 r.port 0 data.length := by
  unfold Part.rootWrite
  dsimp only
  rw [h]
  dsimp only
  split
  case h_1 _ _ e => cases e.symm.trans ht
  case h_2 _ _ _ _ _ e => cases e.symm.trans ht
  case h_3 _ _ _ _ _ _ e =>
    cases e.symm.trans ht
    rw [hs]

end

/-- Settles O40: each command is one call of an operation of the part, and each clause one of that operation's branches. -/
theorem portTraffic : Obligations.PortTraffic := by
  unfold Obligations.PortTraffic
  constructor
  · intro s n tag data pois o p k find fin got
    refine ⟨fun h hu => ⟨?_, ?_, exec_run rfl (Part.pcieCompletion_ur h hu pois), exec_run rfl (Part.pcieCompletion_ca h hu pois)⟩,
      fun h => ⟨fun hc => exec_run rfl ((Part.completionTimeout_known h rfl rfl).trans (if_pos hc)),
        fun hc => exec_run rfl ((Part.completionTimeout_known h rfl rfl).trans (if_neg (Bool.eq_false_iff.1 hc)))⟩,
      fun h => ⟨exec_run rfl (Part.completionTimeout_unknown h), exec_run rfl (Part.pcieCompletion_unknown .success pois h)⟩⟩
    · rintro rfl
      exact exec_run rfl (Part.pcieCompletion_success h hu false)
    · rintro rfl
      exact exec_run rfl (Part.pcieCompletion_success h hu true)
  · intro s r len addr data pois n p k u a
    refine ⟨fun hu h => exec_run rfl (Part.inboundRead_malformed hu h), fun hu h => exec_run rfl (Part.inboundWrite_malformed hu pois h),
      fun hu hh ha h => ⟨fun q hb => ?_, fun hb hw q t pa x y v pe b ht hpa hg => ?_⟩,
      fun hu hh ha h => ⟨fun q hb => ?_, fun hb => ?written⟩,
      fun hu hh => ⟨fun h => exec_run rfl (Part.inboundRead_host hu h hh), fun h => exec_run rfl (Part.inboundWrite_host hu pois h hh)⟩,
      fun hu => exec_run rfl (if_neg (not_not_intro hu)), fun hu => exec_run rfl (if_pos (Bool.eq_false_iff.1 hu))⟩
    · exact exec_run rfl ((Part.inboundRead_root hu hh ha h).trans (Part.rootRead_bad_source len hb))
    · exact exec_run rfl ((Part.inboundRead_root hu hh ha h).trans (Part.rootRead_memory hb hw ht hpa hg))
    · exact exec_run rfl ((Part.inboundWrite_root hu hh ha pois h).trans (Part.rootWrite_bad_source data pois hb))
    case written =>
      intro runs q t pa x y pe ht hst
      exact exec_run rfl ((Part.inboundWrite_root hu hh ha pois h).trans (Part.rootWrite_stored hb ht hst))

end Sys2Proof.Machine
end

section
/-!
PROOFS. The states of a port, removal and the endpoint's resets (O41).
-/
namespace Sys2Proof.Machine
open Sys2Proof
set_option Elab.async false

/-! ### Descriptors of host queues that stop (R395, R396) -/

/-- Stopping the host's descriptors touches the queues alone. -/
theorem Part.hostStop_only_pkt (p : Part) (st : Nat) : ∃ x, p.hostStop st = { p with pkt := x } := by
  refine foldl_keeps (fun r : Part => ∃ x, r = { p with pkt := x }) _ _ p ⟨p.pkt, rfl⟩ ?_
  rintro r y ⟨x, rfl⟩
  split
  · exact ⟨_, rfl⟩
  · exact ⟨x, rfl⟩

section
variable {p : Part}

theorem Part.withHostStop_congr {f g : Part → Part} (h : f p = g p) : p.withHostStop f = p.withHostStop g := by
  unfold Part.withHostStop
  rw [h]

/-- An event that starts no function-level reset stops no descriptors. -/
theorem Part.withHostStop_of_same_flr {f : Part → Part} (h : (f p).rgOn F.EP_STAT_FLR = p.rgOn F.EP_STAT_FLR) : p.withHostStop f = f p := by
  refine if_neg ?_
  rw [h]
  exact fun h' => h'.2 h'.1

/-! ### Link states (R386 to R388, R398) -/

variable {k : Nat} (he : p.portExists k = true)

/-- The rates and widths that a port allows. -/
theorem Part.linkFits_iff {speed width : Nat} :
    p.linkFits k speed width = true ↔ (if p.rg F.PCI_GRP_EFF_MODE (k / 8) = 1 then 5 else 1) ≤ speed ∧
      speed ≤ 6 - p.rg F.PCI_PORT_CTL_MAXSPEED k ∧ width ≤ p.rg F.PCI_PORT_ID_WIDTH k ∧ width ∈ [1, 2, 4, 8, 16] := by
  unfold Part.linkFits
  rw [Bool.and_eq_true, Bool.and_eq_true, Bool.and_eq_true, decide_eq_true_eq, decide_eq_true_eq, decide_eq_true_eq,
    List.contains_iff_mem, and_assoc, and_assoc]

theorem Part.portL1Entry_other (h : p.portState k ≠ 3) : p.portL1Entry k = p := if_neg (fun h' => h h'.2)

section
include he

theorem Part.portDetect_detect (h : p.portState k = 1) :
    p.portDetect k = (p.setPortState k 2).setRg F.PCI_PORT_STAT_PRESENT 1 k := if_pos ⟨he, h⟩

theorem Part.portTrained_polling {speed width : Nat} (flit : Bool) (h : p.portState k = 2) (hf : p.linkFits k speed width = true) :
    p.portTrained k speed width flit = ((((p.setPortState k 3).modPort k (fun x => { x with active := true })).takes k 0
      [(F.PCI_PORT_STAT_SPEED, speed), (F.PCI_PORT_STAT_WIDTH, width), (F.PCI_PORT_STAT_FLIT, if flit = true ∨ speed = 6 then 1 else 0)]).portErr
        k [F.PCI_PORT_ERR_LUP]) := by
  refine if_neg ?_
  rintro (h' | h' | h')
  · exact h' he
  · exact h' h
  · exact h' hf

theorem Part.portRecovery_up (h : p.portState k = 3) : p.portRecovery k = p.setPortState k 4 := if_pos ⟨he, h⟩
theorem Part.portL1Entry_up (h : p.portState k = 3) : p.portL1Entry k = p.setPortState k 5 := if_pos ⟨he, h⟩
theorem Part.portL1Exit_low (h : p.portState k = 5) : p.portL1Exit k = p.setPortState k 4 := if_pos ⟨he, h⟩

/-- A recovery that succeeds returns to L0 with its rate and width, at 64 GT/s in flit mode. -/
theorem Part.recoveryDone_true {speed width : Nat} (h : p.portState k = 4) (hf : p.linkFits k speed width = true) :
    p.recoveryDone k true speed width = (p.setPortState k 3).takes k 0
      ([(F.PCI_PORT_STAT_SPEED, speed), (F.PCI_PORT_STAT_WIDTH, width)] ++ (if speed = 6 then [(F.PCI_PORT_STAT_FLIT, 1)] else [])) := by
  have hg : ¬ (¬ p.portExists k ∨ p.portState k ≠ 4) := by
    rintro (h' | h')
    · exact h' he
    · exact h' h
  unfold Part.recoveryDone
  rw [if_neg hg, if_neg (fun h' => h'.2 hf), if_pos rfl]
  split <;> rfl

theorem Part.recoveryDone_false {speed width : Nat} (h : p.portState k = 4) : p.recoveryDone k false speed width = p.portLinkDown k := by
  refine (if_neg ?_).trans ((if_neg (fun h' => Bool.false_ne_true h'.1)).trans (if_neg Bool.false_ne_true))
  rintro (h' | h')
  · exact h' he
  · exact h' h

end

/-- The rate and width of a port's link leave the endpoint's function-level reset as it was. -/
theorem Part.recovered_flr (speed width : Nat) :
    ((p.setPortState k 3).takes k 0 ([(F.PCI_PORT_STAT_SPEED, speed), (F.PCI_PORT_STAT_WIDTH, width)] ++
      (if speed = 6 then [(F.PCI_PORT_STAT_FLIT, 1)] else []))).rgOn F.EP_STAT_FLR = p.rgOn F.EP_STAT_FLR := by
  have h (q : Part) (f : Fld) (hf : f ∈ [F.PCI_PORT_STAT_STATE, F.PCI_PORT_STAT_SPEED, F.PCI_PORT_STAT_WIDTH, F.PCI_PORT_STAT_FLIT]) (v : Nat) :
      (q.setRg f v k 0).rg F.EP_STAT_FLR = q.rg F.EP_STAT_FLR := by
    have hw : f.lo < 32 ∧ F.EP_STAT_FLR.word 0 ≠ f.word 0 := by revert f; decide
    exact setRg_rg_of_word_ne hw.1 (by decide) hw.2
  unfold Part.rgOn Part.takes Part.setPortState
  split <;>
    simp only [List.cons_append, List.nil_append, List.append_nil, List.foldl_cons, List.foldl_nil,
      h _ F.PCI_PORT_STAT_STATE (by decide), h _ F.PCI_PORT_STAT_SPEED (by decide), h _ F.PCI_PORT_STAT_WIDTH (by decide),
      h _ F.PCI_PORT_STAT_FLIT (by decide)]

theorem Part.portLinkDown_up (hu : p.portUp k = true) (hk : k ≠ 0) : p.portLinkDown k = p.linkDown k :=
  (if_neg (not_not_intro hu)).trans (if_neg hk)

theorem Part.exists_of_up (hu : p.portUp k = true) : p.portExists k = true := by
  rw [Part.portUp, Bool.and_eq_true, Bool.and_eq_true] at hu
  exact hu.1.1

/-! ### Containment triggers (R388) -/

/-- The error bits that a cause of containment sets. -/
def ContainCause.errs : ContainCause → List Fld
  | .malformed => [F.PCI_PORT_ERR_MALF]
  | .ecrc => [F.PCI_PORT_ERR_ECRC]
  | _ => []

theorem Part.containmentTrigger_up {c : ContainCause} (hu : p.portUp k = true) (hc : c = .ecrc → p.rgOn F.PCI_PORT_CTL_ECRC k = true) :
    p.containmentTrigger k c = if p.rgOn F.PCI_PORT_STAT_CMODE k then p.contain k c.errs else p.portErr k c.errs := by
  refine (if_neg ?_).trans ?_
  · rintro (h | ⟨h, h'⟩)
    · exact h hu
    · exact h' (hc h)
  · cases c <;> rfl

theorem Part.containmentTrigger_down (c : ContainCause) (h : p.portUp k = false) : p.containmentTrigger k c = p :=
  if_pos (.inl (Bool.eq_false_iff.1 h))

/-! ### The endpoint (R394 to R396, R575) -/

theorem Part.hotReset_root (h : p.epMode = false) : p.hotReset = p := if_neg (Bool.eq_false_iff.1 h)

theorem Part.flrComplete_busy (h : p.grpBusy 0 = true) : p.flrComplete = p := if_pos (.inr (.inr h))

theorem Part.flrComplete_silent (hf : p.rgOn F.EP_STAT_FLR = true) (hp : p.pci.ep.perst = false) (hb : p.grpBusy 0 = false) :
    p.flrComplete = (p.modEp (fun e => { e with hdr := [], msix := [], pba := [] })).takes 0 0
      [(F.EP_ROMPAGE_TGT, 0), (F.EP_ROMPAGE_PAGE, 0), (F.EP_HDBTGT_EN, 0), (F.EP_STAT_READY, 0), (F.EP_STAT_FLR, 0)] := by
  refine if_neg ?_
  rintro (h | h | h)
  · exact h hf
  · exact Bool.eq_false_iff.1 hp h
  · exact Bool.eq_false_iff.1 hb h

section
variable (hm : p.epMode = true)
include hm

theorem Part.hotReset_endpoint : p.hotReset = p.flrStart.portIdle 0 1 := if_pos hm

theorem Part.perstChange_change {low : Bool} (h : p.pci.ep.perst ≠ low) :
    p.perstChange low = if low then (p.modEp (fun e => { e with perst := low })).flrStart.portIdle 0 0
      else ((p.modEp (fun e => { e with perst := low })).setPortState 0 1).flrComplete := by
  refine if_neg ?_
  rintro (h' | h')
  · exact h' hm
  · exact h h'

theorem Part.hostBmeClear_set (h : p.epBme = true) :
    p.hostBmeClear =
      ((p.modEp (fun e => { e with hdr := e.hdr.put 1 (setBit (p.pci.ep.hdr.get 0 1) 2 false) })).setRg F.EP_EVT_BME 1).hostStop 12 := by
  have hb : p.bmeClear = (p.modEp (fun e => { e with hdr := e.hdr.put 1 (setBit (p.pci.ep.hdr.get 0 1) 2 false) })).setRg F.EP_EVT_BME 1 := by
    refine if_neg ?_
    rintro (h' | h')
    · exact h' hm
    · exact h' h
  exact (if_pos ⟨hm, h⟩).trans (congrArg (Part.hostStop · 12) hb)

variable (hf : p.rgOn F.EP_STAT_FLR = false)
include hf

theorem Part.epHdb_target {v : Nat} (hv : v < 1024) (h : p.rgOn F.EP_HDBTGT_EN = true) :
    p.epHdb v = p.signal tileP0 0 p.sktId (p.rg F.EP_HDBTGT_CORE) (p.rg F.EP_HDBTGT_THREAD) v := by
  unfold Part.epHdb
  rw [hm, hf, h, Nat.mod_eq_of_lt hv]
  rfl

theorem Part.epHdb_none (v : Nat) (h : p.rgOn F.EP_HDBTGT_EN = false) :
    p.epHdb v = p.count F.PCI_PORT_DROPS_COUNT F.PCI_PORT_STAT_OVF 0 := by
  unfold Part.epHdb
  rw [hm, hf, h]
  rfl

theorem Part.hostFlr_start : p.hostFlr = p.flrStart.hostStop 11 := by
  unfold Part.hostFlr Part.flrInitiate
  rw [hm, hf]
  rfl

theorem Part.bmeSet_clear (h : p.epBme = false) :
    p.bmeSet = (p.modEp (fun e => { e with hdr := e.hdr.put 1 (setBit (p.pci.ep.hdr.get 0 1) 2 true) })).msixPump := by
  unfold Part.bmeSet
  rw [hm, hf, h]
  rfl

/-- Bus Master Enable set again: what was posted before completes unfetched, and held vectors are sent. -/
theorem Part.hostBmeSet_clear (h : p.epBme = false) :
    p.hostBmeSet = ((p.hostStop 12).modEp (fun e => { e with hdr := e.hdr.put 1 (setBit (p.pci.ep.hdr.get 0 1) 2 true) })).msixPump := by
  obtain ⟨x, hx⟩ := p.hostStop_only_pkt 12
  refine (if_pos ⟨hm, Bool.eq_false_iff.1 h⟩).trans ?_
  rw [hx]
  exact Part.bmeSet_clear hm hf h

end
end

/-- Settles O41: each command is one call of an operation of the part, and each clause one of that operation's branches. -/
theorem portStates : Obligations.PortStates := by
  unfold Obligations.PortStates
  constructor
  · intro s n speed width flit c p k fits
    refine ⟨fun he => ⟨fun h => exec_run rfl (Part.portDetect_detect he h),
        fun h hf => exec_run rfl (Part.portTrained_polling he flit h (Part.linkFits_iff.2 hf)),
        fun h => ⟨exec_run rfl (Part.portRecovery_up he h), exec_run rfl (Part.portL1Entry_up he h)⟩,
        fun h => exec_run rfl (Part.portL1Exit_low he h), fun h hf => ?_, fun h => exec_run rfl (Part.portL1Entry_other h)⟩,
      fun hu hk => ⟨exec_run rfl (Part.withHostStop_congr (Part.portLinkDown_up hu hk)), fun h => ?_⟩,
      fun hu hc => ⟨fun hm => ?_, fun hm => ?_⟩, fun hu => exec_run rfl (Part.containmentTrigger_down c hu)⟩
    · have hr := Part.recoveryDone_true he h (Part.linkFits_iff.2 hf)
      refine exec_run rfl ((Part.withHostStop_of_same_flr ?_).trans hr)
      rw [hr]
      exact Part.recovered_flr speed width
    · exact exec_run rfl (Part.withHostStop_congr
        ((Part.recoveryDone_false (Part.exists_of_up hu) h).trans (Part.portLinkDown_up hu hk)))
    · refine exec_run rfl ((Part.containmentTrigger_up hu hc).trans ((if_pos hm).trans ?_))
      cases c <;> rfl
    · refine exec_run rfl ((Part.containmentTrigger_up hu hc).trans ((if_neg (Bool.eq_false_iff.1 hm)).trans ?_))
      cases c <;> rfl
  · intro s v p h
    refine ⟨fun hm => ⟨fun hf => ⟨fun ht => exec_run rfl (Part.epHdb_target hm hf v.isLt ht),
        fun ht => exec_run rfl (Part.epHdb_none hm hf _ ht), exec_run rfl (Part.hostFlr_start hm hf),
        fun hb => exec_run rfl (Part.hostBmeSet_clear hm hf hb)⟩, fun hb => exec_run rfl (Part.hostBmeClear_set hm hb),
        exec_run rfl (Part.withHostStop_congr (Part.hotReset_endpoint hm)), fun hp => ?_, fun hp => ?_⟩,
      fun hf hp hb => exec_run rfl (Part.flrComplete_silent hf hp hb), fun hb => exec_run rfl (Part.flrComplete_busy hb), fun hm => ?_⟩
    · exact exec_run rfl (Part.withHostStop_congr (Part.perstChange_change hm (Bool.eq_false_iff.1 hp)))
    · exact exec_run rfl (Part.withHostStop_congr (Part.perstChange_change hm (by simp [p, hp])))
    · have hr := Part.hotReset_root hm
      exact exec_run rfl ((Part.withHostStop_of_same_flr (by rw [hr])).trans hr)

end Sys2Proof.Machine
end

section
/-!
PROOFS. MAC states and the reception of a frame (O42).
-/
namespace Sys2Proof.Machine
open Sys2Proof
set_option Elab.async false

/-! ### The states of a MAC (R402, R403) -/

/-- The bit rate in hundreds of Gbit/s that a speed code stands for. -/
def speedRate : Nat → Nat
  | 1 => 100
  | 2 => 200
  | _ => 400

section
variable {p : Part} {k : Nat}

theorem Part.anResolved_other {rate : Nat} (h : rate ≠ p.rg F.NET_MAC_CFG_SPEED k) : p.anResolved k rate = p :=
  if_neg (fun h' => h h'.2.2.2)

theorem Part.pauseExpiry_paused {t : Nat} (h : p.pkt.pause.find? k = some t) :
    p.pauseExpiry k = (p.advance (t - p.time)).modPkt (fun x => { x with pause := x.pause.del k }) := by
  unfold Part.pauseExpiry
  rw [h]

section
variable (ho : p.netOn = true) (hk : k < 16)
include ho hk

theorem Part.macSignal_off (h : p.macState k = 1) :
    p.macSignal k = p.macTo k (if p.rgOn F.NET_MAC_CFG_AN k then 2 else 3) := if_pos ⟨ho, hk, h⟩

theorem Part.anResolved_same {rate : Nat} (h : p.macState k = 2) (hr : rate = p.rg F.NET_MAC_CFG_SPEED k) :
    p.anResolved k rate = p.macTo k 3 := if_pos ⟨ho, hk, h, hr⟩

theorem Part.macTrained_training (h : p.macState k = 3) :
    p.macTrained k = (p.macTo k 4).setRg F.NET_MAC_STAT_LUP 1 k := if_pos ⟨ho, hk, h⟩

theorem Part.macLockLost_up (h : p.macUp k = true) : p.macLockLost k = p.macTo k 1 := if_pos ⟨ho, hk, h⟩

theorem Part.pauseReceived_up {quanta : Nat} (h : p.macUp k = true) {a : Part} (ha : a = (p.netCount F.NET_MAC_PAUSERX_COUNT k).macEvent 4) :
    p.pauseReceived k quanta = a.modPkt (fun x =>
      { x with pause := if quanta = 0 then x.pause.del k else x.pause.put k (a.time + 512 * quanta / speedRate (p.rg F.NET_MAC_CFG_SPEED k)) }) := by
  subst ha
  exact if_pos ⟨ho, hk, h⟩

end

/-! ### A frame at a MAC (R403, R407, R408) -/

theorem Part.frameReceived_down (data : List Byte) (unc corr : Nat) (h : p.macUp k = false) : p.frameReceived k data unc corr = p :=
  if_pos (.inr (.inr (Bool.eq_false_iff.1 h)))

/-- A part that has counted a frame's codewords and bytes. -/
def Part.sawFrame (p : Part) (k n corr : Nat) : Part := (p.netBoundary.netCount F.NET_MAC_FECCORR_COUNT k corr).bwCount 3 0 k 0 n

/-- No codeword of the frame was lost. -/
def Part.sawGoodFrame (p : Part) (k n corr : Nat) : Part := (p.sawFrame k n corr).modPkt (fun x => { x with bad := x.bad.del k })

section
variable {data : List Byte} {corr : Nat} (hpe : p.hasPe = true) (hk : k < 16) (hu : p.macUp k = true)
include hpe hk hu

/-- A MAC that is up is no guard's. -/
theorem mac_receives : ¬ (¬ p.hasPe ∨ k ≥ 16 ∨ ¬ p.macUp k) := by
  rintro (h | h | h)
  · exact h hpe
  · exact absurd hk (Nat.not_lt.2 h)
  · exact h hu

theorem Part.frameReceived_lost {unc : Nat} (h : unc ≠ 0) :
    p.frameReceived k data unc corr = (((p.sawFrame k data.length corr).netCount F.NET_MAC_FCSERR_COUNT k).macEvent 1).fecUnc k unc :=
  (if_neg (mac_receives hpe hk hu)).trans (if_pos h)

theorem Part.frameReceived_jabber (h : 16384 ≤ data.length) :
    p.frameReceived k data 0 corr = (p.sawGoodFrame k data.length corr).netCount F.NET_MAC_JABBER_COUNT k :=
  (if_neg (mac_receives hpe hk hu)).trans ((if_neg (fun h' => h' rfl)).trans (if_pos h))

theorem Part.frameReceived_fragment (h : data.length ≤ 17) :
    p.frameReceived k data 0 corr = (p.sawGoodFrame k data.length corr).netCount F.NET_MAC_FRAG_COUNT k :=
  (if_neg (mac_receives hpe hk hu)).trans ((if_neg (fun h' => h' rfl)).trans ((if_neg (by omega)).trans (if_pos h)))

theorem Part.frameReceived_bad_fcs (hlo : 17 < data.length) (hhi : data.length < 16384)
    (h : data.drop (data.length - 4) ≠ fcsBytes (data.take (data.length - 4))) :
    p.frameReceived k data 0 corr = ((p.sawGoodFrame k data.length corr).netCount F.NET_MAC_FCSERR_COUNT k).macEvent 1 :=
  (if_neg (mac_receives hpe hk hu)).trans ((if_neg (fun h' => h' rfl)).trans ((if_neg (Nat.not_le.2 hhi)).trans
    ((if_neg (Nat.not_le.2 hlo)).trans (if_pos h))))

section
variable (hlo : 64 ≤ data.length) (hhi : data.length < 16384) (hmax : data.length ≤ (p.sawGoodFrame k data.length corr).maxLen k)
  (hfcs : data.drop (data.length - 4) = fcsBytes (data.take (data.length - 4))) (ho : (p.sawGoodFrame k data.length corr).netOn = true)
  (hr : (p.sawGoodFrame k data.length corr).pkt.resetAt = none) {a : Part}
  (ha : a = ((p.sawGoodFrame k data.length corr).netCount F.NET_MAC_RXOK_COUNT k).netCount48 F.NET_MAC_RXBYTES_LO_COUNT
    F.NET_MAC_RXBYTES_HI_COUNT k data.length)
include hlo hhi hmax hfcs ho hr ha

/-- A frame of a good length and FCS that no logical port claims. -/
theorem Part.frameReceived_unclaimed (h : a.lpFor k (data.take (data.length - 4)) = none) :
    p.frameReceived k data 0 corr = a.netCount F.NET_MAC_NOLP_COUNT k := by
  subst ha
  unfold Part.frameReceived
  rw [if_neg (mac_receives hpe hk hu)]
  unfold Part.sawGoodFrame Part.sawFrame at *
  simp only [ne_eq, not_true_eq_false, Bool.false_eq_true, if_false, Nat.not_le.2 hhi, show ¬ data.length ≤ 17 by omega, ← hfcs, ho, hr,
    Option.isSome_none, or_self, Nat.not_lt.2 hlo, Nat.not_lt.2 hmax, decide_false, h]

/-- A frame of a good length and FCS goes to its logical port with its time of arrival. -/
theorem Part.frameReceived_claimed {lp : Nat} {t : Part} (h : a.lpFor k (data.take (data.length - 4)) = some lp)
    (ht : a.rxFrame lp (data.take (data.length - 4)) (if a.rgOn F.NET_LP_CFG_FCSCT lp then data.drop (data.length - 4) else []) data.length
      ((a.time + 2 ^ 64 + a.rg F.NET_MAC_TSADJ_NS k - (if a.rg F.NET_MAC_TSADJ_NS k ≥ 32768 then 65536 else 0)) % 2 ^ 64) = (t, true)) :
    p.frameReceived k data 0 corr = t := by
  subst ha
  unfold Part.frameReceived
  rw [if_neg (mac_receives hpe hk hu)]
  unfold Part.sawGoodFrame Part.sawFrame at *
  simp only [ne_eq, not_true_eq_false, Bool.false_eq_true, if_false, Nat.not_le.2 hhi, show ¬ data.length ≤ 17 by omega, ← hfcs, ho, hr,
    Option.isSome_none, or_self, Nat.not_lt.2 hlo, Nat.not_lt.2 hmax, decide_false, h, ht, if_true]

end
end
end

/-- Settles O42: each command is one call of an operation of the part, and each clause one of that operation's branches. -/
theorem framesReceived : Obligations.FramesReceived := by
  unfold Obligations.FramesReceived
  constructor
  · intro s m rate quanta t p k
    have hk : k < 16 := m.isLt
    refine ⟨fun ho => ⟨fun h => exec_run rfl (Part.macSignal_off ho hk h), fun h hr => exec_run rfl (Part.anResolved_same ho hk h hr),
      fun _ hr => exec_run rfl (Part.anResolved_other hr), fun h => exec_run rfl (Part.macTrained_training ho hk h),
      fun hu => ⟨exec_run rfl (Part.macLockLost_up ho hk hu), exec_run rfl (Part.pauseReceived_up ho hk hu rfl)⟩⟩,
      fun h => exec_run rfl (Part.pauseExpiry_paused h)⟩
  · intro s m data unc corr lp p k n q g body
    have hk : k < 16 := m.isLt
    refine ⟨fun hpe hu => ⟨fun h => exec_run rfl (Part.frameReceived_lost hpe hk hu h), ?_, ?_, ?_, ?_⟩,
      fun hu => exec_run rfl (Part.frameReceived_down data unc corr hu)⟩
    · rintro rfl h
      exact exec_run rfl (Part.frameReceived_jabber hpe hk hu h)
    · rintro rfl h
      exact exec_run rfl (Part.frameReceived_fragment hpe hk hu h)
    · rintro rfl hlo hhi h
      exact exec_run rfl (Part.frameReceived_bad_fcs hpe hk hu hlo hhi h)
    · rintro rfl hlo hhi hmax hfcs ho hr
      exact ⟨fun h => exec_run rfl (Part.frameReceived_unclaimed hpe hk hu hlo hhi hmax hfcs ho hr rfl h),
        fun t h ht => exec_run rfl (Part.frameReceived_claimed hpe hk hu hlo hhi hmax hfcs ho hr rfl h ht)⟩

end Sys2Proof.Machine
end

section
/-!
PROOFS. Receive queues, departures of logical ports and queue doorbells (O43).
-/
namespace Sys2Proof.Machine
open Sys2Proof
set_option Elab.async false

/-! ### Receive queues (R421, R422, R426, R433) -/

section
variable {p : Part} {k : Nat}

theorem Part.rxDelivery_empty (h : (p.queueOf k).rxq = []) : p.rxDelivery k = p := by
  unfold Part.rxDelivery
  simp only [h]

theorem Part.rxwaitExpiry_empty (h : (p.queueOf k).rxq = []) : p.rxwaitExpiry k = p := by
  unfold Part.rxwaitExpiry
  simp only [h]

section
variable {f : RxFrame} {rest : List RxFrame} (h : (p.queueOf k).rxq = f :: rest) (ho : p.netOn = true) (hs : (p.queueOf k).state = .enabled)
include h ho hs

/-- A frame that is ready goes to its buffers, and then its record to the ring. -/
theorem Part.rxDelivery_ready {t u : Part} {c n st : Nat} {bad : Bool} {r : NetRec} (hr : (p.queueOf k).ready f = true)
    (hf : Part.fillBuffers k ((p.queueOf k).need f) f.data 0 0 false p = (t, some (c, n, bad)))
    (hst : st = higher (higher f.status (if f.data.length > 16 * (p.queueOf k).bufBytes then 9 else 0))
      (higher (if f.dly then 2 else 0) (if bad then 10 else 0)))
    (hrec : r = { ts := f.ts, cookie := c, mark := f.mark, hash := f.hash, status := st, lp := f.lp, nbuf := n, fhit := f.fhit,
                  len := f.len, flow := f.flow, parse := f.parse, dly := f.dly, mcrep := f.job.isSome, moved := !bad })
    (hu : (t.rxPop k f).netRecord k r = (u, true)) : p.rxDelivery k = u.jobStep f.job (!bad) := by
  subst hrec hst
  unfold Part.rxDelivery
  simp only [h, ho, hs, hr, hf, hu, ne_eq, not_true_eq_false, or_self, if_false]

/-- Without buffers or a record slot a frame of a queue without RXWAIT is dropped at once. -/
theorem Part.rxDelivery_dropped {t : Part} (hr : (p.queueOf k).ready f = false) (hw : ctxField (p.queueOf k).ctx 3 19 10 = 0)
    (ht : (p.rxPop k f).rxDrop k f 1 = (t, true)) : p.rxDelivery k = t := by
  unfold Part.rxDelivery
  simp only [h, ho, hs, hr, hw, ht, ne_eq, not_true_eq_false, or_self, if_false, Bool.false_eq_true, not_false_eq_true, if_true]

theorem Part.rxwaitExpiry_dropped {t : Part} (hr : (p.queueOf k).ready f = false)
    (ht : ((p.advance (f.time + 1000 * ctxField (p.queueOf k).ctx 3 19 10 - p.time)).rxPop k f).rxDrop k f 1 = (t, true)) :
    p.rxwaitExpiry k = t := by
  unfold Part.rxwaitExpiry
  simp only [h, ho, hs, hr, ht, ne_eq, not_true_eq_false, or_self, if_false, Bool.false_eq_true, if_true]

end

theorem Part.coalesceTimer_armed {tm : Nat} (h : (p.queueOf k).times.head? = some tm) (ha : (p.queueOf k).armed = true) :
    p.coalesceTimer k = (p.advance (tm + 1000 * ctxField (p.queueOf k).ctx 4 36 27 - p.time)).netIrq k := by
  unfold Part.coalesceTimer
  simp only [h, ha, if_true]

theorem Part.coalesceTimer_idle (ha : (p.queueOf k).armed = false) : p.coalesceTimer k = p := by
  unfold Part.coalesceTimer
  simp only [ha, Bool.false_eq_true, if_false]
  split <;> rfl

section
variable (ho : p.netOn = true) (hr : p.pkt.resetAt = none) (hs : (p.queueOf k).state = .enabled) (hstop : (p.queueOf k).stop = none)
  (hh : (p.queueOf k).host = true → p.epBme = true)
include ho hr hs hstop hh

/-- A queue that runs and that nothing stops fetches by its direction. -/
theorem Part.descriptorFetch_running :
    p.descriptorFetch k =
      if (p.queueOf k).isTx then p.netBoundary.txFetch k
      else if (p.queueOf k).posted = 0 ∨ (p.queueOf k).rxd.length ≥ 8 ∨ p.descUsed ≥ 4096 then p else (p.rxFetch k).1 := by
  have hb : ¬ ((p.queueOf k).host = true ∧ ¬ p.epBme = true) := fun h => h.2 (hh h.1)
  unfold Part.descriptorFetch
  simp only [ho, hr, hs, hstop, hb, ne_eq, not_true_eq_false, Option.isSome_none, Bool.false_eq_true, or_self, if_false]

theorem Part.descriptorFetch_tx (h : (p.queueOf k).isTx = true) : p.descriptorFetch k = p.netBoundary.txFetch k :=
  (Part.descriptorFetch_running ho hr hs hstop hh).trans (if_pos h)

theorem Part.descriptorFetch_rx (h : (p.queueOf k).isTx = false) (hp : (p.queueOf k).posted ≠ 0) (hl : (p.queueOf k).rxd.length < 8)
    (hd : p.descUsed < 4096) : p.descriptorFetch k = (p.rxFetch k).1 := by
  refine (Part.descriptorFetch_running ho hr hs hstop hh).trans ((if_neg (Bool.eq_false_iff.1 h)).trans (if_neg ?_))
  rintro (h' | h' | h')
  · exact hp h'
  · exact absurd hl (Nat.not_lt.2 h')
  · exact absurd hd (Nat.not_lt.2 h')

end
end

/-! ### Departures of a logical port (R434, R435) -/

section
variable {p r : Part} {n : Nat} (ho : p.netOn = true) (hr : p.pkt.resetAt = none) (hn : n < 32)
include ho hr hn

theorem Part.txFrameDepart_runs : ¬ (¬ p.netOn ∨ p.pkt.resetAt.isSome ∨ n ≥ 32) := by
  rintro (h | h | h)
  · exact h ho
  · rw [hr] at h
    exact Bool.false_ne_true h
  · exact absurd hn (Nat.not_lt.2 h)

theorem Part.txFrameDepart_held (h : (p.txPrepare n).txHeld n = true) : p.txFrameDepart n = p.txPrepare n :=
  (if_neg (Part.txFrameDepart_runs ho hr hn)).trans (if_pos h)

variable (hh : (p.txPrepare n).txHeld n = false)
include hh

theorem Part.txFrameDepart_idle (ht : (p.txPrepare n).txTurn n = (r, none)) : p.txFrameDepart n = r := by
  refine (if_neg (Part.txFrameDepart_runs ho hr hn)).trans ((if_neg (Bool.eq_false_iff.1 hh)).trans ?_)
  rw [ht]

theorem Part.txFrameDepart_sends {t : Part} {q : Nat} {f : TxFrame} {rest : List TxFrame} (ht : (p.txPrepare n).txTurn n = (r, some q))
    (hq : (r.queueOf q).txq = f :: rest) (hd : r.txDepart n q f = (t, true)) :
    p.txFrameDepart n = (t.txFlushAll q).venQuota (r.queueOf q).inst := by
  refine (if_neg (Part.txFrameDepart_runs ho hr hn)).trans ((if_neg (Bool.eq_false_iff.1 hh)).trans ?_)
  simp only [ht, hq, hd]

end

/-! ### Queue doorbells (R420, R426) -/

section
variable {p : Part} {k v size vmid : Nat} {host : Bool} (init : Nat) (hpe : p.hasPe = true) (hk : k < 16384)
include hpe hk

/-- A doorbell of a queue that is there is no guard's. -/
theorem bell_heard : ¬ (¬ p.hasPe ∨ k ≥ 16384) := by
  rintro (h | h)
  · exact h hpe
  · exact absurd hk (Nat.not_lt.2 h)

theorem Part.producerBell_refused (h : p.bellOk k size vmid host = false) :
    p.producerBell k v size vmid host init = p.bellDiscard k init :=
  (if_neg (bell_heard hpe hk)).trans (if_pos (Bool.eq_false_iff.1 h))

theorem Part.completionBell_refused (h : p.bellOk k size vmid host = false) :
    p.completionBell k v size vmid host init = p.bellDiscard k init :=
  (if_neg (bell_heard hpe hk)).trans (if_pos (Bool.eq_false_iff.1 h))

variable (h : p.bellOk k size vmid host = true)
include h

theorem Part.producerBell_beyond (hi : (p.queueOf k).dsize < (p.queueOf k).ahead (v % 65536)) :
    p.producerBell k v size vmid host init = (p.bellDiscard k init).netError k :=
  (if_neg (bell_heard hpe hk)).trans ((if_neg (not_not_intro h)).trans (if_pos hi))

theorem Part.producerBell_within (hi : (p.queueOf k).ahead (v % 65536) ≤ (p.queueOf k).dsize) :
    p.producerBell k v size vmid host init = p.modQueue k (fun y => y.rung (v % 65536) p.time) :=
  (if_neg (bell_heard hpe hk)).trans ((if_neg (not_not_intro h)).trans (if_neg (Nat.not_lt.2 hi)))

theorem Part.completionBell_beyond (hi : (p.queueOf k).csize < ((p.queueOf k).cpidx + 65536 - v % 65536) % 65536) :
    p.completionBell k v size vmid host init = (p.bellDiscard k init).netError k :=
  (if_neg (bell_heard hpe hk)).trans ((if_neg (not_not_intro h)).trans (if_pos hi))

theorem Part.completionBell_within {left : Nat} (hl : left = ((p.queueOf k).cpidx + 65536 - v % 65536) % 65536)
    (hi : left ≤ (p.queueOf k).csize) :
    p.completionBell k v size vmid host init = (p.modQueue k (fun y =>
      { y with ccidx := v % 65536, times := y.times.drop (y.times.length - left), armed := y.armed || v.testBit 31 })).netIrq k := by
  subst hl
  exact (if_neg (bell_heard hpe hk)).trans ((if_neg (not_not_intro h)).trans (if_neg (Nat.not_lt.2 hi)))

end

/-- Settles O43: each command is one call of an operation of the part, and each clause one of that operation's branches. -/
theorem queuesAndDepartures : Obligations.QueuesAndDepartures := by
  unfold Obligations.QueuesAndDepartures
  refine ⟨?_, ?_, ?_⟩
  · intro s qn f rest t u c n bad tm p k x
    exact ⟨fun h ho hs => ⟨fun hr hf hu => exec_run rfl (Part.rxDelivery_ready h ho hs hr hf rfl rfl hu),
        fun hr hw ht => exec_run rfl (Part.rxDelivery_dropped h ho hs hr hw ht),
        fun hr ht => exec_run rfl (Part.rxwaitExpiry_dropped h ho hs hr ht)⟩,
      fun h => ⟨exec_run rfl (Part.rxDelivery_empty h), exec_run rfl (Part.rxwaitExpiry_empty h)⟩,
      fun h ha => exec_run rfl (Part.coalesceTimer_armed h ha), fun ha => exec_run rfl (Part.coalesceTimer_idle ha),
      fun ho hr hs hstop hh => ⟨fun h => exec_run rfl (Part.descriptorFetch_tx ho hr hs hstop hh h),
        fun h hp hl hd => exec_run rfl (Part.descriptorFetch_rx ho hr hs hstop hh h hp hl hd)⟩⟩
  · intro s n r t q f rest ho hr b
    have hn : n.val < 32 := n.isLt
    exact ⟨fun h => exec_run rfl (Part.txFrameDepart_held ho hr hn h), fun h ht => exec_run rfl (Part.txFrameDepart_idle ho hr hn h ht),
      fun h ht hq hd => exec_run rfl (Part.txFrameDepart_sends ho hr hn h ht hq hd)⟩
  · intro s qn v size vmid host init hpe p k x i left
    have hk : k < 16384 := qn.isLt
    exact ⟨fun h => ⟨exec_run rfl (Part.producerBell_refused _ hpe hk h), exec_run rfl (Part.completionBell_refused _ hpe hk h)⟩,
      fun h => ⟨fun hi => exec_run rfl (Part.producerBell_beyond _ hpe hk h hi), fun hi => exec_run rfl (Part.producerBell_within _ hpe hk h hi),
        fun hi => exec_run rfl (Part.completionBell_beyond _ hpe hk h hi), fun hi => exec_run rfl (Part.completionBell_within _ hpe hk h rfl hi)⟩⟩

end Sys2Proof.Machine
end

section
/-!
PROOFS. The end of queue, flow, key and tenant commands (O44).
-/
namespace Sys2Proof.Machine
open Sys2Proof
set_option Elab.async false

section
variable {p : Part}

theorem Part.queueDisabled_settles (k : Nat) (h : p.hasPe = true) (hr : p.pkt.resetAt = none) :
    p.queueDisabled k = ((p.queueSettle k).queueDone k).venNext := by
  refine (if_neg (not_not_intro h)).trans ?_
  rw [hr]

theorem Part.queueDisabled_resetting (k : Nat) {t : Nat} (h : p.hasPe = true) (hr : p.pkt.resetAt = some t) :
    p.queueDisabled k = p.netResetOn := by
  refine (if_neg (not_not_intro h)).trans ?_
  rw [hr]

theorem Part.flowcmdDone_direct {c : FlowCmd} (h : p.pkt.flowcmd = some c) (hw : c.who = .direct) :
    p.flowcmdDone =
      ((((p.flowDrop c.all c.bucket).modPkt (fun x => { x with flowcmd := none })).setRg F.NET_FLOWSTAT_BUSY 0).setRg F.NET_FLOWSTAT_DONE 1).venNext := by
  unfold Part.flowcmdDone
  simp only [h, hw]

theorem Part.flowcmdDone_none (h : p.pkt.flowcmd = none) : p.flowcmdDone = p := by
  unfold Part.flowcmdDone
  rw [h]

theorem Part.keyCmdDone_direct {l : List Nat} (h : p.key.cmd = some (.direct, l)) :
    p.keyCmdDone = (((p.modKey (fun x => { x with cmd := none })).setRg F.KEY_CMDSTAT_BUSY 0).setRg F.KEY_CMDSTAT_DONE 1).venNext := by
  unfold Part.keyCmdDone
  rw [h]

theorem Part.venMcmdDone_started {i : Nat} {m : MgrCmd} (h : (p.instOf i).mcmd = some m) (hs : m.started = true) :
    p.venMcmdDone i = (p.mgrStep i).venNext := by
  unfold Part.venMcmdDone
  simp only [h, hs, if_true]

theorem Part.venMcmdDone_none {i : Nat} (h : (p.instOf i).mcmd = none) : p.venMcmdDone i = p := by
  unfold Part.venMcmdDone
  rw [h]

/-- A millisecond after the engine's reset a queue's descriptors are abandoned; with nothing left the engine enters reset. -/
theorem Part.descriptorAbandon_resetting (k : Nat) {t : Nat} (h : p.pkt.resetAt = some t) {q : Part}
    (hq : q = (p.advance (t + 1000000 - p.time)).netAbandon k) :
    p.descriptorAbandon k = if q.netQuiet then q.netEnterReset.netEnded else q := by
  subst hq
  unfold Part.descriptorAbandon
  rw [h]

theorem Part.descriptorAbandon_instance {k : Nat} {m : MgrCmd} (h : p.pkt.resetAt = none) (hm : (p.instOf (p.queueOf k).inst).mcmd = some m)
    (hs : m.started = true) (hop : m.op = 1 ∨ m.op = 2) (hst : (p.queueOf k).state ≠ .disabled) :
    p.descriptorAbandon k = (((p.advance (m.time + 1000000 - p.time)).netAbandon k).mgrStep (p.queueOf k).inst).venNext := by
  unfold Part.descriptorAbandon
  simp only [h, hm]
  exact if_pos ⟨hs, hop, hst⟩

end

/-- Settles O44: each command is one call of an operation of the part, and each clause one of that operation's branches. -/
theorem commandsEnd : Obligations.CommandsEnd := by
  unfold Obligations.CommandsEnd
  intro s qn idx c w l m t p k
  refine ⟨fun h hr => exec_run rfl (Part.queueDisabled_settles k h hr), fun h hr => exec_run rfl (Part.queueDisabled_resetting k h hr),
    fun h hw => exec_run rfl (Part.flowcmdDone_direct h hw), fun h => exec_run rfl (Part.flowcmdDone_none h), ?_,
    fun h hs => exec_run rfl (Part.venMcmdDone_started h hs), fun h => exec_run rfl (Part.venMcmdDone_none h), fun h => ⟨?_, ?_⟩,
    fun h hm hs hop hst => exec_run rfl (Part.descriptorAbandon_instance h hm hs hop hst)⟩
  · rintro h rfl
    exact exec_run rfl (Part.keyCmdDone_direct h)
  · exact fun hq => exec_run rfl ((Part.descriptorAbandon_resetting k h rfl).trans (if_pos hq))
  · exact fun hq => exec_run rfl ((Part.descriptorAbandon_resetting k h rfl).trans (if_neg (Bool.eq_false_iff.1 hq)))

end Sys2Proof.Machine
end

section
/-!
PROOFS. Supplies, clocks, heat and idle cores (O45).
-/
namespace Sys2Proof.Machine
open Sys2Proof
set_option Elab.async false

/-! ### Standby supplies and REFCLK (R484, R487) -/

section
variable {p : Part}

theorem Part.standbyOn_first {bak : Bool} (h : p.sys.pins.stbyOk = false) {q : Part}
    (hq : q = (p.socketReset .standby).modPins (fun x => { x with stbyOk := true, mainOk := !bak, bakOk := bak })) :
    p.standbyOn bak = if q.sys.pins.rstLow then q else q.rstRise := by
  subst hq
  exact if_neg (Bool.eq_false_iff.1 h)

theorem Part.standbyOn_backup (h : p.sys.pins.stbyOk = true) : p.standbyOn true = p.modPins (fun x => { x with bakOk := true }) :=
  (if_pos h).trans (if_pos rfl)

theorem Part.stbyToBak_main (h : p.sys.pins.stbyOk = true) (hm : p.sys.pins.mainOk = true) (hb : p.sys.pins.bakOk = true) :
    p.stbyToBak = p.stbySwitch true := if_pos ⟨h, hm, hb⟩

theorem Part.stbyBack_backup (h : p.sys.pins.stbyOk = true) (hm : p.sys.pins.mainOk = false) :
    p.stbyBack = (p.advance 10000000).stbySwitch false := if_pos ⟨h, Bool.eq_false_iff.1 hm⟩

theorem Part.standbyLoss_off (h : p.sys.pins.stbyOk = false) : p.standbyLoss = p := if_pos (Bool.eq_false_iff.1 h)

theorem Part.standbyLoss_on (h : p.sys.pins.stbyOk = true) :
    p.standbyLoss = (p.socketReset .standby).modPins (fun x => { x with stbyOk := false, mainOk := false, bakOk := false }) :=
  if_neg (not_not_intro h)

theorem Part.refclkLoss_seen (h : p.sys.pins.stbyOk = true) (hr : p.sys.pwr.refLoss = false) {q : Part}
    (hq : q = ((p.setRg F.CLK_REF_LOSS 1).easelLog 6 0 0 0).modPwr (fun x => { x with refLoss := true })) :
    p.refclkLoss = if q.coreInSvc (q.socketThread / 2) then q.socketCheck tileD [6] else q := by
  subst hq
  refine if_neg ?_
  rintro (h' | h')
  · exact Bool.eq_false_iff.1 hr h'
  · exact h' h

theorem Part.refclkReturn_none (h : p.sys.pwr.refLoss = false) : p.refclkReturn = p := if_pos (Bool.eq_false_iff.1 h)

theorem Part.refclkReturn_lost (h : p.sys.pwr.refLoss = true) :
    p.refclkReturn = (List.range nTiles).foldl (fun (r : Part) (t : Nat) => r.clkUnc t)
      ((List.range nCores).foldl (fun (r : Part) (c : Nat) => if r.coreHot c then r.setCoreFreq c r.hotF else r.clkCore c)
        (p.modPwr (fun x => { x with refLoss := false }))) := if_neg (not_not_intro h)

/-! ### Power and heat (R489, R491, R581) -/

theorem Part.vrhotAssert_first (h : p.sys.pins.vrhot = false) (hb : p.sys.boot ≠ .off) (hr : p.sys.pwr.refLoss = false) :
    p.vrhotAssert = (List.range nCores).foldl (fun (r : Part) (c : Nat) => r.setCoreFreq c r.hotF)
      ((p.modPins (fun x => { x with vrhot := true })).setRg F.PWR_STAT_VRHOT 1) := by
  refine (if_neg ?_).trans (if_neg (Bool.eq_false_iff.1 hr))
  rintro (h' | h')
  · exact Bool.eq_false_iff.1 h h'
  · exact hb h'

/-- One iteration of the capping loop of a socket that runs. -/
theorem Part.cappingIteration_runs {power avg steps : Nat} (hb : p.sys.boot ≠ .off) (hh : p.sys.boot ≠ .held) (hr : p.sys.pwr.refLoss = false)
    {q : Part} (hq : q = (p.advance 50000).setRg F.PWR_PLSTAT_AVG (min 1023 avg)) :
    p.cappingIteration power avg steps =
      if q.sys.pins.vrhot ∨ min 4 steps = 0 then q else if power > q.effLimit then q.capDown (min 4 steps) else q.capUp (min 4 steps) := by
  subst hq
  refine if_neg ?_
  rintro (h' | h' | h')
  · exact hb h'
  · exact hh h'
  · exact Bool.eq_false_iff.1 hr h'

theorem capping_steps {q : Part} {steps : Nat} (h : q.sys.pins.vrhot = false) (hs : steps ≠ 0) :
    ¬ (q.sys.pins.vrhot = true ∨ min 4 steps = 0) := by
  rintro (h' | h')
  · exact Bool.eq_false_iff.1 h h'
  · omega

theorem Part.thermalSample_runs {readings : List Nat} (h : p.sys.boot ≠ .off) :
    p.thermalSample readings = (List.range 4).foldl (fun (r : Part) (x : Nat) => if dieTemp readings x ≥ 125 then r.thermalTrip x else r)
      ((List.range 4).foldl (fun (r : Part) (x : Nat) => if dieTemp readings x ≥ 105 ∧ ¬ r.sys.pwr.hot.contains x then r.dieHot x else r)
        (p.advance 50000)) := if_neg h

theorem Part.thermalRecover_hot {d : Nat} (h : p.sys.pwr.hot.contains d = true) :
    p.thermalRecover d = (p.advance 1000000).modPwr (fun x => { x with hot := x.hot.erase d }) := if_neg (not_not_intro h)

/-! ### Idle cores (R494, R495) -/

variable {k : Nat}

theorem Part.coreIdleOff_other (h : p.coreMode k ≠ 1) : p.coreIdleOff k = p := if_pos (.inr (.inl h))

theorem Part.coreIdleOff_idle (hk : k < nCores) (hm : p.coreMode k = 1) (ho : p.coreOff k = false) (he : p.sys.pwr.entering.find? k = none)
    (h0 : (p.thread (2 * k)).run = .waiting) (h1 : (p.thread (2 * k + 1)).run = .waiting) :
    p.coreIdleOff k = (p.used.advance (p.freshNat % (p.coreIdle k * 1000 + 1))).coreAim k (.off .idle) := by
  refine if_neg ?_
  rintro (h | h | h | h | h | h)
  · exact absurd hk (Nat.not_lt.2 h)
  · exact h hm
  · exact Bool.eq_false_iff.1 ho h
  · rw [he] at h
    exact Bool.false_ne_true h
  · exact h h0
  · exact h h1

section
variable {o : OffSt} (h : p.sys.pwr.off.find? k = some o)
include h

theorem Part.coreWake_idle_wakes {q : Part} (hby : o.by_ = .idle) (hw : (p.wakes (2 * k) o.r0 || p.wakes (2 * k + 1) o.r1) = true)
    (hq : q = ((p.used.advance (p.freshNat % 40001)).modPwr (fun x => { x with off := x.off.del k })).release k (o.r0, o.r1))
    (hm : q.coreMode k ≠ 2) : p.coreWake k = q := by
  subst hq
  unfold Part.coreWake
  simp only [h, hby, hw, not_true_eq_false, if_false]
  exact if_neg hm

theorem Part.coreWake_idle_sleeps (hby : o.by_ = .idle) (hw : (p.wakes (2 * k) o.r0 || p.wakes (2 * k + 1) o.r1) = false) :
    p.coreWake k = p := by
  unfold Part.coreWake
  simp only [h, hby, hw, Bool.false_eq_true, not_false_eq_true, if_true]

theorem Part.coreWake_forced (hby : o.by_ = .forced) (hm : p.coreMode k = 2) : p.coreWake k = p := by
  unfold Part.coreWake
  simp only [h, hby, hm, ne_eq, not_true_eq_false, decide_false, Bool.false_eq_true, not_false_eq_true, if_true]

end
end

/-- Settles O45: each command is one call of an operation of the part, and each clause one of that operation's branches. -/
theorem supplyEvents : Obligations.SupplyEvents := by
  unfold Obligations.SupplyEvents
  constructor
  · intro s bak power avg steps readings d p pins
    refine ⟨fun h => ⟨fun hl => ?_, fun hl => ?_, exec_run rfl (Part.standbyLoss_off h)⟩,
      fun h => ⟨exec_run rfl (Part.standbyOn_backup h), exec_run rfl (Part.standbyLoss_on h), fun hm hb => exec_run rfl (Part.stbyToBak_main h hm hb),
        fun hm => exec_run rfl (Part.stbyBack_backup h hm),
        fun hr => exec_run rfl (Part.refclkLoss_seen h hr rfl)⟩,
      fun hr => exec_run rfl (Part.refclkReturn_none hr), fun hr => exec_run rfl (Part.refclkReturn_lost hr), exec_run rfl rfl,
      fun h hb hr => exec_run rfl (Part.vrhotAssert_first h hb hr), fun hb hh hr => ⟨fun hv hs hp => ?_, fun hv hs hp => ?_, fun hv => ?_⟩,
      fun hb => exec_run rfl (Part.thermalSample_runs hb), fun h => exec_run rfl (Part.thermalRecover_hot h)⟩
    · exact exec_run rfl ((Part.standbyOn_first h rfl).trans (if_pos hl))
    · exact exec_run rfl ((Part.standbyOn_first h rfl).trans (if_neg (Bool.eq_false_iff.1 hl)))
    · exact exec_run rfl ((Part.cappingIteration_runs hb hh hr rfl).trans ((if_neg (capping_steps hv hs)).trans (if_pos hp)))
    · exact exec_run rfl ((Part.cappingIteration_runs hb hh hr rfl).trans ((if_neg (capping_steps hv hs)).trans (if_neg (Nat.not_lt.2 hp))))
    · exact exec_run rfl ((Part.cappingIteration_runs hb hh hr rfl).trans (if_pos (.inl hv)))
  · intro s c o p k on
    exact ⟨fun hm ho he h0 h1 => exec_run rfl (Part.coreIdleOff_idle c.isLt hm ho he h0 h1), fun hm => exec_run rfl (Part.coreIdleOff_other hm),
      fun h => ⟨fun hby hw hm => exec_run rfl (Part.coreWake_idle_wakes h hby hw rfl hm),
        fun hby hw => exec_run rfl (Part.coreWake_idle_sleeps h hby hw), fun hby hm => exec_run rfl (Part.coreWake_forced h hby hm)⟩⟩

end Sys2Proof.Machine
end

section
/-!
PROOFS. RSTIN_N, the boot and its failures (O46).
-/
namespace Sys2Proof.Machine
open Sys2Proof
set_option Elab.async false

section
variable {p : Part}

/-! ### RSTIN_N (R340, R496, R497, R580) -/

section
variable (h : p.sys.pins.rstLow = false) (hs : p.sys.pins.stbyOk = true)
include h hs

theorem Part.rstinFall_short : p.rstinFall false = (p.modVarn (fun x => { x with rstHigh := false })).easelLog 12 0 0 0 :=
  (if_neg (Bool.eq_false_iff.1 h)).trans ((if_neg (not_not_intro hs)).trans (if_pos Bool.false_ne_true))

theorem Part.rstinFall_long :
    p.rstinFall true =
      (((p.modVarn (fun x => { x with rstHigh := false })).advance 1000000).modPins (fun x => { x with rstLow := true, thermtrip := false })).coldReset :=
  (if_neg (Bool.eq_false_iff.1 h)).trans ((if_neg (not_not_intro hs)).trans (if_neg (not_not_intro rfl)))

end

section
variable (h : p.sys.pins.rstLow = true)
include h

theorem Part.rstinFall_low (long : Bool) : p.rstinFall long = p := if_pos h

theorem Part.rstinRise_starts (master : Bool) (hc : p.sys.pins.coldWaits = false) (hs : p.sys.pins.stbyOk = true) :
    p.rstinRise master = (p.modPins (fun x => { x with rstLow := false, master := master })).rstRise := by
  refine (if_neg (not_not_intro h)).trans (if_neg ?_)
  rintro (h' | h')
  · exact Bool.eq_false_iff.1 hc h'
  · exact h' hs

theorem Part.rstinRise_unpowered (master : Bool) (hs : p.sys.pins.stbyOk = false) :
    p.rstinRise master = p.modPins (fun x => { x with rstLow := false, master := master }) :=
  (if_neg (not_not_intro h)).trans (if_pos (.inr (Bool.eq_false_iff.1 hs)))

end

theorem Part.bootHoldRelease_held (h : p.sys.boot = .held) (hp : p.sys.pins.pwrfailLow = false) :
    p.bootHoldRelease = (p.advance 10000000).bootStart false := by
  refine if_neg ?_
  rintro (h' | h')
  · exact h' h
  · exact Bool.eq_false_iff.1 hp h'

theorem Part.bootHoldRelease_failing (hp : p.sys.pins.pwrfailLow = true) : p.bootHoldRelease = p := if_pos (.inr hp)

/-! ### Images (R497, R498) -/

section
variable (hb : p.sys.boot = .started) (he : p.enumOver = true) (hl : p.lcs ≠ 4)
include hb he hl

/-- A boot whose enumeration is over and that is not RETIRED reads images. -/
theorem boot_reads_images : ¬ (p.sys.boot ≠ .started ∨ ¬ p.enumOver ∨ p.lcs = 4) := by
  rintro (h | h | h)
  · exact h hb
  · exact h he
  · exact hl h

theorem Part.bootImageChecked_primary {i : Image} (backup : FlashRead) (h : p.readCode (.image i) = 0) :
    p.bootImageChecked (.image i) backup = p.imageTaken i false 0 false := by
  refine (if_neg (boot_reads_images hb he hl)).trans ?_
  rw [h]
  rfl

/-- A primary image that fails has the backup read. -/
theorem Part.bootImageChecked_backup {primary : FlashRead} {j : Image} (h : p.readCode primary ≠ 0)
    (hj : (p.imageFails (p.readCode primary) false false).readCode (.image j) = 0) :
    p.bootImageChecked primary (.image j) =
      (p.imageFails (p.readCode primary) false false).imageTaken j true (p.readCode primary) false := by
  refine (if_neg (boot_reads_images hb he hl)).trans ?_
  dsimp only
  split
  · rename_i _ i h0
    exact absurd h0 h
  · rw [hj]
    rfl

theorem Part.bootImageChecked_recovery {primary backup : FlashRead} (h : p.readCode primary ≠ 0) {a : Part}
    (ha : a = p.imageFails (p.readCode primary) false false) (hj : a.readCode backup ≠ 0) :
    p.bootImageChecked primary backup =
      ((((a.imageFails (a.readCode backup) true false).modSys (fun x => { x with boot := .recovery })).setRg F.EAS_BOOT_FAILP (p.readCode primary)).setRg
        F.EAS_BOOT_RECOVERY 1) := by
  subst ha
  refine (if_neg (boot_reads_images hb he hl)).trans ?_
  dsimp only
  split
  · rename_i _ i h0
    exact absurd h0 h
  · split
    · rename_i _ j h0
      exact absurd h0 hj
    · rfl

end

section
variable {i : Image} (hb : p.sys.boot = .recovery)
include hb

theorem Part.recoveryImage_good (h : p.imageCode i = 0) :
    p.recoveryImage i = p.imageTaken i (p.rgOn F.EAS_BOOT_BACKUP) (p.rg F.EAS_BOOT_FAILP) true :=
  (if_neg (not_not_intro hb)).trans (if_pos h)

theorem Part.recoveryImage_bad (h : p.imageCode i ≠ 0) : p.recoveryImage i = p.imageFails (p.imageCode i) false true :=
  (if_neg (not_not_intro hb)).trans (if_neg h)

end

/-! ### The boot checks and the boot core (R320, R524) -/

/-- After the boot checks of a verified image: the Palette is filled, the sections apply, and a cold boot's channels train. -/
theorem Part.bootChecksDone_verified {cores slices : List Nat} {i : Image} (hb : p.sys.boot = .verified) {a b : Part}
    (ha : a = slices.foldl (fun (x : Part) (y : Nat) => x.bootFail true y) (cores.foldl (fun (x : Part) (y : Nat) => x.bootFail false y) p))
    (hi : a.sys.image = some i) (hf : a.populate.wantsFull i = false) (hab : b = a.populate.applySections i) :
    p.bootChecksDone cores slices =
      if i.sections.any (fun y => decide (y.kind = 5) && decide (y.target = 4)) then b.modSys (fun x => { x with boot := .stopped })
      else (if b.sys.warm then b else (List.range 16).foldl (fun (r : Part) (n : Nat) => r.trains n) b).modSys (fun x => { x with boot := .configured }) := by
  subst ha hab
  have h1 : ¬ (p.lcs = 4 ∧ p.sys.boot = .started ∧ p.enumOver) := fun h => by rw [hb] at h; cases h.2.1
  have h2 : ¬ (p.sys.boot = .recovery ∧ p.rg F.PAL_GEN_GEN = 0) := fun h => by rw [hb] at h; cases h.1
  refine (if_neg h1).trans ((if_neg h2).trans ((if_neg (not_not_intro hb)).trans ?_))
  dsimp only
  rw [hi]
  exact if_neg (Bool.eq_false_iff.1 hf)

theorem Part.bootCoreRelease_other (h : p.sys.boot ≠ .configured) : p.bootCoreRelease = p := by
  unfold Part.bootCoreRelease
  split
  · rename_i h' _
    exact absurd h' h
  · rfl

theorem Part.bootCoreRelease_configured {i : Image} {a b r : Part} (hb : p.sys.boot = .configured) (hi : p.sys.image = some i)
    (ha : a = (List.range 16).foldl (fun (r : Part) (c : Nat) => Part.refreshBoundary c r) p) (hab : b = if a.sys.warm then a else a.eccInit)
    (hd : b.destsOk i = true) (hc : b.copyFirmware (i.sections.filter (fun x => x.kind = 1)) = (r, true)) :
    p.bootCoreRelease = r.bootCoreStart i := by
  unfold Part.bootCoreRelease
  rw [hb, hi]
  dsimp only
  rw [← ha, ← hab, hc]
  exact if_neg (not_not_intro hd)

end

/-- Settles O46: each command is one call of an operation of the part, and each clause one of that operation's branches. -/
theorem resetAndBoot : Obligations.ResetAndBoot := by
  unfold Obligations.ResetAndBoot
  constructor
  · intro s master p q
    exact ⟨fun h hs => ⟨exec_run rfl (Part.rstinFall_short h hs), exec_run rfl (Part.rstinFall_long h hs)⟩,
      fun h => ⟨exec_run rfl (Part.rstinFall_low h true), fun hc hs => exec_run rfl (Part.rstinRise_starts h master hc hs),
        fun hs => exec_run rfl (Part.rstinRise_unpowered h master hs)⟩,
      fun h hp => exec_run rfl (Part.bootHoldRelease_held h hp), fun hp => exec_run rfl (Part.bootHoldRelease_failing hp)⟩
  · intro s primary backup i j cores slices p fails
    refine ⟨fun hb he hl => ⟨fun h => exec_run rfl (Part.bootImageChecked_primary hb he hl backup h),
        fun h hj => exec_run rfl (Part.bootImageChecked_backup hb he hl h hj),
        fun h hj => exec_run rfl (Part.bootImageChecked_recovery hb he hl h rfl hj)⟩,
      fun hb => ⟨fun h => exec_run rfl (Part.recoveryImage_good hb h), fun h => exec_run rfl (Part.recoveryImage_bad hb h)⟩,
      fun hb hi hf => exec_run rfl (Part.bootChecksDone_verified hb rfl hi hf rfl), fun r n => rfl, fun hb hi => ?released,
      fun hb => exec_run rfl (Part.bootCoreRelease_other hb)⟩
    case released =>
      intro a b r hd hc
      exact exec_run rfl (Part.bootCoreRelease_configured hb hi rfl rfl hd hc)

end Sys2Proof.Machine
end

section
/-!
PROOFS. Error windows and escalation actions (O47).
-/
namespace Sys2Proof.Machine
open Sys2Proof
set_option Elab.async false

section
variable {p : Part} {t : Nat}

theorem Part.windowExpiry_open {src e : Nat} (h : (p.rasOf t).win.find? src = some e) :
    p.windowExpiry t src =
      (({ p with time := max p.time e } : Part).modRas t (fun r => { r with win := r.win.del src })).setRg F.RAS_WCNT_COUNT 0 t src := by
  unfold Part.windowExpiry
  rw [h]

theorem Part.windowExpiry_none {src : Nat} (h : (p.rasOf t).win.find? src = none) : p.windowExpiry t src = p := by
  unfold Part.windowExpiry
  rw [h]

/-- The action that a tile takes next: the first whose unit is free. -/
def Part.nextAct (p : Part) (t : Nat) : Option WaitAct := (p.rasOf t).acts.find? (fun a => !p.actBusy a)

theorem Part.escalationStart_none (h : p.nextAct t = none) : p.escalationStart t = p := by
  unfold Part.nextAct at h
  unfold Part.escalationStart
  rw [h]

/-- A core loses a third way when it has lost two others. -/
theorem Part.thirdWay_iff {c w : Nat} :
    p.thirdWay c w = true ↔ 2 ≤ (p.coreOf c).l2ret.length ∧ (p.coreOf c).l2ret.contains w = false := by
  unfold Part.thirdWay
  simp

section
variable {a : WaitAct} {q : Part} (h : p.nextAct t = some a) (hq : q = p.modRas t (fun r => { r with acts := r.acts.erase a }))
include h hq

theorem Part.escalationStart_way (ha : a.act = 1) (hs : q.coreInSvc a.unit = true)
    (hw : (q.coreOf a.unit).l2ret.length < 2 ∨ (q.coreOf a.unit).l2ret.contains a.detail = true) :
    p.escalationStart t = (q.retireL2Way a.unit a.detail).actEnd t a.src a.unit true := by
  subst hq
  have ht : ¬ (p.modRas t fun r => { r with acts := r.acts.erase a }).thirdWay a.unit a.detail = true := by
    rw [Part.thirdWay_iff]
    rintro ⟨h2, hc⟩
    rcases hw with hw | hw
    · exact absurd hw (Nat.not_lt.2 h2)
    · rw [hw] at hc
      cases hc
  unfold Part.nextAct at h
  unfold Part.escalationStart
  simp only [h, ha, hs, ht, true_or, if_true, Bool.not_true, Bool.false_eq_true, if_false]

theorem Part.escalationStart_third_way (ha : a.act = 1) (hs : q.coreInSvc a.unit = true) (h2 : 2 ≤ (q.coreOf a.unit).l2ret.length)
    (hc : (q.coreOf a.unit).l2ret.contains a.detail = false) :
    p.escalationStart t = (q.actEnd t a.src a.unit false).spareStart a.unit t 0xFF := by
  subst hq
  have ht := Part.thirdWay_iff.2 ⟨h2, hc⟩
  unfold Part.nextAct at h
  unfold Part.escalationStart
  simp only [h, ha, hs, ht, true_or, if_true, Bool.not_true, Bool.false_eq_true, if_false]

theorem Part.escalationStart_slice_way (ha : a.act = 2) (hs : q.sliceInSvc a.unit = true) :
    p.escalationStart t = (q.retireSliceWay a.unit a.detail).actEnd t a.src a.unit (!decide (q.retiredWays a.unit ≥ 4)) := by
  subst hq
  unfold Part.nextAct at h
  unfold Part.escalationStart
  simp only [h, ha, hs, Nat.reduceEqDiff, or_self, true_or, if_true, Bool.not_true, Bool.false_eq_true, if_false]

theorem Part.escalationStart_core (ha : a.act = 3) (hs : q.coreInSvc a.unit = true) :
    p.escalationStart t = q.spareStart a.unit t a.src := by
  subst hq
  unfold Part.nextAct at h
  unfold Part.escalationStart
  simp only [h, ha, hs, Nat.reduceEqDiff, or_true, if_true, Bool.not_true, Bool.false_eq_true, if_false]

theorem Part.escalationStart_slice (ha : a.act = 4) (hs : q.sliceInSvc a.unit = true) :
    p.escalationStart t = (q.sliceOut a.unit).actEnd t a.src a.unit true := by
  subst hq
  unfold Part.nextAct at h
  unfold Part.escalationStart
  simp only [h, ha, hs, Nat.reduceEqDiff, or_self, or_true, if_true, Bool.not_true, Bool.false_eq_true, if_false]

theorem Part.escalationStart_link (ha : a.act = 5) :
    p.escalationStart t = (q.downshift a.unit a.detail).1.actEnd t a.src a.unit (q.downshift a.unit a.detail).2 := by
  subst hq
  unfold Part.nextAct at h
  unfold Part.escalationStart
  simp only [h, ha, Nat.reduceEqDiff, or_self, Bool.false_eq_true, if_false]

end
end

/-- Settles O47: a window and an action each end in one call of an operation of the part. -/
theorem errorWindows : Obligations.ErrorWindows := by
  unfold Obligations.ErrorWindows
  intro s tile src e a p t
  exact ⟨fun h => exec_run rfl (Part.windowExpiry_open h), fun h => exec_run rfl (Part.windowExpiry_none h),
    fun h => ⟨fun ha hs hw => exec_run rfl (Part.escalationStart_way h rfl ha hs hw),
      fun ha hs h2 hc => exec_run rfl (Part.escalationStart_third_way h rfl ha hs h2 hc),
      fun ha hs => exec_run rfl (Part.escalationStart_slice_way h rfl ha hs), fun ha hs => exec_run rfl (Part.escalationStart_core h rfl ha hs),
      fun ha hs => exec_run rfl (Part.escalationStart_slice h rfl ha hs), fun ha => exec_run rfl (Part.escalationStart_link h rfl ha)⟩,
    fun h => exec_run rfl (Part.escalationStart_none h)⟩

end Sys2Proof.Machine
end

section
/-!
PROOFS. Field tests, audits, voted registers and the counter collector (O48).
-/
namespace Sys2Proof.Machine
open Sys2Proof
set_option Elab.async false

/-! ### Field tests (R526 to R528) -/

section
variable {p : Part}

theorem Part.fieldTestStart_held (h : p.rgOn F.PRM_FCFG_HOLD = true) : p.fieldTestStart = p := if_pos (.inr (.inr (.inl h)))

/-- The time between two tests of a round, at the time of the next one. -/
def Part.testGap (p a : Part) : Nat := max 1 (a.rg F.PRM_FCFG_PERIOD) * 3600000000000 / p.roundUnits.length

/-- The round after its period: begun again once every unit has had its turn. -/
def Part.roundNext (p a : Part) : Part :=
  a.modPrm (fun x => { x with nextTest := a.time + p.testGap a, round := if p.roundUnits.all (fun u => x.round.contains u) then [] else x.round })

/-- A core that this round does not visit now. -/
def Part.roundSkips (b : Part) (u : Nat) : Bool := decide (u < 1000) && b.coreSkipped u

/-- The units that have not had their turn. -/
def Part.roundLeft (p b : Part) : List Nat := p.roundUnits.filter (fun u => !b.sys.prm.round.contains u)

theorem Part.fieldTestStart_next {a b d e : Part} {u : Nat} {rest : List Nat} (hb : p.sys.boot = .released) (hl : p.lcs ≠ 4)
    (hh : p.rgOn F.PRM_FCFG_HOLD = false) (hc : p.rgOn F.PRM_CMDSTAT_BUSY = false) (hu : p.roundUnits ≠ []) (hra : a = { p with time := max p.time p.sys.prm.nextTest })
    (hrb : b = p.roundNext a)
    (hd : d = b.modPrm (fun x => { x with round := x.round ++ (p.roundLeft b).takeWhile b.roundSkips }))
    (hdrop : (p.roundLeft b).dropWhile b.roundSkips = u :: rest) (he : e = d.modPrm (fun x => { x with round := x.round ++ [u] })) :
    p.fieldTestStart = if u < 1000 then e.testStart false u false else e.testStart true (u - 1000) false := by
  subst hra hrb hd he
  refine (if_neg ?_).trans ?_
  · rintro (h | h | h | h | h)
    · exact h hb
    · exact hl h
    · exact Bool.eq_false_iff.1 hh h
    · exact Bool.eq_false_iff.1 hc h
    · exact hu (List.isEmpty_iff.1 h)
  · unfold Part.roundNext Part.testGap Part.roundLeft Part.roundSkips at *
    dsimp only at hdrop ⊢
    rw [hdrop]

theorem Part.coreTestDone_none (c : Nat) (res : TestRes) (h : p.sys.prm.test = none) : p.coreTestDone c res = p := by
  unfold Part.coreTestDone
  rw [h]

theorem Part.sliceTestDone_none (k : Nat) (bad : BitVec 16) (h : p.sys.prm.test = none) : p.sliceTestDone k bad = p := by
  unfold Part.sliceTestDone
  rw [h]

section
variable {t : UnitTest} {q : Part} (h : p.sys.prm.test = some t) (hf : t.full = false) (hq : q = p.used.advance (p.freshNat % 10000001))
include h hf hq

section
variable (hs : t.slice = false) (he : p.sys.pwr.entering.find? t.target = none)
include hs he

/-- The end of a core's test, by its result. -/
theorem Part.coreTestDone_pass : p.coreTestDone t.target .pass = (q.release t.target (t.r0, t.r1)).testEnd t false 0 := by
  subst hq
  unfold Part.coreTestDone
  simp only [h, hf, hs, he, ne_eq, not_true_eq_false, Option.isSome_none, Bool.false_eq_true, or_self, if_false]

theorem Part.coreTestDone_spared {r : Part} (hr : q.spareCore t.target t.r0 t.r1 = (r, true)) :
    p.coreTestDone t.target .fail = r.testEnd t true 5 := by
  subst hq
  unfold Part.coreTestDone
  simp only [h, hf, hs, he, hr, ne_eq, not_true_eq_false, Option.isSome_none, Bool.false_eq_true, or_self, if_false]

theorem Part.coreTestDone_refused {r : Part} (hr : q.spareCore t.target t.r0 t.r1 = (r, false)) :
    p.coreTestDone t.target .fail = (r.release t.target (t.r0, t.r1)).testEnd t true 7 := by
  subst hq
  unfold Part.coreTestDone
  simp only [h, hf, hs, he, hr, ne_eq, not_true_eq_false, Option.isSome_none, Bool.false_eq_true, or_self, if_false]

theorem Part.coreTestDone_way (w : Nat) (hl : (q.coreOf t.target).l2ret.length < 2) :
    p.coreTestDone t.target (.way w) =
      (((q.retireL2Way t.target (w % 8)).rasLog (tileOfCore t.target) 0xFF 5 0 0xFF 0 (.named [16, t.target, w % 8])).release t.target
        (t.r0, t.r1)).testEnd t true 5 := by
  subst hq
  have ht : ¬ (p.used.advance (p.freshNat % 10000001)).thirdWay t.target w = true :=
    fun h => absurd hl (Nat.not_lt.2 (Part.thirdWay_iff.1 h).1)
  unfold Part.coreTestDone
  simp only [h, hf, hs, he, ht, ne_eq, not_true_eq_false, Option.isSome_none, Bool.false_eq_true, or_self, if_false]

end

/-- A slice's test without a change of its way groups retires the ways that failed. -/
theorem Part.sliceTestDone_groups_kept {bad : BitVec 16} {b : Part} (hs : t.slice = true) (hoff : t.grpOff = 0) (hon : t.grpOn = 0)
    (hb : b = (List.range 16).foldl (fun (r : Part) (y : Nat) => if bad.getLsbD y then r.retireSliceWay t.target y else r)
      ((q.sweepLines t.target (fun _ => true) true).modPrm (fun x => { x with test := none }))) :
    p.sliceTestDone t.target bad = b.testEnd t (decide (bad ≠ 0)) (if bad = 0 then 0 else 5) := by
  subst hq hb
  unfold Part.sliceTestDone
  simp only [h, hf, hs, hoff, hon, ne_eq, not_true_eq_false, Bool.false_eq_true, or_self, if_false, Nat.zero_testBit]
  rw [List.foldl_fixed]

end

/-! ### Audits and voted registers (R535, R548) -/

theorem Part.auditQuiescent_busy (h : p.net ≠ []) : p.auditQuiescent = p := if_pos (.inr (fun h' => h (List.isEmpty_iff.1 h')))

theorem Part.auditQuiescent_right {tm : Nat} {q : Part} (h : p.sys.prm.audit = some tm) (hn : p.net = [])
    (hq : q = (p.fabUntil (fun _ => false) 4096).advance 10000) (hok : q.audit.filter (fun c => !c.ok) = []) :
    p.auditQuiescent = ((((q.setRg F.PRM_AUDIT_CHECKED q.audit.length).setRg F.PRM_AUDIT_MISMATCH 0).modPrm (fun y => { y with audit := none })).prmEnd
      0 tm) := by
  subst hq
  have hg : ¬ (p.sys.prm.audit = none ∨ ¬ p.net.isEmpty) := by simp [h, hn]
  refine (if_neg hg).trans ?_
  dsimp only
  rw [hok, h]
  rfl

theorem Part.auditTimeout_waiting {tm : Nat} (h : p.sys.prm.audit = some tm) :
    p.auditTimeout = (({ p with time := max p.time (tm + 10000000) } : Part).modPrm (fun y => { y with audit := none })).prmEnd 6 tm := by
  unfold Part.auditTimeout
  rw [h]

section
variable {tile page word copy : Nat} {diff : BitVec 32}

theorem Part.voteScrub_none (h : (votedAt ⟨tile, page⟩ word).any (fun f => diff.toNat / 2 ^ f.lo % 2 ^ f.width ≠ 0) = false) :
    p.voteScrub tile page word copy diff = p := if_pos (.inl (Bool.eq_false_iff.1 h))

theorem Part.voteScrub_differs (hc : copy < 3)
    (h : (votedAt ⟨tile, page⟩ word).any (fun f => diff.toNat / 2 ^ f.lo % 2 ^ f.width ≠ 0) = true) :
    p.voteScrub tile page word copy diff = (((p.incWrap F.PERF_VOTECNT_COUNT 1 tile).1.takes tile 0
      [(F.PERF_VOTELAST_VALID, 1), (F.PERF_VOTELAST_COPY, copy), (F.PERF_VOTELAST_PAGE, page), (F.PERF_VOTELAST_WORD, word),
       (F.PERF_VOTELAST_BIT, ((List.range 32).find? (fun i => diff.getLsbD i)).getD 0)]).rasLog tile 0xFF 1 1 0xFF 0 .unstated) := by
  refine if_neg ?_
  rintro (h' | h')
  · exact h' h
  · exact absurd hc (Nat.not_lt.2 h')

end

/-! ### Snapshots (R561) -/

theorem Part.snapshotDue_none (h : p.snapPeriod = none) : p.snapshotDue = p := by
  unfold Part.snapshotDue
  rw [h]

theorem Part.snapshotDue_period {n : Nat} (h : p.snapPeriod = some n) :
    p.snapshotDue = (({ p with time := max p.time p.sys.gperf.nextSnap } : Part).modGperf (fun y =>
      { y with nextSnap := max p.time p.sys.gperf.nextSnap + n })).snapDue := by
  unfold Part.snapshotDue
  rw [h]

theorem Part.snapshotDone_written {sn : Snap} {base : Nat} {q : Part} (h : p.sys.gperf.snap = some sn)
    (hb : base = p.addrOf F.PERF_SNAPB_LO_PA F.PERF_SNAPB_HI_PA + sn.seq % 2 ^ min 10 (p.rg F.PERF_SNAPB_LO_SIZE) * 0x8000)
    (hq : p.snapLines sn base (List.range 433) = (q, true)) :
    p.snapshotDone = (((q.modGperf (fun g => { g with snap := none })).setRg F.PERF_GSTAT_SNAPBUSY 0).setRg F.PERF_SNAPSEQ_SEQ sn.seq).signalReg tileD
      4 F.PERF_SNAPIRQ_EN F.PERF_SNAPIRQ_SOCKET F.PERF_SNAPIRQ_CORE F.PERF_SNAPIRQ_THREAD F.PERF_SNAPIRQ_VEC := by
  subst hb
  unfold Part.snapshotDone
  simp only [h, hq]

/-! ### Bandwidth windows (R562) -/

variable {b n w bytes : Nat} {written : Bool}

theorem Part.bwWindowEnd_off (h : p.rgOn F.PERF_BWSEL_EN 0 b = false) : p.bwWindowEnd b n = p := if_pos (.inr (Bool.eq_false_iff.1 h))

theorem Part.bwLen_pos (p : Part) (b : Nat) : 0 < p.bwLen b := by
  unfold Part.bwLen
  positivity

/-- A part at the end of the window `n` after the one that monitor `b` counted in. -/
def Part.bwMoved (p : Part) (b w n : Nat) : Part :=
  ({ p with time := (w + 1 + n) * p.bwLen b } : Part).modGperf (fun y => { y with bw := y.bw.put b (w + 1 + n, 0, false) })

/-- The results of the last of the windows that end. -/
def Part.bwLast (q : Part) (b last e : Nat) : Part :=
  q.takes 0 b [(F.PERF_BWBYTES_LO_BYTES, last), (F.PERF_BWBYTES_HI_BYTES, last / 2 ^ 32), (F.PERF_BWRATE_MBS, last / 2 ^ e)]

section
variable (hb : b < 16) (h : p.rgOn F.PERF_BWSEL_EN 0 b = true) (hw : p.sys.gperf.bw.find? b = some (w, bytes, written))
  (ht : p.time / p.bwLen b = w)
include hb h hw ht

/-- The windows that end, with what the first of them counted and how many count. -/
theorem Part.bwWindowEnd_ends {first k last : Nat} (hfirst : first = if written then 0 else bytes) (hk : k = n + 1 - (if written then 1 else 0))
    (hlast : last = if n = 0 then first else 0) :
    p.bwWindowEnd b n =
      if k = 0 then p.bwMoved b w n
      else
        ((if first / 2 ^ min 20 (p.rg F.PERF_BWSEL_WEXP 0 b) >
              ((p.bwMoved b w n).bwLast b last (min 20 (p.rg F.PERF_BWSEL_WEXP 0 b))).rg F.PERF_BWPEAK_MBS 0 b
          then ((p.bwMoved b w n).bwLast b last (min 20 (p.rg F.PERF_BWSEL_WEXP 0 b))).setRg F.PERF_BWPEAK_MBS
            (first / 2 ^ min 20 (p.rg F.PERF_BWSEL_WEXP 0 b)) 0 b
          else (p.bwMoved b w n).bwLast b last (min 20 (p.rg F.PERF_BWSEL_WEXP 0 b))).incWrap F.PERF_BWWIN_COUNT k 0 b).1 := by
  have hg : ¬ (b ≥ 16 ∨ ¬ p.rgOn F.PERF_BWSEL_EN 0 b = true) := by
    rintro (h' | h')
    · exact absurd hb (Nat.not_lt.2 h')
    · exact h' h
  have hend : (w + 1 + n) * p.bwLen b / p.bwLen b = w + 1 + n := Nat.mul_div_cancel _ (p.bwLen_pos b)
  have hk' : w + 1 + n - w - (if written then 1 else 0) = k := by rw [hk]; congr 1; omega
  have hl' : (if w + 1 + n = w + 1 then first else 0) = last := by
    rw [hlast]
    exact if_congr (by omega) rfl rfl
  refine (if_neg hg).trans ?_
  rw [ht]
  unfold Part.bwRoll
  have hlen : ({ p with time := (w + 1 + n) * p.bwLen b } : Part).bwLen b = p.bwLen b := rfl
  have hfind : ({ p with time := (w + 1 + n) * p.bwLen b } : Part).sys.gperf.bw.find? b = some (w, bytes, written) := hw
  rw [hfind]
  dsimp only
  rw [hlen, hend, if_neg (by rintro (h' | h'); exacts [h' h, by omega]), hk', ← hfirst, hl']
  rfl

end
end

/-- Settles O48: each command is one call of an operation of the part, and each clause one of that operation's branches. -/
theorem fieldTestsAndAudits : Obligations.FieldTestsAndAudits := by
  unfold Obligations.FieldTestsAndAudits
  constructor
  · intro s c k bad t w p units
    refine ⟨fun hb hl hh hc hu => ?next, fun h => exec_run rfl (Part.fieldTestStart_held h), fun h hf => ⟨fun hs htc he => ?_, fun hs htk hoff hon => ?_⟩,
      fun h => ⟨exec_run rfl (Part.coreTestDone_none _ _ h), exec_run rfl (Part.sliceTestDone_none _ _ h)⟩⟩
    case next =>
      intro a gap b left skip d u rest hdrop e
      exact exec_run rfl (Part.fieldTestStart_next hb hl hh hc hu rfl rfl rfl hdrop rfl)
    · rw [← htc] at he ⊢
      have hd (res : TestRes) : exec (.coreTestDone c res) s = s.run (Part.coreTestDone t.target res) := by rw [htc]; rfl
      exact ⟨exec_run (hd _) (Part.coreTestDone_pass h hf rfl hs he), fun r hr => exec_run (hd _) (Part.coreTestDone_spared h hf rfl hs he hr),
        fun r hr => exec_run (hd _) (Part.coreTestDone_refused h hf rfl hs he hr),
        fun hl => exec_run (hd _) (Part.coreTestDone_way h hf rfl hs he w hl)⟩
    · rw [← htk]
      have hd : exec (.sliceTestDone k bad) s = s.run (Part.sliceTestDone t.target bad) := by rw [htk]; rfl
      exact exec_run hd (Part.sliceTestDone_groups_kept h hf rfl hs hoff hon rfl)
  · intro s tile page word copy diff b n bytes w tm sn p
    refine ⟨fun h hn hok => exec_run rfl (Part.auditQuiescent_right h hn rfl hok), fun _ hn => exec_run rfl (Part.auditQuiescent_busy hn),
      fun h => exec_run rfl (Part.auditTimeout_waiting h), fun h => exec_run rfl (Part.voteScrub_differs copy.isLt h),
      fun h => exec_run rfl (Part.voteScrub_none h), fun h => exec_run rfl (Part.snapshotDue_period h),
      fun h => exec_run rfl (Part.snapshotDue_none h), fun h => fun q hq => exec_run rfl (Part.snapshotDone_written h rfl hq),
      fun written h hw ht => ⟨?_, fun hwn => ?_⟩, fun h => exec_run rfl (Part.bwWindowEnd_off h)⟩
    · rintro rfl rfl
      exact exec_run rfl ((Part.bwWindowEnd_ends b.isLt h hw ht rfl rfl rfl).trans (if_pos rfl))
    · have hk : n + 1 - (if written then 1 else 0) = if written then n else n + 1 := by cases written <;> simp
      have hk0 : ¬ (if written then n else n + 1) = 0 := by
        rcases hwn with rfl | hn
        · simp
        · split <;> omega
      exact exec_run rfl ((Part.bwWindowEnd_ends b.isLt h hw ht rfl hk.symm rfl).trans (if_neg hk0))

end Sys2Proof.Machine
end
